-- ==== Sys2Proof/Word.lean ====
section
/-! DEFINITION. The word types of the Prawen and the plainest names for them (R6, R22, R51). -/

namespace Sys2Proof

/-- One byte of memory. -/
abbrev Byte := BitVec 8

/-- A 32-bit register of one lane, or one instruction word (R51, R75). -/
abbrev Word := BitVec 32

/-- A register pair, a generic address or a control register (R61, R148, R399). -/
abbrev DWord := BitVec 64

/-- One bit per lane, lane 0 in bit 0 (R22). -/
abbrev Mask := BitVec 64

/-- A seven-bit register field (R58). -/
abbrev Reg := BitVec 7

end Sys2Proof
end

