-- ==== Sys2Proof/Syntax.lean ====
section
/-! DEFINITION. The steps of the Prawen as syntax: one constructor of Instr for each row of the table of
operations and events. Rows that are words carry their operand fields; rows that are events carry what comes
from outside the machine (a message, a value). WHICH wave, block, launch, core or job an event concerns is its
subject, plain data that State holds beside it (Machine/State.lean). Rows with fields stand first, each group in
the order of the table. -/

namespace Sys2Proof

/-- The guard field g (R54); the reserved value 100 is no guard. -/
inductive Guard where
  | always | p1 | p2 | p3 | np1 | np2 | np3
  deriving DecidableEq, Repr

/-- The scope field fn[2:0] (R65). -/
inductive Scope where
  | wave | block | cell | die | device | system
  deriving DecidableEq, Repr

/-- The rounding field fn[2:0] (R66); `mode` takes the mode of `%fpmode`. -/
inductive Rnd where
  | mode | rne | rtz | rup | rdn | sr
  deriving DecidableEq, Repr

/-- The special registers (R86, R381), by name. -/
inductive SReg where
  | wave | block | clus | mbr | core | eq | cycleLo | cycleHi | wtime | wtcmp | dix | qtm | gen | fpflags
  | fpmode | seedLo | seedHi | wb | mxgov | tkt | lrmap | tepcLo | tepcHi | tcause | tstat
  | tscr0 | tscr1 | tscr2 | tscr3
  deriving DecidableEq, Repr

/-- The conversions of `cvt` (R128), destination first. -/
inductive CvtKind where
  | f32i32 | i32f32 | f32n32 | n32f32 | bf16f32 | f16f32 | e4m3f32 | e5m2f32
  | f32bf16 | f32f16 | f32e4m3 | f32e5m2 | i8i32 | i16i32
  deriving DecidableEq, Repr

/-- The element formats of `pack` (R131). -/
inductive PackKind where
  | bf16 | f16 | e4m3 | e5m2 | i8
  deriving DecidableEq, Repr

/-- The element formats of `unpack` (R132). -/
inductive UnpackKind where
  | bf16 | f16 | e4m3 | e5m2 | i8 | b4
  deriving DecidableEq, Repr

/-- The code types of the 4-bit block family (R98). -/
inductive B4Type where
  | int | e2m1 | pow2 | hyb
  deriving DecidableEq, Repr

/-- The integer atomic operations (R211). -/
inductive AtomOp where
  | add | and | or | xor | min | max | minu | maxu | xchg
  deriving DecidableEq, Repr

/-- The FP32 atomic operations (R212). -/
inductive AtomFOp where
  | add | min | max
  deriving DecidableEq, Repr

/-- The comparisons of `poll` (R144). -/
inductive PollCond where
  | eq | ne | ge | gt | le | lt | geu | ltu
  deriving DecidableEq, Repr

/-- The element types of `mma` (R352). -/
inductive MmaType where
  | bf16 | fp16 | e4m3 | e5m2 | i8 | b4 | rns
  deriving DecidableEq, Repr

/-- The wire type of a reducing collective (R64, R308). -/
inductive WireType where
  | f32 | bf16
  deriving DecidableEq, Repr

/-- The operation of a reducing collective (R64, R308). -/
inductive CollOp where
  | add | max | min
  deriving DecidableEq, Repr

/-- The kinds of collective (R64, R230). -/
inductive CollKind where
  | ar (w : WireType) (o : CollOp)
  | rs (w : WireType) (o : CollOp)
  | ag | bc | a2a
  deriving DecidableEq, Repr

/-- What a lane test found for one section (R401 step 2, R397): section number 4·core + section, failed lanes. -/
structure LaneTest where
  sect : Nat
  fail1 : BitVec 7
  fail2 : BitVec 7
  deriving DecidableEq, Repr

/-- An input write message (R301). `clean`: every reserved byte is 0. -/
structure InputMsg where
  src : BitVec 16
  tag : Word
  p : Byte
  clean : Bool
  len : Word
  target : DWord
  data : List Byte
  deriving DecidableEq, Repr

/-- A snapshot request message (R302). -/
structure SnapMsg where
  src : BitVec 16
  tag : Word
  p : Byte
  clean : Bool
  len : Word
  start : DWord
  deriving DecidableEq, Repr

/-- A subscribe message (R303): `on` for operation 1. -/
structure SubMsg where
  src : BitVec 16
  tag : Word
  p : Byte
  on : Bool
  deriving DecidableEq, Repr

/-- The operation of a remote atomic request (R305): major, fn[6:3] and the operand bytes. -/
structure RemoteOp where
  major : Byte
  fn : BitVec 4
  operands : List Byte
  deriving DecidableEq, Repr

/-- A domain-barrier message (R310). -/
structure BarMsg where
  group : Byte
  status : Byte
  tag : Word
  gen : Word
  crc : Word
  deriving DecidableEq, Repr

/-- A collective-data segment (R306): the sender's rank is found from `src`. -/
structure CollMsg where
  src : BitVec 16
  group : Byte
  kind : Byte
  fn : Byte
  tag : Word
  seq : Word
  offset : Word
  elems : List Byte
  deriving DecidableEq, Repr

/-- Where a soft error strikes (R154, R395, R392, R345); `single`: a single-bit error, else uncorrectable. -/
inductive SoftError where
  | line (line : Nat) (single : Bool)
  | dieWord (word : Nat) (single : Bool)
  | scratchWord (block word : Nat) (single : Bool)
  | regWord (wave reg lane : Nat) (single : Bool)
  | accByte (block byte : Nat) (val : Byte)
  | tenureWord (core handle word : Nat) (val : Word)
  | issue (wave : Nat)
  deriving DecidableEq, Repr

/-- One step of the Prawen: a word (or a literal pair) that a wave issues, or an event. -/
inductive Instr where
  /-- `POWER_ON` (R401). -/
  | powerOn (sigOk : Bool) (lanes : List LaneTest) (dead : List Nat)
  /-- `THERMAL_LIMIT` (R403). -/
  | thermalLimit (inlet : BitVec 16)
  /-- `THERMAL_CLEAR` (R403). -/
  | thermalClear (inlet : BitVec 16)
  /-- `POWER_CAP_ENFORCE` (R403). -/
  | powerCapEnforce (fwgov : BitVec 16) (watts : BitVec 16)
  /-- `REGISTER_WRITE` (R8). -/
  | registerWrite (off : BitVec 25) (val : BitVec 64)
  /-- `LAUNCH_QUEUE_ENABLE` (R292). -/
  | launchQueueEnable (val : BitVec 64)
  /-- `TRAP_RING_ENABLE` (R374). -/
  | trapRingEnable (val : BitVec 64)
  /-- `FORMAT_WINDOW_ENABLE` (R112). -/
  | formatWindowEnable (n : Fin 16) (val : BitVec 64)
  /-- `FORMAT_WINDOW_DISABLE` (R115). -/
  | formatWindowDisable (n : Fin 16) (val : BitVec 64)
  /-- `XLT_INVALIDATE_PAGE` (R160). -/
  | xltInvalidatePage (asid : BitVec 12)
  /-- `XLT_INVALIDATE_ASID` (R160). -/
  | xltInvalidateAsid (asid : BitVec 12)
  /-- `RNSFAIL_WRITE` (R347). -/
  | rnsfailWrite (core : Nat) (bits : BitVec 8)
  /-- `RESTORE_BLOCK` (R385). -/
  | restoreBlock (core : BitVec 8)
  /-- `RESTORE_LAUNCH` (R391). -/
  | restoreLaunch (core : BitVec 8)
  /-- `NOTIFY` (R293). -/
  | notify (src : BitVec 16) (tail : BitVec 32)
  /-- `INPUT_WRITE` (R301). -/
  | inputWrite (msg : InputMsg)
  /-- `SNAPSHOT_REQUEST` (R302). -/
  | snapshotRequest (msg : SnapMsg)
  /-- `SUBSCRIBE` (R303). -/
  | subscribe (msg : SubMsg)
  /-- `REMOTE_READ` (R305). -/
  | remoteRead (src : BitVec 16) (tag : BitVec 32) (addr : BitVec 64) (len : BitVec 32)
  /-- `REMOTE_WRITE` (R305). -/
  | remoteWrite (src : BitVec 16) (tag : BitVec 32) (addr : BitVec 64) (data : List Byte)
  /-- `REMOTE_ATOMIC` (R305). -/
  | remoteAtomic (src : BitVec 16) (tag : BitVec 32) (addr : BitVec 64) (op : RemoteOp)
  /-- `READ_RESPONSE` (R305). -/
  | readResponse (tag : BitVec 32) (status : BitVec 8) (data : List Byte)
  /-- `WRITE_RESPONSE` (R305). -/
  | writeResponse (tag : BitVec 32) (status : BitVec 8)
  /-- `ATOMIC_RESPONSE` (R305). -/
  | atomicResponse (tag : BitVec 32) (status : BitVec 8) (old : List Byte)
  /-- `COLLECTIVE_DATA` (R306). -/
  | collectiveData (msg : CollMsg)
  /-- `BARRIER_ARRIVE` (R310). -/
  | barrierArrive (src : BitVec 16) (msg : BarMsg)
  /-- `BARRIER_RELEASE` (R310). -/
  | barrierRelease (msg : BarMsg)
  /-- `UNDEFINED_WORD` (R62). -/
  | undefinedWord (pfx : Option (BitVec 25)) (w : BitVec 32)
  /-- `EXIT` (R245). -/
  | exit (g : Guard)
  /-- `NOP` (R246). -/
  | nop (g : Guard)
  /-- `J` (R236). -/
  | j (off : BitVec 21) (g : Guard) (u : Bool)
  /-- `CALL` (R237). -/
  | call (off : BitVec 21) (g : Guard) (u : Bool)
  /-- `JOIN_SET` (R241). -/
  | joinSet (off : BitVec 21) (g : Guard)
  /-- `JOIN` (R242). -/
  | join (g : Guard)
  /-- `YIELD` (R243). -/
  | yield (g : Guard)
  /-- `JR` (R238). -/
  | jr (a : Reg) (g : Guard) (u : Bool)
  /-- `CALLR` (R238). -/
  | callr (a : Reg) (g : Guard) (u : Bool)
  /-- `RET` (R239). -/
  | ret (g : Guard)
  /-- `TRAP` (R247). -/
  | trap (imm : BitVec 14) (g : Guard)
  /-- `TRRET` (R382). -/
  | trret (g : Guard)
  /-- `LMAP_LD` (R398). -/
  | lmapLd (g : Guard)
  /-- `ADD` (R76). -/
  | add (d : Reg) (a : Reg) (b : Reg) (g : Guard) (u : Bool)
  /-- `SUB` (R76). -/
  | sub (d : Reg) (a : Reg) (b : Reg) (g : Guard) (u : Bool)
  /-- `ADDI` (R77). -/
  | addi (d : Reg) (a : Reg) (imm : BitVec 7) (g : Guard) (u : Bool)
  /-- `ADDI_PREFIXED` (R53). -/
  | addiP (d : Reg) (a : Reg) (imm : BitVec 32) (g : Guard) (u : Bool)
  /-- `MUL` (R76). -/
  | mul (d : Reg) (a : Reg) (b : Reg) (g : Guard) (u : Bool)
  /-- `MULH` (R76). -/
  | mulh (d : Reg) (a : Reg) (b : Reg) (g : Guard) (u : Bool)
  /-- `MULHU` (R76). -/
  | mulhu (d : Reg) (a : Reg) (b : Reg) (g : Guard) (u : Bool)
  /-- `AND` (R76). -/
  | and (d : Reg) (a : Reg) (b : Reg) (g : Guard) (u : Bool)
  /-- `ANDI` (R77). -/
  | andi (d : Reg) (a : Reg) (imm : BitVec 7) (g : Guard) (u : Bool)
  /-- `ANDI_PREFIXED` (R53). -/
  | andiP (d : Reg) (a : Reg) (imm : BitVec 32) (g : Guard) (u : Bool)
  /-- `OR` (R76). -/
  | or (d : Reg) (a : Reg) (b : Reg) (g : Guard) (u : Bool)
  /-- `ORI` (R77). -/
  | ori (d : Reg) (a : Reg) (imm : BitVec 7) (g : Guard) (u : Bool)
  /-- `ORI_PREFIXED` (R53). -/
  | oriP (d : Reg) (a : Reg) (imm : BitVec 32) (g : Guard) (u : Bool)
  /-- `XOR` (R76). -/
  | xor (d : Reg) (a : Reg) (b : Reg) (g : Guard) (u : Bool)
  /-- `XORI` (R77). -/
  | xori (d : Reg) (a : Reg) (imm : BitVec 7) (g : Guard) (u : Bool)
  /-- `XORI_PREFIXED` (R53). -/
  | xoriP (d : Reg) (a : Reg) (imm : BitVec 32) (g : Guard) (u : Bool)
  /-- `SHLI` (R77). -/
  | shli (d : Reg) (a : Reg) (sh : BitVec 5) (g : Guard) (u : Bool)
  /-- `SHRI` (R77). -/
  | shri (d : Reg) (a : Reg) (sh : BitVec 5) (g : Guard) (u : Bool)
  /-- `SRAI` (R77). -/
  | srai (d : Reg) (a : Reg) (sh : BitVec 5) (g : Guard) (u : Bool)
  /-- `SHL` (R76). -/
  | shl (d : Reg) (a : Reg) (b : Reg) (g : Guard) (u : Bool)
  /-- `SHR` (R76). -/
  | shr (d : Reg) (a : Reg) (b : Reg) (g : Guard) (u : Bool)
  /-- `SRA` (R76). -/
  | sra (d : Reg) (a : Reg) (b : Reg) (g : Guard) (u : Bool)
  /-- `SETEQ` (R76). -/
  | seteq (d : Reg) (a : Reg) (b : Reg) (g : Guard) (u : Bool)
  /-- `SETLT` (R76). -/
  | setlt (d : Reg) (a : Reg) (b : Reg) (g : Guard) (u : Bool)
  /-- `SETLTU` (R76). -/
  | setltu (d : Reg) (a : Reg) (b : Reg) (g : Guard) (u : Bool)
  /-- `SEL` (R76). -/
  | sel (d : Reg) (a : Reg) (b : Reg) (g : Guard) (u : Bool)
  /-- `MIN` (R78). -/
  | min (d : Reg) (a : Reg) (g : Guard) (u : Bool)
  /-- `MAX` (R78). -/
  | max (d : Reg) (a : Reg) (g : Guard) (u : Bool)
  /-- `MINU` (R78). -/
  | minu (d : Reg) (a : Reg) (g : Guard) (u : Bool)
  /-- `MAXU` (R78). -/
  | maxu (d : Reg) (a : Reg) (g : Guard) (u : Bool)
  /-- `ROL` (R78). -/
  | rol (d : Reg) (a : Reg) (g : Guard) (u : Bool)
  /-- `ROR` (R78). -/
  | ror (d : Reg) (a : Reg) (g : Guard) (u : Bool)
  /-- `ADD_D` (R80). -/
  | addD (d : Reg) (a : Reg) (g : Guard) (u : Bool)
  /-- `SUB_D` (R80). -/
  | subD (d : Reg) (a : Reg) (g : Guard) (u : Bool)
  /-- `ADDA` (R80). -/
  | adda (d : Reg) (a : Reg) (g : Guard) (u : Bool)
  /-- `BFX` (R79). -/
  | bfx (d : Reg) (a : Reg) (g : Guard) (u : Bool)
  /-- `BFI` (R79). -/
  | bfi (d : Reg) (a : Reg) (g : Guard) (u : Bool)
  /-- `POPC` (R81). -/
  | popc (d : Reg) (a : Reg) (g : Guard) (u : Bool)
  /-- `CLZ` (R81). -/
  | clz (d : Reg) (a : Reg) (g : Guard) (u : Bool)
  /-- `CTZ` (R81). -/
  | ctz (d : Reg) (a : Reg) (g : Guard) (u : Bool)
  /-- `BREV` (R81). -/
  | brev (d : Reg) (a : Reg) (g : Guard) (u : Bool)
  /-- `BSWAP` (R81). -/
  | bswap (d : Reg) (a : Reg) (g : Guard) (u : Bool)
  /-- `NEG` (R81). -/
  | neg (d : Reg) (a : Reg) (g : Guard) (u : Bool)
  /-- `NOT` (R81). -/
  | not (d : Reg) (a : Reg) (g : Guard) (u : Bool)
  /-- `ABS` (R81). -/
  | abs (d : Reg) (a : Reg) (g : Guard) (u : Bool)
  /-- `SEXT_B` (R81). -/
  | sextB (d : Reg) (a : Reg) (g : Guard) (u : Bool)
  /-- `SEXT_H` (R81). -/
  | sextH (d : Reg) (a : Reg) (g : Guard) (u : Bool)
  /-- `MOVI` (R82). -/
  | movi (d : Reg) (imm : BitVec 14) (g : Guard) (u : Bool)
  /-- `MOVI_PREFIXED` (R16). -/
  | moviP (d : Reg) (imm : BitVec 32) (g : Guard) (u : Bool)
  /-- `MOV` (R83). -/
  | mov (d : Reg) (a : Reg) (g : Guard) (u : Bool)
  /-- `MOV_D` (R83). -/
  | movD (d : Reg) (a : Reg) (g : Guard) (u : Bool)
  /-- `MASK_ANY` (R138). -/
  | maskAny (d : Reg) (a : Reg) (g : Guard)
  /-- `MASK_ALL` (R138). -/
  | maskAll (d : Reg) (a : Reg) (g : Guard)
  /-- `MASK_LO` (R138). -/
  | maskLo (d : Reg) (a : Reg) (g : Guard)
  /-- `MASK_HI` (R138). -/
  | maskHi (d : Reg) (a : Reg) (g : Guard)
  /-- `MASK_CNT` (R138). -/
  | maskCnt (d : Reg) (a : Reg) (g : Guard)
  /-- `MOV_S` (R85). -/
  | movS (d : Reg) (sr : SReg) (g : Guard) (u : Bool)
  /-- `MOV_S_W` (R85). -/
  | movSW (d : Reg) (sr : SReg) (g : Guard) (u : Bool)
  /-- `WBASE` (R84). -/
  | wbase (imm : BitVec 14) (g : Guard)
  /-- `QX_H` (R136). -/
  | qxH (d : Reg) (a : Reg) (g : Guard)
  /-- `QX_V` (R136). -/
  | qxV (d : Reg) (a : Reg) (g : Guard)
  /-- `QX_D` (R136). -/
  | qxD (d : Reg) (a : Reg) (g : Guard)
  /-- `QX_B0` (R136). -/
  | qxB0 (d : Reg) (a : Reg) (g : Guard)
  /-- `QX_B1` (R136). -/
  | qxB1 (d : Reg) (a : Reg) (g : Guard)
  /-- `QX_B2` (R136). -/
  | qxB2 (d : Reg) (a : Reg) (g : Guard)
  /-- `QX_B3` (R136). -/
  | qxB3 (d : Reg) (a : Reg) (g : Guard)
  /-- `SHFL_PICK` (R137). -/
  | shflPick (d : Reg) (a : Reg) (b : Reg) (g : Guard)
  /-- `SHFL_XOR` (R137). -/
  | shflXor (d : Reg) (a : Reg) (k : BitVec 6) (g : Guard)
  /-- `ADD_F32` (R119). -/
  | addF32 (d : Reg) (a : Reg) (b : Reg) (g : Guard) (u : Bool)
  /-- `SUB_F32` (R119). -/
  | subF32 (d : Reg) (a : Reg) (b : Reg) (g : Guard) (u : Bool)
  /-- `MUL_F32` (R119). -/
  | mulF32 (d : Reg) (a : Reg) (b : Reg) (g : Guard) (u : Bool)
  /-- `FMA_F32` (R119). -/
  | fmaF32 (d : Reg) (a : Reg) (b : Reg) (g : Guard) (u : Bool)
  /-- `MIN_F32` (R119). -/
  | minF32 (d : Reg) (a : Reg) (b : Reg) (g : Guard) (u : Bool)
  /-- `MAX_F32` (R119). -/
  | maxF32 (d : Reg) (a : Reg) (b : Reg) (g : Guard) (u : Bool)
  /-- `SETEQ_F32` (R120). -/
  | seteqF32 (d : Reg) (a : Reg) (b : Reg) (g : Guard) (u : Bool)
  /-- `SETLT_F32` (R120). -/
  | setltF32 (d : Reg) (a : Reg) (b : Reg) (g : Guard) (u : Bool)
  /-- `SETLE_F32` (R120). -/
  | setleF32 (d : Reg) (a : Reg) (b : Reg) (g : Guard) (u : Bool)
  /-- `SETUN_F32` (R120). -/
  | setunF32 (d : Reg) (a : Reg) (b : Reg) (g : Guard) (u : Bool)
  /-- `RCP_F32` (R122). -/
  | rcpF32 (d : Reg) (a : Reg) (g : Guard) (u : Bool)
  /-- `RSQRT_F32` (R122). -/
  | rsqrtF32 (d : Reg) (a : Reg) (g : Guard) (u : Bool)
  /-- `SQRT_F32` (R122). -/
  | sqrtF32 (d : Reg) (a : Reg) (g : Guard) (u : Bool)
  /-- `EXP2_F32` (R122). -/
  | exp2F32 (d : Reg) (a : Reg) (g : Guard) (u : Bool)
  /-- `LOG2_F32` (R122). -/
  | log2F32 (d : Reg) (a : Reg) (g : Guard) (u : Bool)
  /-- `SIN_F32` (R122). -/
  | sinF32 (d : Reg) (a : Reg) (g : Guard) (u : Bool)
  /-- `COS_F32` (R122). -/
  | cosF32 (d : Reg) (a : Reg) (g : Guard) (u : Bool)
  /-- `RINT_F32` (R124). -/
  | rintF32 (d : Reg) (a : Reg) (g : Guard) (u : Bool)
  /-- `FLOOR_F32` (R124). -/
  | floorF32 (d : Reg) (a : Reg) (g : Guard) (u : Bool)
  /-- `CEIL_F32` (R124). -/
  | ceilF32 (d : Reg) (a : Reg) (g : Guard) (u : Bool)
  /-- `TRUNC_F32` (R124). -/
  | truncF32 (d : Reg) (a : Reg) (g : Guard) (u : Bool)
  /-- `CLASS_F32` (R125). -/
  | classF32 (d : Reg) (a : Reg) (g : Guard) (u : Bool)
  /-- `FABS_F32` (R121). -/
  | fabsF32 (d : Reg) (a : Reg) (g : Guard) (u : Bool)
  /-- `FNEG_F32` (R121). -/
  | fnegF32 (d : Reg) (a : Reg) (g : Guard) (u : Bool)
  /-- `ADD_BF16X2` (R126). -/
  | addBf16x2 (d : Reg) (a : Reg) (b : Reg) (g : Guard) (u : Bool)
  /-- `MUL_BF16X2` (R126). -/
  | mulBf16x2 (d : Reg) (a : Reg) (b : Reg) (g : Guard) (u : Bool)
  /-- `FMA_BF16X2` (R126). -/
  | fmaBf16x2 (d : Reg) (a : Reg) (b : Reg) (g : Guard) (u : Bool)
  /-- `ADD_F16X2` (R126). -/
  | addF16x2 (d : Reg) (a : Reg) (b : Reg) (g : Guard) (u : Bool)
  /-- `MUL_F16X2` (R126). -/
  | mulF16x2 (d : Reg) (a : Reg) (b : Reg) (g : Guard) (u : Bool)
  /-- `FMA_F16X2` (R126). -/
  | fmaF16x2 (d : Reg) (a : Reg) (b : Reg) (g : Guard) (u : Bool)
  /-- `MIN_BF16X2` (R127). -/
  | minBf16x2 (d : Reg) (a : Reg) (g : Guard) (u : Bool)
  /-- `MAX_BF16X2` (R127). -/
  | maxBf16x2 (d : Reg) (a : Reg) (g : Guard) (u : Bool)
  /-- `MIN_F16X2` (R127). -/
  | minF16x2 (d : Reg) (a : Reg) (g : Guard) (u : Bool)
  /-- `MAX_F16X2` (R127). -/
  | maxF16x2 (d : Reg) (a : Reg) (g : Guard) (u : Bool)
  /-- `RED_ADD_F32` (R139). -/
  | redAddF32 (d : Reg) (a : Reg) (g : Guard)
  /-- `RED_MIN_F32` (R139). -/
  | redMinF32 (d : Reg) (a : Reg) (g : Guard)
  /-- `RED_MAX_F32` (R139). -/
  | redMaxF32 (d : Reg) (a : Reg) (g : Guard)
  /-- `RED_ADD` (R139). -/
  | redAdd (d : Reg) (a : Reg) (g : Guard)
  /-- `RED_MIN` (R139). -/
  | redMin (d : Reg) (a : Reg) (g : Guard)
  /-- `RED_MAX` (R139). -/
  | redMax (d : Reg) (a : Reg) (g : Guard)
  /-- `SCAN_ADD_F32` (R139). -/
  | scanAddF32 (d : Reg) (a : Reg) (g : Guard)
  /-- `SCAN_ADD` (R139). -/
  | scanAdd (d : Reg) (a : Reg) (g : Guard)
  /-- `CVT` (R128). -/
  | cvt (k : CvtKind) (r : Rnd) (d : Reg) (a : Reg) (g : Guard) (u : Bool)
  /-- `PACK` (R131). -/
  | pack (k : PackKind) (r : Rnd) (d : Reg) (a : Reg) (g : Guard) (u : Bool)
  /-- `UNPACK` (R132). -/
  | unpack (k : UnpackKind) (e : BitVec 3) (d : Reg) (a : Reg) (g : Guard) (u : Bool)
  /-- `PACK_B4` (R133). -/
  | packB4 (t : B4Type) (e : BitVec 3) (sr : Bool) (d : Reg) (a : Reg) (g : Guard) (u : Bool)
  /-- `LD_W` (R206). -/
  | ldW (d : Reg) (a : Reg) (imm : BitVec 7) (g : Guard) (u : Bool)
  /-- `LD_W_PREFIXED` (R53). -/
  | ldWP (d : Reg) (a : Reg) (imm : BitVec 32) (g : Guard) (u : Bool)
  /-- `LD_D` (R206). -/
  | ldD (d : Reg) (a : Reg) (imm : BitVec 7) (g : Guard) (u : Bool)
  /-- `LD_D_PREFIXED` (R53). -/
  | ldDP (d : Reg) (a : Reg) (imm : BitVec 32) (g : Guard) (u : Bool)
  /-- `LD_Q` (R206). -/
  | ldQ (d : Reg) (a : Reg) (imm : BitVec 7) (g : Guard) (u : Bool)
  /-- `LD_Q_PREFIXED` (R53). -/
  | ldQP (d : Reg) (a : Reg) (imm : BitVec 32) (g : Guard) (u : Bool)
  /-- `LD_H` (R206). -/
  | ldH (d : Reg) (a : Reg) (imm : BitVec 7) (g : Guard) (u : Bool)
  /-- `LD_H_PREFIXED` (R53). -/
  | ldHP (d : Reg) (a : Reg) (imm : BitVec 32) (g : Guard) (u : Bool)
  /-- `ST_W` (R206). -/
  | stW (d : Reg) (a : Reg) (imm : BitVec 7) (g : Guard) (u : Bool)
  /-- `ST_W_PREFIXED` (R53). -/
  | stWP (d : Reg) (a : Reg) (imm : BitVec 32) (g : Guard) (u : Bool)
  /-- `ST_D` (R206). -/
  | stD (d : Reg) (a : Reg) (imm : BitVec 7) (g : Guard) (u : Bool)
  /-- `ST_D_PREFIXED` (R53). -/
  | stDP (d : Reg) (a : Reg) (imm : BitVec 32) (g : Guard) (u : Bool)
  /-- `ST_Q` (R206). -/
  | stQ (d : Reg) (a : Reg) (imm : BitVec 7) (g : Guard) (u : Bool)
  /-- `ST_Q_PREFIXED` (R53). -/
  | stQP (d : Reg) (a : Reg) (imm : BitVec 32) (g : Guard) (u : Bool)
  /-- `ST_H` (R206). -/
  | stH (d : Reg) (a : Reg) (imm : BitVec 7) (g : Guard) (u : Bool)
  /-- `ST_H_PREFIXED` (R53). -/
  | stHP (d : Reg) (a : Reg) (imm : BitVec 32) (g : Guard) (u : Bool)
  /-- `LD_HU` (R206). -/
  | ldHu (d : Reg) (a : Reg) (imm : BitVec 7) (g : Guard) (u : Bool)
  /-- `LD_HU_PREFIXED` (R53). -/
  | ldHuP (d : Reg) (a : Reg) (imm : BitVec 32) (g : Guard) (u : Bool)
  /-- `LD_B` (R206). -/
  | ldB (d : Reg) (a : Reg) (imm : BitVec 7) (g : Guard) (u : Bool)
  /-- `LD_B_PREFIXED` (R53). -/
  | ldBP (d : Reg) (a : Reg) (imm : BitVec 32) (g : Guard) (u : Bool)
  /-- `LD_BU` (R206). -/
  | ldBu (d : Reg) (a : Reg) (imm : BitVec 7) (g : Guard) (u : Bool)
  /-- `LD_BU_PREFIXED` (R53). -/
  | ldBuP (d : Reg) (a : Reg) (imm : BitVec 32) (g : Guard) (u : Bool)
  /-- `ST_B` (R206). -/
  | stB (d : Reg) (a : Reg) (imm : BitVec 7) (g : Guard) (u : Bool)
  /-- `ST_B_PREFIXED` (R53). -/
  | stBP (d : Reg) (a : Reg) (imm : BitVec 32) (g : Guard) (u : Bool)
  /-- `PF_L1` (R208). -/
  | pfL1 (a : Reg) (imm : BitVec 7) (g : Guard) (u : Bool)
  /-- `PF_L1_PREFIXED` (R53). -/
  | pfL1P (a : Reg) (imm : BitVec 32) (g : Guard) (u : Bool)
  /-- `PF_L2` (R208). -/
  | pfL2 (a : Reg) (imm : BitVec 7) (g : Guard) (u : Bool)
  /-- `PF_L2_PREFIXED` (R53). -/
  | pfL2P (a : Reg) (imm : BitVec 32) (g : Guard) (u : Bool)
  /-- `CINV` (R209). -/
  | cinv (a : Reg) (g : Guard) (u : Bool)
  /-- `CINV_ALL` (R209). -/
  | cinvAll (g : Guard) (u : Bool)
  /-- `LD_ACQ_W` (R210). -/
  | ldAcqW (d : Reg) (a : Reg) (sc : Scope) (g : Guard) (u : Bool)
  /-- `LD_ACQ_D` (R210). -/
  | ldAcqD (d : Reg) (a : Reg) (sc : Scope) (g : Guard) (u : Bool)
  /-- `ST_REL_W` (R176). -/
  | stRelW (d : Reg) (a : Reg) (sc : Scope) (g : Guard) (u : Bool)
  /-- `ST_REL_D` (R176). -/
  | stRelD (d : Reg) (a : Reg) (sc : Scope) (g : Guard) (u : Bool)
  /-- `LD_SC_W` (R180). -/
  | ldScW (d : Reg) (a : Reg) (sc : Scope) (g : Guard) (u : Bool)
  /-- `LD_SC_D` (R180). -/
  | ldScD (d : Reg) (a : Reg) (sc : Scope) (g : Guard) (u : Bool)
  /-- `ST_SC_W` (R180). -/
  | stScW (d : Reg) (a : Reg) (sc : Scope) (g : Guard) (u : Bool)
  /-- `ST_SC_D` (R180). -/
  | stScD (d : Reg) (a : Reg) (sc : Scope) (g : Guard) (u : Bool)
  /-- `ATOM` (R211). -/
  | atom (o : AtomOp) (d : Reg) (a : Reg) (sc : Scope) (g : Guard) (u : Bool)
  /-- `ATOM_D` (R211). -/
  | atomD (o : AtomOp) (d : Reg) (a : Reg) (sc : Scope) (g : Guard) (u : Bool)
  /-- `ATOM_F32` (R212). -/
  | atomF32 (o : AtomFOp) (d : Reg) (a : Reg) (sc : Scope) (g : Guard) (u : Bool)
  /-- `CAS_W` (R213). -/
  | casW (d : Reg) (a : Reg) (sc : Scope) (g : Guard) (u : Bool)
  /-- `CAS_D` (R213). -/
  | casD (d : Reg) (a : Reg) (sc : Scope) (g : Guard) (u : Bool)
  /-- `FENCE` (R178). -/
  | fence (sc : Scope) (g : Guard)
  /-- `POLL` (R144). -/
  | poll (c : PollCond) (d : Reg) (a : Reg) (sc : Scope) (g : Guard) (u : Bool)
  /-- `BAR_B` (R217). -/
  | barB (g : Guard)
  /-- `BAR_C` (R217). -/
  | barC (g : Guard)
  /-- `BAR_DEV` (R217). -/
  | barDev (g : Guard)
  /-- `BAR_DOM` (R217). -/
  | barDom (g : Guard)
  /-- `TKT_TAKE` (R222). -/
  | tktTake (g : Guard)
  /-- `TKT_WAIT` (R221). -/
  | tktWait (d : Reg) (g : Guard)
  /-- `QCFG` (R225). -/
  | qcfg (a : Reg) (g : Guard)
  /-- `COPY_1D` (R226). -/
  | copy1d (a : Reg) (g : Guard)
  /-- `COPY_2D` (R226). -/
  | copy2d (a : Reg) (g : Guard)
  /-- `COPY_G` (R226). -/
  | copyG (a : Reg) (g : Guard)
  /-- `BATCH` (R227). -/
  | batch (d : Reg) (g : Guard)
  /-- `WAIT_B` (R228). -/
  | waitB (a : Reg) (g : Guard)
  /-- `WAIT_C` (R229). -/
  | waitC (l : BitVec 5) (st : BitVec 5) (t : BitVec 4) (g : Guard)
  /-- `COLL` (R230). -/
  | coll (k : CollKind) (a : Reg) (g : Guard)
  /-- `MMA` (R352). -/
  | mma (t : MmaType) (d : Reg) (a : Reg) (g : Guard)
  /-- `MMA_PAIR` (R355). -/
  | mmaPair (t : MmaType) (d : Reg) (a : Reg) (g : Guard)
  /-- `TLD` (R357). -/
  | tld (a : Reg) (g : Guard)
  /-- `TST` (R358). -/
  | tst (a : Reg) (g : Guard)
  /-- `ACC_ZERO` (R361). -/
  | accZero (a : Reg) (g : Guard)
  /-- `ACC_RD` (R362). -/
  | accRd (d : Reg) (a : Reg) (g : Guard)
  /-- `ACC_WR` (R363). -/
  | accWr (d : Reg) (a : Reg) (g : Guard)
  /-- `ACC_CHK_TILE` (R364). -/
  | accChkTile (a : Reg) (g : Guard)
  /-- `ACC_CHK_TEN` (R364). -/
  | accChkTen (a : Reg) (g : Guard)
  /-- `PIN` (R311). -/
  | pin (d : Reg) (a : Reg) (g : Guard)
  /-- `UNPIN` (R317). -/
  | unpin (d : Reg) (a : Reg) (g : Guard)
  /-- `FWUPD` (R313). -/
  | fwupd (d : Reg) (a : Reg) (g : Guard)
  /-- `FWRD` (R314). -/
  | fwrd (d : Reg) (a : Reg) (g : Guard)
  /-- `RNSF_I16` (R366). -/
  | rnsfI16 (d : Reg) (a : Reg) (g : Guard)
  /-- `RNSF_I32` (R366). -/
  | rnsfI32 (d : Reg) (a : Reg) (g : Guard)
  /-- `RNSR` (R367). -/
  | rnsr (d : Reg) (a : Reg) (g : Guard)
  /-- `RNS_CHK` (R368). -/
  | rnsChk (d : Reg) (a : Reg) (g : Guard)
  /-- `RSET` (R286). -/
  | rset (a : Reg) (g : Guard)
  /-- `RPOST` (R286). -/
  | rpost (a : Reg) (g : Guard)
  /-- `RGET` (R288). -/
  | rget (d : Reg) (a : Reg) (g : Guard)
  /-- `QEND` (R289). -/
  | qend (g : Guard)
  /-- `RAND` (R290). -/
  | rand (d : Reg) (g : Guard) (u : Bool)
  /-- `EQ_ID` (R291). -/
  | eqId (d : Reg) (g : Guard) (u : Bool)
  /-- `EQ_GEN` (R291). -/
  | eqGen (d : Reg) (g : Guard) (u : Bool)
  /-- `EQ_THETA` (R291). -/
  | eqTheta (d : Reg) (g : Guard) (u : Bool)
  /-- `SOFT_ERROR` (R154). -/
  | softError (where_ : SoftError)
  /-- `POWER_REMOVAL` (R13). -/
  | powerRemoval
  /-- `XLT_INVALIDATE_ALL` (R160). -/
  | xltInvalidateAll
  /-- `XLT_INVALIDATION_COMPLETE` (R160). -/
  | xltInvalidationComplete
  /-- `RNSFAIL_EFFECT` (R347); subject a: core. -/
  | rnsfailEffect
  /-- `ATTESTATION_REPORT` (R405). -/
  | attestationReport
  /-- `PREEMPT_BLOCK` (R384). -/
  | preemptBlock
  /-- `RESUME` (R373). -/
  | resume
  /-- `DISCARD` (R373). -/
  | discard
  /-- `CHECKPOINT_LAUNCH` (R389). -/
  | checkpointLaunch
  /-- `RUN_COMMAND` (R294). -/
  | runCommand
  /-- `LOAD_COMMAND` (R294). -/
  | loadCommand
  /-- `UNLOAD_COMMAND` (R276). -/
  | unloadCommand
  /-- `CLUSTER_PLACEMENT` (R42); subject a: launch. -/
  | clusterPlacement
  /-- `DRAIN` (R39); subject a: launch. -/
  | drain
  /-- `BLOCK_RETIREMENT` (R32); subject a: block. -/
  | blockRetirement
  /-- `RUN_COMPLETION` (R183); subject a: launch. -/
  | runCompletion
  /-- `QUANTUM_BOUNDARY` (R278); subject a: launch. -/
  | quantumBoundary
  /-- `STANDING_BOUNDARY` (R256); subject a: program slot. -/
  | standingBoundary
  /-- `DEFERRED_JOURNAL_ENTRY` (R284); subject a: program slot. -/
  | deferredJournalEntry
  /-- `RELAXATION_PLACEMENT` (R267); subject a: program slot. -/
  | relaxationPlacement
  /-- `RELAXATION_RETIREMENT` (R269); subject a: program slot, b: block id. -/
  | relaxationRetirement
  /-- `RELAXATION_KILL` (R271); subject a: program slot, b: block id. -/
  | relaxationKill
  /-- `INPUT_LANDING` (R273); subject a: program slot. -/
  | inputLanding
  /-- `SNAPSHOT_SERVE` (R275); subject a: program slot. -/
  | snapshotServe
  /-- `UNLOAD_COMPLETION` (R276); subject a: program slot. -/
  | unloadCompletion
  /-- `RESIDUAL_ENTRY_ERROR` (R396); subject a: entry. -/
  | residualEntryError
  /-- `RESERVED_MESSAGE` (R298); subject a: port. -/
  | reservedMessage
  /-- `MESSAGE_GRANT` (R305); subject a: port, b: class. -/
  | messageGrant
  /-- `PORT_DOWN` (R305); subject a: port. -/
  | portDown
  /-- `REMOTE_REQUEST_TIMEOUT` (R305); subject a: tag. -/
  | remoteRequestTimeout
  /-- `LOAD_DATA_RETURN` (R175); subject a: wave, b: access, c: lanes. -/
  | loadDataReturn
  /-- `STORE_ACKNOWLEDGEMENT` (R173); subject a: wave, b: access, c: lanes. -/
  | storeAcknowledgement
  /-- `L1_LEASE_END` (R174); subject a: core, b: line. -/
  | l1LeaseEnd
  /-- `PAGE_WALK` (R159); subject a: ASID, b: VA[56:13]. -/
  | pageWalk
  /-- `COPY_JOB_START` (R165); subject a: core, b: job, c: units moved now. -/
  | copyJobStart
  /-- `COPY_JOB_FAULT` (R167); subject a: core, b: job. -/
  | copyJobFault
  /-- `COPY_JOB_COMPLETION` (R167); subject a: core, b: job. -/
  | copyJobCompletion
  /-- `MATRIX_OPERATION_RETIREMENT` (R354); subject a: core, b: operation. -/
  | matrixOperationRetirement
  /-- `PAIR_OPERATION_FOLLOWER_START` (R328); subject a: core, b: operation. -/
  | pairOperationFollowerStart
  /-- `PIN_ALLOCATION` (R311); subject a: wave. -/
  | pinAllocation
  /-- `PRESSURE_SPILL` (R339); subject a: core. -/
  | pressureSpill
  /-- `GOVERNOR_WINDOW` (R335); subject a: core. -/
  | governorWindow
  /-- `BACKOFF_EXPIRY` (R28); subject a: wave. -/
  | backoffExpiry
  /-- `STARVATION` (R29); subject a: wave. -/
  | starvation
  /-- `TIMER_TRAP` (R380); subject a: wave. -/
  | timerTrap
  /-- `BLOCK_HALT` (R371); subject a: block. -/
  | blockHalt
  /-- `TRAP_RECORD_POSTING` (R376). -/
  | trapRecordPosting
  /-- `REPOST` (R377). -/
  | repost
  /-- `ROLLBACK` (R394); subject a: block. -/
  | rollback
  /-- `RESERVED_COMMAND` (R296). -/
  | reservedCommand
  deriving DecidableEq, Repr

end Sys2Proof
end

