-- ==== Sys2Proof/WellFormed.lean ====
section
/-! DEFINITION. When a term of Instr is one that its fields can name: the register-field rules of R61 and the
sub-field rules of R63 for words, and the ranges of the named parties for events. -/

namespace Sys2Proof

/-- A field that names a register pair (R61). -/
def isPair (r : Reg) : Bool := (r.toNat % 2 == 0 && decide (r.toNat ≤ 110)) || r.toNat == 122

/-- A field that names a register quad (R61). -/
def isQuad (r : Reg) : Bool := r.toNat % 4 == 0 && decide (r.toNat ≤ 108)

/-- A descriptor field: a multiple of 8 from 0 to 104 (R226, R350). -/
def isOct (r : Reg) : Bool := r.toNat % 8 == 0 && decide (r.toNat ≤ 104)

/-- A field of the matrix majors names none of v112 to v127 (R350). -/
def isPlain (r : Reg) : Bool := decide (r.toNat < 112)

/-- The pair fields of `unpin` and `fwupd` (R318). -/
def isPlainPair (r : Reg) : Bool := r.toNat % 2 == 0 && decide (r.toNat ≤ 110)

/-- A field that must not name a hardware queue (R135, R210, R214, R216). -/
def isNotQueue (r : Reg) : Bool := decide (r.toNat < 112) || decide (119 < r.toNat)

/-- The three low bits of the immediate of `wbase` (R84). -/
def low3Zero (imm : BitVec 14) : Bool := imm.toNat % 8 == 0

/-- The rounding field of a conversion: 000 for codes 8 to 13 (R128). -/
def cvtOk (k : CvtKind) (r : Rnd) : Bool :=
  match k with
  | .f32i32 | .i32f32 | .f32n32 | .n32f32 | .bf16f32 | .f16f32 | .e4m3f32 | .e5m2f32 => true
  | .f32bf16 | .f32f16 | .f32e4m3 | .f32e5m2 | .i8i32 | .i16i32 => decide (r = .mode)

/-- The rounding field of `pack`: 000 for i8 (R131). -/
def packOk (k : PackKind) (r : Rnd) : Bool :=
  match k with
  | .i8 => decide (r = .mode)
  | .bf16 | .f16 | .e4m3 | .e5m2 => true

/-- The element field of `unpack`, and its pair for b4 (R132). -/
def unpackOk (k : UnpackKind) (e : BitVec 3) (a : Reg) : Bool :=
  match k with
  | .bf16 | .f16 => decide (e.toNat < 2)
  | .e4m3 | .e5m2 | .i8 => decide (e.toNat < 4)
  | .b4 => isPair a

/-- The core numbers of the module (R2). -/
def isCore (c : Nat) : Bool := decide (c < 192)

/-- Well-formedness of a step: for a word, exactly the conditions under which its fields are not reserved (R63). -/
def wellFormed : Instr → Bool
  | .powerOn _ _ _ => true
  | .powerRemoval => true
  | .thermalLimit _ => true
  | .thermalClear _ => true
  | .powerCapEnforce _ _ => true
  | .registerWrite _ _ => true
  | .launchQueueEnable _ => true
  | .trapRingEnable _ => true
  | .formatWindowEnable _ _ => true
  | .formatWindowDisable _ _ => true
  | .xltInvalidatePage _ => true
  | .xltInvalidateAsid _ => true
  | .xltInvalidateAll => true
  | .xltInvalidationComplete => true
  | .rnsfailWrite core _ => isCore core
  | .rnsfailEffect => true
  | .attestationReport => true
  | .preemptBlock => true
  | .restoreBlock _ => true
  | .resume => true
  | .discard => true
  | .checkpointLaunch => true
  | .restoreLaunch _ => true
  | .notify _ _ => true
  | .runCommand => true
  | .loadCommand => true
  | .unloadCommand => true
  | .clusterPlacement => true
  | .drain => true
  | .blockRetirement => true
  | .runCompletion => true
  | .quantumBoundary => true
  | .standingBoundary => true
  | .deferredJournalEntry => true
  | .relaxationPlacement => true
  | .relaxationRetirement => true
  | .relaxationKill => true
  | .inputWrite _ => true
  | .inputLanding => true
  | .snapshotRequest _ => true
  | .snapshotServe => true
  | .subscribe _ => true
  | .unloadCompletion => true
  | .residualEntryError => true
  | .reservedMessage => true
  | .messageGrant => true
  | .portDown => true
  | .remoteRead _ _ _ _ => true
  | .remoteWrite _ _ _ _ => true
  | .remoteAtomic _ _ _ _ => true
  | .readResponse _ _ _ => true
  | .writeResponse _ _ => true
  | .atomicResponse _ _ _ => true
  | .remoteRequestTimeout => true
  | .collectiveData _ => true
  | .barrierArrive _ _ => true
  | .barrierRelease _ => true
  | .loadDataReturn => true
  | .storeAcknowledgement => true
  | .l1LeaseEnd => true
  | .pageWalk => true
  | .copyJobStart => true
  | .copyJobFault => true
  | .copyJobCompletion => true
  | .matrixOperationRetirement => true
  | .pairOperationFollowerStart => true
  | .pinAllocation => true
  | .pressureSpill => true
  | .governorWindow => true
  | .backoffExpiry => true
  | .starvation => true
  | .timerTrap => true
  | .blockHalt => true
  | .trapRecordPosting => true
  | .repost => true
  | .rollback => true
  | .undefinedWord _ _ => true
  | .exit _ => true
  | .nop _ => true
  | .j _ _ _ => true
  | .call _ _ _ => true
  | .joinSet _ _ => true
  | .join _ => true
  | .yield _ => true
  | .jr a _ _ => isPair a
  | .callr a _ _ => isPair a
  | .ret _ => true
  | .trap _ _ => true
  | .trret _ => true
  | .lmapLd _ => true
  | .add _ _ _ _ _ => true
  | .sub _ _ _ _ _ => true
  | .addi _ _ _ _ _ => true
  | .addiP _ _ _ _ _ => true
  | .mul _ _ _ _ _ => true
  | .mulh _ _ _ _ _ => true
  | .mulhu _ _ _ _ _ => true
  | .and _ _ _ _ _ => true
  | .andi _ _ _ _ _ => true
  | .andiP _ _ _ _ _ => true
  | .or _ _ _ _ _ => true
  | .ori _ _ _ _ _ => true
  | .oriP _ _ _ _ _ => true
  | .xor _ _ _ _ _ => true
  | .xori _ _ _ _ _ => true
  | .xoriP _ _ _ _ _ => true
  | .shli _ _ _ _ _ => true
  | .shri _ _ _ _ _ => true
  | .srai _ _ _ _ _ => true
  | .shl _ _ _ _ _ => true
  | .shr _ _ _ _ _ => true
  | .sra _ _ _ _ _ => true
  | .seteq _ _ _ _ _ => true
  | .setlt _ _ _ _ _ => true
  | .setltu _ _ _ _ _ => true
  | .sel _ _ _ _ _ => true
  | .min _ _ _ _ => true
  | .max _ _ _ _ => true
  | .minu _ _ _ _ => true
  | .maxu _ _ _ _ => true
  | .rol _ _ _ _ => true
  | .ror _ _ _ _ => true
  | .addD d a _ _ => isPair d && isPair a
  | .subD d a _ _ => isPair d && isPair a
  | .adda d _ _ _ => isPair d
  | .bfx _ _ _ _ => true
  | .bfi _ a _ _ => isPair a
  | .popc _ _ _ _ => true
  | .clz _ _ _ _ => true
  | .ctz _ _ _ _ => true
  | .brev _ _ _ _ => true
  | .bswap _ _ _ _ => true
  | .neg _ _ _ _ => true
  | .not _ _ _ _ => true
  | .abs _ _ _ _ => true
  | .sextB _ _ _ _ => true
  | .sextH _ _ _ _ => true
  | .movi _ _ _ _ => true
  | .moviP _ _ _ _ => true
  | .mov _ _ _ _ => true
  | .movD d a _ _ => isPair d && isPair a
  | .maskAny _ a _ => isNotQueue a
  | .maskAll _ a _ => isNotQueue a
  | .maskLo _ a _ => isNotQueue a
  | .maskHi _ a _ => isNotQueue a
  | .maskCnt _ a _ => isNotQueue a
  | .movS _ _ _ _ => true
  | .movSW _ _ _ _ => true
  | .wbase imm _ => low3Zero imm
  | .qxH _ a _ => isNotQueue a
  | .qxV _ a _ => isNotQueue a
  | .qxD _ a _ => isNotQueue a
  | .qxB0 _ a _ => isNotQueue a
  | .qxB1 _ a _ => isNotQueue a
  | .qxB2 _ a _ => isNotQueue a
  | .qxB3 _ a _ => isNotQueue a
  | .shflPick _ a b _ => isNotQueue a && isNotQueue b
  | .shflXor _ a _ _ => isNotQueue a
  | .addF32 _ _ _ _ _ => true
  | .subF32 _ _ _ _ _ => true
  | .mulF32 _ _ _ _ _ => true
  | .fmaF32 _ _ _ _ _ => true
  | .minF32 _ _ _ _ _ => true
  | .maxF32 _ _ _ _ _ => true
  | .seteqF32 _ _ _ _ _ => true
  | .setltF32 _ _ _ _ _ => true
  | .setleF32 _ _ _ _ _ => true
  | .setunF32 _ _ _ _ _ => true
  | .rcpF32 _ _ _ _ => true
  | .rsqrtF32 _ _ _ _ => true
  | .sqrtF32 _ _ _ _ => true
  | .exp2F32 _ _ _ _ => true
  | .log2F32 _ _ _ _ => true
  | .sinF32 _ _ _ _ => true
  | .cosF32 _ _ _ _ => true
  | .rintF32 _ _ _ _ => true
  | .floorF32 _ _ _ _ => true
  | .ceilF32 _ _ _ _ => true
  | .truncF32 _ _ _ _ => true
  | .classF32 _ _ _ _ => true
  | .fabsF32 _ _ _ _ => true
  | .fnegF32 _ _ _ _ => true
  | .addBf16x2 _ _ _ _ _ => true
  | .mulBf16x2 _ _ _ _ _ => true
  | .fmaBf16x2 _ _ _ _ _ => true
  | .addF16x2 _ _ _ _ _ => true
  | .mulF16x2 _ _ _ _ _ => true
  | .fmaF16x2 _ _ _ _ _ => true
  | .minBf16x2 _ _ _ _ => true
  | .maxBf16x2 _ _ _ _ => true
  | .minF16x2 _ _ _ _ => true
  | .maxF16x2 _ _ _ _ => true
  | .redAddF32 _ a _ => isNotQueue a
  | .redMinF32 _ a _ => isNotQueue a
  | .redMaxF32 _ a _ => isNotQueue a
  | .redAdd _ a _ => isNotQueue a
  | .redMin _ a _ => isNotQueue a
  | .redMax _ a _ => isNotQueue a
  | .scanAddF32 _ a _ => isNotQueue a
  | .scanAdd _ a _ => isNotQueue a
  | .cvt k r _ _ _ _ => cvtOk k r
  | .pack k r _ _ _ _ => packOk k r
  | .unpack k e _ a _ _ => unpackOk k e a
  | .packB4 _ _ _ _ a _ _ => isPair a
  | .ldW _ a _ _ _ => isPair a
  | .ldWP _ a _ _ _ => isPair a
  | .ldD d a _ _ _ => isPair d && isPair a
  | .ldDP d a _ _ _ => isPair d && isPair a
  | .ldQ d a _ _ _ => isQuad d && isPair a
  | .ldQP d a _ _ _ => isQuad d && isPair a
  | .ldH _ a _ _ _ => isPair a
  | .ldHP _ a _ _ _ => isPair a
  | .stW _ a _ _ _ => isPair a
  | .stWP _ a _ _ _ => isPair a
  | .stD d a _ _ _ => isPair d && isPair a
  | .stDP d a _ _ _ => isPair d && isPair a
  | .stQ d a _ _ _ => isQuad d && isPair a
  | .stQP d a _ _ _ => isQuad d && isPair a
  | .stH _ a _ _ _ => isPair a
  | .stHP _ a _ _ _ => isPair a
  | .ldHu _ a _ _ _ => isPair a
  | .ldHuP _ a _ _ _ => isPair a
  | .ldB _ a _ _ _ => isPair a
  | .ldBP _ a _ _ _ => isPair a
  | .ldBu _ a _ _ _ => isPair a
  | .ldBuP _ a _ _ _ => isPair a
  | .stB _ a _ _ _ => isPair a
  | .stBP _ a _ _ _ => isPair a
  | .pfL1 a _ _ _ => isPair a
  | .pfL1P a _ _ _ => isPair a
  | .pfL2 a _ _ _ => isPair a
  | .pfL2P a _ _ _ => isPair a
  | .cinv a _ _ => isPair a
  | .cinvAll _ _ => true
  | .ldAcqW d a _ _ _ => isNotQueue d && isPair a
  | .ldAcqD d a _ _ _ => isPair d && isPair a
  | .stRelW d a _ _ _ => isNotQueue d && isPair a
  | .stRelD d a _ _ _ => isPair d && isPair a
  | .ldScW d a _ _ _ => isNotQueue d && isPair a
  | .ldScD d a _ _ _ => isPair d && isPair a
  | .stScW d a _ _ _ => isNotQueue d && isPair a
  | .stScD d a _ _ _ => isPair d && isPair a
  | .atom _ d a _ _ _ => isNotQueue d && isPair a
  | .atomD _ d a _ _ _ => isPair d && isPair a
  | .atomF32 _ d a _ _ _ => isNotQueue d && isPair a
  | .casW d a _ _ _ => isPair d && isPair a
  | .casD d a _ _ _ => isQuad d && isPair a
  | .fence _ _ => true
  | .poll _ d a _ _ _ => isNotQueue d && isPair a
  | .barB _ => true
  | .barC _ => true
  | .barDev _ => true
  | .barDom _ => true
  | .tktTake _ => true
  | .tktWait _ _ => true
  | .qcfg _ _ => true
  | .copy1d a _ => isOct a
  | .copy2d a _ => isOct a
  | .copyG a _ => isOct a
  | .batch _ _ => true
  | .waitB _ _ => true
  | .waitC _ _ _ _ => true
  | .coll _ a _ => isOct a
  | .mma _ d a _ => isPlain d && isOct a
  | .mmaPair _ d a _ => isPlain d && isOct a
  | .tld a _ => isOct a
  | .tst a _ => isOct a
  | .accZero a _ => isPlain a
  | .accRd d a _ => isPlain d && isPlain a
  | .accWr d a _ => isPlain d && isPlain a
  | .accChkTile a _ => isPlain a
  | .accChkTen a _ => isPlain a
  | .pin d a _ => isPlain d && isPlain a
  | .unpin d a _ => isPlainPair d && isPlain a
  | .fwupd d a _ => isPlainPair d && isPlain a
  | .fwrd d a _ => isPlain d && isPlain a
  | .rnsfI16 d a _ => isPlain d && isPlain a
  | .rnsfI32 d a _ => isPlain d && isPlain a
  | .rnsr d a _ => isQuad d && isPlain a
  | .rnsChk d a _ => isPlain d && isPlain a
  | .rset _ _ => true
  | .rpost _ _ => true
  | .rget _ _ _ => true
  | .qend _ => true
  | .rand _ _ _ => true
  | .eqId _ _ _ => true
  | .eqGen d _ _ => isPair d
  | .eqTheta _ _ _ => true
  | .softError _ => true
  | .reservedCommand => true

end Sys2Proof
end

