-- ==== Sys2Proof/Decode.lean ====
section
/-! DEFINITION. The decoder of instruction words (R51 to R64), total on every word and every byte string, and the
encoder beside it, written from the same map. -/

namespace Sys2Proof

/-- Why a word is undefined (R63). -/
inductive Undef where
  /-- its major is reserved or 0x00 -/
  | reservedMajor
  /-- its fn is not listed for its major -/
  | reservedFn
  /-- g = 100 -/
  | reservedGuard
  /-- u contradicts the u column of the form (R57) -/
  | uniformBit
  /-- a field that the form leaves unused is not 0 -/
  | unusedField
  /-- a sub-field holds a reserved value -/
  | reservedSubfield
  /-- a pair, quad or descriptor field breaks its rule (R61, R226, R350), or a queue is named where none may be -/
  | badRegister
  /-- a pairing that R53 forbids -/
  | forbiddenPairing
  /-- a partner whose imm14[13:7] is not 0 -/
  | partnerHighBits
  deriving DecidableEq, Repr

/-- Why a byte string holds no instruction at all: it is too short. -/
inductive DecodeError where
  | truncated
  deriving DecidableEq, Repr

/-- The guard codes of R54. -/
def guardBits : Guard → BitVec 3
  | .always => 0
  | .p1 => 1
  | .p2 => 2
  | .p3 => 3
  | .np1 => 5
  | .np2 => 6
  | .np3 => 7

/-- The guard codes of R54, read back; a value no name has is reserved. -/
def guardOf (b : BitVec 3) : Option Guard :=
  match b.toNat with
  | 0 => some .always
  | 1 => some .p1
  | 2 => some .p2
  | 3 => some .p3
  | 5 => some .np1
  | 6 => some .np2
  | 7 => some .np3
  | _ => none

/-- The scope codes of R65. -/
def scopeBits : Scope → BitVec 3
  | .wave => 0
  | .block => 1
  | .cell => 2
  | .die => 3
  | .device => 4
  | .system => 5

/-- The scope codes of R65, read back; a value no name has is reserved. -/
def scopeOf (b : BitVec 3) : Option Scope :=
  match b.toNat with
  | 0 => some .wave
  | 1 => some .block
  | 2 => some .cell
  | 3 => some .die
  | 4 => some .device
  | 5 => some .system
  | _ => none

/-- The rounding codes of R66. -/
def rndBits : Rnd → BitVec 3
  | .mode => 0
  | .rne => 1
  | .rtz => 2
  | .rup => 3
  | .rdn => 4
  | .sr => 5

/-- The rounding codes of R66, read back; a value no name has is reserved. -/
def rndOf (b : BitVec 3) : Option Rnd :=
  match b.toNat with
  | 0 => some .mode
  | 1 => some .rne
  | 2 => some .rtz
  | 3 => some .rup
  | 4 => some .rdn
  | 5 => some .sr
  | _ => none

/-- The conversion codes of R128. -/
def cvtBits : CvtKind → BitVec 4
  | .f32i32 => 0
  | .i32f32 => 1
  | .f32n32 => 2
  | .n32f32 => 3
  | .bf16f32 => 4
  | .f16f32 => 5
  | .e4m3f32 => 6
  | .e5m2f32 => 7
  | .f32bf16 => 8
  | .f32f16 => 9
  | .f32e4m3 => 10
  | .f32e5m2 => 11
  | .i8i32 => 12
  | .i16i32 => 13

/-- The conversion codes of R128, read back; a value no name has is reserved. -/
def cvtOf (b : BitVec 4) : Option CvtKind :=
  match b.toNat with
  | 0 => some .f32i32
  | 1 => some .i32f32
  | 2 => some .f32n32
  | 3 => some .n32f32
  | 4 => some .bf16f32
  | 5 => some .f16f32
  | 6 => some .e4m3f32
  | 7 => some .e5m2f32
  | 8 => some .f32bf16
  | 9 => some .f32f16
  | 10 => some .f32e4m3
  | 11 => some .f32e5m2
  | 12 => some .i8i32
  | 13 => some .i16i32
  | _ => none

/-- The element codes of R131. -/
def packBits : PackKind → BitVec 4
  | .bf16 => 0
  | .f16 => 1
  | .e4m3 => 2
  | .e5m2 => 3
  | .i8 => 4

/-- The element codes of R131, read back; a value no name has is reserved. -/
def packOf (b : BitVec 4) : Option PackKind :=
  match b.toNat with
  | 0 => some .bf16
  | 1 => some .f16
  | 2 => some .e4m3
  | 3 => some .e5m2
  | 4 => some .i8
  | _ => none

/-- The element codes of R132. -/
def unpackBits : UnpackKind → BitVec 4
  | .bf16 => 0
  | .f16 => 1
  | .e4m3 => 2
  | .e5m2 => 3
  | .i8 => 4
  | .b4 => 5

/-- The element codes of R132, read back; a value no name has is reserved. -/
def unpackOf (b : BitVec 4) : Option UnpackKind :=
  match b.toNat with
  | 0 => some .bf16
  | 1 => some .f16
  | 2 => some .e4m3
  | 3 => some .e5m2
  | 4 => some .i8
  | 5 => some .b4
  | _ => none

/-- The code types of R98. -/
def b4Bits : B4Type → BitVec 2
  | .int => 0
  | .e2m1 => 1
  | .pow2 => 2
  | .hyb => 3

/-- The code types of R98, read back; a value no name has is reserved. -/
def b4Of (b : BitVec 2) : Option B4Type :=
  match b.toNat with
  | 0 => some .int
  | 1 => some .e2m1
  | 2 => some .pow2
  | 3 => some .hyb
  | _ => none

/-- The operation codes of R211. -/
def atomOpBits : AtomOp → BitVec 4
  | .add => 0
  | .and => 1
  | .or => 2
  | .xor => 3
  | .min => 4
  | .max => 5
  | .minu => 6
  | .maxu => 7
  | .xchg => 8

/-- The operation codes of R211, read back; a value no name has is reserved. -/
def atomOpOf (b : BitVec 4) : Option AtomOp :=
  match b.toNat with
  | 0 => some .add
  | 1 => some .and
  | 2 => some .or
  | 3 => some .xor
  | 4 => some .min
  | 5 => some .max
  | 6 => some .minu
  | 7 => some .maxu
  | 8 => some .xchg
  | _ => none

/-- The operation codes of R212. -/
def atomFOpBits : AtomFOp → BitVec 4
  | .add => 0
  | .min => 1
  | .max => 2

/-- The operation codes of R212, read back; a value no name has is reserved. -/
def atomFOpOf (b : BitVec 4) : Option AtomFOp :=
  match b.toNat with
  | 0 => some .add
  | 1 => some .min
  | 2 => some .max
  | _ => none

/-- The condition codes of R64. -/
def pollBits : PollCond → BitVec 4
  | .eq => 0
  | .ne => 1
  | .ge => 2
  | .gt => 3
  | .le => 4
  | .lt => 5
  | .geu => 6
  | .ltu => 7

/-- The condition codes of R64, read back; a value no name has is reserved. -/
def pollOf (b : BitVec 4) : Option PollCond :=
  match b.toNat with
  | 0 => some .eq
  | 1 => some .ne
  | 2 => some .ge
  | 3 => some .gt
  | 4 => some .le
  | 5 => some .lt
  | 6 => some .geu
  | 7 => some .ltu
  | _ => none

/-- The element types of R352. -/
def mmaBits : MmaType → BitVec 3
  | .bf16 => 0
  | .fp16 => 1
  | .e4m3 => 2
  | .e5m2 => 3
  | .i8 => 4
  | .b4 => 5
  | .rns => 6

/-- The element types of R352, read back; a value no name has is reserved. -/
def mmaOf (b : BitVec 3) : Option MmaType :=
  match b.toNat with
  | 0 => some .bf16
  | 1 => some .fp16
  | 2 => some .e4m3
  | 3 => some .e5m2
  | 4 => some .i8
  | 5 => some .b4
  | 6 => some .rns
  | _ => none

/-- The wire types of R64. -/
def wireBits : WireType → BitVec 2
  | .f32 => 0
  | .bf16 => 1

/-- The wire types of R64, read back; a value no name has is reserved. -/
def wireOf (b : BitVec 2) : Option WireType :=
  match b.toNat with
  | 0 => some .f32
  | 1 => some .bf16
  | _ => none

/-- The reducing operations of R64. -/
def collOpBits : CollOp → BitVec 2
  | .add => 0
  | .max => 1
  | .min => 2

/-- The reducing operations of R64, read back; a value no name has is reserved. -/
def collOpOf (b : BitVec 2) : Option CollOp :=
  match b.toNat with
  | 0 => some .add
  | 1 => some .max
  | 2 => some .min
  | _ => none

/-- The special-register numbers of R86 and R381. -/
def sregBits : SReg → BitVec 14
  | .wave => 0
  | .block => 1
  | .clus => 2
  | .mbr => 3
  | .core => 4
  | .eq => 5
  | .cycleLo => 6
  | .cycleHi => 7
  | .wtime => 8
  | .wtcmp => 9
  | .dix => 10
  | .qtm => 11
  | .gen => 12
  | .fpflags => 13
  | .fpmode => 14
  | .seedLo => 15
  | .seedHi => 16
  | .wb => 17
  | .mxgov => 18
  | .tkt => 19
  | .lrmap => 32
  | .tepcLo => 33
  | .tepcHi => 34
  | .tcause => 35
  | .tstat => 36
  | .tscr0 => 37
  | .tscr1 => 38
  | .tscr2 => 39
  | .tscr3 => 40

/-- The special-register numbers of R86 and R381, read back; a value no name has is reserved. -/
def sregOf (b : BitVec 14) : Option SReg :=
  match b.toNat with
  | 0 => some .wave
  | 1 => some .block
  | 2 => some .clus
  | 3 => some .mbr
  | 4 => some .core
  | 5 => some .eq
  | 6 => some .cycleLo
  | 7 => some .cycleHi
  | 8 => some .wtime
  | 9 => some .wtcmp
  | 10 => some .dix
  | 11 => some .qtm
  | 12 => some .gen
  | 13 => some .fpflags
  | 14 => some .fpmode
  | 15 => some .seedLo
  | 16 => some .seedHi
  | 17 => some .wb
  | 18 => some .mxgov
  | 19 => some .tkt
  | 32 => some .lrmap
  | 33 => some .tepcLo
  | 34 => some .tepcHi
  | 35 => some .tcause
  | 36 => some .tstat
  | 37 => some .tscr0
  | 38 => some .tscr1
  | 39 => some .tscr2
  | 40 => some .tscr3
  | _ => none

/-- fn of a collective (R64): kind, wire type, operation. -/
def collBits : CollKind → BitVec 7
  | .ar w c => (0 : BitVec 3) ++ wireBits w ++ collOpBits c
  | .rs w c => (1 : BitVec 3) ++ wireBits w ++ collOpBits c
  | .ag => 0x20
  | .bc => 0x30
  | .a2a => 0x40

/-- fn of a collective, read back (R64). -/
def collOf (fn : BitVec 7) : Option CollKind :=
  match (fn.extractLsb' 4 3).toNat with
  | 0 => (wireOf (fn.extractLsb' 2 2)).bind fun w => (collOpOf (fn.extractLsb' 0 2)).map (.ar w)
  | 1 => (wireOf (fn.extractLsb' 2 2)).bind fun w => (collOpOf (fn.extractLsb' 0 2)).map (.rs w)
  | 2 => if fn.extractLsb' 0 4 = 0 then some .ag else none
  | 3 => if fn.extractLsb' 0 4 = 0 then some .bc else none
  | 4 => if fn.extractLsb' 0 4 = 0 then some .a2a else none
  | _ => none

/-- A word from its fields (R51). -/
def packWord (op d a b : BitVec 7) (g : BitVec 3) (u : Bool) : Word :=
  op ++ d ++ a ++ b ++ g ++ BitVec.ofBool u

/-- The literal word (R53): major 0x01 and 25 literal bits. -/
def litWord (lit : BitVec 25) : Word := (1 : BitVec 7) ++ lit

/-- The major opcode (R51). -/
def majorOf (w : Word) : BitVec 7 := w.extractLsb' 25 7
/-- The d field (R51). -/
def dOf (w : Word) : Reg := w.extractLsb' 18 7
/-- The a field (R51). -/
def aOf (w : Word) : Reg := w.extractLsb' 11 7
/-- The b field, which is fn in format F and imm7 in format I (R51). -/
def bOf (w : Word) : BitVec 7 := w.extractLsb' 4 7
/-- The guard field (R51). -/
def gOf (w : Word) : BitVec 3 := w.extractLsb' 1 3
/-- The uniform bit (R51). -/
def uOf (w : Word) : Bool := w.getLsbD 0

/-- A condition of a form, with the reason its failure gives (R63). -/
def need (c : Bool) (e : Undef) (r : Except Undef Instr) : Except Undef Instr :=
  if c then r else .error e

/-- A sub-field that must name something (R63). -/
def named {α : Type} (x : Option α) (k : α → Except Undef Instr) : Except Undef Instr :=
  match x with
  | none => .error .reservedSubfield
  | some v => k v

/-- Major 0x02 of the map (R64). -/
def decode02 (d a b : BitVec 7) (g : Guard) (u : Bool) : Except Undef Instr :=
  need (d == 0 && a == 0 && b == 0) .unusedField (need (!u) .uniformBit (.ok (.exit g)))

/-- Major 0x03 of the map (R64). -/
def decode03 (d a b : BitVec 7) (g : Guard) (u : Bool) : Except Undef Instr :=
  need (d == 0 && a == 0 && b == 0) .unusedField (need (!u) .uniformBit (.ok (.nop g)))

/-- Major 0x04 of the map (R64). -/
def decode04 (d a b : BitVec 7) (g : Guard) (u : Bool) : Except Undef Instr :=
    let off : BitVec 21 := d ++ a ++ b
    .ok (.j off g u)

/-- Major 0x05 of the map (R64). -/
def decode05 (d a b : BitVec 7) (g : Guard) (u : Bool) : Except Undef Instr :=
    let off : BitVec 21 := d ++ a ++ b
    .ok (.call off g u)

/-- Major 0x06 of the map (R64). -/
def decode06 (d a b : BitVec 7) (g : Guard) (u : Bool) : Except Undef Instr :=
    let off : BitVec 21 := d ++ a ++ b
    need (!u) .uniformBit (.ok (.joinSet off g))

/-- Major 0x07 of the map (R64). -/
def decode07 (d a b : BitVec 7) (g : Guard) (u : Bool) : Except Undef Instr :=
  match b.toNat with
  | 0 => need (d == 0 && a == 0) .unusedField (need (!u) .uniformBit (.ok (.join g)))
  | 1 => need (d == 0 && a == 0) .unusedField (need (!u) .uniformBit (.ok (.yield g)))
  | _ => .error .reservedFn

/-- Major 0x08 of the map (R64). -/
def decode08 (d a b : BitVec 7) (g : Guard) (u : Bool) : Except Undef Instr :=
  match b.toNat with
  | 0 => need (d == 0) .unusedField (need (isPair a) .badRegister (.ok (.jr a g u)))
  | 1 => need (d == 0) .unusedField (need (isPair a) .badRegister (.ok (.callr a g u)))
  | 2 => need (d == 0 && a == 0) .unusedField (need (!u) .uniformBit (.ok (.ret g)))
  | _ => .error .reservedFn

/-- Major 0x09 of the map (R64). -/
def decode09 (d a b : BitVec 7) (g : Guard) (u : Bool) : Except Undef Instr :=
    let imm : BitVec 14 := a ++ b
    need (d == 0) .unusedField (need (!u) .uniformBit (.ok (.trap imm g)))

/-- Major 0x0A of the map (R64). -/
def decode0A (d a b : BitVec 7) (g : Guard) (u : Bool) : Except Undef Instr :=
  match b.toNat with
  | 0 => need (d == 0 && a == 0) .unusedField (need (!u) .uniformBit (.ok (.trret g)))
  | 1 => need (d == 0 && a == 0) .unusedField (need (!u) .uniformBit (.ok (.lmapLd g)))
  | _ => .error .reservedFn

/-- Major 0x10 of the map (R64). -/
def decode10 (d a b : BitVec 7) (g : Guard) (u : Bool) : Except Undef Instr :=
  .ok (.add d a b g u)

/-- Major 0x11 of the map (R64). -/
def decode11 (d a b : BitVec 7) (g : Guard) (u : Bool) : Except Undef Instr :=
  .ok (.sub d a b g u)

/-- Major 0x12 of the map (R64). -/
def decode12 (d a b : BitVec 7) (g : Guard) (u : Bool) : Except Undef Instr :=
  let imm := b
  .ok (.addi d a imm g u)

/-- Major 0x13 of the map (R64). -/
def decode13 (d a b : BitVec 7) (g : Guard) (u : Bool) : Except Undef Instr :=
  .ok (.mul d a b g u)

/-- Major 0x14 of the map (R64). -/
def decode14 (d a b : BitVec 7) (g : Guard) (u : Bool) : Except Undef Instr :=
  .ok (.mulh d a b g u)

/-- Major 0x15 of the map (R64). -/
def decode15 (d a b : BitVec 7) (g : Guard) (u : Bool) : Except Undef Instr :=
  .ok (.mulhu d a b g u)

/-- Major 0x16 of the map (R64). -/
def decode16 (d a b : BitVec 7) (g : Guard) (u : Bool) : Except Undef Instr :=
  .ok (.and d a b g u)

/-- Major 0x17 of the map (R64). -/
def decode17 (d a b : BitVec 7) (g : Guard) (u : Bool) : Except Undef Instr :=
  let imm := b
  .ok (.andi d a imm g u)

/-- Major 0x18 of the map (R64). -/
def decode18 (d a b : BitVec 7) (g : Guard) (u : Bool) : Except Undef Instr :=
  .ok (.or d a b g u)

/-- Major 0x19 of the map (R64). -/
def decode19 (d a b : BitVec 7) (g : Guard) (u : Bool) : Except Undef Instr :=
  let imm := b
  .ok (.ori d a imm g u)

/-- Major 0x1A of the map (R64). -/
def decode1A (d a b : BitVec 7) (g : Guard) (u : Bool) : Except Undef Instr :=
  .ok (.xor d a b g u)

/-- Major 0x1B of the map (R64). -/
def decode1B (d a b : BitVec 7) (g : Guard) (u : Bool) : Except Undef Instr :=
  let imm := b
  .ok (.xori d a imm g u)

/-- Major 0x1C of the map (R64). -/
def decode1C (d a b : BitVec 7) (g : Guard) (u : Bool) : Except Undef Instr :=
  need (decide (b.toNat < 32)) .reservedSubfield (let sh := b.extractLsb' 0 5
    .ok (.shli d a sh g u))

/-- Major 0x1D of the map (R64). -/
def decode1D (d a b : BitVec 7) (g : Guard) (u : Bool) : Except Undef Instr :=
  need (decide (b.toNat < 32)) .reservedSubfield (let sh := b.extractLsb' 0 5
    .ok (.shri d a sh g u))

/-- Major 0x1E of the map (R64). -/
def decode1E (d a b : BitVec 7) (g : Guard) (u : Bool) : Except Undef Instr :=
  need (decide (b.toNat < 32)) .reservedSubfield (let sh := b.extractLsb' 0 5
    .ok (.srai d a sh g u))

/-- Major 0x1F of the map (R64). -/
def decode1F (d a b : BitVec 7) (g : Guard) (u : Bool) : Except Undef Instr :=
  .ok (.shl d a b g u)

/-- Major 0x20 of the map (R64). -/
def decode20 (d a b : BitVec 7) (g : Guard) (u : Bool) : Except Undef Instr :=
  .ok (.shr d a b g u)

/-- Major 0x21 of the map (R64). -/
def decode21 (d a b : BitVec 7) (g : Guard) (u : Bool) : Except Undef Instr :=
  .ok (.sra d a b g u)

/-- Major 0x22 of the map (R64). -/
def decode22 (d a b : BitVec 7) (g : Guard) (u : Bool) : Except Undef Instr :=
  .ok (.seteq d a b g u)

/-- Major 0x23 of the map (R64). -/
def decode23 (d a b : BitVec 7) (g : Guard) (u : Bool) : Except Undef Instr :=
  .ok (.setlt d a b g u)

/-- Major 0x24 of the map (R64). -/
def decode24 (d a b : BitVec 7) (g : Guard) (u : Bool) : Except Undef Instr :=
  .ok (.setltu d a b g u)

/-- Major 0x25 of the map (R64). -/
def decode25 (d a b : BitVec 7) (g : Guard) (u : Bool) : Except Undef Instr :=
  .ok (.sel d a b g u)

/-- Major 0x26 of the map (R64). -/
def decode26 (d a b : BitVec 7) (g : Guard) (u : Bool) : Except Undef Instr :=
  match b.toNat with
  | 0 => .ok (.min d a g u)
  | 1 => .ok (.max d a g u)
  | 2 => .ok (.minu d a g u)
  | 3 => .ok (.maxu d a g u)
  | 4 => .ok (.rol d a g u)
  | 5 => .ok (.ror d a g u)
  | 6 => need (isPair d) .badRegister (need (isPair a) .badRegister (.ok (.addD d a g u)))
  | 7 => need (isPair d) .badRegister (need (isPair a) .badRegister (.ok (.subD d a g u)))
  | 8 => need (isPair d) .badRegister (.ok (.adda d a g u))
  | 9 => .ok (.bfx d a g u)
  | 10 => need (isPair a) .badRegister (.ok (.bfi d a g u))
  | _ => .error .reservedFn

/-- Major 0x27 of the map (R64). -/
def decode27 (d a b : BitVec 7) (g : Guard) (u : Bool) : Except Undef Instr :=
  match b.toNat with
  | 0 => .ok (.popc d a g u)
  | 1 => .ok (.clz d a g u)
  | 2 => .ok (.ctz d a g u)
  | 3 => .ok (.brev d a g u)
  | 4 => .ok (.bswap d a g u)
  | 5 => .ok (.neg d a g u)
  | 6 => .ok (.not d a g u)
  | 7 => .ok (.abs d a g u)
  | 8 => .ok (.sextB d a g u)
  | 9 => .ok (.sextH d a g u)
  | _ => .error .reservedFn

/-- Major 0x28 of the map (R64). -/
def decode28 (d a b : BitVec 7) (g : Guard) (u : Bool) : Except Undef Instr :=
    let imm : BitVec 14 := a ++ b
    .ok (.movi d imm g u)

/-- Major 0x29 of the map (R64). -/
def decode29 (d a b : BitVec 7) (g : Guard) (u : Bool) : Except Undef Instr :=
  match b.toNat with
  | 0 => .ok (.mov d a g u)
  | 1 => need (isPair d) .badRegister (need (isPair a) .badRegister (.ok (.movD d a g u)))
  | 2 => need (!u) .uniformBit (need (isNotQueue a) .badRegister (.ok (.maskAny d a g)))
  | 3 => need (!u) .uniformBit (need (isNotQueue a) .badRegister (.ok (.maskAll d a g)))
  | 4 => need (!u) .uniformBit (need (isNotQueue a) .badRegister (.ok (.maskLo d a g)))
  | 5 => need (!u) .uniformBit (need (isNotQueue a) .badRegister (.ok (.maskHi d a g)))
  | 6 => need (!u) .uniformBit (need (isNotQueue a) .badRegister (.ok (.maskCnt d a g)))
  | _ => .error .reservedFn

/-- Major 0x2A of the map (R64). -/
def decode2A (d a b : BitVec 7) (g : Guard) (u : Bool) : Except Undef Instr :=
    named (sregOf (a ++ b)) fun sr => .ok (.movS d sr g u)

/-- Major 0x2B of the map (R64). -/
def decode2B (d a b : BitVec 7) (g : Guard) (u : Bool) : Except Undef Instr :=
    named (sregOf (a ++ b)) fun sr => .ok (.movSW d sr g u)

/-- Major 0x2C of the map (R64). -/
def decode2C (d a b : BitVec 7) (g : Guard) (u : Bool) : Except Undef Instr :=
    let imm : BitVec 14 := a ++ b
    need (d == 0) .unusedField (need (!u) .uniformBit (need (low3Zero imm) .reservedSubfield (.ok (.wbase imm g))))

/-- Major 0x2D of the map (R64). -/
def decode2D (d a b : BitVec 7) (g : Guard) (u : Bool) : Except Undef Instr :=
  match b.toNat with
  | 0 => need (!u) .uniformBit (need (isNotQueue a) .badRegister (.ok (.qxH d a g)))
  | 1 => need (!u) .uniformBit (need (isNotQueue a) .badRegister (.ok (.qxV d a g)))
  | 2 => need (!u) .uniformBit (need (isNotQueue a) .badRegister (.ok (.qxD d a g)))
  | 3 => need (!u) .uniformBit (need (isNotQueue a) .badRegister (.ok (.qxB0 d a g)))
  | 4 => need (!u) .uniformBit (need (isNotQueue a) .badRegister (.ok (.qxB1 d a g)))
  | 5 => need (!u) .uniformBit (need (isNotQueue a) .badRegister (.ok (.qxB2 d a g)))
  | 6 => need (!u) .uniformBit (need (isNotQueue a) .badRegister (.ok (.qxB3 d a g)))
  | _ => .error .reservedFn

/-- Major 0x2E of the map (R64). -/
def decode2E (d a b : BitVec 7) (g : Guard) (u : Bool) : Except Undef Instr :=
  need (!u) .uniformBit (need (isNotQueue a) .badRegister (need (isNotQueue b) .badRegister (.ok (.shflPick d a b g))))

/-- Major 0x2F of the map (R64). -/
def decode2F (d a b : BitVec 7) (g : Guard) (u : Bool) : Except Undef Instr :=
  need (decide (b.toNat < 64)) .reservedSubfield (let k := b.extractLsb' 0 6
    need (!u) .uniformBit (need (isNotQueue a) .badRegister (.ok (.shflXor d a k g))))

/-- Major 0x30 of the map (R64). -/
def decode30 (d a b : BitVec 7) (g : Guard) (u : Bool) : Except Undef Instr :=
  .ok (.addF32 d a b g u)

/-- Major 0x31 of the map (R64). -/
def decode31 (d a b : BitVec 7) (g : Guard) (u : Bool) : Except Undef Instr :=
  .ok (.subF32 d a b g u)

/-- Major 0x32 of the map (R64). -/
def decode32 (d a b : BitVec 7) (g : Guard) (u : Bool) : Except Undef Instr :=
  .ok (.mulF32 d a b g u)

/-- Major 0x33 of the map (R64). -/
def decode33 (d a b : BitVec 7) (g : Guard) (u : Bool) : Except Undef Instr :=
  .ok (.fmaF32 d a b g u)

/-- Major 0x34 of the map (R64). -/
def decode34 (d a b : BitVec 7) (g : Guard) (u : Bool) : Except Undef Instr :=
  .ok (.minF32 d a b g u)

/-- Major 0x35 of the map (R64). -/
def decode35 (d a b : BitVec 7) (g : Guard) (u : Bool) : Except Undef Instr :=
  .ok (.maxF32 d a b g u)

/-- Major 0x36 of the map (R64). -/
def decode36 (d a b : BitVec 7) (g : Guard) (u : Bool) : Except Undef Instr :=
  .ok (.seteqF32 d a b g u)

/-- Major 0x37 of the map (R64). -/
def decode37 (d a b : BitVec 7) (g : Guard) (u : Bool) : Except Undef Instr :=
  .ok (.setltF32 d a b g u)

/-- Major 0x38 of the map (R64). -/
def decode38 (d a b : BitVec 7) (g : Guard) (u : Bool) : Except Undef Instr :=
  .ok (.setleF32 d a b g u)

/-- Major 0x39 of the map (R64). -/
def decode39 (d a b : BitVec 7) (g : Guard) (u : Bool) : Except Undef Instr :=
  .ok (.setunF32 d a b g u)

/-- Major 0x3A of the map (R64). -/
def decode3A (d a b : BitVec 7) (g : Guard) (u : Bool) : Except Undef Instr :=
  match b.toNat with
  | 0 => .ok (.rcpF32 d a g u)
  | 1 => .ok (.rsqrtF32 d a g u)
  | 2 => .ok (.sqrtF32 d a g u)
  | 3 => .ok (.exp2F32 d a g u)
  | 4 => .ok (.log2F32 d a g u)
  | 5 => .ok (.sinF32 d a g u)
  | 6 => .ok (.cosF32 d a g u)
  | 7 => .ok (.rintF32 d a g u)
  | 8 => .ok (.floorF32 d a g u)
  | 9 => .ok (.ceilF32 d a g u)
  | 10 => .ok (.truncF32 d a g u)
  | 11 => .ok (.classF32 d a g u)
  | 12 => .ok (.fabsF32 d a g u)
  | 13 => .ok (.fnegF32 d a g u)
  | _ => .error .reservedFn

/-- Major 0x3B of the map (R64). -/
def decode3B (d a b : BitVec 7) (g : Guard) (u : Bool) : Except Undef Instr :=
  .ok (.addBf16x2 d a b g u)

/-- Major 0x3C of the map (R64). -/
def decode3C (d a b : BitVec 7) (g : Guard) (u : Bool) : Except Undef Instr :=
  .ok (.mulBf16x2 d a b g u)

/-- Major 0x3D of the map (R64). -/
def decode3D (d a b : BitVec 7) (g : Guard) (u : Bool) : Except Undef Instr :=
  .ok (.fmaBf16x2 d a b g u)

/-- Major 0x3E of the map (R64). -/
def decode3E (d a b : BitVec 7) (g : Guard) (u : Bool) : Except Undef Instr :=
  .ok (.addF16x2 d a b g u)

/-- Major 0x3F of the map (R64). -/
def decode3F (d a b : BitVec 7) (g : Guard) (u : Bool) : Except Undef Instr :=
  .ok (.mulF16x2 d a b g u)

/-- Major 0x40 of the map (R64). -/
def decode40 (d a b : BitVec 7) (g : Guard) (u : Bool) : Except Undef Instr :=
  .ok (.fmaF16x2 d a b g u)

/-- Major 0x41 of the map (R64). -/
def decode41 (d a b : BitVec 7) (g : Guard) (u : Bool) : Except Undef Instr :=
  match b.toNat with
  | 0 => .ok (.minBf16x2 d a g u)
  | 1 => .ok (.maxBf16x2 d a g u)
  | 2 => .ok (.minF16x2 d a g u)
  | 3 => .ok (.maxF16x2 d a g u)
  | _ => .error .reservedFn

/-- Major 0x42 of the map (R64). -/
def decode42 (d a b : BitVec 7) (g : Guard) (u : Bool) : Except Undef Instr :=
  match b.toNat with
  | 0 => need (!u) .uniformBit (need (isNotQueue a) .badRegister (.ok (.redAddF32 d a g)))
  | 1 => need (!u) .uniformBit (need (isNotQueue a) .badRegister (.ok (.redMinF32 d a g)))
  | 2 => need (!u) .uniformBit (need (isNotQueue a) .badRegister (.ok (.redMaxF32 d a g)))
  | 3 => need (!u) .uniformBit (need (isNotQueue a) .badRegister (.ok (.redAdd d a g)))
  | 4 => need (!u) .uniformBit (need (isNotQueue a) .badRegister (.ok (.redMin d a g)))
  | 5 => need (!u) .uniformBit (need (isNotQueue a) .badRegister (.ok (.redMax d a g)))
  | 6 => need (!u) .uniformBit (need (isNotQueue a) .badRegister (.ok (.scanAddF32 d a g)))
  | 7 => need (!u) .uniformBit (need (isNotQueue a) .badRegister (.ok (.scanAdd d a g)))
  | _ => .error .reservedFn

/-- Major 0x48 of the map (R64). -/
def decode48 (d a b : BitVec 7) (g : Guard) (u : Bool) : Except Undef Instr :=
  named (cvtOf (b.extractLsb' 3 4)) fun k =>
  named (rndOf (b.extractLsb' 0 3)) fun r =>
  need (cvtOk k r) .reservedSubfield (.ok (.cvt k r d a g u))

/-- Major 0x49 of the map (R64). -/
def decode49 (d a b : BitVec 7) (g : Guard) (u : Bool) : Except Undef Instr :=
  named (packOf (b.extractLsb' 3 4)) fun k =>
  named (rndOf (b.extractLsb' 0 3)) fun r =>
  need (packOk k r) .reservedSubfield (.ok (.pack k r d a g u))

/-- Major 0x4A of the map (R64). -/
def decode4A (d a b : BitVec 7) (g : Guard) (u : Bool) : Except Undef Instr :=
  named (unpackOf (b.extractLsb' 3 4)) fun k =>
  let e := b.extractLsb' 0 3
  need (unpackOk k e a) .reservedSubfield (.ok (.unpack k e d a g u))

/-- Major 0x4B of the map (R64). -/
def decode4B (d a b : BitVec 7) (g : Guard) (u : Bool) : Except Undef Instr :=
  need (!b.getLsbD 6) .reservedSubfield
    (named (b4Of (b.extractLsb' 0 2)) fun t =>
      let e := b.extractLsb' 2 3
      let sr := b.getLsbD 5
      need (isPair a) .badRegister (.ok (.packB4 t e sr d a g u)))

/-- Major 0x50 of the map (R64). -/
def decode50 (d a b : BitVec 7) (g : Guard) (u : Bool) : Except Undef Instr :=
  let imm := b
  need (isPair a) .badRegister (.ok (.ldW d a imm g u))

/-- Major 0x51 of the map (R64). -/
def decode51 (d a b : BitVec 7) (g : Guard) (u : Bool) : Except Undef Instr :=
  let imm := b
  need (isPair d) .badRegister (need (isPair a) .badRegister (.ok (.ldD d a imm g u)))

/-- Major 0x52 of the map (R64). -/
def decode52 (d a b : BitVec 7) (g : Guard) (u : Bool) : Except Undef Instr :=
  let imm := b
  need (isQuad d) .badRegister (need (isPair a) .badRegister (.ok (.ldQ d a imm g u)))

/-- Major 0x53 of the map (R64). -/
def decode53 (d a b : BitVec 7) (g : Guard) (u : Bool) : Except Undef Instr :=
  let imm := b
  need (isPair a) .badRegister (.ok (.ldH d a imm g u))

/-- Major 0x54 of the map (R64). -/
def decode54 (d a b : BitVec 7) (g : Guard) (u : Bool) : Except Undef Instr :=
  let imm := b
  need (isPair a) .badRegister (.ok (.stW d a imm g u))

/-- Major 0x55 of the map (R64). -/
def decode55 (d a b : BitVec 7) (g : Guard) (u : Bool) : Except Undef Instr :=
  let imm := b
  need (isPair d) .badRegister (need (isPair a) .badRegister (.ok (.stD d a imm g u)))

/-- Major 0x56 of the map (R64). -/
def decode56 (d a b : BitVec 7) (g : Guard) (u : Bool) : Except Undef Instr :=
  let imm := b
  need (isQuad d) .badRegister (need (isPair a) .badRegister (.ok (.stQ d a imm g u)))

/-- Major 0x57 of the map (R64). -/
def decode57 (d a b : BitVec 7) (g : Guard) (u : Bool) : Except Undef Instr :=
  let imm := b
  need (isPair a) .badRegister (.ok (.stH d a imm g u))

/-- Major 0x58 of the map (R64). -/
def decode58 (d a b : BitVec 7) (g : Guard) (u : Bool) : Except Undef Instr :=
  let imm := b
  need (isPair a) .badRegister (.ok (.ldHu d a imm g u))

/-- Major 0x59 of the map (R64). -/
def decode59 (d a b : BitVec 7) (g : Guard) (u : Bool) : Except Undef Instr :=
  let imm := b
  need (isPair a) .badRegister (.ok (.ldB d a imm g u))

/-- Major 0x5A of the map (R64). -/
def decode5A (d a b : BitVec 7) (g : Guard) (u : Bool) : Except Undef Instr :=
  let imm := b
  need (isPair a) .badRegister (.ok (.ldBu d a imm g u))

/-- Major 0x5B of the map (R64). -/
def decode5B (d a b : BitVec 7) (g : Guard) (u : Bool) : Except Undef Instr :=
  let imm := b
  need (isPair a) .badRegister (.ok (.stB d a imm g u))

/-- Major 0x5C of the map (R64). -/
def decode5C (d a b : BitVec 7) (g : Guard) (u : Bool) : Except Undef Instr :=
  let imm := b
  match d.toNat with
  | 0 => need (isPair a) .badRegister (.ok (.pfL1 a imm g u))
  | 1 => need (isPair a) .badRegister (.ok (.pfL2 a imm g u))
  | _ => .error .reservedSubfield

/-- Major 0x5D of the map (R64). -/
def decode5D (d a b : BitVec 7) (g : Guard) (u : Bool) : Except Undef Instr :=
  match b.toNat with
  | 0 => need (d == 0) .unusedField (need (isPair a) .badRegister (.ok (.cinv a g u)))
  | 1 => need (d == 0 && a == 0) .unusedField (.ok (.cinvAll g u))
  | _ => .error .reservedFn

/-- Major 0x5E of the map (R64). -/
def decode5E (d a b : BitVec 7) (g : Guard) (u : Bool) : Except Undef Instr :=
  named (scopeOf (b.extractLsb' 0 3)) fun sc =>
  match (b.extractLsb' 3 4).toNat with
  | 0 => need (isNotQueue d) .badRegister (need (isPair a) .badRegister (.ok (.ldAcqW d a sc g u)))
  | 1 => need (isPair d) .badRegister (need (isPair a) .badRegister (.ok (.ldAcqD d a sc g u)))
  | 2 => need (isNotQueue d) .badRegister (need (isPair a) .badRegister (.ok (.stRelW d a sc g u)))
  | 3 => need (isPair d) .badRegister (need (isPair a) .badRegister (.ok (.stRelD d a sc g u)))
  | 4 => need (isNotQueue d) .badRegister (need (isPair a) .badRegister (.ok (.ldScW d a sc g u)))
  | 5 => need (isPair d) .badRegister (need (isPair a) .badRegister (.ok (.ldScD d a sc g u)))
  | 6 => need (isNotQueue d) .badRegister (need (isPair a) .badRegister (.ok (.stScW d a sc g u)))
  | 7 => need (isPair d) .badRegister (need (isPair a) .badRegister (.ok (.stScD d a sc g u)))
  | _ => .error .reservedFn

/-- Major 0x60 of the map (R64). -/
def decode60 (d a b : BitVec 7) (g : Guard) (u : Bool) : Except Undef Instr :=
  named (atomOpOf (b.extractLsb' 3 4)) fun o =>
  named (scopeOf (b.extractLsb' 0 3)) fun sc =>
  need (isNotQueue d) .badRegister (need (isPair a) .badRegister (.ok (.atom o d a sc g u)))

/-- Major 0x61 of the map (R64). -/
def decode61 (d a b : BitVec 7) (g : Guard) (u : Bool) : Except Undef Instr :=
  named (atomOpOf (b.extractLsb' 3 4)) fun o =>
  named (scopeOf (b.extractLsb' 0 3)) fun sc =>
  need (isPair d) .badRegister (need (isPair a) .badRegister (.ok (.atomD o d a sc g u)))

/-- Major 0x62 of the map (R64). -/
def decode62 (d a b : BitVec 7) (g : Guard) (u : Bool) : Except Undef Instr :=
  named (atomFOpOf (b.extractLsb' 3 4)) fun o =>
  named (scopeOf (b.extractLsb' 0 3)) fun sc =>
  need (isNotQueue d) .badRegister (need (isPair a) .badRegister (.ok (.atomF32 o d a sc g u)))

/-- Major 0x63 of the map (R64). -/
def decode63 (d a b : BitVec 7) (g : Guard) (u : Bool) : Except Undef Instr :=
  named (scopeOf (b.extractLsb' 0 3)) fun sc =>
  match (b.extractLsb' 3 4).toNat with
  | 0 => need (isPair d) .badRegister (need (isPair a) .badRegister (.ok (.casW d a sc g u)))
  | 1 => need (isQuad d) .badRegister (need (isPair a) .badRegister (.ok (.casD d a sc g u)))
  | _ => .error .reservedFn

/-- Major 0x64 of the map (R64). -/
def decode64 (d a b : BitVec 7) (g : Guard) (u : Bool) : Except Undef Instr :=
  named (scopeOf (b.extractLsb' 0 3)) fun sc =>
  match (b.extractLsb' 3 4).toNat with
  | 0 => need (d == 0 && a == 0) .unusedField (need (!u) .uniformBit (.ok (.fence sc g)))
  | _ => .error .reservedFn

/-- Major 0x65 of the map (R64). -/
def decode65 (d a b : BitVec 7) (g : Guard) (u : Bool) : Except Undef Instr :=
  named (pollOf (b.extractLsb' 3 4)) fun c =>
  named (scopeOf (b.extractLsb' 0 3)) fun sc =>
  need (isNotQueue d) .badRegister (need (isPair a) .badRegister (.ok (.poll c d a sc g u)))

/-- Major 0x66 of the map (R64). -/
def decode66 (d a b : BitVec 7) (g : Guard) (u : Bool) : Except Undef Instr :=
  match b.toNat with
  | 0 => need (d == 0 && a == 0) .unusedField (need (!u) .uniformBit (.ok (.barB g)))
  | 1 => need (d == 0 && a == 0) .unusedField (need (!u) .uniformBit (.ok (.barC g)))
  | 2 => need (d == 0 && a == 0) .unusedField (need (!u) .uniformBit (.ok (.barDev g)))
  | 3 => need (d == 0 && a == 0) .unusedField (need (!u) .uniformBit (.ok (.barDom g)))
  | _ => .error .reservedFn

/-- Major 0x67 of the map (R64). -/
def decode67 (d a b : BitVec 7) (g : Guard) (u : Bool) : Except Undef Instr :=
  match b.toNat with
  | 0 => need (d == 0 && a == 0) .unusedField (need u .uniformBit (.ok (.tktTake g)))
  | 1 => need (a == 0) .unusedField (need u .uniformBit (.ok (.tktWait d g)))
  | 2 => need (d == 0) .unusedField (need u .uniformBit (.ok (.qcfg a g)))
  | _ => .error .reservedFn

/-- Major 0x68 of the map (R64). -/
def decode68 (d a b : BitVec 7) (g : Guard) (u : Bool) : Except Undef Instr :=
  match b.toNat with
  | 0 => need (d == 0) .unusedField (need u .uniformBit (need (isOct a) .badRegister (.ok (.copy1d a g))))
  | 1 => need (d == 0) .unusedField (need u .uniformBit (need (isOct a) .badRegister (.ok (.copy2d a g))))
  | 2 => need (d == 0) .unusedField (need u .uniformBit (need (isOct a) .badRegister (.ok (.copyG a g))))
  | _ => .error .reservedFn

/-- Major 0x69 of the map (R64). -/
def decode69 (d a b : BitVec 7) (g : Guard) (u : Bool) : Except Undef Instr :=
  match b.toNat with
  | 0 => need (a == 0) .unusedField (need u .uniformBit (.ok (.batch d g)))
  | _ => .error .reservedFn

/-- Major 0x6A of the map (R64). -/
def decode6A (d a b : BitVec 7) (g : Guard) (u : Bool) : Except Undef Instr :=
  match b.toNat with
  | 0 => need (d == 0) .unusedField (need u .uniformBit (.ok (.waitB a g)))
  | _ => .error .reservedFn

/-- Major 0x6B of the map (R64). -/
def decode6B (d a b : BitVec 7) (g : Guard) (u : Bool) : Except Undef Instr :=
    let i : BitVec 14 := a ++ b
    let l := i.extractLsb' 9 5
    let st := i.extractLsb' 4 5
    let t := i.extractLsb' 0 4
    need (d == 0) .unusedField (need (!u) .uniformBit (.ok (.waitC l st t g)))

/-- Major 0x6C of the map (R64). -/
def decode6C (d a b : BitVec 7) (g : Guard) (u : Bool) : Except Undef Instr :=
  named (collOf b) fun k => need (d == 0) .unusedField (need u .uniformBit (need (isOct a) .badRegister (.ok (.coll k a g))))

/-- Major 0x70 of the map (R64). -/
def decode70 (d a b : BitVec 7) (g : Guard) (u : Bool) : Except Undef Instr :=
  need (b.extractLsb' 3 3 == 0) .reservedFn
    (named (mmaOf (b.extractLsb' 0 3)) fun t =>
      if b.getLsbD 6 then need u .uniformBit (need (isPlain d) .badRegister (need (isOct a) .badRegister (.ok (.mmaPair t d a g))))
      else need u .uniformBit (need (isPlain d) .badRegister (need (isOct a) .badRegister (.ok (.mma t d a g)))))

/-- Major 0x71 of the map (R64). -/
def decode71 (d a b : BitVec 7) (g : Guard) (u : Bool) : Except Undef Instr :=
  match b.toNat with
  | 0 => need (d == 0) .unusedField (need u .uniformBit (need (isOct a) .badRegister (.ok (.tld a g))))
  | 1 => need (d == 0) .unusedField (need u .uniformBit (need (isOct a) .badRegister (.ok (.tst a g))))
  | 2 => need (d == 0) .unusedField (need u .uniformBit (need (isPlain a) .badRegister (.ok (.accZero a g))))
  | 3 => need u .uniformBit (need (isPlain d) .badRegister (need (isPlain a) .badRegister (.ok (.accRd d a g))))
  | 4 => need u .uniformBit (need (isPlain d) .badRegister (need (isPlain a) .badRegister (.ok (.accWr d a g))))
  | 5 =>
    match d.toNat with
    | 0 => need (d == 0) .unusedField (need u .uniformBit (need (isPlain a) .badRegister (.ok (.accChkTile a g))))
    | 1 => need u .uniformBit (need (isPlain a) .badRegister (.ok (.accChkTen a g)))
    | _ => .error .reservedSubfield
  | _ => .error .reservedFn

/-- Major 0x72 of the map (R64). -/
def decode72 (d a b : BitVec 7) (g : Guard) (u : Bool) : Except Undef Instr :=
  match b.toNat with
  | 0 => need u .uniformBit (need (isPlain d) .badRegister (need (isPlain a) .badRegister (.ok (.pin d a g))))
  | 1 => need u .uniformBit (need (isPlainPair d) .badRegister (need (isPlain a) .badRegister (.ok (.unpin d a g))))
  | 2 => need u .uniformBit (need (isPlainPair d) .badRegister (need (isPlain a) .badRegister (.ok (.fwupd d a g))))
  | 3 => need u .uniformBit (need (isPlain d) .badRegister (need (isPlain a) .badRegister (.ok (.fwrd d a g))))
  | _ => .error .reservedFn

/-- Major 0x73 of the map (R64). -/
def decode73 (d a b : BitVec 7) (g : Guard) (u : Bool) : Except Undef Instr :=
  match b.toNat with
  | 0 => need u .uniformBit (need (isPlain d) .badRegister (need (isPlain a) .badRegister (.ok (.rnsfI16 d a g))))
  | 1 => need u .uniformBit (need (isPlain d) .badRegister (need (isPlain a) .badRegister (.ok (.rnsfI32 d a g))))
  | 2 => need u .uniformBit (need (isQuad d) .badRegister (need (isPlain a) .badRegister (.ok (.rnsr d a g))))
  | 3 => need u .uniformBit (need (isPlain d) .badRegister (need (isPlain a) .badRegister (.ok (.rnsChk d a g))))
  | _ => .error .reservedFn

/-- Major 0x78 of the map (R64). -/
def decode78 (d a b : BitVec 7) (g : Guard) (u : Bool) : Except Undef Instr :=
  match b.toNat with
  | 0 => need (d == 0) .unusedField (need u .uniformBit (.ok (.rset a g)))
  | 1 => need (d == 0) .unusedField (need u .uniformBit (.ok (.rpost a g)))
  | 2 => need u .uniformBit (.ok (.rget d a g))
  | _ => .error .reservedFn

/-- Major 0x79 of the map (R64). -/
def decode79 (d a b : BitVec 7) (g : Guard) (u : Bool) : Except Undef Instr :=
  match b.toNat with
  | 0 => need (d == 0 && a == 0) .unusedField (need u .uniformBit (.ok (.qend g)))
  | 1 => need (a == 0) .unusedField (.ok (.rand d g u))
  | _ => .error .reservedFn

/-- Major 0x7A of the map (R64). -/
def decode7A (d a b : BitVec 7) (g : Guard) (u : Bool) : Except Undef Instr :=
  match b.toNat with
  | 0 => need (a == 0) .unusedField (.ok (.eqId d g u))
  | 1 => need (a == 0) .unusedField (need (isPair d) .badRegister (.ok (.eqGen d g u)))
  | 2 => need (a == 0) .unusedField (.ok (.eqTheta d g u))
  | _ => .error .reservedFn

/-- The map by major (R64). -/
def decodeMajor (op d a b : BitVec 7) (g : Guard) (u : Bool) : Except Undef Instr :=
  match op.toNat with
  | 0x02 => decode02 d a b g u
  | 0x03 => decode03 d a b g u
  | 0x04 => decode04 d a b g u
  | 0x05 => decode05 d a b g u
  | 0x06 => decode06 d a b g u
  | 0x07 => decode07 d a b g u
  | 0x08 => decode08 d a b g u
  | 0x09 => decode09 d a b g u
  | 0x0A => decode0A d a b g u
  | 0x10 => decode10 d a b g u
  | 0x11 => decode11 d a b g u
  | 0x12 => decode12 d a b g u
  | 0x13 => decode13 d a b g u
  | 0x14 => decode14 d a b g u
  | 0x15 => decode15 d a b g u
  | 0x16 => decode16 d a b g u
  | 0x17 => decode17 d a b g u
  | 0x18 => decode18 d a b g u
  | 0x19 => decode19 d a b g u
  | 0x1A => decode1A d a b g u
  | 0x1B => decode1B d a b g u
  | 0x1C => decode1C d a b g u
  | 0x1D => decode1D d a b g u
  | 0x1E => decode1E d a b g u
  | 0x1F => decode1F d a b g u
  | 0x20 => decode20 d a b g u
  | 0x21 => decode21 d a b g u
  | 0x22 => decode22 d a b g u
  | 0x23 => decode23 d a b g u
  | 0x24 => decode24 d a b g u
  | 0x25 => decode25 d a b g u
  | 0x26 => decode26 d a b g u
  | 0x27 => decode27 d a b g u
  | 0x28 => decode28 d a b g u
  | 0x29 => decode29 d a b g u
  | 0x2A => decode2A d a b g u
  | 0x2B => decode2B d a b g u
  | 0x2C => decode2C d a b g u
  | 0x2D => decode2D d a b g u
  | 0x2E => decode2E d a b g u
  | 0x2F => decode2F d a b g u
  | 0x30 => decode30 d a b g u
  | 0x31 => decode31 d a b g u
  | 0x32 => decode32 d a b g u
  | 0x33 => decode33 d a b g u
  | 0x34 => decode34 d a b g u
  | 0x35 => decode35 d a b g u
  | 0x36 => decode36 d a b g u
  | 0x37 => decode37 d a b g u
  | 0x38 => decode38 d a b g u
  | 0x39 => decode39 d a b g u
  | 0x3A => decode3A d a b g u
  | 0x3B => decode3B d a b g u
  | 0x3C => decode3C d a b g u
  | 0x3D => decode3D d a b g u
  | 0x3E => decode3E d a b g u
  | 0x3F => decode3F d a b g u
  | 0x40 => decode40 d a b g u
  | 0x41 => decode41 d a b g u
  | 0x42 => decode42 d a b g u
  | 0x48 => decode48 d a b g u
  | 0x49 => decode49 d a b g u
  | 0x4A => decode4A d a b g u
  | 0x4B => decode4B d a b g u
  | 0x50 => decode50 d a b g u
  | 0x51 => decode51 d a b g u
  | 0x52 => decode52 d a b g u
  | 0x53 => decode53 d a b g u
  | 0x54 => decode54 d a b g u
  | 0x55 => decode55 d a b g u
  | 0x56 => decode56 d a b g u
  | 0x57 => decode57 d a b g u
  | 0x58 => decode58 d a b g u
  | 0x59 => decode59 d a b g u
  | 0x5A => decode5A d a b g u
  | 0x5B => decode5B d a b g u
  | 0x5C => decode5C d a b g u
  | 0x5D => decode5D d a b g u
  | 0x5E => decode5E d a b g u
  | 0x60 => decode60 d a b g u
  | 0x61 => decode61 d a b g u
  | 0x62 => decode62 d a b g u
  | 0x63 => decode63 d a b g u
  | 0x64 => decode64 d a b g u
  | 0x65 => decode65 d a b g u
  | 0x66 => decode66 d a b g u
  | 0x67 => decode67 d a b g u
  | 0x68 => decode68 d a b g u
  | 0x69 => decode69 d a b g u
  | 0x6A => decode6A d a b g u
  | 0x6B => decode6B d a b g u
  | 0x6C => decode6C d a b g u
  | 0x70 => decode70 d a b g u
  | 0x71 => decode71 d a b g u
  | 0x72 => decode72 d a b g u
  | 0x73 => decode73 d a b g u
  | 0x78 => decode78 d a b g u
  | 0x79 => decode79 d a b g u
  | 0x7A => decode7A d a b g u
  | _ => .error .reservedMajor

/-- The decoder of one word outside a literal pair (R62, R63). The reserved guard makes every word undefined. -/
def decodeFields (op d a b : BitVec 7) (g : BitVec 3) (u : Bool) : Except Undef Instr :=
  match guardOf g with
  | none => .error .reservedGuard
  | some g => decodeMajor op d a b g u

/-- The decoder of one word. -/
def decodeWord (w : Word) : Except Undef Instr :=
  decodeFields (majorOf w) (dOf w) (aOf w) (bOf w) (gOf w) (uOf w)

/-- A partner under a literal word (R53): the immediate becomes lit25 × 2^7 + x. -/
def decodePartner (lit : BitVec 25) : Instr → Except Undef Instr
  | .addi d a imm g u => .ok (.addiP d a (lit ++ imm) g u)
  | .andi d a imm g u => .ok (.andiP d a (lit ++ imm) g u)
  | .ori d a imm g u => .ok (.oriP d a (lit ++ imm) g u)
  | .xori d a imm g u => .ok (.xoriP d a (lit ++ imm) g u)
  | .movi d imm g u => need (imm.extractLsb' 7 7 == 0) .partnerHighBits (.ok (.moviP d (lit ++ imm.extractLsb' 0 7) g u))
  | .ldW d a imm g u => .ok (.ldWP d a (lit ++ imm) g u)
  | .ldD d a imm g u => .ok (.ldDP d a (lit ++ imm) g u)
  | .ldQ d a imm g u => .ok (.ldQP d a (lit ++ imm) g u)
  | .ldH d a imm g u => .ok (.ldHP d a (lit ++ imm) g u)
  | .stW d a imm g u => .ok (.stWP d a (lit ++ imm) g u)
  | .stD d a imm g u => .ok (.stDP d a (lit ++ imm) g u)
  | .stQ d a imm g u => .ok (.stQP d a (lit ++ imm) g u)
  | .stH d a imm g u => .ok (.stHP d a (lit ++ imm) g u)
  | .ldHu d a imm g u => .ok (.ldHuP d a (lit ++ imm) g u)
  | .ldB d a imm g u => .ok (.ldBP d a (lit ++ imm) g u)
  | .ldBu d a imm g u => .ok (.ldBuP d a (lit ++ imm) g u)
  | .stB d a imm g u => .ok (.stBP d a (lit ++ imm) g u)
  | .pfL1 a imm g u => .ok (.pfL1P a (lit ++ imm) g u)
  | .pfL2 a imm g u => .ok (.pfL2P a (lit ++ imm) g u)
  | _ => .error .forbiddenPairing

/-- The decoder of a literal pair (R53): a second literal word, and every partner whose form takes no literal, is a
forbidden pairing. -/
def decodePair (lit : BitVec 25) (w : Word) : Except Undef Instr :=
  if majorOf w = 1 then .error .forbiddenPairing
  else
    match decodeWord w with
    | .error e => .error e
    | .ok i => decodePartner lit i

/-- Four bytes as a little-endian word (R6). -/
def le32 (b0 b1 b2 b3 : Byte) : Word := b3 ++ b2 ++ b1 ++ b0

/-- A defined form, or the undefined word itself, which R62 then judges. -/
def formOr (pfx : Option (BitVec 25)) (w : Word) (r : Except Undef Instr) : Instr :=
  match r with
  | .ok i => i
  | .error _ => .undefinedWord pfx w

/-- Two words as a wave issues them: the step they are and how many bytes it spans (R53, R231). -/
def decodeTwo (w : Word) (w2 : Word) : Instr × Nat :=
  if majorOf w = 1 then (formOr (some (w.extractLsb' 0 25)) w2 (decodePair (w.extractLsb' 0 25) w2), 8)
  else (formOr none w (decodeWord w), 4)

/-- The decoder of a byte string, total: it refuses only a string too short to hold the word, or the partner. -/
def decodeBytes : List Byte → Except DecodeError (Instr × Nat)
  | b0 :: b1 :: b2 :: b3 :: rest =>
    let w := le32 b0 b1 b2 b3
    if majorOf w = 1 then
      match rest with
      | c0 :: c1 :: c2 :: c3 :: _ => .ok (decodeTwo w (le32 c0 c1 c2 c3))
      | _ => .error .truncated
    else .ok (decodeTwo w 0)
  | _ => .error .truncated

/-- Byte i of a number, least significant first (R6). -/
def byteAt (w i : Nat) : Byte := BitVec.ofNat 8 (w / 256 ^ i)

/-- The instruction the decoder reads from an instruction whose table bits are w; bits above nbits are 0. -/
def decodeTableWord (nbits w : Nat) : Option Instr :=
  match decodeBytes ((List.range 8).map (byteAt (w % 2 ^ nbits))) with
  | .ok (.undefinedWord _ _, _) => none
  | .ok (i, _) => some i
  | .error _ => none

/-- The words of a step, from the encoding tables of the map (R51 to R66, R53); an event has none. -/
def encode : Instr → List Word
  | .powerOn _ _ _ => []
  | .powerRemoval => []
  | .thermalLimit _ => []
  | .thermalClear _ => []
  | .powerCapEnforce _ _ => []
  | .registerWrite _ _ => []
  | .launchQueueEnable _ => []
  | .trapRingEnable _ => []
  | .formatWindowEnable _ _ => []
  | .formatWindowDisable _ _ => []
  | .xltInvalidatePage _ => []
  | .xltInvalidateAsid _ => []
  | .xltInvalidateAll => []
  | .xltInvalidationComplete => []
  | .rnsfailWrite _ _ => []
  | .rnsfailEffect => []
  | .attestationReport => []
  | .preemptBlock => []
  | .restoreBlock _ => []
  | .resume => []
  | .discard => []
  | .checkpointLaunch => []
  | .restoreLaunch _ => []
  | .notify _ _ => []
  | .runCommand => []
  | .loadCommand => []
  | .unloadCommand => []
  | .clusterPlacement => []
  | .drain => []
  | .blockRetirement => []
  | .runCompletion => []
  | .quantumBoundary => []
  | .standingBoundary => []
  | .deferredJournalEntry => []
  | .relaxationPlacement => []
  | .relaxationRetirement => []
  | .relaxationKill => []
  | .inputWrite _ => []
  | .inputLanding => []
  | .snapshotRequest _ => []
  | .snapshotServe => []
  | .subscribe _ => []
  | .unloadCompletion => []
  | .residualEntryError => []
  | .reservedMessage => []
  | .messageGrant => []
  | .portDown => []
  | .remoteRead _ _ _ _ => []
  | .remoteWrite _ _ _ _ => []
  | .remoteAtomic _ _ _ _ => []
  | .readResponse _ _ _ => []
  | .writeResponse _ _ => []
  | .atomicResponse _ _ _ => []
  | .remoteRequestTimeout => []
  | .collectiveData _ => []
  | .barrierArrive _ _ => []
  | .barrierRelease _ => []
  | .loadDataReturn => []
  | .storeAcknowledgement => []
  | .l1LeaseEnd => []
  | .pageWalk => []
  | .copyJobStart => []
  | .copyJobFault => []
  | .copyJobCompletion => []
  | .matrixOperationRetirement => []
  | .pairOperationFollowerStart => []
  | .pinAllocation => []
  | .pressureSpill => []
  | .governorWindow => []
  | .backoffExpiry => []
  | .starvation => []
  | .timerTrap => []
  | .blockHalt => []
  | .trapRecordPosting => []
  | .repost => []
  | .rollback => []
  | .undefinedWord (some lit) w => [litWord lit, w]
  | .undefinedWord none w => [w]
  | .exit g => [packWord 0x02 0 0 0 (guardBits g) false]
  | .nop g => [packWord 0x03 0 0 0 (guardBits g) false]
  | .j off g u => [packWord 0x04 (off.extractLsb' 14 7) (off.extractLsb' 7 7) (off.extractLsb' 0 7) (guardBits g) u]
  | .call off g u => [packWord 0x05 (off.extractLsb' 14 7) (off.extractLsb' 7 7) (off.extractLsb' 0 7) (guardBits g) u]
  | .joinSet off g => [packWord 0x06 (off.extractLsb' 14 7) (off.extractLsb' 7 7) (off.extractLsb' 0 7) (guardBits g) false]
  | .join g => [packWord 0x07 0 0 0 (guardBits g) false]
  | .yield g => [packWord 0x07 0 0 1 (guardBits g) false]
  | .jr a g u => [packWord 0x08 0 a 0 (guardBits g) u]
  | .callr a g u => [packWord 0x08 0 a 1 (guardBits g) u]
  | .ret g => [packWord 0x08 0 0 2 (guardBits g) false]
  | .trap imm g => [packWord 0x09 0 (imm.extractLsb' 7 7) (imm.extractLsb' 0 7) (guardBits g) false]
  | .trret g => [packWord 0x0A 0 0 0 (guardBits g) false]
  | .lmapLd g => [packWord 0x0A 0 0 1 (guardBits g) false]
  | .add d a b g u => [packWord 0x10 d a b (guardBits g) u]
  | .sub d a b g u => [packWord 0x11 d a b (guardBits g) u]
  | .addi d a imm g u => [packWord 0x12 d a imm (guardBits g) u]
  | .addiP d a imm g u => [litWord (imm.extractLsb' 7 25), packWord 0x12 d a (imm.extractLsb' 0 7) (guardBits g) u]
  | .mul d a b g u => [packWord 0x13 d a b (guardBits g) u]
  | .mulh d a b g u => [packWord 0x14 d a b (guardBits g) u]
  | .mulhu d a b g u => [packWord 0x15 d a b (guardBits g) u]
  | .and d a b g u => [packWord 0x16 d a b (guardBits g) u]
  | .andi d a imm g u => [packWord 0x17 d a imm (guardBits g) u]
  | .andiP d a imm g u => [litWord (imm.extractLsb' 7 25), packWord 0x17 d a (imm.extractLsb' 0 7) (guardBits g) u]
  | .or d a b g u => [packWord 0x18 d a b (guardBits g) u]
  | .ori d a imm g u => [packWord 0x19 d a imm (guardBits g) u]
  | .oriP d a imm g u => [litWord (imm.extractLsb' 7 25), packWord 0x19 d a (imm.extractLsb' 0 7) (guardBits g) u]
  | .xor d a b g u => [packWord 0x1A d a b (guardBits g) u]
  | .xori d a imm g u => [packWord 0x1B d a imm (guardBits g) u]
  | .xoriP d a imm g u => [litWord (imm.extractLsb' 7 25), packWord 0x1B d a (imm.extractLsb' 0 7) (guardBits g) u]
  | .shli d a sh g u => [packWord 0x1C d a ((0 : BitVec 2) ++ sh) (guardBits g) u]
  | .shri d a sh g u => [packWord 0x1D d a ((0 : BitVec 2) ++ sh) (guardBits g) u]
  | .srai d a sh g u => [packWord 0x1E d a ((0 : BitVec 2) ++ sh) (guardBits g) u]
  | .shl d a b g u => [packWord 0x1F d a b (guardBits g) u]
  | .shr d a b g u => [packWord 0x20 d a b (guardBits g) u]
  | .sra d a b g u => [packWord 0x21 d a b (guardBits g) u]
  | .seteq d a b g u => [packWord 0x22 d a b (guardBits g) u]
  | .setlt d a b g u => [packWord 0x23 d a b (guardBits g) u]
  | .setltu d a b g u => [packWord 0x24 d a b (guardBits g) u]
  | .sel d a b g u => [packWord 0x25 d a b (guardBits g) u]
  | .min d a g u => [packWord 0x26 d a 0 (guardBits g) u]
  | .max d a g u => [packWord 0x26 d a 1 (guardBits g) u]
  | .minu d a g u => [packWord 0x26 d a 2 (guardBits g) u]
  | .maxu d a g u => [packWord 0x26 d a 3 (guardBits g) u]
  | .rol d a g u => [packWord 0x26 d a 4 (guardBits g) u]
  | .ror d a g u => [packWord 0x26 d a 5 (guardBits g) u]
  | .addD d a g u => [packWord 0x26 d a 6 (guardBits g) u]
  | .subD d a g u => [packWord 0x26 d a 7 (guardBits g) u]
  | .adda d a g u => [packWord 0x26 d a 8 (guardBits g) u]
  | .bfx d a g u => [packWord 0x26 d a 9 (guardBits g) u]
  | .bfi d a g u => [packWord 0x26 d a 10 (guardBits g) u]
  | .popc d a g u => [packWord 0x27 d a 0 (guardBits g) u]
  | .clz d a g u => [packWord 0x27 d a 1 (guardBits g) u]
  | .ctz d a g u => [packWord 0x27 d a 2 (guardBits g) u]
  | .brev d a g u => [packWord 0x27 d a 3 (guardBits g) u]
  | .bswap d a g u => [packWord 0x27 d a 4 (guardBits g) u]
  | .neg d a g u => [packWord 0x27 d a 5 (guardBits g) u]
  | .not d a g u => [packWord 0x27 d a 6 (guardBits g) u]
  | .abs d a g u => [packWord 0x27 d a 7 (guardBits g) u]
  | .sextB d a g u => [packWord 0x27 d a 8 (guardBits g) u]
  | .sextH d a g u => [packWord 0x27 d a 9 (guardBits g) u]
  | .movi d imm g u => [packWord 0x28 d (imm.extractLsb' 7 7) (imm.extractLsb' 0 7) (guardBits g) u]
  | .moviP d imm g u => [litWord (imm.extractLsb' 7 25), packWord 0x28 d 0 (imm.extractLsb' 0 7) (guardBits g) u]
  | .mov d a g u => [packWord 0x29 d a 0 (guardBits g) u]
  | .movD d a g u => [packWord 0x29 d a 1 (guardBits g) u]
  | .maskAny d a g => [packWord 0x29 d a 2 (guardBits g) false]
  | .maskAll d a g => [packWord 0x29 d a 3 (guardBits g) false]
  | .maskLo d a g => [packWord 0x29 d a 4 (guardBits g) false]
  | .maskHi d a g => [packWord 0x29 d a 5 (guardBits g) false]
  | .maskCnt d a g => [packWord 0x29 d a 6 (guardBits g) false]
  | .movS d sr g u => [packWord 0x2A d ((sregBits sr).extractLsb' 7 7) ((sregBits sr).extractLsb' 0 7) (guardBits g) u]
  | .movSW d sr g u => [packWord 0x2B d ((sregBits sr).extractLsb' 7 7) ((sregBits sr).extractLsb' 0 7) (guardBits g) u]
  | .wbase imm g => [packWord 0x2C 0 (imm.extractLsb' 7 7) (imm.extractLsb' 0 7) (guardBits g) false]
  | .qxH d a g => [packWord 0x2D d a 0 (guardBits g) false]
  | .qxV d a g => [packWord 0x2D d a 1 (guardBits g) false]
  | .qxD d a g => [packWord 0x2D d a 2 (guardBits g) false]
  | .qxB0 d a g => [packWord 0x2D d a 3 (guardBits g) false]
  | .qxB1 d a g => [packWord 0x2D d a 4 (guardBits g) false]
  | .qxB2 d a g => [packWord 0x2D d a 5 (guardBits g) false]
  | .qxB3 d a g => [packWord 0x2D d a 6 (guardBits g) false]
  | .shflPick d a b g => [packWord 0x2E d a b (guardBits g) false]
  | .shflXor d a k g => [packWord 0x2F d a ((0 : BitVec 1) ++ k) (guardBits g) false]
  | .addF32 d a b g u => [packWord 0x30 d a b (guardBits g) u]
  | .subF32 d a b g u => [packWord 0x31 d a b (guardBits g) u]
  | .mulF32 d a b g u => [packWord 0x32 d a b (guardBits g) u]
  | .fmaF32 d a b g u => [packWord 0x33 d a b (guardBits g) u]
  | .minF32 d a b g u => [packWord 0x34 d a b (guardBits g) u]
  | .maxF32 d a b g u => [packWord 0x35 d a b (guardBits g) u]
  | .seteqF32 d a b g u => [packWord 0x36 d a b (guardBits g) u]
  | .setltF32 d a b g u => [packWord 0x37 d a b (guardBits g) u]
  | .setleF32 d a b g u => [packWord 0x38 d a b (guardBits g) u]
  | .setunF32 d a b g u => [packWord 0x39 d a b (guardBits g) u]
  | .rcpF32 d a g u => [packWord 0x3A d a 0 (guardBits g) u]
  | .rsqrtF32 d a g u => [packWord 0x3A d a 1 (guardBits g) u]
  | .sqrtF32 d a g u => [packWord 0x3A d a 2 (guardBits g) u]
  | .exp2F32 d a g u => [packWord 0x3A d a 3 (guardBits g) u]
  | .log2F32 d a g u => [packWord 0x3A d a 4 (guardBits g) u]
  | .sinF32 d a g u => [packWord 0x3A d a 5 (guardBits g) u]
  | .cosF32 d a g u => [packWord 0x3A d a 6 (guardBits g) u]
  | .rintF32 d a g u => [packWord 0x3A d a 7 (guardBits g) u]
  | .floorF32 d a g u => [packWord 0x3A d a 8 (guardBits g) u]
  | .ceilF32 d a g u => [packWord 0x3A d a 9 (guardBits g) u]
  | .truncF32 d a g u => [packWord 0x3A d a 10 (guardBits g) u]
  | .classF32 d a g u => [packWord 0x3A d a 11 (guardBits g) u]
  | .fabsF32 d a g u => [packWord 0x3A d a 12 (guardBits g) u]
  | .fnegF32 d a g u => [packWord 0x3A d a 13 (guardBits g) u]
  | .addBf16x2 d a b g u => [packWord 0x3B d a b (guardBits g) u]
  | .mulBf16x2 d a b g u => [packWord 0x3C d a b (guardBits g) u]
  | .fmaBf16x2 d a b g u => [packWord 0x3D d a b (guardBits g) u]
  | .addF16x2 d a b g u => [packWord 0x3E d a b (guardBits g) u]
  | .mulF16x2 d a b g u => [packWord 0x3F d a b (guardBits g) u]
  | .fmaF16x2 d a b g u => [packWord 0x40 d a b (guardBits g) u]
  | .minBf16x2 d a g u => [packWord 0x41 d a 0 (guardBits g) u]
  | .maxBf16x2 d a g u => [packWord 0x41 d a 1 (guardBits g) u]
  | .minF16x2 d a g u => [packWord 0x41 d a 2 (guardBits g) u]
  | .maxF16x2 d a g u => [packWord 0x41 d a 3 (guardBits g) u]
  | .redAddF32 d a g => [packWord 0x42 d a 0 (guardBits g) false]
  | .redMinF32 d a g => [packWord 0x42 d a 1 (guardBits g) false]
  | .redMaxF32 d a g => [packWord 0x42 d a 2 (guardBits g) false]
  | .redAdd d a g => [packWord 0x42 d a 3 (guardBits g) false]
  | .redMin d a g => [packWord 0x42 d a 4 (guardBits g) false]
  | .redMax d a g => [packWord 0x42 d a 5 (guardBits g) false]
  | .scanAddF32 d a g => [packWord 0x42 d a 6 (guardBits g) false]
  | .scanAdd d a g => [packWord 0x42 d a 7 (guardBits g) false]
  | .cvt k r d a g u => [packWord 0x48 d a (cvtBits k ++ rndBits r) (guardBits g) u]
  | .pack k r d a g u => [packWord 0x49 d a (packBits k ++ rndBits r) (guardBits g) u]
  | .unpack k e d a g u => [packWord 0x4A d a (unpackBits k ++ e) (guardBits g) u]
  | .packB4 t e sr d a g u => [packWord 0x4B d a ((0 : BitVec 1) ++ BitVec.ofBool sr ++ e ++ b4Bits t) (guardBits g) u]
  | .ldW d a imm g u => [packWord 0x50 d a imm (guardBits g) u]
  | .ldWP d a imm g u => [litWord (imm.extractLsb' 7 25), packWord 0x50 d a (imm.extractLsb' 0 7) (guardBits g) u]
  | .ldD d a imm g u => [packWord 0x51 d a imm (guardBits g) u]
  | .ldDP d a imm g u => [litWord (imm.extractLsb' 7 25), packWord 0x51 d a (imm.extractLsb' 0 7) (guardBits g) u]
  | .ldQ d a imm g u => [packWord 0x52 d a imm (guardBits g) u]
  | .ldQP d a imm g u => [litWord (imm.extractLsb' 7 25), packWord 0x52 d a (imm.extractLsb' 0 7) (guardBits g) u]
  | .ldH d a imm g u => [packWord 0x53 d a imm (guardBits g) u]
  | .ldHP d a imm g u => [litWord (imm.extractLsb' 7 25), packWord 0x53 d a (imm.extractLsb' 0 7) (guardBits g) u]
  | .stW d a imm g u => [packWord 0x54 d a imm (guardBits g) u]
  | .stWP d a imm g u => [litWord (imm.extractLsb' 7 25), packWord 0x54 d a (imm.extractLsb' 0 7) (guardBits g) u]
  | .stD d a imm g u => [packWord 0x55 d a imm (guardBits g) u]
  | .stDP d a imm g u => [litWord (imm.extractLsb' 7 25), packWord 0x55 d a (imm.extractLsb' 0 7) (guardBits g) u]
  | .stQ d a imm g u => [packWord 0x56 d a imm (guardBits g) u]
  | .stQP d a imm g u => [litWord (imm.extractLsb' 7 25), packWord 0x56 d a (imm.extractLsb' 0 7) (guardBits g) u]
  | .stH d a imm g u => [packWord 0x57 d a imm (guardBits g) u]
  | .stHP d a imm g u => [litWord (imm.extractLsb' 7 25), packWord 0x57 d a (imm.extractLsb' 0 7) (guardBits g) u]
  | .ldHu d a imm g u => [packWord 0x58 d a imm (guardBits g) u]
  | .ldHuP d a imm g u => [litWord (imm.extractLsb' 7 25), packWord 0x58 d a (imm.extractLsb' 0 7) (guardBits g) u]
  | .ldB d a imm g u => [packWord 0x59 d a imm (guardBits g) u]
  | .ldBP d a imm g u => [litWord (imm.extractLsb' 7 25), packWord 0x59 d a (imm.extractLsb' 0 7) (guardBits g) u]
  | .ldBu d a imm g u => [packWord 0x5A d a imm (guardBits g) u]
  | .ldBuP d a imm g u => [litWord (imm.extractLsb' 7 25), packWord 0x5A d a (imm.extractLsb' 0 7) (guardBits g) u]
  | .stB d a imm g u => [packWord 0x5B d a imm (guardBits g) u]
  | .stBP d a imm g u => [litWord (imm.extractLsb' 7 25), packWord 0x5B d a (imm.extractLsb' 0 7) (guardBits g) u]
  | .pfL1 a imm g u => [packWord 0x5C 0 a imm (guardBits g) u]
  | .pfL1P a imm g u => [litWord (imm.extractLsb' 7 25), packWord 0x5C 0 a (imm.extractLsb' 0 7) (guardBits g) u]
  | .pfL2 a imm g u => [packWord 0x5C 1 a imm (guardBits g) u]
  | .pfL2P a imm g u => [litWord (imm.extractLsb' 7 25), packWord 0x5C 1 a (imm.extractLsb' 0 7) (guardBits g) u]
  | .cinv a g u => [packWord 0x5D 0 a 0 (guardBits g) u]
  | .cinvAll g u => [packWord 0x5D 0 0 1 (guardBits g) u]
  | .ldAcqW d a sc g u => [packWord 0x5E d a ((0 : BitVec 4) ++ scopeBits sc) (guardBits g) u]
  | .ldAcqD d a sc g u => [packWord 0x5E d a ((1 : BitVec 4) ++ scopeBits sc) (guardBits g) u]
  | .stRelW d a sc g u => [packWord 0x5E d a ((2 : BitVec 4) ++ scopeBits sc) (guardBits g) u]
  | .stRelD d a sc g u => [packWord 0x5E d a ((3 : BitVec 4) ++ scopeBits sc) (guardBits g) u]
  | .ldScW d a sc g u => [packWord 0x5E d a ((4 : BitVec 4) ++ scopeBits sc) (guardBits g) u]
  | .ldScD d a sc g u => [packWord 0x5E d a ((5 : BitVec 4) ++ scopeBits sc) (guardBits g) u]
  | .stScW d a sc g u => [packWord 0x5E d a ((6 : BitVec 4) ++ scopeBits sc) (guardBits g) u]
  | .stScD d a sc g u => [packWord 0x5E d a ((7 : BitVec 4) ++ scopeBits sc) (guardBits g) u]
  | .atom o d a sc g u => [packWord 0x60 d a (atomOpBits o ++ scopeBits sc) (guardBits g) u]
  | .atomD o d a sc g u => [packWord 0x61 d a (atomOpBits o ++ scopeBits sc) (guardBits g) u]
  | .atomF32 o d a sc g u => [packWord 0x62 d a (atomFOpBits o ++ scopeBits sc) (guardBits g) u]
  | .casW d a sc g u => [packWord 0x63 d a ((0 : BitVec 4) ++ scopeBits sc) (guardBits g) u]
  | .casD d a sc g u => [packWord 0x63 d a ((1 : BitVec 4) ++ scopeBits sc) (guardBits g) u]
  | .fence sc g => [packWord 0x64 0 0 ((0 : BitVec 4) ++ scopeBits sc) (guardBits g) false]
  | .poll c d a sc g u => [packWord 0x65 d a (pollBits c ++ scopeBits sc) (guardBits g) u]
  | .barB g => [packWord 0x66 0 0 0 (guardBits g) false]
  | .barC g => [packWord 0x66 0 0 1 (guardBits g) false]
  | .barDev g => [packWord 0x66 0 0 2 (guardBits g) false]
  | .barDom g => [packWord 0x66 0 0 3 (guardBits g) false]
  | .tktTake g => [packWord 0x67 0 0 0 (guardBits g) true]
  | .tktWait d g => [packWord 0x67 d 0 1 (guardBits g) true]
  | .qcfg a g => [packWord 0x67 0 a 2 (guardBits g) true]
  | .copy1d a g => [packWord 0x68 0 a 0 (guardBits g) true]
  | .copy2d a g => [packWord 0x68 0 a 1 (guardBits g) true]
  | .copyG a g => [packWord 0x68 0 a 2 (guardBits g) true]
  | .batch d g => [packWord 0x69 d 0 0 (guardBits g) true]
  | .waitB a g => [packWord 0x6A 0 a 0 (guardBits g) true]
  | .waitC l st t g => [packWord 0x6B 0 ((l ++ st ++ t : BitVec 14).extractLsb' 7 7) ((l ++ st ++ t : BitVec 14).extractLsb' 0 7) (guardBits g) false]
  | .coll k a g => [packWord 0x6C 0 a (collBits k) (guardBits g) true]
  | .mma t d a g => [packWord 0x70 d a ((0 : BitVec 1) ++ (0 : BitVec 3) ++ mmaBits t) (guardBits g) true]
  | .mmaPair t d a g => [packWord 0x70 d a ((1 : BitVec 1) ++ (0 : BitVec 3) ++ mmaBits t) (guardBits g) true]
  | .tld a g => [packWord 0x71 0 a 0 (guardBits g) true]
  | .tst a g => [packWord 0x71 0 a 1 (guardBits g) true]
  | .accZero a g => [packWord 0x71 0 a 2 (guardBits g) true]
  | .accRd d a g => [packWord 0x71 d a 3 (guardBits g) true]
  | .accWr d a g => [packWord 0x71 d a 4 (guardBits g) true]
  | .accChkTile a g => [packWord 0x71 0 a 5 (guardBits g) true]
  | .accChkTen a g => [packWord 0x71 1 a 5 (guardBits g) true]
  | .pin d a g => [packWord 0x72 d a 0 (guardBits g) true]
  | .unpin d a g => [packWord 0x72 d a 1 (guardBits g) true]
  | .fwupd d a g => [packWord 0x72 d a 2 (guardBits g) true]
  | .fwrd d a g => [packWord 0x72 d a 3 (guardBits g) true]
  | .rnsfI16 d a g => [packWord 0x73 d a 0 (guardBits g) true]
  | .rnsfI32 d a g => [packWord 0x73 d a 1 (guardBits g) true]
  | .rnsr d a g => [packWord 0x73 d a 2 (guardBits g) true]
  | .rnsChk d a g => [packWord 0x73 d a 3 (guardBits g) true]
  | .rset a g => [packWord 0x78 0 a 0 (guardBits g) true]
  | .rpost a g => [packWord 0x78 0 a 1 (guardBits g) true]
  | .rget d a g => [packWord 0x78 d a 2 (guardBits g) true]
  | .qend g => [packWord 0x79 0 0 0 (guardBits g) true]
  | .rand d g u => [packWord 0x79 d 0 1 (guardBits g) u]
  | .eqId d g u => [packWord 0x7A d 0 0 (guardBits g) u]
  | .eqGen d g u => [packWord 0x7A d 0 1 (guardBits g) u]
  | .eqTheta d g u => [packWord 0x7A d 0 2 (guardBits g) u]
  | .softError _ => []
  | .reservedCommand => []

end Sys2Proof
end

