-- ==== Sys2Proof/Machine/Flags.lean ====
section
/-! DEFINITION. Number formats, rounding, flags and the Millet generator (R93 to R110). An exact value is a sign and
a dyadic magnitude n * 2^e, with a sticky mark for a magnitude that lies strictly above it and below the next step of
any finer grid in use. -/

namespace Sys2Proof.Machine

open Sys2Proof

/-- The five flags of R104 as one byte. -/
abbrev Flags := Byte

/-- inexact (R104) -/
def flagNX : Flags := 1
/-- underflow (R104) -/
def flagUF : Flags := 2
/-- overflow (R104) -/
def flagOF : Flags := 4
/-- divide by zero (R104) -/
def flagDZ : Flags := 8
/-- invalid (R104) -/
def flagNV : Flags := 16

/-- A flag raised on a condition. -/
def flagIf (c : Bool) (f : Flags) : Flags := if c then f else 0

/-! ## The Millet generator -/

/-- R106. -/
def millet (c k : BitVec 64) : BitVec 64 :=
  let z := c ^^^ k
  let z := (z ^^^ (z >>> 29)) * 0x8F3C5A16E2B9D447
  let z := (z ^^^ (z >>> 31)) * 0x5B2E9D71C3F4A08B
  z ^^^ (z >>> 28)

/-- The vector counter of R107: retired count, element, lane. -/
def vectorCounter (count e lane : Nat) : BitVec 64 :=
  BitVec.ofNat 64 ((count % 2 ^ 48) * 256 + (e % 4) * 64 + lane % 64)

/-- The matrix counter of R107. -/
def matrixCounter (tensor row col : Nat) (writes : Nat) : BitVec 64 :=
  BitVec.ofNat 64 (2 ^ 63 + (tensor % 2 ^ 15) * 2 ^ 48 + (row % 256) * 2 ^ 40 + (col % 256) * 2 ^ 32 + writes % 2 ^ 32)

/-- The 24 bits that stochastic rounding draws (R101). -/
def drawBits (c k : BitVec 64) : Nat := ((millet c k).extractLsb' 40 24).toNat

/-! ## Formats -/

/-- A floating-point layout (R93). -/
structure Fmt where
  ew : Nat
  fw : Nat
  bias : Nat
  /-- the format has infinities; E4M3 has none -/
  inf : Bool
  deriving DecidableEq, Repr

/-- FP32 (R93). -/
def fp32 : Fmt := ⟨8, 23, 127, true⟩
/-- FP16 (R93). -/
def fp16 : Fmt := ⟨5, 10, 15, true⟩
/-- BF16 (R93). -/
def bf16 : Fmt := ⟨8, 7, 127, true⟩
/-- E5M2 (R93). -/
def e5m2 : Fmt := ⟨5, 2, 15, true⟩
/-- E4M3 (R93). -/
def e4m3 : Fmt := ⟨4, 3, 7, false⟩

/-- The value a pattern stands for (R93, R95): a finite value is (-1)^neg * m * 2^e. -/
inductive FVal where
  | nan (signalling : Bool)
  | inf (neg : Bool)
  | fin (neg : Bool) (m : Nat) (e : Int)
  deriving DecidableEq, Repr

/-- The exponent of the last place of subnormals. -/
def Fmt.emin (f : Fmt) : Int := 1 - (f.bias : Int) - (f.fw : Int)

/-- The sign bit of a format as a number. -/
def Fmt.signBit (f : Fmt) : Nat := 2 ^ (f.ew + f.fw)

/-- The canonical NaN (R94). -/
def Fmt.nan (f : Fmt) : Nat := if f.inf then (2 ^ f.ew - 1) * 2 ^ f.fw + 2 ^ (f.fw - 1) else (2 ^ f.ew - 1) * 2 ^ f.fw + (2 ^ f.fw - 1)

/-- Infinity of a sign (R94). -/
def Fmt.infOf (f : Fmt) (neg : Bool) : Nat := (if neg then f.signBit else 0) + (2 ^ f.ew - 1) * 2 ^ f.fw

/-- A zero of a sign. -/
def Fmt.zero (f : Fmt) (neg : Bool) : Nat := if neg then f.signBit else 0

/-- The pattern of the largest finite magnitude (R94). -/
def Fmt.maxFin (f : Fmt) : Nat := if f.inf then (2 ^ f.ew - 1) * 2 ^ f.fw - 1 else (2 ^ f.ew - 1) * 2 ^ f.fw + (2 ^ f.fw - 2)

/-- Read a pattern (R93, R95): E5M2 and E4M3 have only quiet NaNs. -/
def Fmt.read (f : Fmt) (x : Nat) : FVal :=
  let neg := decide (x / f.signBit % 2 = 1)
  let e := x / 2 ^ f.fw % 2 ^ f.ew
  let m := x % 2 ^ f.fw
  if f.inf && e == 2 ^ f.ew - 1 then
    if m = 0 then .inf neg else .nan (decide (m / 2 ^ (f.fw - 1) % 2 = 0) && decide (f.fw ≠ 2))
  else if !f.inf && e == 2 ^ f.ew - 1 && m == 2 ^ f.fw - 1 then .nan false
  else if e = 0 then .fin neg m f.emin
  else .fin neg (2 ^ f.fw + m) (f.emin + (e : Int) - 1)

/-- The pattern is a subnormal. -/
def Fmt.subnormal (f : Fmt) (x : Nat) : Bool :=
  x / 2 ^ f.fw % 2 ^ f.ew == 0 && x % 2 ^ f.fw != 0

/-- Read with subnormals as zeros of their sign (R102). -/
def Fmt.readFlush (f : Fmt) (flush : Bool) (x : Nat) : FVal :=
  if flush && f.subnormal x then .fin (decide (x / f.signBit % 2 = 1)) 0 0 else f.read x

/-- The value is a signalling NaN. -/
def FVal.isSnan : FVal → Bool
  | .nan s => s
  | _ => false

/-- The value is a NaN. -/
def FVal.isNan : FVal → Bool
  | .nan _ => true
  | _ => false

/-- The value is zero. -/
def FVal.isZero : FVal → Bool
  | .fin _ m _ => m == 0
  | _ => false

/-- The value is an infinity. -/
def FVal.isInf : FVal → Bool
  | .inf _ => true
  | _ => false

/-- The sign of a value that is no NaN. -/
def FVal.neg : FVal → Bool
  | .nan _ => false
  | .inf s => s
  | .fin s _ _ => s

/-- The opposite value. -/
def FVal.negate : FVal → FVal
  | .nan s => .nan s
  | .inf s => .inf (!s)
  | .fin s m e => .fin (!s) m e

/-! ## Rounding -/

/-- Whether a magnitude a + rest / 2^s (plus a sticky excess) goes to a + 1 (R100, R101); `u` are the drawn bits. -/
def roundUp (mode : Rnd) (neg : Bool) (a rest s : Nat) (sticky : Bool) (u : Nat) : Bool :=
  if rest == 0 && !sticky then false
  else match mode with
    | .mode => decide (2 * rest > 2 ^ s) || (decide (2 * rest = 2 ^ s) && (sticky || a % 2 == 1))
    | .rne => decide (2 * rest > 2 ^ s) || (decide (2 * rest = 2 ^ s) && (sticky || a % 2 == 1))
    | .rtz => false
    | .rup => !neg
    | .rdn => neg
    | .sr => decide (u ≥ 2 ^ 24 - rest * 2 ^ 24 / 2 ^ s)

/-- A magnitude n * 2^e cut at the step 2^q: whole steps, rest, and the width of the rest. -/
def cutAt (n : Nat) (e q : Int) : Nat × Nat × Nat :=
  if q ≤ e then (n * 2 ^ (e - q).toNat, 0, 0)
  else (n / 2 ^ (q - e).toNat, n % 2 ^ (q - e).toNat, (q - e).toNat)

/-- The pattern of r steps of 2^q in a format, without sign; not yet checked for overflow. -/
def Fmt.assemble (f : Fmt) (r : Nat) (q : Int) : Nat :=
  if q = f.emin ∧ r < 2 ^ f.fw then r else ((q - f.emin).toNat + 1) * 2 ^ f.fw + (r - 2 ^ f.fw)

/-- Whether a magnitude below the smallest normal one stays below it when rounded without a lower bound (R102). -/
def Fmt.tiny (f : Fmt) (mode : Rnd) (neg : Bool) (n : Nat) (e : Int) (sticky : Bool) (u : Nat) : Bool :=
  let top : Int := (Nat.log2 n : Int) + e
  if f.emin + (f.fw : Int) ≤ top then false
  else
    let q := top - (f.fw : Int)
    let c := cutAt n e q
    let up := roundUp mode neg c.1 c.2.1 c.2.2 sticky u
    !(decide (top + 1 = f.emin + (f.fw : Int)) && up && c.1 + 1 == 2 ^ (f.fw + 1))

/-- The result of an overflow (R100); a format without infinities saturates (R130). -/
def Fmt.overflow (f : Fmt) (mode : Rnd) (neg : Bool) : Nat :=
  (if neg then f.signBit else 0) +
  (if !f.inf then f.maxFin
   else match mode with
     | .rtz => f.maxFin
     | .rup => if neg then f.maxFin else f.maxFin + 1
     | .rdn => if neg then f.maxFin + 1 else f.maxFin
     | .mode => f.maxFin + 1
     | .rne => f.maxFin + 1
     | .sr => f.maxFin + 1)

/-- ROUND (R100 to R102) of a magnitude that is not zero: pattern and flags. -/
def Fmt.round (f : Fmt) (mode : Rnd) (flush : Bool) (u : Nat) (neg : Bool) (n : Nat) (e : Int) (sticky : Bool) :
    Nat × Flags :=
  let sgn := if neg then f.signBit else 0
  let top : Int := (Nat.log2 n : Int) + e
  let q := max (top - (f.fw : Int)) f.emin
  let c := cutAt n e q
  let inexact := c.2.1 != 0 || sticky
  let r := if roundUp mode neg c.1 c.2.1 c.2.2 sticky u then c.1 + 1 else c.1
  let bits := f.assemble r q
  if bits > f.maxFin then (f.overflow mode neg, flagOF ||| flagNX)
  else if flush && f.subnormal bits then (sgn, flagUF ||| flagNX)
  else (sgn + bits, flagIf inexact flagNX ||| flagIf (inexact && f.tiny mode neg n e sticky u) flagUF)

/-- Rounding mode, drawn bits and flush of one rounding. -/
structure RCtx where
  mode : Rnd
  u : Nat
  flush : Bool
  deriving DecidableEq, Repr

/-- Round to nearest even, nothing flushed. -/
def rneKeep : RCtx := ⟨.rne, 0, false⟩

/-- ROUND of a signed dyadic value; `zeroNeg` is the sign of an exact zero. -/
def Fmt.roundInt (f : Fmt) (c : RCtx) (v : Int) (e : Int) (zeroNeg : Bool) : Nat × Flags :=
  if v = 0 then (f.zero zeroNeg, 0) else f.round c.mode c.flush c.u (decide (v < 0)) v.natAbs e false

/-- A signed dyadic number m * 2^e. -/
structure Dy where
  m : Int
  e : Int
  deriving DecidableEq, Repr

/-- Exact sum. -/
def Dy.add (x y : Dy) : Dy :=
  if x.e ≤ y.e then ⟨x.m + y.m * 2 ^ (y.e - x.e).toNat, x.e⟩
  else ⟨x.m * 2 ^ (x.e - y.e).toNat + y.m, y.e⟩

/-- Exact product. -/
def Dy.mul (x y : Dy) : Dy := ⟨x.m * y.m, x.e + y.e⟩

/-- Exact opposite. -/
def Dy.neg (x : Dy) : Dy := ⟨-x.m, x.e⟩

/-- Exact magnitude. -/
def Dy.abs (x : Dy) : Dy := ⟨(x.m.natAbs : Int), x.e⟩

/-- x is at most y. -/
def Dy.le (x y : Dy) : Bool := decide ((x.add y.neg).m ≤ 0)

/-- The dyadic number a finite value stands for; 0 for the others. -/
def FVal.dy : FVal → Dy
  | .fin s m e => ⟨if s then -(m : Int) else (m : Int), e⟩
  | _ => ⟨0, 0⟩

/-- The canonical NaN of a format, with the invalid flag on a condition. -/
def Fmt.nanOut (f : Fmt) (nv : Bool) : Nat × Flags := (f.nan, flagIf nv flagNV)

/-- Fused multiply-add x * y + c with one rounding (R89, R118). -/
def Fmt.fma (f : Fmt) (r : RCtx) (x y c : FVal) : Nat × Flags :=
  let snan := x.isSnan || y.isSnan || c.isSnan
  let badProd := (x.isZero && y.isInf) || (x.isInf && y.isZero)
  let pneg := x.neg != y.neg
  if x.isNan || y.isNan || badProd || c.isNan then f.nanOut (snan || badProd)
  else if x.isInf || y.isInf then
    if c.isInf && c.neg != pneg then f.nanOut true else (f.infOf pneg, 0)
  else if c.isInf then (f.infOf c.neg, 0)
  else
    let p := x.dy.mul y.dy
    let s := p.add c.dy
    let zneg := if p.m = 0 ∧ c.dy.m = 0 ∧ pneg = c.neg then c.neg else r.mode == .rdn
    f.roundInt r s.m s.e zneg

/-- Addition (R89, R118). -/
def Fmt.addF (f : Fmt) (r : RCtx) (x y : FVal) : Nat × Flags := f.fma r x (.fin false 1 0) y

/-- Multiplication (R89, R118). -/
def Fmt.mulF (f : Fmt) (r : RCtx) (x y : FVal) : Nat × Flags :=
  let bad := (x.isZero && y.isInf) || (x.isInf && y.isZero)
  let neg := x.neg != y.neg
  if x.isNan || y.isNan || bad then f.nanOut (x.isSnan || y.isSnan || bad)
  else if x.isInf || y.isInf then (f.infOf neg, 0)
  else
    let p := x.dy.mul y.dy
    f.roundInt r p.m p.e neg

/-- x is less than y, for values that are no NaNs; +0 equals -0. -/
def FVal.lt : FVal → FVal → Bool
  | .nan _, _ => false
  | _, .nan _ => false
  | .inf s, .inf t => s && !t
  | .inf s, .fin _ _ _ => s
  | .fin _ _ _, .inf t => !t
  | .fin s m e, .fin t n k => decide (((FVal.fin s m e).dy.add (FVal.fin t n k).dy.neg).m < 0)

/-- x equals y as numbers. -/
def FVal.eq (x y : FVal) : Bool := !x.isNan && !y.isNan && !x.lt y && !y.lt x

/-- minimumNumber and maximumNumber (R119) on patterns; `max` picks the maximum. -/
def Fmt.minmax (f : Fmt) (max : Bool) (x y : Nat) : Nat × Flags :=
  let p := f.read x
  let q := f.read y
  let nv := flagIf (p.isSnan || q.isSnan) flagNV
  if p.isNan && q.isNan then (f.nan, nv)
  else if p.isNan then (y, nv)
  else if q.isNan then (x, nv)
  else
    let xLess := p.lt q || (p.eq q && p.neg && !q.neg)
    (if xLess != max then x else y, nv)

/-- Replace a subnormal pattern by a zero of its sign (R102). -/
def Fmt.flushIn (f : Fmt) (flush : Bool) (x : Nat) : Nat :=
  if flush && f.subnormal x then f.zero (decide (x / f.signBit % 2 = 1)) else x

/-! ## Conversions -/

/-- Convert a value to a format (R128, R130): subnormals are kept. -/
def Fmt.convert (f : Fmt) (r : RCtx) (x : FVal) : Nat × Flags :=
  match x with
  | .nan s => f.nanOut s
  | .inf s => if f.inf then (f.infOf s, 0) else ((if s then f.signBit else 0) + f.maxFin, flagOF ||| flagNX)
  | .fin s m e => if m = 0 then (f.zero s, 0) else f.round r.mode false r.u s m e false

/-- Round a finite value to an integer magnitude (R124, R129); the flag says the result differs. -/
def roundToInt (mode : Rnd) (u : Nat) (neg : Bool) (m : Nat) (e : Int) : Nat × Bool :=
  let c := cutAt m e 0
  (if roundUp mode neg c.1 c.2.1 c.2.2 false u then c.1 + 1 else c.1, c.2.1 != 0)

/-- R129, for a destination range. -/
def toIntRange (mode : Rnd) (u : Nat) (lo hi : Int) (x : FVal) : Int × Flags :=
  match x with
  | .nan _ => (0, flagNV)
  | .inf s => (if s then lo else hi, flagNV)
  | .fin s m e =>
    let r := roundToInt mode u s m e
    let v : Int := if s then -(r.1 : Int) else (r.1 : Int)
    if v < lo then (lo, flagNV) else if hi < v then (hi, flagNV) else (v, flagIf r.2 flagNX)

/-- An integer to FP32 (R128). -/
def intToF32 (r : RCtx) (v : Int) : Nat × Flags := fp32.roundInt { r with flush := false } v 0 false

/-- Saturation (R128): the value and whether it changed. -/
def sat (lo hi v : Int) : Int × Flags :=
  if v < lo then (lo, flagNV) else if hi < v then (hi, flagNV) else (v, 0)

/-! ## The 4-bit block family -/

/-- The code value of R99 times 2, with its sign: codes of e2m1 are halves. -/
def b4Twice : B4Type → Nat → Bool × Nat
  | .int, c => if c < 8 then (false, 2 * c) else (true, 2 * (16 - c))
  | .e2m1, c => (decide (8 ≤ c), [0, 1, 2, 3, 4, 6, 8, 12].getD (c % 8) 0)
  | .pow2, c => (decide (8 ≤ c), if c % 8 = 0 then 0 else 2 ^ (c % 8))
  | .hyb, c => if c < 8 then (false, 2 * c) else (decide (12 ≤ c), 2 * 2 ^ (3 + c % 4))

/-- The code type a scale byte names (R98). -/
def b4TypeOf (scale : Nat) : B4Type :=
  match scale / 64 % 4 with
  | 0 => .int
  | 1 => .e2m1
  | 2 => .pow2
  | _ => .hyb

/-- The value of a code under a scale byte (R98, R99). -/
def b4Value (scale code : Nat) : FVal :=
  if scale % 64 = 63 then .nan false
  else
    let v := b4Twice (b4TypeOf scale) (code % 16)
    .fin v.1 v.2 ((scale % 64 : Int) - 33)

/-- The BF16 pattern of a code, exact (R99). -/
def b4Bf16 (scale code : Nat) : Nat :=
  match b4Value scale code with
  | .fin s m e => if m = 0 then bf16.zero s else (bf16.round .rne false 0 s m e false).1
  | _ => bf16.nan

/-- The FP32 pattern of a code, exact (R132). -/
def b4F32 (scale code : Nat) : Nat :=
  match b4Value scale code with
  | .fin s m e => if m = 0 then fp32.zero s else (fp32.round .rne false 0 s m e false).1
  | _ => fp32.nan

/-- The codes of a sign in rising order of magnitude (R99, R134): pairs (twice the magnitude, code). -/
def b4Ladder : B4Type → Bool → List (Nat × Nat)
  | .int, false => (List.range 8).map fun i => (2 * i, i)
  | .int, true => (0, 0) :: (List.range 8).map fun i => (2 * (i + 1), 15 - i)
  | .e2m1, s => (List.range 8).map fun i => ((b4Twice .e2m1 i).2, i + if s then 8 else 0)
  | .pow2, s => (List.range 8).map fun i => ((b4Twice .pow2 i).2, i + if s then 8 else 0)
  | .hyb, false => (List.range 12).map fun i => ((b4Twice .hyb i).2, i)
  | .hyb, true => (0, 0) :: (List.range 4).map fun i => (2 * 2 ^ (3 + i), 12 + i)

/-- Walk the ladder for twice the magnitude, given as n / d: the code below, its value and the step above. -/
def b4Find (n d : Nat) : List (Nat × Nat) → Nat × Nat → (Nat × Nat) × Option (Nat × Nat)
  | [], lo => (lo, none)
  | h :: t, lo => if h.1 * d ≤ n then b4Find n d t h else (lo, some h)

/-- Encode an FP32 value against a scale (R133, R134): code and flags. `u` is given under SR. -/
def packB4Code (t : B4Type) (sr : Bool) (u : Nat) (x scale : Nat) : Nat × Flags :=
  match fp32.read x with
  | .nan _ => (0, flagNV)
  | .inf s =>
    if scale % 64 = 63 then (0, flagNV)
    else (((b4Ladder t s).getLastD (0, 0)).2, flagOF ||| flagNX)
  | .fin s m e =>
    if scale % 64 = 63 then (0, flagNV)
    else
      -- twice |v| = m * 2^(e - (SEXP - 33)) = n / d
      let k : Int := e - ((scale % 64 : Int) - 33)
      let n := m * 2 ^ k.toNat
      let d := 2 ^ (-k).toNat
      let lad := b4Ladder t s
      let top := lad.getLastD (0, 0)
      let first := lad.headD (0, 0)
      if n > top.1 * d then (top.2, flagOF ||| flagNX)
      else
        match b4Find n d lad first with
        | (lo, none) => (lo.2, 0)
        | (lo, some hi) =>
          if n = lo.1 * d then (lo.2, 0)
          else
            let num := n - lo.1 * d
            let den := (hi.1 - lo.1) * d
            let up :=
              if sr then decide (u ≥ 2 ^ 24 - num * 2 ^ 24 / den)
              else decide (2 * num > den) || (decide (2 * num = den) && (lo.2 % 2 == 1))
            (if up then hi.2 else lo.2, flagNX)

/-! ## Roots and transcendental functions -/

/-- The integer square root, bit by bit from bit `k - 1` down. -/
def isqrtFrom (n : Nat) : Nat → Nat → Nat
  | 0, r => r
  | k + 1, r => if (r + 2 ^ k) * (r + 2 ^ k) ≤ n then isqrtFrom n k (r + 2 ^ k) else isqrtFrom n k r

/-- The integer square root. -/
def isqrt (n : Nat) : Nat := isqrtFrom n (Nat.log2 n / 2 + 1) 0

/-- Square root of m * 2^e as a sticky magnitude, with 80 bits or more (R121). -/
def sqrtMag (m : Nat) (e : Int) : Nat × Int × Bool :=
  let m' := if e % 2 = 0 then m else 2 * m
  let e' := if e % 2 = 0 then e else e - 1
  let n := m' * 2 ^ 160
  let r := isqrt n
  (r, e' / 2 - 80, decide (r * r ≠ n))

/-- Reciprocal of m * 2^e as a sticky magnitude (R121). -/
def rcpMag (m : Nat) (e : Int) : Nat × Int × Bool :=
  (2 ^ 160 / m, -160 - e, decide (2 ^ 160 % m ≠ 0))

/-- Reciprocal square root of m * 2^e as a sticky magnitude (R121). -/
def rsqrtMag (m : Nat) (e : Int) : Nat × Int × Bool :=
  let m' := if e % 2 = 0 then m else 2 * m
  let e' := if e % 2 = 0 then e else e - 1
  let r := isqrt (2 ^ 240 / m')
  (r, -(e' / 2) - 120, decide (r * r * m' ≠ 2 ^ 240))

/-- Sum of the odd series t + t^3/3 + t^5/5 + … (atanh) or with alternating signs (atan), in steps of 2^-p, where
`t2` is t squared; `pw` is the current power. -/
def oddSeries (p : Nat) (alt : Bool) (t2 : Nat) : Nat → Nat → Nat → Int → Int
  | 0, _, _, acc => acc
  | fuel + 1, pw, k, acc =>
    let term : Int := (pw / (2 * k + 1) : Nat)
    oddSeries p alt t2 fuel (pw * t2 / 2 ^ p) (k + 1) (if alt && k % 2 == 1 then acc - term else acc + term)

/-- atan(1/q) in steps of 2^-p, by dividing. -/
def atanInv (p q : Nat) : Nat → Nat → Nat → Int → Int
  | 0, _, _, acc => acc
  | fuel + 1, pw, k, acc =>
    let term : Int := (pw / (2 * k + 1) : Nat)
    atanInv p q fuel (pw / (q * q)) (k + 1) (if k % 2 == 1 then acc - term else acc + term)

/-- Pi in steps of 2^-p, within p steps. -/
def piFix (p : Nat) : Nat :=
  (16 * atanInv p 5 (p / 4 + 2) (2 ^ p / 5) 0 0 - 4 * atanInv p 239 (p / 15 + 2) (2 ^ p / 239) 0 0).toNat

/-- ln 2 in steps of 2^-p, within p steps. -/
def ln2Fix (p : Nat) : Nat :=
  (2 * oddSeries p false (2 ^ p / 9) (p / 3 + 2) (2 ^ p / 3) 0 0).toNat

/-- The sum of y^n / n! from n = k on, given the term before, in steps of 2^-p. -/
def expSeries (p y : Nat) : Nat → Nat → Nat → Nat → Nat
  | 0, _, _, acc => acc
  | fuel + 1, term, k, acc =>
    let t := term * y / 2 ^ p / (k + 1)
    expSeries p y fuel t (k + 1) (acc + t)

/-- The alternating series of sin (from term r, k = 1) or cos (from term 1, k = 0), in steps of 2^-p. -/
def trigSeries (p r2 : Nat) : Nat → Nat → Nat → Bool → Int → Int
  | 0, _, _, _, acc => acc
  | fuel + 1, term, k, minus, acc =>
    let t := term * r2 / 2 ^ p / ((k + 1) * (k + 2))
    trigSeries p r2 fuel t (k + 2) (!minus) (if minus then acc - (t : Int) else acc + (t : Int))

/-- Round a value known to lie strictly between (v - w) and (v + w) steps of 2^-p: the answer when both ends agree. -/
def roundBetween (v w : Int) (p : Nat) : Option (Nat × Flags) :=
  let lo := v - w
  let hi := v + w
  if lo < 0 ∧ 0 < hi ∨ lo = 0 ∨ hi = 0 then none
  else
    let neg := decide (v < 0)
    let a := if neg then hi.natAbs else lo.natAbs
    let b := if neg then lo.natAbs else hi.natAbs
    let x := fp32.round .rne false 0 neg a (-(p : Int)) true
    let y := fp32.round .rne false 0 neg b (-(p : Int)) true
    if x = y then some x else none

/-- Try rising precisions. -/
def firstSome (f : Nat → Option (Nat × Flags)) : List Nat → Nat × Flags
  | [] => (fp32.nan, 0)
  | p :: ps => match f p with
    | some r => r
    | none => firstSome f ps

/-- 2^x for a finite x that is no integer and lies between -151 and 129 (R122). -/
def exp2Mid (neg : Bool) (m : Nat) (e : Int) (p : Nat) : Option (Nat × Flags) :=
  -- x in steps of 2^-p, rounded down; its error is below one step
  let x : Int := if neg then -((cutAt m e (-(p : Int))).1 : Int) - 1 else ((cutAt m e (-(p : Int))).1 : Int)
  let k := x / 2 ^ p
  let f := (x - k * 2 ^ p).toNat
  let y := f * ln2Fix p / 2 ^ p
  let s := expSeries p y (p / 4 + 8) (2 ^ p) 0 (2 ^ p)
  -- 2^k * s * 2^-p; rounded at the exponent k - p
  let w := 8 * p
  let a := fp32.round .rne false 0 false (s - w) (k - (p : Int)) true
  let b := fp32.round .rne false 0 false (s + w) (k - (p : Int)) true
  if a = b then some a else none

/-- exp2.f32 (R121 to R123). -/
def exp2F (x : FVal) : Nat × Flags :=
  match x with
  | .nan s => fp32.nanOut s
  | .inf s => (if s then 0 else fp32.infOf false, 0)
  | .fin s m e =>
    if m = 0 then (0x3F800000, 0)
    else
      let c := cutAt m e 0
      let k : Int := if s then -(c.1 : Int) else (c.1 : Int)
      if c.1 ≥ 200 then
        (if s then fp32.round .rne false 0 false 1 (-190) true else fp32.round .rne false 0 false 1 190 true)
      else if c.2.1 = 0 then fp32.round .rne false 0 false 1 k false
      else firstSome (exp2Mid s m e) [200, 400, 800]

/-- log2 of m * 2^e, which is no power of two, with p bits (R122). -/
def log2Mid (m : Nat) (e : Int) (p : Nat) : Option (Nat × Flags) :=
  let l := Nat.log2 m
  -- z = m / 2^l in [1, 2); halve it above 1.5
  let big := decide (2 * m > 3 * 2 ^ l)
  let k : Int := e + (l : Int) + if big then 1 else 0
  let den := if big then 2 ^ (l + 1) else 2 ^ l
  let num := if m ≥ den then m - den else den - m
  let t := num * 2 ^ p / (m + den)
  let lnz := 2 * oddSeries p false (t * t / 2 ^ p) (p / 4 + 2) t 0 0
  let l2 := lnz * 2 ^ p / (ln2Fix p : Int)
  roundBetween (k * 2 ^ p + if m ≥ den then l2 else -l2) (8 * (p : Int)) p

/-- log2.f32 (R121 to R123). -/
def log2F (x : FVal) : Nat × Flags :=
  match x with
  | .nan s => fp32.nanOut s
  | .inf s => if s then fp32.nanOut true else (fp32.infOf false, 0)
  | .fin s m e =>
    if m = 0 then (fp32.infOf true, flagDZ)
    else if s then fp32.nanOut true
    else if m = 2 ^ Nat.log2 m then fp32.roundInt rneKeep (e + (Nat.log2 m : Int)) 0 false
    else firstSome (log2Mid m e) [200, 400, 800]

/-- sin or cos of a finite x that is not zero, reduced exactly by multiples of pi/2 (R122). -/
def trigMid (cos neg : Bool) (m : Nat) (e : Int) (p0 : Nat) : Option (Nat × Flags) :=
  -- precision grows with how small x is
  let p := p0 + (-(e + (Nat.log2 m : Int))).toNat
  -- x in steps of 2^-p is exact or far below a step; pi with enough bits for its quotient
  let extra := (e + (Nat.log2 m : Int)).toNat + 8
  let halfPi := piFix (p + extra)            -- pi in steps of 2^-(p+extra) is pi/2 in steps of 2^-(p+extra-1)
  let xs := (cutAt m e (-((p + extra : Nat) : Int))).1
  let k := xs * 2 / halfPi
  let r := (xs * 2 - k * halfPi) / 2 ^ (extra + 1)
  let useCos := (k % 2 == 1) != cos
  let flip :=
    if cos then (k % 4 == 1 || k % 4 == 2) else ((k % 4 == 2 || k % 4 == 3) != neg)
  let r2 := r * r / 2 ^ p
  let v := if useCos then trigSeries p r2 (p / 6 + 8) (2 ^ p) 0 true ((2 ^ p : Nat) : Int)
           else trigSeries p r2 (p / 6 + 8) r 1 true (r : Int)
  roundBetween (if flip then -v else v) (8 * (p : Int)) p

/-- sin.f32 and cos.f32 (R121 to R123). -/
def trigF (cos : Bool) (x : FVal) : Nat × Flags :=
  match x with
  | .nan s => fp32.nanOut s
  | .inf _ => fp32.nanOut true
  | .fin s m e =>
    if m = 0 then (if cos then 0x3F800000 else fp32.zero s, 0)
    else firstSome (trigMid cos s m e) [200, 400, 800]

end Sys2Proof.Machine
end

