-- ==== Sys2Proof/Config.lean ====
section
/-! DEFINITION. What the module's fuses, straps and firmware images fix, and the values that the specification
leaves open. Each is opaque: no proof can see its value. -/

namespace Sys2Proof

/-- The fuses of `MGID.SERIAL` (R400); DESIGN CHOICE: any 48-bit value (log entry 4). -/
opaque Config.serialFuse : BitVec 48

/-- `MGID.SERIAL` (R400): never 0. -/
def Config.serial : BitVec 48 := if Config.serialFuse = 0 then 1 else Config.serialFuse

/-- `MGID.DEV` (R400): the board's strap; DESIGN CHOICE: any 8-bit value (log entry 4). -/
opaque Config.dev : BitVec 8

/-- The management firmware image that a power-up finds, by a fresh number (R401 step 1, log entry 4). -/
opaque Config.mgmtImage : Nat → List Byte

/-- The device firmware image that a power-up finds, by a fresh number and by whether its signature passes (R401 step 1, log
entry 4). -/
opaque Config.deviceImage : Nat → Bool → List Byte

/-- The two primes of the identity key, fused into the management processor (R406, log entry 4). -/
opaque Config.keyPrimes : Nat × Nat

/-- The end of HBM: eight stacks of 64 GiB (R1, R2). DEDUCED: they take the physical addresses from 0 on (log entry 8). -/
def Config.hbmEnd : Nat := 8 * 2 ^ 36

/-- Which of several valid domain groups, by their numbers, `bar.dom` uses (log entry 10). -/
opaque Config.domPick : List Nat → Nat

/-- Bytes of an image section of open layout (R386, types 5 to 7), by a fresh number (log entry 9). -/
opaque Config.innerByte : Nat → Nat → Byte

/-- The length of an image section of open layout (R386, types 5 to 7), by a number of its own (log entry 9). -/
opaque Config.innerLength : Nat → Nat

/-- The product that the multipliers of a core's residue channel give in a test, for the test's own number: which channels
are sound is no state that the specification names (R368, log entry 24). -/
opaque Config.channelProduct : Nat → Nat → Nat → Int → Int → Int

/-- A block's undo store is full, by a fresh number and the words its wave has retired: its size is left open (R393, log
entry 61). -/
opaque Config.undoFull : Nat → Nat → Bool

end Sys2Proof
end

