-- ==== Sys2Proof/Machine/Store.lean ====
section
/-! DEFINITION. Finite maps as plain data: lists of (key, value) with strictly rising keys. Registers, memory and
every table of the machine are held in this one form. -/

namespace Sys2Proof.Machine

/-- A finite map from numbers, as a list with strictly rising keys. -/
abbrev KMap (α : Type) := List (Nat × α)

/-- The value at a key. -/
def KMap.get? {α : Type} : KMap α → Nat → Option α
  | [], _ => none
  | (j, v) :: m, k => if k = j then some v else if k < j then none else KMap.get? m k

/-- The value at a key, or a default. -/
def KMap.getD {α : Type} (m : KMap α) (k : Nat) (d : α) : α := (m.get? k).getD d

/-- Put a value at a key. -/
def KMap.set {α : Type} : KMap α → Nat → α → KMap α
  | [], k, v => [(k, v)]
  | (j, u) :: m, k, v =>
    if k < j then (k, v) :: (j, u) :: m
    else if k = j then (k, v) :: m
    else (j, u) :: KMap.set m k v

/-- Remove a key. -/
def KMap.erase {α : Type} : KMap α → Nat → KMap α
  | [], _ => []
  | (j, u) :: m, k =>
    if k < j then (j, u) :: m
    else if k = j then m
    else (j, u) :: KMap.erase m k

/-- Change the value at a key, where there is one. -/
def KMap.modify {α : Type} (m : KMap α) (k : Nat) (f : α → α) : KMap α :=
  match m.get? k with
  | none => m
  | some v => m.set k (f v)

/-- The keys rise strictly above a bound. -/
def KMap.above {α : Type} : Option Nat → KMap α → Bool
  | _, [] => true
  | none, (j, _) :: m => KMap.above (some j) m
  | some b, (j, _) :: m => decide (b < j) && KMap.above (some j) m

/-- The keys rise strictly. -/
def KMap.wf {α : Type} (m : KMap α) : Bool := KMap.above none m

/-- Put a value at a key of a map whose unlisted keys hold `d`: writing `d` removes the entry. -/
def KMap.put {α : Type} [DecidableEq α] (d : α) (m : KMap α) (k : Nat) (v : α) : KMap α :=
  if v = d then m.erase k else m.set k v

/-- No entry of the map equals the default. -/
def KMap.lean {α : Type} [DecidableEq α] (d : α) (m : KMap α) : Bool := m.all fun e => decide (e.2 ≠ d)

/-- The canonical form: keys rise strictly and no entry equals the default. -/
def KMap.canon {α : Type} [DecidableEq α] (d : α) (m : KMap α) : Bool := m.wf && m.lean d

/-- The keys of a map, rising. -/
def KMap.keys {α : Type} (m : KMap α) : List Nat := m.map (·.1)

/-- The values of a map, by rising key. -/
def KMap.vals {α : Type} (m : KMap α) : List α := m.map (·.2)

/-- The least number from `k` on that is no key, looking at most `fuel` numbers. -/
def KMap.firstFree {α : Type} (m : KMap α) : Nat → Nat → Option Nat
  | 0, _ => none
  | fuel + 1, k => if (m.get? k).isNone then some k else KMap.firstFree m fuel (k + 1)

end Sys2Proof.Machine
end

