-- ==== Sys2Proof/Machine/State.lean ====
section
/-! DEFINITION. The state of the Prawen as plain data: the module's control registers, memory, cores, launches,
blocks, waves, standing programs and messages, and what the model itself needs to choose its next step. -/

namespace Sys2Proof.Machine

open Sys2Proof

/-! ## Waves -/

/-- One register across the 64 lanes of a wave, lane 0 first. -/
abbrev LaneVec := List Word

/-- An entry of a divergence stack (R141). -/
inductive StackEntry where
  /-- a token: reconvergence address and arrived mask -/
  | token (reconv : DWord) (arrived : Mask)
  /-- a waiting path: program counter and active mask -/
  | path (pc : DWord) (mask : Mask)
  deriving DecidableEq, Repr

/-- Where a byte is held: physical memory (die scratchpad d from 2^48 + d*2^26 on), or a block's scratchpad run. -/
inductive Loc where
  | mem (a : Nat)
  | scr (block off : Nat)
  deriving DecidableEq, Repr

/-- Where an access goes: bytes of this device, or a peer's physical memory (R161). -/
inductive Target where
  | here (l : Loc)
  | peer (dev : Nat) (pa : Nat)
  deriving DecidableEq, Repr

/-- A read-modify-write (R211 to R213). -/
inductive Rmw where
  | int (o : AtomOp) (width : Nat)
  | f32 (o : AtomFOp)
  | cas (width : Nat)
  deriving DecidableEq, Repr

/-- One lane's part of an access. `data` is what a store writes, little-endian, or the operand of a read-modify-write or
the comparand of a `poll`; `data2` the second operand of a `cas`. -/
structure Part where
  lane : Nat
  tgt : Target
  /-- the generic address as the footprint table compares it (R164, R166) -/
  ga : Nat
  data : Nat
  data2 : Nat
  deriving DecidableEq, Repr

/-- One lane's access with its generic address and where it goes. -/
structure Reach where
  lane : Nat
  addr : DWord
  tgt : Target
  deriving DecidableEq, Repr

/-- A load, store, read-modify-write or `poll` issued and not yet performed in every lane (R169, R175). -/
structure Access where
  id : Nat
  store : Bool
  width : Nat
  signed : Bool
  /-- destination register slots of a load, low word first; none for a store or a load into `zero` -/
  dest : List Nat
  /-- lanes a uniform load writes; 0 when each lane writes its own register -/
  bcast : Mask
  parts : List Part
  /-- the read-modify-write it performs, or the comparison of a `poll` -/
  rmw : Option Rmw
  poll : Option PollCond
  /-- the core's clock as an SC store was issued (R180) -/
  sc : Option Nat
  /-- the narrow scope at which a release has published it before it was performed (R172) -/
  rel : Option Scope
  /-- the hardware queue that its words enter once every lane's has returned, and those that have: lane and word (R31) -/
  queue : Option Nat
  got : List (Nat × Word)
  deriving DecidableEq, Repr

/-- An entry of a wave's commit share (R204, R198), in program order; `lane` and `addr` are the access's own. -/
inductive Buffered where
  | store (t : Target) (width : Nat) (data : Nat) (lane : Nat) (addr : DWord)
  /-- an atomic or cas: operand, second operand of cas, destination slots and lanes -/
  | rmw (op : Rmw) (t : Target) (v w : DWord) (dest : List Nat) (lanes : Mask) (lane : Nat) (addr : DWord)
  | take
  /-- a copy or collective job, by core and number -/
  | job (core id : Nat)
  /-- the place of the stores of a tile operation that has not retired (R359) -/
  | tile (id : Nat)
  /-- an `unpin` whose dump is the number of entries before it: its tenure is struck once they have completed (R317) -/
  | strike (h : Word) (dump : Nat)
  deriving DecidableEq, Repr

/-- Why a wave is Blocked (R26). -/
inductive Blocked where
  | barB | barC | barDev | barDom | queue (n : Nat)
  /-- a `tkt.wait` that will write register d -/
  | ticket (d : Nat)
  /-- a `pin`: destination register and shape word -/
  | pin (d shape : Nat)
  | handle
  deriving DecidableEq, Repr

/-- A deferred fault of a job or a tile operation (R167, R229, R407), with the fields its record needs. -/
structure Deferred where
  /-- number of its operation among its wave's tile operations -/
  seq : Nat
  /-- place in the order of issue -/
  ord : Nat
  cause : Nat
  addr : DWord
  detail : Word
  batch : Nat
  job : Bool
  deriving DecidableEq, Repr

/-- A wave resident on a core, or exited and waiting for its block to retire (R22, R25, R26). -/
structure Wave where
  block : Nat
  index : Nat
  shadow : Bool
  core : Nat
  sect : Nat
  slot : Nat
  runBase : Nat
  /-- where its run lies on the imagined core of a DQM launch (R44): 128 times its section, plus its first granule -/
  imRun : Nat
  order : Nat
  /-- registers per lane of the allocation (R59) -/
  regCount : Nat
  pc : DWord
  active : Mask
  live : Mask
  stack : List StackEntry
  rets : List DWord
  /-- physical registers 0 to 255; lr, k0, k1, p1, p2, p3 at 256 to 261; an unlisted register holds 0 -/
  regs : KMap LaneVec
  /-- lanes of registers known poisoned, and struck but not yet read (R395) -/
  poison : KMap Mask
  struck : KMap Mask
  wb : Nat
  level : Nat
  polls : Nat
  backoff : Option Nat
  readyFrom : Nat
  starving : Bool
  /-- the governor has counted the stall of the present word (R335) -/
  governed : Bool
  stalled : Option Nat
  retired : Nat
  qcount : Nat
  qend : Bool
  wtime : Word
  wtcmp : Word
  latch : Option DWord
  fpmode : Word
  seed : DWord
  /-- the five flags of each lane (R104) -/
  fpflags : List Byte
  /-- matrix flags not yet merged: number of the operation, source lane, flags (R105) -/
  mxflags : List (Nat × Nat × Byte)
  /-- tile operations the wave has issued -/
  tiles : Nat
  sup : Bool
  tepc : DWord
  tcause : Byte
  tdepth : Nat
  tlevel : Nat
  tscr0 : Word
  tscr1 : Word
  tscr2 : Word
  tscr3 : Word
  set : Option Word
  delta : Option Word
  outst : List Access
  /-- the first time after the horizon H (R173); 0 when no write of the wave has returned one -/
  horizon : Nat
  /-- the word has performed its store and holds until this time; it then retires (R176 point 4) -/
  hold : Option Nat
  /-- the word waits until its own access of this number has been performed (R176 point 4, R177) -/
  holdOn : Option Nat
  /-- copies filled before this number serve no load of the wave (R177) -/
  acq : Nat
  /-- tags of remote requests the wave's word waits for, in order of its parts, and where its lanes' and its helper lanes'
  accesses go: the word has passed its checks (R202) -/
  remote : List Nat
  reach : List Reach
  reachHelp : List Reach
  /-- the executing lanes of a word that has begun and not retired (R62) -/
  heldT : Option Mask
  /-- peer writes sent and not yet acknowledged (R176 point 3) -/
  peerOut : List Nat
  share : List Buffered
  shareUsed : Nat
  /-- lanes of a `cas.d` buffered in parts that are already buffered (R204) -/
  partDone : Mask
  batch : Nat
  deferred : List Deferred
  parked : Option (Nat × DWord)
  /-- the keys of the walks that the wave has joined (R159), and the faults that walks have handed it: key and cause -/
  walking : List Nat
  walkOut : List (Nat × Nat)
  blocked : Option Blocked
  halted : Bool
  /-- halted at a software trap of its own, which retires at the resume (R247, R373) -/
  trapped : Bool
  skid : Nat
  /-- the last live lane has exited -/
  exited : Bool
  /-- the datapath disagrees with itself at the next issue (R392) -/
  mismatch : Bool
  deriving DecidableEq, Repr

/-! ## Records of traps -/

/-- A trap record (R375), without its SEQ. -/
structure TrapRec where
  cause : Nat
  park : Bool
  halt : Bool
  job : Bool
  sv : Bool
  shadow : Bool
  sect : Nat
  core : Nat
  wave : Nat
  asid : Nat
  tag : Word
  block : Word
  pc : DWord
  addr : DWord
  mask : Mask
  count : Nat
  detail : Word
  batch : Nat
  /-- the block (model key) and the wave the record is about, for R376 and R377 -/
  ofBlock : Nat
  ofWave : Nat
  deriving DecidableEq, Repr

/-- A record lost and still to be posted again, and when (R377). -/
structure LostRec where
  trap : TrapRec
  due : Nat
  deriving DecidableEq, Repr

/-! ## Blocks -/

/-- A halt of a block (R371): the cause, the faulting wave, and whether the broadcast is still running. -/
structure Halt where
  cause : Nat
  wave : Nat
  /-- the siblings have all stopped -/
  done : Bool
  /-- a deferred fault of an exited wave (R407) -/
  atExit : Bool
  deriving DecidableEq, Repr

/-- What a tile operation does (R348 to R368). -/
inductive TileKind where
  | mma (t : MmaType) (coff cpitch n m k : Nat)
  | tld (coff cpitch cols rows fmt : Nat)
  | tst (coff cpitch cols rows fmt : Nat) (rnd : Rnd) (tid wcnt : Nat)
  /-- units set to a kind -/
  | zero (kind : Nat)
  | rd
  | wr (kind : Nat)
  | chkTile
  | chkTen
  | pin (shape : BitVec 4)
  /-- the dump address; 0 for none -/
  | unpin (addr : DWord)
  | upd (alpha beta : Word)
  | frd
  | rnsr
  | rnsChk (x : Word)
  deriving DecidableEq, Repr

/-- A tile operation in flight (R325, R333, R348): what it read at issue, what it will write, how far it is. -/
structure TileOp where
  id : Nat
  launch : Nat
  block : Nat
  wave : Nat
  lane : Nat
  /-- the lanes of S, which its destination registers are written in -/
  lanes : Mask
  pc : DWord
  sup : Bool
  fpmode : Word
  seed : DWord
  /-- its number among the tile operations of its wave, from 1 (R229) -/
  seqNo : Nat
  kind : TileKind
  /-- element codes of A by row, or other operand data -/
  a : List (List Nat)
  /-- element codes of B by column -/
  b : List (List Nat)
  /-- bytes still to be fetched from memory, row by row: address and count (R324, R357), in accesses of `gran` -/
  rows : List (DWord × Nat)
  gran : Nat
  /-- read requests to peers under way -/
  tags : List Nat
  /-- held by a fetch or store fault on an absent page (R334, R359) -/
  held : Bool
  /-- bytes it will store, by row: address and count (R359, R317) -/
  spans : List (DWord × Nat)
  /-- stores still to be performed, once the tile has passed verification -/
  out : Option (List (DWord × List Byte))
  dest : List Nat
  /-- accumulator units it touches: block and unit; the kind it leaves them; the tenure it names -/
  units : List (Nat × Nat)
  okind : Option Nat
  tenure : Option Word
  /-- the follower's block of a pair operation (R327) -/
  follower : Option Nat
  started : Bool
  replayed : Bool
  /-- flags its results have raised, merged once it has completed (R105) -/
  flags : Byte
  /-- the memory operand it was issued with, which an operation issued again fetches again (R369) -/
  src : List (DWord × Nat)
  /-- walks it has joined and the faults they have handed it, as a wave's (R159) -/
  walking : List Nat
  walkOut : List (Nat × Nat)
  deriving DecidableEq, Repr

/-- A remote-memory request of this device (R305), with the wave, lane and address it serves. -/
structure RemoteReq where
  dev : Nat
  wave : Nat
  lane : Nat
  addr : DWord
  deadline : Nat
  status : Option Byte
  data : List Byte
  /-- number of the access it is part of (R169), whether it writes, the bytes it covers, and its address as a footprint
  (R166) -/
  acc : Nat
  write : Bool
  size : Nat
  ga : Nat
  deriving DecidableEq, Repr

/-- A rollback snapshot (R393). -/
structure Snapshot where
  waves : List (Nat × Wave)
  scr : KMap Byte
  acc : KMap Byte
  sums : KMap DWord
  kinds : KMap Nat
  /-- the hardware queues and their directions -/
  queues : KMap (List Word)
  dirs : KMap (BitVec 4)
  /-- the block's tile operations in flight -/
  ops : List TileOp
  /-- its number: jobs from it on were issued since (R394) -/
  seq : Nat
  /-- the answers of peers that words under way in it have received since, by tag -/
  answers : KMap RemoteReq
  deriving DecidableEq, Repr

/-- A block of a run, or a relaxation of a standing program (R22, R36, R267). -/
structure Block where
  launch : Nat
  /-- placement rank (R41), or equation-block id -/
  rank : Nat
  linear : Nat
  clus : Nat
  mbr : Nat
  /-- the cluster's position in curve order -/
  cpos : Nat
  core : Nat
  waves : Nat
  granules : Nat
  /-- declared scratchpad bytes and own-slice bytes per lane -/
  shared : Nat
  slice : Nat
  scrBase : Nat
  scrGran : Nat
  scr : KMap Byte
  /-- poisoned scratchpad words, by word number in the run -/
  scrPoison : KMap Unit
  accBase : Nat
  accGran : Nat
  acc : KMap Byte
  /-- the side store: 8-byte checksum pair and kind of each unit (R330, R351) -/
  sums : KMap DWord
  kinds : KMap Nat
  halt : Option Halt
  kill : Option Nat
  ticket : Option Nat
  tktAband : Bool
  pins : Nat
  /-- queue n of pair w at 4*w + n; a bit of `dirs` 1 makes the queue run from compute to shadow -/
  queues : KMap (List Word)
  dirs : KMap (BitVec 4)
  snap : Option Snapshot
  consumed : Nat
  /-- input generation at dispatch (R268) -/
  gen : DWord
  /-- core and runs on the imagined cores of a DQM launch (R44) -/
  imCore : Nat
  imScr : Nat
  imAcc : Nat
  deriving DecidableEq, Repr

/-! ## Engines of a core -/

/-- The kinds of engine job (R163, R230). -/
inductive JobKind where
  | d1 | d2 | g | coll (k : CollKind)
  deriving DecidableEq, Repr

/-- A job of a copy engine (R163 to R168). -/
structure Job where
  id : Nat
  launch : Nat
  block : Nat
  wave : Nat
  kind : JobKind
  desc : List Word
  batch : Nat
  /-- footprints as generic ranges (first byte, bytes) in the block's own view (R164) -/
  reads : List (Nat × Nat)
  writes : List (Nat × Nat)
  /-- earlier accesses of the block, by wave and number, that must complete first (R166); those at peers by their tags;
  earlier tile operations of the block that overlap -/
  waits : List (Nat × Nat)
  waitTags : List Nat
  waitOps : List Nat
  moved : Nat
  started : Bool
  paused : Bool
  pauseAddr : DWord
  /-- issued in supervisor state (R157) -/
  sup : Bool
  /-- read requests to peers whose answers the next unit needs, and writes to peers not yet acknowledged -/
  tags : List Nat
  acks : List Nat
  /-- latest completion time of its writes (R167, R173) -/
  vtime : Nat
  /-- DQM: not yet in the engine (R168) -/
  queued : Bool
  seq : Nat
  /-- contributions of the members of a collective, by rank -/
  got : KMap (List Byte)
  /-- segments of contributions that have arrived: by rank × 2^32 + offset (R306) -/
  segs : KMap (List Byte)
  /-- walks it has joined and the faults they have handed it, as a wave's (R159) -/
  walking : List Nat
  walkOut : List (Nat × Nat)
  deriving DecidableEq, Repr

/-- A tenure (R311, R319, R337). -/
structure Tenure where
  handle : Word
  launch : Nat
  tag : Word
  shape : BitVec 4
  gbase : Nat
  gcnt : Nat
  /-- imagined core of a DQM launch and first granule there (R44) -/
  imCore : Nat
  imBase : Nat
  elems : KMap Word
  csum : KMap Word
  msum : KMap Word
  writes : Nat
  failed : Bool
  pinOrder : Nat
  pinBlock : Nat
  /-- unpinned in the open quantum of a DQM launch: its handle names nothing, and its granules are free at the boundary
  (R20, R317) -/
  gone : Bool
  deriving DecidableEq, Repr

/-- An L1 copy of a line (R174): its bytes, the first time at which it may no longer serve, and its fill number. -/
structure Line where
  bytes : List Byte
  lease : Nat
  fill : Nat
  deriving DecidableEq, Repr

/-- A cached translation (R158): page base and size, physical base, entry bits. -/
structure Xlate where
  asid : Nat
  va : Nat
  size : Nat
  pa : Nat
  writable : Bool
  exec : Bool
  sup : Bool
  peer : Option Nat
  deriving DecidableEq, Repr

/-- The four section lane maps a core has adopted (R397). -/
structure LaneMaps where
  s0 : BitVec 15
  s1 : BitVec 15
  s2 : BitVec 15
  s3 : BitVec 15
  deriving DecidableEq, Repr

/-- A core: caches, engines, governor and tables (R153, R158, R163, R335, R337, R346). -/
structure Core where
  clock : Nat
  tlb : List Xlate
  l1 : KMap Line
  /-- instruction words by physical address, with their fetch numbers (R233) -/
  icache : KMap (Word × Nat)
  jobs : List Job
  ops : List TileOp
  /-- number of the window that the counts belong to (R335) -/
  govWin : Nat
  govIssues : Nat
  govLast : Nat
  govStalls : Nat
  maps : LaneMaps
  tenures : KMap Tenure
  rnsFail : Byte
  rnsWant : Byte
  rnsCount : Word
  rnsLast : BitVec 3
  /-- the launch that drains it and the rank of what waits to be placed there (R39) -/
  drains : Option (Nat × Nat)
  /-- a two-pass or duplicate issue holds section n until the time listed -/
  busy : KMap Nat
  deriving DecidableEq, Repr

/-! ## Launches and standing programs -/

/-- A launch record (R14), as read. -/
structure LaunchRec where
  entry : DWord
  gx : Nat
  gy : Nat
  gz : Nat
  kx : Nat
  ky : Nat
  kz : Nat
  waves : Nat
  regCount : Nat
  slice : Nat
  shared : Nat
  acc : Nat
  options : Word
  quantum : Nat
  seed : DWord
  mask : BitVec 192
  deriving DecidableEq, Repr

/-- An entry of the domain-group table (R295). -/
structure Group where
  members : BitVec 144
  valid : Bool
  crc : Word
  deriving DecidableEq, Repr

/-- A block whose place has been decided on the imagined cores and which waits for its physical room (R44). -/
structure Plan where
  rank : Nat
  core : Nat
  /-- imagined runs: first granule and granules -/
  scr : Nat × Nat
  acc : Nat × Nat
  /-- section, first granule and granules of each wave, a compute wave before its shadow -/
  waves : List (Nat × Nat × Nat)
  deriving DecidableEq, Repr

/-- A run, or the launch of a standing program (R3, R294). -/
structure Launch where
  standing : Option Nat
  tag : Word
  endpoint : BitVec 16
  asid : Nat
  root : Nat
  flags : Word
  log : DWord
  groups : List Group
  record : LaunchRec
  dqm : Bool
  taken : Nat
  /-- number at which the launch was taken, for fetches (R233) -/
  takenSeq : Nat
  /-- clusters placed so far, in curve order (R40) -/
  cpos : Nat
  /-- members that wait for room on their cell: rank and cell (R42) -/
  waiting : List (Nat × Nat)
  /-- since when what waits for a place waits as R39 counts, by rank: members, the next cluster, decided blocks -/
  waitFrom : KMap Nat
  /-- cores in the order in which they freed: when, and which (R20) -/
  freed : List (Nat × Nat)
  plans : List Plan
  starts : Nat
  begun : Bool
  /-- the cores have been offered to it as they stood at its launch (R19) -/
  offered : Bool
  /-- ranks of blocks that have started, retired or been discarded -/
  startedRanks : KMap Unit
  retiredRanks : KMap Unit
  /-- S of R220, tickets taken beyond it, and tickets taken by hardware -/
  tickets : Nat
  takenAhead : KMap Unit
  abandoned : KMap Unit
  pendingTakes : List (Nat × Bool)
  bounds : Nat
  quantumOpen : Bool
  /-- old values of bytes that others changed since the quantum opened (R197) -/
  view : KMap Byte
  outcome : Byte
  domGen : Nat
  domSent : Bool
  domDone : Bool
  /-- the commit is under way: how many entries, in commit order, have been performed (R198), the request of the one in
  flight to a peer (R162), those a peer has failed, and the latest completion time of the others (R173) -/
  commitSent : Bool
  commitPos : Nat
  commitReqs : List Nat
  commitBad : List Nat
  commitEnd : Nat
  /-- the buffers have been committed and the boundary's jobs are running (R278) -/
  committed : Bool
  deriving DecidableEq, Repr

/-- What the Thresher keeps of an equation block at load (R263). -/
structure EqBlock where
  theta : Word
  home : DWord
  uoff : Nat
  ulen : Nat
  subs : List (DWord × Nat)
  pins : Nat
  deriving DecidableEq, Repr

/-- An entry of the residual table (R264). -/
structure ResEntry where
  res : Word
  bump : Word
  seq : BitVec 48
  wait : Byte
  fpend : Bool
  hold : Bool
  kills : BitVec 3
  rearm : Bool
  state : BitVec 2
  deriving DecidableEq, Repr

/-- A snapshot request accepted and not yet served (R275). -/
structure PendSnap where
  msg : SnapMsg
  held : Bool
  replayed : Bool
  deriving DecidableEq, Repr

/-- A journal entry that waits for room (R284): its header fields and data. -/
structure JournalEntry where
  boundary : DWord
  gen : DWord
  kind : Word
  len : Word
  addr : DWord
  index : Word
  block : Word
  data : List Byte
  deriving DecidableEq, Repr

/-- A block marked running (R267): what its dispatch read of its equation-table entry (R263), and its residual, g and
boundary then. -/
structure Dispatched where
  entry : DWord
  waves : Nat
  regCount : Nat
  shared : Nat
  gen : DWord
  res : Word
  forced : Bool
  slot : Nat
  born : Nat
  /-- killed at the dispatch: no wave is placed (R271) -/
  killed : Bool
  deriving DecidableEq, Repr

/-- A resident standing program (R251, R266). -/
structure Program where
  launch : Nat
  table : DWord
  n : Nat
  slots : Nat
  fair : Nat
  dqm : Bool
  quantum : Nat
  seed : DWord
  mask : BitVec 192
  base : Nat
  eqs : KMap EqBlock
  /-- 01 SETTLING, 10 CONVERGED, 11 unloading -/
  state : BitVec 2
  gen : DWord
  bound : Nat
  jbase : DWord
  jsize : Nat
  jrd : Nat
  jwr : Nat
  jref : Word
  jindex : Nat
  late : List JournalEntry
  replay : Option (DWord × Nat × Nat)
  seqNo : BitVec 48
  snapNo : DWord
  noticeNo : DWord
  readers : List (BitVec 16)
  inputs : List InputMsg
  snaps : List PendSnap
  /-- dispatched blocks that still wait for room, in order of decision -/
  waiting : List Nat
  /-- the running blocks, by block id -/
  running : KMap Dispatched
  stopped : Bool
  unloadTag : Word
  unloadEp : BitVec 16
  deriving DecidableEq, Repr

/-! ## Host, fabric and module -/

/-- A message the device has sent (R298): kind, destination, tag, payload bytes. -/
structure OutMsg where
  kind : BitVec 16
  dst : BitVec 16
  tag : Word
  payload : List Byte
  deriving DecidableEq, Repr

/-- A message that has asked a port for a grant (R305); classes: 0 memory request, 1 memory response, 2 control,
3 collective. -/
structure GrantReq where
  port : Nat
  cls : Nat
  msg : OutMsg
  deriving DecidableEq, Repr

/-- A record in the spill pool's directory (R338). -/
structure Spilled where
  handle : Word
  launch : Nat
  tag : Word
  offset : Nat
  units : Nat
  gen : Nat
  live : Bool
  pinOrder : Nat
  pinBlock : Nat
  shape : BitVec 4
  failed : Bool
  /-- the imagined core and granule it still holds (R44, R340) -/
  imCore : Option Nat
  imBase : Nat
  deriving DecidableEq, Repr

/-- What a context image carries in its sections of layout kept to the image version (R386 types 5 to 7). -/
structure Saved where
  block : Block
  waves : List (Nat × Wave)
  jobs : List Job
  ops : List TileOp
  tenures : List Tenure
  deriving DecidableEq, Repr

/-- A checkpoint's part outside its images (R389). -/
structure SavedLaunch where
  launch : Launch
  program : Option Program
  blocks : List (Nat × Saved)
  deriving DecidableEq, Repr

/-- A walk in flight (R159): address space, VA[56:13], and the cores that wait on it (R158). -/
structure Walk where
  asid : Nat
  page : Nat
  cores : List Nat
  deriving DecidableEq, Repr

/-- A decoded view line held in L2 (R113): its bytes, and whether it was decoded from poisoned ones (R154). -/
structure ViewLine where
  bytes : List Byte
  bad : Bool
  deriving DecidableEq, Repr

/-- The old value of a byte of memory that a write has changed, until the write has completed (R173, R198): `by_` is the
launch whose commit made the write. -/
structure Unripe where
  addr : Nat
  old : Byte
  by_ : Option Nat
  until_ : Nat
  deriving DecidableEq, Repr

/-- The home's bookkeeping of a line (R173, R180): latest lease end granted, last completion time, SC stamp. -/
structure Home where
  lease : Nat
  last : Nat
  stamp : Nat
  deriving DecidableEq, Repr

/-- A format window (R112). -/
structure Window where
  len : Nat
  on : Bool
  view : Nat
  code : Nat
  scale : Nat
  deriving DecidableEq, Repr

/-- An operation of the pre-emption controls (R383), with the registers it read when it began. -/
structure PeOp where
  op : Nat
  core : BitVec 8
  tag : Word
  blk : Word
  addr : DWord
  len : DWord
  deriving DecidableEq, Repr

/-- Whom a write through the fabric is answered to once it has been performed (R305): source, tag and address. -/
structure WriteReply where
  src : BitVec 16
  tag : Word
  addr : Nat
  deriving DecidableEq, Repr

/-- A write of XLTINVC that waits for the invalidation under way (R160): scope, ASID, page address. -/
structure XltWait where
  scope : Nat
  asid : Nat
  va : Nat
  reply : Option WriteReply
  deriving DecidableEq, Repr

/-- A write of PECMD that waits for the operation under way (R383): operation and core. -/
structure PeWait where
  op : Nat
  core : BitVec 8
  reply : Option WriteReply
  deriving DecidableEq, Repr

/-- What an access of the control space does (R399): read or write `n` bytes, or an atomic. -/
inductive CtlKind where
  | read (n : Nat)
  | write (n : Nat) (v : DWord)
  | atomic
  deriving DecidableEq, Repr

/-- An access of the control space that came over the fabric (R399): its offset, and whom it is answered to. -/
structure CtlAccess where
  off : Nat
  kind : CtlKind
  reply : WriteReply
  deriving DecidableEq, Repr

/-- The control-space registers that software writes or that hold the module's status. -/
structure Ctl where
  ready : Bool
  fwbad : Bool
  therm : Bool
  measured : Bool
  coreLive : BitVec 192
  leaseNs : BitVec 16
  inlet : BitVec 16
  watts : BitVec 16
  fwgov : BitVec 16
  cap : BitVec 16
  portDown : BitVec 16
  portDrop : KMap Word
  nonce : List DWord
  atAddr : DWord
  atRes : Byte
  atBusy : Bool
  /-- when the report, once written, is complete at system scope -/
  atEnd : Option Nat
  /-- writes of GO that wait (R405) -/
  atWaits : List (Option WriteReply)
  /-- the latched digests of the two firmware images (R401) -/
  mgmtDigest : List Byte
  deviceDigest : List Byte
  windows : KMap Window
  xltVa : DWord
  xltBusy : Bool
  /-- the invalidation under way: scope, ASID, page address -/
  xltJob : Option (Nat × Nat × Nat)
  xltWaits : List XltWait
  lqBase : DWord
  lqOn : Bool
  lqSize : Nat
  lqHead : Word
  lqTail : Word
  govStep : BitVec 16
  govMax : BitVec 16
  tspBase : DWord
  tspSize : Word
  trBase : DWord
  trOn : Bool
  trSize : Nat
  trWr : Word
  trRd : Word
  trLost : Word
  trOvf : Bool
  trSeq : Word
  vectors : KMap DWord
  lmaps : KMap (BitVec 15)
  peTag : Word
  peBlk : Word
  peAddr : DWord
  peLen : DWord
  peNeed : Word
  peRes : Byte
  /-- the operation under way (R383) -/
  peJob : Option PeOp
  /-- writes of PECMD that wait -/
  peWaits : List PeWait
  /-- accesses of sources that have a write waiting: they are performed after it (R399) -/
  behind : List CtlAccess
  corrected : Nat
  deriving DecidableEq, Repr

/-! ## The machine -/

/-- Which parties an event concerns; the meaning of the three numbers is given at the constructor of Instr. -/
structure Subject where
  a : Nat
  b : Nat
  c : Nat
  deriving DecidableEq, Repr

/-- Who moves next. -/
inductive Act where
  /-- the default order of the model -/
  | auto
  /-- the given section of the given core issues -/
  | issue (core sect : Nat)
  /-- an event comes about -/
  | event (i : Instr) (subj : Subject)
  deriving DecidableEq, Repr

/-- One choice of what the specification leaves to timing: cycles that pass, who moves, whether the accesses of a
word are performed later, whether copies in caches serve it, and which of several entries or values is taken. -/
structure Choice where
  elapse : Nat
  act : Act
  later : Bool
  hit : Bool
  /-- which of several: the entry that a full cache gives up (R153, R158), or the older value of a word that a fetch
  returns (R233) -/
  pick : Nat
  deriving DecidableEq, Repr

/-- The state of the machine. -/
structure State where
  powered : Bool
  now : Nat
  ctl : Ctl
  mem : List Host.Cell
  /-- poisoned lines of memory (address / 64) and words of die scratchpads (address / 4) -/
  poison : KMap Unit
  diePoison : KMap Unit
  homes : KMap Home
  /-- SC stamps of scratchpad words, by block and word -/
  scrStamps : KMap (KMap Nat)
  /-- decoded view lines held in L2 (R113) -/
  views : KMap ViewLine
  /-- writes performed and not completed, oldest first, while a DQM launch is resident (R198) -/
  unripe : List Unripe
  asids : KMap Nat
  dieTlb : KMap (List Xlate)
  walks : List Walk
  cores : KMap Core
  launches : KMap Launch
  blocks : KMap Block
  waves : KMap Wave
  programs : KMap Program
  residuals : KMap ResEntry
  outbox : List OutMsg
  remote : KMap RemoteReq
  grants : List GrantReq
  colls : KMap Nat
  early : List CollMsg
  doms : List (BitVec 16 × BarMsg)
  /-- groups whose root this device is, by 16 * tag + group -/
  domRoots : KMap Group
  traps : List TrapRec
  lost : List LostRec
  gens : KMap Nat
  generation : DWord
  saved : KMap Saved
  savedLaunches : KMap SavedLaunch
  pool : List Spilled
  /-- the wave (by key) whose word the next exec runs -/
  cur : Option Nat
  subj : Subject
  sched : List Choice
  later : Bool
  hit : Bool
  pick : Nat
  seq : Nat
  ver : Nat
  takes : Nat
  /-- lines held in L2, by line, and whether they are dirty (R153) -/
  l2 : KMap Bool
  /-- values that words of memory have held, newest first, each with the number at which it was overwritten, while a
  free-mode launch is resident (R233) -/
  past : KMap (List (Word × Nat))
  deriving DecidableEq, Repr

/-- Why a step of the machine stops for good. -/
inductive Fault where
  /-- Raised by a meaning of a word when `State.cur` names no wave of a resident block: no wave issues it. Safe: the
  hardware has no such step. -/
  | noIssuingWave
  deriving DecidableEq, Repr

/-- Why a step has no meaning. -/
inductive Refusal where
  /-- Raised by an arm of the dispatcher for an instruction the model does not cover. Safe. -/
  | notModelled (mnemonic : String)
  deriving DecidableEq, Repr

/-! ## Reset -/

/-- The control registers at the values of their Reset columns (R112, R160, R292, R336, R338, R374, R379, R383,
R400, R405); CORELIVE, INLET, WATTS: DESIGN CHOICE (log entry 3). -/
def Ctl.reset : Ctl where
  ready := false
  fwbad := false
  therm := false
  measured := false
  coreLive := 0
  leaseNs := 512
  inlet := 0
  watts := 0
  fwgov := 1200
  cap := 3000
  portDown := 0
  portDrop := []
  nonce := [0, 0, 0, 0]
  atAddr := 0
  atRes := 0
  atBusy := false
  atEnd := none
  atWaits := []
  mgmtDigest := List.replicate 64 0
  deviceDigest := List.replicate 64 0
  windows := []
  xltVa := 0
  xltBusy := false
  xltJob := none
  xltWaits := []
  lqBase := 0
  lqOn := false
  lqSize := 0
  lqHead := 0
  lqTail := 0
  govStep := 1200
  govMax := 1200
  tspBase := 0
  tspSize := 0
  trBase := 0
  trOn := false
  trSize := 12
  trWr := 0
  trRd := 0
  trLost := 0
  trOvf := false
  trSeq := 0
  vectors := []
  lmaps := []
  peTag := 0
  peBlk := 0
  peAddr := 0
  peLen := 0
  peNeed := 0
  peRes := 0
  peJob := none
  peWaits := []
  behind := []
  corrected := 0

/-- A lane map that names no failed lane (R397); DESIGN CHOICE for the fused value (log entry 3). -/
def mapNone : BitVec 15 := (127 : BitVec 7) ++ (0 : BitVec 1) ++ (127 : BitVec 7)

/-- A core after bring-up (R401). -/
def Core.reset : Core where
  clock := 0
  tlb := []
  l1 := []
  icache := []
  jobs := []
  ops := []
  govWin := 0
  govIssues := 0
  govLast := 0
  govStalls := 0
  maps := ⟨mapNone, mapNone, mapNone, mapNone⟩
  tenures := []
  rnsFail := 0
  rnsWant := 0
  rnsCount := 0
  rnsLast := 0
  drains := none
  busy := []

/-- The machine before power is applied (R13): nothing is resident and every register holds its reset value.
DESIGN CHOICE: the module is off (log entry 1). -/
def State.reset : State where
  powered := false
  now := 0
  ctl := Ctl.reset
  mem := []
  poison := []
  diePoison := []
  homes := []
  scrStamps := []
  views := []
  unripe := []
  asids := []
  dieTlb := []
  walks := []
  cores := []
  launches := []
  blocks := []
  waves := []
  programs := []
  residuals := []
  outbox := []
  remote := []
  grants := []
  colls := []
  early := []
  doms := []
  domRoots := []
  traps := []
  lost := []
  gens := []
  generation := 1
  saved := []
  savedLaunches := []
  pool := []
  cur := none
  subj := ⟨0, 0, 0⟩
  sched := []
  later := false
  hit := false
  pick := 0
  seq := 0
  ver := 0
  takes := 0
  l2 := []
  past := []

end Sys2Proof.Machine
end

