-- ==== Sys2Proof/Machine/Ops.lean ====
section
/-! DEFINITION. The named operations over the state: tables and their entries, bytes of memory, trap records, taking
an exception and returning from one, and the retirement of an instruction. -/

namespace Sys2Proof.Machine

open Sys2Proof

/-! ## Lanes and bytes -/

/-- The lanes of a mask, rising. -/
def lanesOf (m : Mask) : List Nat := (List.range 64).filter fun i => m.getLsbD i

/-- The mask of the lanes that meet a condition. -/
def maskOf (f : Nat → Bool) : Mask :=
  (List.range 64).foldl (fun m i => if f i then m ||| ((1 : Mask) <<< i) else m) 0

/-- The lowest lane of a mask; 0 when it is empty. -/
def firstLane (m : Mask) : Nat := (lanesOf m).headD 0

/-- A register given lane by lane. -/
def vecOf (f : Nat → Word) : LaneVec := (List.range 64).map f

/-- One lane of a register. -/
def laneOf (v : LaneVec) (i : Nat) : Word := v.getD i 0

/-- A register that holds 0 in every lane. -/
def zeroVec : LaneVec := List.replicate 64 0

/-- The number that bytes stand for, lowest first (R6). -/
def leNat : List Byte → Nat
  | [] => 0
  | b :: bs => b.toNat + 256 * leNat bs

/-- The lowest `n` bytes of a number, lowest first (R6). -/
def natLe : Nat → Nat → List Byte
  | 0, _ => []
  | n + 1, x => BitVec.ofNat 8 x :: natLe n (x / 256)

/-- A 64-bit pattern as a signed number. -/
def s64 (x : DWord) : Int := x.toInt

/-- The pair whose low word is `lo` (R61). -/
def pairOf (lo hi : Word) : DWord := hi ++ lo

/-! ## Tables -/

/-- A core; one that no step has touched is as bring-up left it. -/
def State.core (s : State) (c : Nat) : Core := s.cores.getD c Core.reset

/-- Change a core. -/
def State.modCore (s : State) (c : Nat) (f : Core → Core) : State :=
  { s with cores := s.cores.put Core.reset c (f (s.core c)) }

/-- Change a wave. -/
def State.modWave (s : State) (k : Nat) (f : Wave → Wave) : State :=
  { s with waves := s.waves.modify k f }

/-- Change a block. -/
def State.modBlock (s : State) (k : Nat) (f : Block → Block) : State :=
  { s with blocks := s.blocks.modify k f }

/-- Change a launch. -/
def State.modLaunch (s : State) (k : Nat) (f : Launch → Launch) : State :=
  { s with launches := s.launches.modify k f }

/-- Change a standing program. -/
def State.modProgram (s : State) (k : Nat) (f : Program → Program) : State :=
  { s with programs := s.programs.modify k f }

/-- Change the control registers. -/
def State.modCtl (s : State) (f : Ctl → Ctl) : State := { s with ctl := f s.ctl }

/-- Every port is down: no message arrives or leaves (R400). -/
def State.cutOff (s : State) : Bool := decide (s.ctl.portDown = BitVec.allOnes 16)

/-- The module takes no message: it is off, or every port is down (R13, R400). -/
def State.deaf (s : State) : Bool := !s.powered || s.cutOff

/-- A number no one else holds. -/
def State.nextSeq (s : State) : State := { s with seq := s.seq + 1 }

/-- The key of a block of a launch: rank or equation-block id below 2^31. -/
def blockKey (launch rank : Nat) : Nat := launch * 2 ^ 31 + rank

/-- The key of a wave of a block. -/
def waveKey (block index : Nat) (shadow : Bool) : Nat := block * 32 + index + if shadow then 16 else 0

/-- The waves of a block, exited ones included, by rising key. -/
def State.wavesOf (s : State) (b : Nat) : List (Nat × Wave) := s.waves.filter fun e => decide (e.2.block = b)

/-- The blocks of a launch. -/
def State.blocksOf (s : State) (l : Nat) : List (Nat × Block) := s.blocks.filter fun e => decide (e.2.launch = l)

/-- Change every wave of a block. -/
def State.modWavesOf (s : State) (b : Nat) (f : Wave → Wave) : State :=
  { s with waves := s.waves.map fun e => if e.2.block = b then (e.1, f e.2) else e }

/-- The waves resident on a core. -/
def State.wavesOn (s : State) (c : Nat) : List (Nat × Wave) :=
  s.waves.filter fun e => decide (e.2.core = c) && !e.2.exited

/-! ## Registers -/

/-- The slots of the fixed registers beside the file (R59): lr, k0, k1, p1, p2, p3. -/
def slotLr : Nat := 256

/-- A register slot across the lanes; one never written holds 0 (R25). -/
def Wave.slotVec (w : Wave) (k : Nat) : LaneVec := w.regs.getD k zeroVec

/-- One lane of a register slot. -/
def Wave.slotLane (w : Wave) (k lane : Nat) : Word := laneOf (w.slotVec k) lane

/-- Write a register slot in the lanes of a mask; a written lane is no longer poisoned (R395). -/
def Wave.writeSlot (w : Wave) (k : Nat) (lanes : Mask) (v : Nat → Word) : Wave :=
  { w with
    regs := w.regs.set k (vecOf fun i => if lanes.getLsbD i then v i else w.slotLane k i)
    poison := w.poison.put 0 k (w.poison.getD k 0 &&& ~~~lanes)
    struck := w.struck.put 0 k (w.struck.getD k 0 &&& ~~~lanes) }

/-- OR flags into lanes (R104). -/
def Wave.raiseFlags (w : Wave) (lanes : Mask) (f : Nat → Flags) : Wave :=
  { w with fpflags := (List.range 64).map fun i =>
      if lanes.getLsbD i then w.fpflags.getD i 0 ||| f i else w.fpflags.getD i 0 }

/-- The guard holds in a lane (R54). -/
def Wave.guardIn (w : Wave) (g : Guard) (lane : Nat) : Bool :=
  match g with
  | .always => true
  | .p1 => (w.slotLane 259 lane).getLsbD 0
  | .p2 => (w.slotLane 260 lane).getLsbD 0
  | .p3 => (w.slotLane 261 lane).getLsbD 0
  | .np1 => !(w.slotLane 259 lane).getLsbD 0
  | .np2 => !(w.slotLane 260 lane).getLsbD 0
  | .np3 => !(w.slotLane 261 lane).getLsbD 0

/-- The executing lanes, or the source lane of a uniform word (R55, R56, R62). -/
def Wave.executing (w : Wave) (g : Guard) (u : Bool) : Mask :=
  if u then
    if w.active = 0 then 0
    else if w.guardIn g (firstLane w.active) then maskOf fun i => i == firstLane w.active else 0
  else maskOf fun i => w.active.getLsbD i && w.guardIn g i

/-- The lowest live lane of the quad of a lane. -/
def Wave.quadLead (w : Wave) (lane : Nat) : Option Nat :=
  ([0, 1, 2, 3].map fun j => lane / 4 * 4 + j).find? fun i => w.live.getLsbD i

/-- The helper lanes that follow the running path (R23, R24). -/
def Wave.helpers (w : Wave) : Mask :=
  if w.live = BitVec.allOnes 64 then 0
  else maskOf fun i => !w.live.getLsbD i &&
    match w.quadLead i with
    | none => false
    | some j => w.active.getLsbD j

/-! ## Bytes of memory -/

/-- The byte an unlisted address reads as: DESIGN CHOICE 0 for HBM (log entry 5); die scratchpads hold 0 (R150). -/
def memDefault : Byte := 0

/-- The canonical form of memory: addresses strictly rising, no entry equal to what an unlisted address reads as. -/
def Memory.wf (m : List Host.Cell) : Bool := KMap.canon memDefault m

/-- The byte held at an address of memory or of a die scratchpad. -/
def State.rawByte (s : State) (a : Nat) : Byte := KMap.getD s.mem a memDefault

/-- Write one byte of memory. -/
def Memory.put (m : List Host.Cell) (a : Nat) (b : Byte) : List Host.Cell := KMap.put memDefault m a b

/-- Write bytes of memory from an address on. -/
def Memory.putAll : List Host.Cell → Nat → List Byte → List Host.Cell
  | m, _, [] => m
  | m, a, b :: bs => Memory.putAll (Memory.put m a b) (a + 1) bs

/-- Note the old values of bytes that change, where a view has none yet (R197). -/
def noteOld (rd : Nat → Byte) : KMap Byte → Nat → List Byte → KMap Byte
  | v, _, [] => v
  | v, a, b :: bs =>
    noteOld rd (if rd a = b then v else if (v.get? a).isSome then v else v.set a (rd a)) (a + 1) bs

/-- Lines wholly covered by a write lose their poison (R154). -/
def clearLines (p : KMap Unit) (unit a n : Nat) : KMap Unit :=
  if p = [] then p
  else p.filter fun e => !(decide (a ≤ e.1 * unit) && decide ((e.1 + 1) * unit ≤ a + n))

/-- The die whose L2 is home to a line (R153). DESIGN CHOICE: the dies take turns; which die it is decides timing only
(log entry 55). -/
def homeDie (line : Nat) : Nat := line % 4

/-- A line is brought into L2, dirty when it has been written; a die whose 2^21 lines are full gives one up, which goes
back to HBM (R153). DESIGN CHOICE: which one is a choice of the step (log entry 55). -/
def l2Touch (pick line : Nat) (dirty : Bool) (m : KMap Bool) : KMap Bool :=
  match m.get? line with
  | some d => m.set line (d || dirty)
  | none =>
    if m.length < 2 ^ 21 then m.set line dirty
    else
      let mates := m.keys.filter fun k => decide (homeDie k = homeDie line)
      (if mates.length < 2 ^ 21 then m else m.erase (mates.getD (pick % mates.length) 0)).set line dirty

/-- The lines that `n` bytes from `a` on lie in. -/
def linesOf (a n : Nat) : List Nat := (List.range ((a + n + 63) / 64 - a / 64)).map fun i => a / 64 + i

/-- Lines of memory are brought into L2; die scratchpads are not cached (R153). -/
def State.l2Note (s : State) (a n : Nat) (dirty : Bool) : KMap Bool :=
  if n = 0 ∨ 2 ^ 48 ≤ a then s.l2 else (linesOf a n).foldl (fun m k => l2Touch s.pick k dirty m) s.l2

/-- Decoded view lines stand in L2 only while their lines do (R2, R113). -/
def viewsIn (m : KMap Bool) (v : KMap ViewLine) : KMap ViewLine := if v = [] then v else v.filter fun e => (m.get? e.1).isSome

/-- Lines of memory are brought into L2; a decoded line that is given up is decoded again when it is next read. -/
def State.bringL2 (s : State) (a n : Nat) (dirty : Bool) : State :=
  { s with l2 := s.l2Note a n dirty, views := viewsIn (s.l2Note a n dirty) s.views }

/-- A 4-byte word of bytes. -/
def wordAt (rd : Nat → Byte) (k : Nat) : Word := BitVec.ofNat 32 (leNat [rd (4 * k), rd (4 * k + 1), rd (4 * k + 2), rd (4 * k + 3)])

/-- Note what words of memory held before a write that changes them (R233). -/
def notePast (old new : Nat → Byte) (seq : Nat) : Nat → Nat → KMap (List (Word × Nat)) → KMap (List (Word × Nat))
  | 0, _, p => p
  | n + 1, k, p =>
    notePast old new seq n (k + 1)
      (if wordAt old k = wordAt new k then p else p.set k ((wordAt old k, seq) :: p.getD k []))

/-- The past of memory's words once `n` bytes from `a` on have been written and the memory is `m`: kept while a launch
runs in free mode (R233). -/
def State.pastNote (s : State) (m : List Host.Cell) (a n : Nat) : KMap (List (Word × Nat)) :=
  if s.launches.any (fun e => !e.2.dqm) then
    notePast s.rawByte (fun x => KMap.getD m x memDefault) s.seq ((a + n + 3) / 4 - a / 4) (a / 4) s.past
  else s.past

/-- Write bytes of memory: quanta of other launches that are open keep the old values (R197, R198); `by_` is the
launch whose commit this is. The lines stand in L2, dirty (R153). -/
def State.poke (s : State) (by_ : Option Nat) (a : Nat) (bs : List Byte) : State :=
  { s with
    launches := s.launches.map fun e =>
      if e.2.dqm && e.2.quantumOpen && decide (some e.1 ≠ by_) then
        (e.1, { e.2 with view := noteOld s.rawByte e.2.view a bs })
      else e
    poison := clearLines s.poison 64 a bs.length
    diePoison := clearLines s.diePoison 4 a bs.length
    l2 := s.l2Note a bs.length true
    views := viewsIn (s.l2Note a bs.length true) s.views
    past := s.pastNote (Memory.putAll s.mem a bs) a bs.length
    mem := Memory.putAll s.mem a bs }

/-- The enabled format window whose view range holds an address, lowest number first (R112, R116); view ranges are
ranges of physical addresses, which end at 2^48. -/
def State.windowAt (s : State) (a : Nat) : Option Window :=
  if 2 ^ 48 ≤ a then none else (s.ctl.windows.find? fun e => e.2.on && decide (e.2.view ≤ a) && decide (a < e.2.view + 64 * e.2.len)).map (·.2)

/-- A byte of decoded view data (R113). DESIGN CHOICE: the decoder reads the bytes of CODE and SCALE as memory holds them,
also where they lie in a view range themselves; no rule says which it reads there (log entry 56). -/
def viewByte (rd : Nat → Byte) (w : Window) (a : Nat) : Byte :=
  let e := (a - w.view) / 2
  let code := (rd (w.code + 16 * (e / 32) + e % 32 / 2)).toNat / (if e % 2 = 1 then 16 else 1) % 16
  let v := b4Bf16 (rd (w.scale + e / 32)).toNat code
  BitVec.ofNat 8 (if (a - w.view) % 2 = 1 then v / 256 else v)

/-- The byte a reader finds at an address, given what the memory under it reads as: decoded where a window covers it
(R113); an earlier decode held in a cache may serve (R115). DESIGN CHOICE: so may the decode of a higher-numbered window,
once a lower-numbered one has been enabled over its lines: R116 does not say that enabling drops it (log entry 72). -/
def State.byteVia (s : State) (rd : Nat → Byte) (a : Nat) : Byte :=
  match s.windowAt a with
  | none => rd a
  | some w =>
    match s.views.get? (a / 64) with
    | some line => if s.hit then line.bytes.getD (a % 64) 0 else viewByte rd w a
    | none => viewByte rd w a

/-- What the memory reads as inside a launch's open quantum (R197). -/
def State.underByte (s : State) (l : Launch) (a : Nat) : Byte :=
  if l.dqm && l.quantumOpen then l.view.getD a (s.rawByte a) else s.rawByte a

/-- The byte at the home of a location, for any reader outside a quantum. -/
def State.homeByte (s : State) (a : Nat) : Byte := s.byteVia s.rawByte a

/-- Bytes from an address on. -/
def bytesFrom (rd : Nat → Byte) (a n : Nat) : List Byte := (List.range n).map fun i => rd (a + i)

/-- A number of `n` bytes from an address on, as system software or an engine reads it. -/
def State.homeNat (s : State) (a n : Nat) : Nat := leNat (bytesFrom s.homeByte a n)

/-- The bytes that the decoder reads for a byte of a view range: its code and its scale (R113). -/
def viewSources (w : Window) (a : Nat) : List Nat :=
  let e := (a - w.view) / 2
  [w.code + 16 * (e / 32) + e % 32 / 2, w.scale + e / 32]

/-- A byte of memory lies in a poisoned line, or in a poisoned word of a die scratchpad (R154). -/
def State.rawPoison (s : State) (a : Nat) : Bool :=
  if a < 2 ^ 48 then (s.poison.get? (a / 64)).isSome else (s.diePoison.get? (a / 4)).isSome

/-- A reader of a byte finds it poisoned (R154): under a view, where the decoder reads a poisoned code or scale, or has read
one for the decoded line that serves. -/
def State.poisonVia (s : State) (a : Nat) : Bool :=
  match s.windowAt a with
  | none => s.rawPoison a
  | some w =>
    match s.views.get? (a / 64) with
    | some line => if s.hit then line.bad else (viewSources w a).any s.rawPoison
    | none => (viewSources w a).any s.rawPoison

/-- Bring the line of an address into L2, in its decoded form where a window covers it (R113). -/
def State.keepView (s : State) (a : Nat) : State :=
  match s.windowAt a with
  | none => s.bringL2 (a / 64 * 64) 64 false
  | some w =>
    if (s.views.get? (a / 64)).isSome && s.hit then s.bringL2 (a / 64 * 64) 64 false
    else
      let line : ViewLine := ⟨bytesFrom (viewByte s.rawByte w) (a / 64 * 64) 64,
        (List.range 64).any fun i => (viewSources w (a / 64 * 64 + i)).any s.rawPoison⟩
      let t := s.bringL2 (a / 64 * 64) 64 false
      { t with views := t.views.set (a / 64) line }

/-- The home of a line. -/
def State.home (s : State) (line : Nat) : Home := s.homes.getD line ⟨0, 0, 0⟩

/-- A byte of a block's scratchpad run. -/
def Block.scrByte (b : Block) (off : Nat) : Byte := b.scr.getD off 0

/-- Write bytes of a block's scratchpad run. -/
def putBytes : KMap Byte → Nat → List Byte → KMap Byte
  | m, _, [] => m
  | m, a, b :: bs => putBytes (m.put 0 a b) (a + 1) bs

/-- Write bytes of a block's scratchpad run; a word wholly written loses its poison (R154). -/
def Block.pokeScr (b : Block) (off : Nat) (bs : List Byte) : Block :=
  { b with scr := putBytes b.scr off bs, scrPoison := clearLines b.scrPoison 4 off bs.length }

/-- Read bytes at a location. -/
def State.readLoc (s : State) (rd : Nat → Byte) (l : Loc) (n : Nat) : List Byte :=
  match l with
  | .mem a => bytesFrom (s.byteVia rd) a n
  | .scr b off =>
    match s.blocks.get? b with
    | none => List.replicate n 0
    | some blk => bytesFrom blk.scrByte off n

/-- Write bytes at a location. -/
def State.writeLoc (s : State) (by_ : Option Nat) (l : Loc) (bs : List Byte) : State :=
  match l with
  | .mem a => s.poke by_ a bs
  | .scr b off => s.modBlock b fun blk => blk.pokeScr off bs

/-- Two locations of given lengths share a byte. -/
def Loc.overlaps (x : Loc) (n : Nat) (y : Loc) (m : Nat) : Bool :=
  match x, y with
  | .mem a, .mem b => decide (a < b + m) && decide (b < a + n)
  | .scr k a, .scr j b => decide (k = j) && decide (a < b + m) && decide (b < a + n)
  | .mem _, .scr _ _ => false
  | .scr _ _, .mem _ => false

/-- Two targets of given lengths share a byte. -/
def Target.overlaps (x : Target) (n : Nat) (y : Target) (m : Nat) : Bool :=
  match x, y with
  | .here a, .here b => a.overlaps n b m
  | .peer d a, .peer e b => decide (d = e) && decide (a < b + m) && decide (b < a + n)
  | .here _, .peer _ _ => false
  | .peer _ _, .here _ => false

/-- Bytes at a location read poisoned (R154). -/
def State.poisoned (s : State) (l : Loc) (n : Nat) : Bool :=
  match l with
  | .mem a => if s.poison = [] && s.diePoison = [] && s.views = [] then false else (List.range n).any fun i => s.poisonVia (a + i)
  | .scr b off =>
    match s.blocks.get? b with
    | none => false
    | some blk => blk.scrPoison.any fun e => decide (e.1 * 4 < off + n) && decide (off < (e.1 + 1) * 4)

/-! ## Trap records (R375) -/

/-- The BLOCK field of a record: placement rank, or bit 31 and the equation-block id. -/
def blockField (l : Launch) (b : Block) : Word :=
  BitVec.ofNat 32 (b.rank + if l.standing.isSome then 2 ^ 31 else 0)

/-- A record about a wave, at its present instruction. -/
def waveRec (l : Launch) (key : Nat) (w : Wave) (b : Block) (cause : Nat) (addr : DWord) (mask : Mask)
    (detail : Word) : TrapRec where
  cause := cause
  park := false
  halt := false
  job := false
  sv := w.sup
  shadow := w.shadow
  sect := w.sect
  core := w.core
  wave := w.index
  asid := l.asid
  tag := l.tag
  block := blockField l b
  pc := w.pc
  addr := addr
  mask := mask
  count := w.retired
  detail := detail
  batch := 0
  ofBlock := w.block
  ofWave := key

/-- A record about a launch that concerns no wave. -/
def bareRec (l : Launch) (block : Word) (cause : Nat) (addr : DWord) (detail : Word) : TrapRec where
  cause := cause
  park := false
  halt := false
  job := false
  sv := false
  shadow := false
  sect := 0
  core := 0
  wave := 0
  asid := l.asid
  tag := l.tag
  block := block
  pc := 0
  addr := addr
  mask := 0
  count := 0
  detail := detail
  batch := 0
  ofBlock := 0
  ofWave := 0

/-- Queue a record for posting (R376). -/
def State.post (s : State) (r : TrapRec) : State := { s with traps := s.traps ++ [r] }

/-! ## Taking an exception -/

/-- Advance S over the tickets taken (R220). -/
def advanceTickets : Nat → Launch → Launch
  | 0, l => l
  | fuel + 1, l =>
    match l.takenAhead.get? l.tickets with
    | none => l
    | some _ => advanceTickets fuel { l with tickets := l.tickets + 1, takenAhead := l.takenAhead.erase l.tickets }

/-- Count the tickets just taken. -/
def Launch.settle (l : Launch) : Launch := advanceTickets (l.takenAhead.length) l

/-- A ticket is taken (R220), by hardware when `aband` (R223). -/
def Launch.take (l : Launch) (r : Nat) (aband : Bool) : Launch :=
  ({ l with takenAhead := l.takenAhead.set r (),
            abandoned := if aband then l.abandoned.set r () else l.abandoned } : Launch).settle

/-- The hardware takes the ticket of a halting or retiring block and marks it abandoned (R223); in DQM the take is
buffered to the block's commit position (R224). DESIGN CHOICE: where the block has buffered a `tkt.take` of its own in the
same quantum, the hardware's take counts and the ticket is abandoned (log entry 73). -/
def State.abandonTicket (s : State) (b : Nat) : State :=
  match s.blocks.get? b with
  | none => s
  | some blk =>
    match s.launches.get? blk.launch, blk.ticket with
    | some l, some r =>
      if l.standing.isSome then s
      else
        let s := s.modBlock b fun k => { k with ticket := none }
        if l.dqm then s.modLaunch blk.launch fun l => { l with pendingTakes := l.pendingTakes ++ [(r, true)] }
        else s.modLaunch blk.launch fun l => l.take r true
    | _, _ => s

/-- A word is under way: it holds after an access of its own, or waits for answers of peers (R161, R176). -/
def Wave.underWay (w : Wave) : Bool := w.hold.isSome || w.holdOn.isSome || decide (w.remote ≠ [])

/-- A word has begun and not retired: it is under way, or is buffered in parts (R204). -/
def Wave.midWord (w : Wave) : Bool := w.underWay || decide (w.partDone ≠ 0)

/-- The wave gives up the word it has begun, which is issued again whole; the parts of a `cas.d` that are buffered stay
(R204). -/
def Wave.dropWord (w : Wave) : Wave :=
  { w with
    hold := none
    holdOn := none
    remote := []
    reach := []
    reachHelp := []
    heldT := if w.partDone = 0 then none else w.heldT
    walkOut := [] }

/-- A halting cause (R371): the wave stops at its instruction, a record is queued, and the block's halt begins. In a
relaxation of a DQM program it kills the relaxation instead, at the closing boundary (R271, R370); in a free-mode
relaxation an uncorrectable error kills it at once. `mk` completes the record. -/
def State.takeHaltAs (s : State) (mk : TrapRec → TrapRec) (key : Nat) (cause : Nat) (addr : DWord) (mask : Mask)
    (detail : Word) : State :=
  match s.waves.get? key with
  | none => s
  | some w =>
    match s.blocks.get? w.block with
    | none => s
    | some b =>
      match s.launches.get? b.launch with
      | none => s
      | some l =>
        if l.standing.isSome && (l.dqm || cause == 0x17 || cause == 0x41) then
          (s.modWave key fun w => { w.dropWord with halted := true, trapped := false, qend := true }).modBlock w.block fun b =>
            { b with kill := some (b.kill.getD cause) }
        else
          let r := mk { waveRec l key w b cause addr mask detail with halt := true }
          ((s.modWave key fun w => { w.dropWord with halted := true, trapped := (w.halted && w.trapped) || cause == 0x08 }).modBlock
            w.block fun b => { b with halt := some (b.halt.getD ⟨cause, key, false, false⟩) }).post r

/-- A halting cause whose record has no fields of a job. -/
def State.takeHalt (s : State) (key : Nat) (cause : Nat) (addr : DWord) (mask : Mask) (detail : Word) : State :=
  s.takeHaltAs id key cause addr mask detail

/-- A recoverable translation fault (R157, R378): only the wave stops, and a record with PARK is queued. -/
def State.takePark (s : State) (key : Nat) (addr : DWord) (mask : Mask) (lane : Nat) : State :=
  match s.waves.get? key with
  | none => s
  | some w =>
    match s.blocks.get? w.block with
    | none => s
    | some b =>
      match s.launches.get? b.launch with
      | none => s
      | some l =>
        (s.modWave key fun w => { w.dropWord with parked := some (0x13, addr) }).post
          { waveRec l key w b 0x13 addr mask (BitVec.ofNat 32 lane) with park := true }

/-- The handler of an address space: EN and HADDR of R379. -/
def State.handler (s : State) (asid : Nat) : Option DWord :=
  let v := s.ctl.vectors.getD asid 0
  if v.getLsbD 0 then some ((v >>> 2 <<< 2) &&& 0x01FFFFFFFFFFFFFC) else none

/-- `%wtime` as it reads (R86, R88): retired instructions in DQM, else cycles resident. -/
def State.wtime (s : State) (l : Launch) (w : Wave) : Word :=
  if l.dqm then w.wtime else w.wtime + BitVec.ofNat 32 s.now

/-- A timer trap is due at the wave's boundary (R380). -/
def State.timerDue (s : State) (l : Launch) (w : Wave) : Bool :=
  !w.sup && decide (w.wtcmp ≠ 0) && decide (w.wtcmp ≤ s.wtime l w)

/-- Taking a timer trap (R380): through the handler into supervisor state, or, with no handler, as a halt. -/
def State.takeTimer (s : State) (key : Nat) : State :=
  match s.waves.get? key with
  | none => s
  | some w =>
    match s.blocks.get? w.block with
    | none => s
    | some b =>
      match s.launches.get? b.launch with
      | none => s
      | some l =>
        let s := s.modWave key fun w => { w with wtcmp := 0 }
        match s.handler l.asid with
        | some pc => s.modWave key fun w =>
            { w with sup := true, tepc := w.pc, tcause := 0x09, tdepth := w.stack.length, tlevel := w.level,
                     level := 7, pc := pc }
        | none => s.takeHalt key 0x09 0 0 0

/-- The return from a timer trap (R382), once its checks have passed; the program counter is a multiple of 4 (R231). -/
def Wave.trapReturn (w : Wave) : Wave := { w with pc := w.tepc &&& 0x01FFFFFFFFFFFFFC, level := w.tlevel, sup := false }

/-! ## Retirement of an instruction -/

/-- The quantum length of a launch (R14, R251): 0 selects 4,096. -/
def Launch.qlen (l : Launch) : Nat := if l.record.quantum = 0 then 4096 else l.record.quantum

/-- What a word did to the wave's poll series and level (R28). -/
inductive Series where
  /-- any instruction but a poll: ends the series, restores level 7 -/
  | plain
  /-- a yield: ends the series; the level falls by one -/
  | yields
  /-- a poll that failed: backs off -/
  | failed
  /-- a poll that succeeded: ends the series, restores level 7 -/
  | met
  /-- a poll with no executing lane: neither (R216) -/
  | idle
  /-- a return from a timer trap: ends the series; the level is the one it has restored (R382) -/
  | returns
  deriving DecidableEq, Repr

/-- The level and the back-off after a word (R28): 4 cycles, doubled with each further failure, up to 256. -/
def Wave.serve (w : Wave) (x : Series) (now : Nat) : Wave :=
  match x with
  | .plain => { w with level := 7, polls := 0 }
  | .yields => { w with level := w.level - 1, polls := 0 }
  | .failed => { w with level := w.level - 1, polls := min 7 (w.polls + 1),
                        backoff := some (now + min 256 (4 * 2 ^ w.polls)) }
  | .met => { w with level := 7, polls := 0 }
  | .idle => w
  | .returns => { w with polls := 0 }

/-- Retire an instruction of a wave (R107, R277): the counts rise, and the quantum ends at its Q-th instruction. DESIGN
CHOICE: in DQM a `mov.s.w` to `%wtime` counts its own retirement on top of the value it has written, so that the next
instruction reads that value plus 1; R85 and R88 do not say (log entry 54). -/
def Wave.retire (w : Wave) (l : Launch) (now : Nat) (x : Series) : Wave :=
  let w := w.serve x now
  { w with
    retired := (w.retired + 1) % 2 ^ 48
    qcount := if l.dqm then w.qcount + 1 else w.qcount
    qend := w.qend || (l.dqm && decide (w.qcount + 1 ≥ l.qlen))
    wtime := if l.dqm then w.wtime + 1 else w.wtime
    readyFrom := now
    starving := false
    governed := false
    stalled := none
    blocked := none
    hold := none
    holdOn := none
    partDone := 0
    walkOut := []
    remote := []
    reach := []
    reachHelp := []
    heldT := none }

/-- Change a wave in the snapshot of its block, where the access, job or operation numbered `id` was under way as it was
taken (R393, R394). -/
def State.snapWave (s : State) (key id : Nat) (f : Wave → Wave) : State :=
  match (s.waves.get? key).bind fun w => ((s.blocks.get? w.block).bind fun b => b.snap).map fun n => (w.block, n) with
  | none => s
  | some (k, n) =>
    if n.seq ≤ id then s
    else s.modBlock k fun b => { b with snap := some { n with waves := n.waves.map fun e => if e.1 = key then (e.1, f e.2) else e } }

/-- A fault of a job, an operation or an access waits to be raised in its wave (R167, R229, R407). -/
def State.addDeferred (s : State) (key : Nat) (d : Deferred) : State :=
  (s.modWave key fun w => { w with deferred := w.deferred ++ [d] }).snapWave key d.ord fun w =>
    { w with deferred := w.deferred ++ [d] }

/-- Take a rollback snapshot of a block whose run selects rollback (R393); it closes the interval before. -/
def State.snapshot (s : State) (b : Nat) : State :=
  match s.blocks.get? b with
  | none => s
  | some blk =>
    match s.launches.get? blk.launch with
    | none => s
    | some l =>
      if l.standing.isNone && l.record.options.getLsbD 2 then
        s.modBlock b fun k => { k with
          snap := some ⟨s.wavesOf b, k.scr, k.acc, k.sums, k.kinds, k.queues, k.dirs,
            (s.core k.core).ops.filter fun o => decide (o.block = b), s.seq, []⟩,
          consumed := 0 }
      else s

end Sys2Proof.Machine
end

