-- ==== Sys2Proof/Machine/Operands.lean ====
section
/-! DEFINITION. Operand forms: register fields, the hardware queues, generic addresses, translation, and the bytes an
access reaches (R58 to R61, R148 to R162, R201, R202). -/

namespace Sys2Proof.Machine

open Sys2Proof

/-- The issuing wave with its block and launch, the executing lanes of its word, and the helper lanes in which the
word executes too (R24). Built afresh for each word; no part of the state. -/
structure Ctx where
  key : Nat
  w : Wave
  b : Block
  l : Launch
  t : Mask
  hl : Mask
  u : Bool
  deriving DecidableEq, Repr

/-- The parties of the word that the current wave issues. -/
def State.parties (s : State) : Option (Nat × Wave × Block × Launch) :=
  match s.cur with
  | none => none
  | some key =>
    match s.waves.get? key with
    | none => none
    | some w =>
      match s.blocks.get? w.block with
      | none => none
      | some b =>
        match s.launches.get? b.launch with
        | none => none
        | some l => some (key, w, b, l)

/-- The source lane of the word: the lowest lane of S (R56). -/
def Ctx.src (c : Ctx) : Nat := firstLane c.w.active

/-- The lanes a result goes to: S for a uniform word, else the executing lanes and the helpers (R24, R56). -/
def Ctx.dests (c : Ctx) : Mask := if c.u then c.w.active else c.t ||| c.hl

/-- The lanes that make accesses, push and pop (R56). -/
def Ctx.lanes (c : Ctx) : List Nat := lanesOf c.t

/-! ## Register fields -/

/-- What a register field names (R58, R59). -/
inductive Slot where
  | phys (k : Nat)
  | qin (n : Nat)
  | qout (n : Nat)
  | lane
  | zero
  | outside
  deriving DecidableEq, Repr

/-- R58 and R59: v0 to v111 through the window, the queues, the fixed registers, lane and zero. -/
def Wave.slotOf (w : Wave) (r : Nat) : Slot :=
  if r < 112 then if w.wb + r < w.regCount then .phys (w.wb + r) else .outside
  else if r < 116 then .qin (r - 112)
  else if r < 120 then .qout (r - 116)
  else if r = 120 then .phys slotLr
  else if r = 121 then .lane
  else if r < 127 then .phys (slotLr + (r - 121))
  else .zero

/-- A run of registers may be read (R59, R60, R31). -/
def Wave.mayRead (w : Wave) (l : Launch) (r : Reg) (n : Nat) : Bool :=
  (List.range n).all fun i => match w.slotOf (r.toNat + i) with
    | .outside => false
    | .qout _ => false
    | .qin _ => l.record.options.getLsbD 1
    | .phys _ => true
    | .lane => true
    | .zero => true

/-- A run of registers may be written (R59, R60, R31). -/
def Wave.mayWrite (w : Wave) (l : Launch) (r : Reg) (n : Nat) : Bool :=
  (List.range n).all fun i => match w.slotOf (r.toNat + i) with
    | .outside => false
    | .qin _ => false
    | .qout _ => l.record.options.getLsbD 1
    | .phys _ => true
    | .lane => true
    | .zero => true

/-- The slots of the file and of the fixed registers that a run of registers names. -/
def Wave.slotsOf (w : Wave) (r : Reg) (n : Nat) : List Nat :=
  (List.range n).filterMap fun i => match w.slotOf (r.toNat + i) with
    | .phys k => some k
    | _ => none

/-- A register that is no queue, across the lanes (R60). -/
def Wave.readReg (w : Wave) (r : Nat) : LaneVec :=
  match w.slotOf r with
  | .phys k => w.slotVec k
  | .lane => vecOf fun i => BitVec.ofNat 32 i
  | _ => zeroVec

/-! ## The hardware queues (R31, R225) -/

/-- Directions of a pair's queues: bit n is 0 when queue n runs from the shadow wave to the compute wave. -/
def Block.dirsOf (b : Block) (pair : Nat) : BitVec 4 := b.dirs.getD pair 0b1100

/-- The elements of a queue. -/
def Block.queue (b : Block) (pair n : Nat) : List Word := b.queues.getD (4 * pair + n) []

/-- The wave consumes the queue. -/
def Ctx.consumes (c : Ctx) (n : Nat) : Bool := ((c.b.dirsOf c.w.index).getLsbD n) == c.w.shadow

/-- The other wave of the pair. -/
def Ctx.partner (c : Ctx) : Nat := waveKey c.w.block c.w.index (!c.w.shadow)

/-- The partner has exited. -/
def State.exitedWave (s : State) (k : Nat) : Bool :=
  match s.waves.get? k with
  | none => true
  | some w => w.exited

/-- A wave has a load under way whose words enter a queue (R31). -/
def State.stillPushes (s : State) (k n : Nat) : Bool :=
  match s.waves.get? k with
  | none => false
  | some w => w.outst.any fun a => decide (a.queue = some n)

/-- What reading or writing a queue comes to. -/
inductive QRes (α : Type) where
  | ok (x : α)
  /-- not enough elements or room: the wave is Blocked -/
  | wait (n : Nat)
  /-- a queue-direction (0x20) or queue-partner (0x21) fault -/
  | fault (cause : Nat)
  deriving Repr

/-- How many elements a field of the word pops or pushes (R31, R60). -/
def Ctx.elems (c : Ctx) : Nat := if c.u then 1 else (lanesOf c.t).length

/-- Hand a list of elements to the lanes of a mask in ascending order. -/
def dealOut : List Nat → List Word → Nat → Word
  | [], _, _ => 0
  | _ :: _, [], _ => 0
  | l :: ls, x :: xs, i => if i = l then x else dealOut ls xs i

/-- Pop a field that names a queue (R60). -/
def State.pop (s : State) (c : Ctx) (n : Nat) : QRes (LaneVec × State) :=
  match s.blocks.get? c.w.block with
  | none => .wait n
  | some b =>
    if !c.consumes n then .fault 0x20
    else if (b.queue c.w.index n).length < c.elems then
      if s.exitedWave c.partner && !s.stillPushes c.partner n then .fault 0x21 else .wait n
    else
      let got := (b.queue c.w.index n).take c.elems
      .ok (vecOf (dealOut (if c.u then [c.src] else c.lanes) got),
        s.modBlock c.w.block fun b =>
          { b with queues := b.queues.set (4 * c.w.index + n) (List.drop c.elems (b.queue c.w.index n)) })

/-- A field that names a queue may be pushed (R31): there is room for every element. -/
def State.mayPush (s : State) (c : Ctx) (n : Nat) : QRes Unit :=
  match s.blocks.get? c.w.block with
  | none => .wait n
  | some b =>
    if c.consumes n then .fault 0x20
    else if 512 < (b.queue c.w.index n).length + c.elems then
      if s.exitedWave c.partner then .fault 0x21 else .wait n
    else .ok ()

/-- Push elements in ascending lane order. -/
def State.push (s : State) (c : Ctx) (n : Nat) (v : Nat → Word) : State :=
  let new := if c.u then [v c.src] else c.lanes.map v
  s.modBlock c.w.block fun b =>
    { b with queues := b.queues.set (4 * c.w.index + n) (b.queue c.w.index n ++ new) }

/-- Read one operand field, popping when it names a queue. -/
def State.readField (s : State) (c : Ctx) (r : Nat) : QRes (LaneVec × State) :=
  match c.w.slotOf r with
  | .qin n => s.pop c n
  | _ => .ok (c.w.readReg r, s)

/-- Read a run of registers from a field on; a run longer than one names no queue (R61). -/
def State.readRun (s : State) (c : Ctx) (r : Reg) (n : Nat) : QRes (List LaneVec × State) :=
  if n = 1 then
    match s.readField c r.toNat with
    | .ok (v, s) => .ok ([v], s)
    | .wait k => .wait k
    | .fault k => .fault k
  else .ok ((List.range n).map fun i => c.w.readReg (r.toNat + i), s)

/-- Read the operand fields in order (R60). -/
def State.readFields (s : State) (c : Ctx) : List (Reg × Nat) → QRes (List (List LaneVec) × State)
  | [] => .ok ([], s)
  | (r, n) :: rest =>
    match s.readRun c r n with
    | .wait k => .wait k
    | .fault k => .fault k
    | .ok (v, s) =>
      match State.readFields s c rest with
      | .wait k => .wait k
      | .fault k => .fault k
      | .ok (vs, s) => .ok (v :: vs, s)

/-- Every destination field that names a queue has room. -/
def State.roomFor (s : State) (c : Ctx) : List (Reg × Nat) → QRes Unit
  | [] => .ok ()
  | (r, _) :: rest =>
    match c.w.slotOf r.toNat with
    | .qout n =>
      match s.mayPush c n with
      | .ok () => State.roomFor s c rest
      | .wait k => .wait k
      | .fault k => .fault k
    | _ => State.roomFor s c rest

/-- Write one destination register: registers in the destination lanes, a queue by pushing; `lane` and `zero` discard
(R60). Under u = 1 the source lane's value goes to every lane of S (R56). -/
def State.writeReg (s : State) (c : Ctx) (r : Nat) (v : Nat → Word) : State :=
  match c.w.slotOf r with
  | .phys k => s.modWave c.key fun w => w.writeSlot k c.dests fun i => if c.u then v c.src else v i
  | .qout n => s.push c n v
  | _ => s

/-- Write a pair, low word first (R61). -/
def State.writePair (s : State) (c : Ctx) (r : Nat) (v : Nat → DWord) : State :=
  (s.writeReg c r fun i => (v i).extractLsb' 0 32).writeReg c (r + 1) fun i => (v i).extractLsb' 32 32

/-- OR flags into the executing lanes (R104). -/
def State.raiseFlags (s : State) (c : Ctx) (f : Nat → Flags) : State :=
  s.modWave c.key fun w => w.raiseFlags c.t f

/-! ## Addresses -/

/-- R201, and `adda` of R80: add an offset below the space nibble. -/
def stepAddr (base : DWord) (off : Int) : DWord :=
  base.extractLsb' 60 4 ++ (base + BitVec.ofInt 64 off).extractLsb' 0 60

/-- The space nibble (R148). -/
def spaceOf (a : DWord) : Nat := (a.extractLsb' 60 4).toNat

/-- The blocks of a cluster of the launch: 1 in a standing program. -/
def Launch.clusterSize (l : Launch) : Nat :=
  if l.standing.isSome then 1 else l.record.kx * l.record.ky * l.record.kz

/-- The key of member m of the issuing block's cluster. -/
def Ctx.member (c : Ctx) (m : Nat) : Nat :=
  if c.l.standing.isSome then c.w.block else blockKey c.b.launch (c.b.cpos * c.l.clusterSize + m)

/-- Round up to a multiple. -/
def roundUpTo (n g : Nat) : Nat := (n + g - 1) / g * g

/-- The die of a core (R1): 48 cores a die. -/
def dieOf (core : Nat) : Nat := core / 48

/-- Where the die scratchpad of a die starts in the model's memory (log entry 6). -/
def dieBase (die : Nat) : Nat := 2 ^ 48 + die * 2 ^ 26

/-- The address-space check of R148, with the retired members of R152. -/
def State.spaceOk (s : State) (c : Ctx) (a : DWord) : Bool :=
  match spaceOf a with
  | 0x0 => a.extractLsb' 57 3 == 0
  | 0xC => a.extractLsb' 32 28 == 0
  | 0xD => a.extractLsb' 35 25 == 0 && decide ((a.extractLsb' 32 3).toNat < c.l.clusterSize) &&
      ((s.blocks.get? (c.member (a.extractLsb' 32 3).toNat)).isSome ||
        (c.l.retiredRanks.get? (c.b.cpos * c.l.clusterSize + (a.extractLsb' 32 3).toNat)).isNone)
  | 0xE => a.extractLsb' 32 28 == 0
  | 0xF => a.extractLsb' 32 28 == 0
  | _ => false

/-- The size that an offset is checked against (R148). -/
def Ctx.spaceSize (c : Ctx) (a : DWord) : Nat :=
  match spaceOf a with
  | 0xC => c.b.shared
  | 0xD => c.b.shared
  | 0xE => 2 ^ 26
  | 0xF => c.b.slice
  | _ => 2 ^ 57

/-- The offset of an address in its space (R148). -/
def offsetOf (a : DWord) : Nat :=
  if spaceOf a = 0 then (a.extractLsb' 0 57).toNat else (a.extractLsb' 0 32).toNat

/-- A cell-memory address whose member has not started (R43). -/
def State.unstarted (s : State) (c : Ctx) (a : DWord) : Bool :=
  spaceOf a == 0xD && (s.blocks.get? (c.member (a.extractLsb' 32 3).toNat)).isNone

/-- Where a byte of an on-chip space lies (R151, R152). -/
def Ctx.onChip (c : Ctx) (lane : Nat) (a : DWord) : Loc :=
  match spaceOf a with
  | 0xD => .scr (c.member (a.extractLsb' 32 3).toNat) (offsetOf a)
  | 0xE => .mem (dieBase (dieOf c.w.core) + offsetOf a)
  | 0xF => .scr c.w.block (roundUpTo c.b.shared 4096 + (64 * c.w.index + lane) * c.b.slice + offsetOf a)
  | _ => .scr c.w.block (offsetOf a)

/-- The form of an address that the footprint table compares (R164). -/
def Ctx.footprintAddr (c : Ctx) (a : DWord) : Nat :=
  if spaceOf a = 0xD ∧ (a.extractLsb' 32 3).toNat = c.b.mbr then 0xC * 2 ^ 60 + offsetOf a else a.toNat

/-! ## Translation (R155 to R160) -/

/-- The outcome of a walk (R157). -/
inductive Walked where
  | absent
  | malformed
  | leaf (x : Xlate)
  deriving DecidableEq, Repr

/-- The bit position where level i's index starts, and the index's width (R155). -/
def levelShift (i : Nat) : Nat := [48, 39, 30, 21, 13].getD i 13

/-- An entry's reserved bits and PEER rules (R156, R157 case 2), and where a leaf may stand (R155). -/
def entryOk (level : Nat) (e : DWord) : Bool :=
  let leaf := e.getLsbD 1
  let remote := e.getLsbD 8
  let peer := (e.extractLsb' 56 8).toNat
  e.extractLsb' 48 8 == 0 && e.extractLsb' 5 3 == 0 && e.extractLsb' 9 2 == 0 &&
  (e.extractLsb' 11 2 == 0 || (!leaf && level == 3)) &&
  (if leaf then 2 ≤ level else level ≤ 3) &&
  (!leaf || level != 2 || e.extractLsb' 13 17 == 0) && (!leaf || level != 3 || e.extractLsb' 13 8 == 0) &&
  (if remote then leaf && peer < 144 else peer == 0)

/-- Walk the tables from a level on, reading entries with `rd` (R157). -/
def walkFrom (rd : Nat → Nat) (asid va : Nat) : Nat → Nat → Nat → Walked
  | 0, _, _ => .malformed
  | fuel + 1, level, table =>
    let sh := levelShift level
    let idx := va / 2 ^ sh % (if level = 4 then 256 else 512)
    let e : DWord := BitVec.ofNat 64 (rd (table + 8 * idx))
    if !e.getLsbD 0 then .absent
    else if !entryOk level e then .malformed
    else if e.getLsbD 1 then
      .leaf ⟨asid, va / 2 ^ sh * 2 ^ sh, 2 ^ sh, (e.extractLsb' 13 35).toNat * 2 ^ 13, e.getLsbD 2, e.getLsbD 3,
        e.getLsbD 4, if e.getLsbD 8 then some (e.extractLsb' 56 8).toNat else none⟩
    else walkFrom rd asid va fuel (level + 1) ((e.extractLsb' 11 37).toNat * 2 ^ 11)

/-- A whole walk (R155): the tables are read as device-scope loads (R159). DESIGN CHOICE: poisoned bytes of a table are
used as they stand: no rule says what a walk that meets them gives (log entry 74). -/
def State.walk (s : State) (asid root va : Nat) : Walked :=
  walkFrom (fun a => s.homeNat a 8) asid va 5 0 root

/-- An entry maps an address. -/
def Xlate.covers (x : Xlate) (asid va : Nat) : Bool :=
  decide (x.asid = asid) && decide (x.va ≤ va) && decide (va < x.va + x.size)

/-- A cached translation (R158): the core's TLB, then the die's cache. -/
def State.cached (s : State) (core asid va : Nat) : Option Xlate :=
  match (s.core core).tlb.find? fun x => x.covers asid va with
  | some x => some x
  | none => (s.dieTlb.getD (dieOf core) []).find? fun x => x.covers asid va

/-- Put an entry into a cache of `cap` entries; a full one gives up the entry that the step picks (R158). DESIGN CHOICE:
which entry goes is a choice of the step (log entry 55). -/
def cacheIn (cap pick : Nat) (x : Xlate) (xs : List Xlate) : List Xlate :=
  if xs.contains x then xs
  else if xs.length < cap then x :: xs
  else x :: xs.eraseIdx (pick % xs.length)

/-- Fill the TLB of a core, of 256 entries (R158). -/
def State.fillCore (s : State) (core : Nat) (x : Xlate) : State :=
  s.modCore core fun c => { c with tlb := cacheIn 256 s.pick x c.tlb }

/-- A walk fills the die cache, of 16,384 entries, and the TLB of a core (R158). -/
def State.fillTlb (s : State) (core : Nat) (x : Xlate) : State :=
  let s := s.fillCore core x
  { s with dieTlb := s.dieTlb.put [] (dieOf core) (cacheIn 16384 s.pick x (s.dieTlb.getD (dieOf core) [])) }

/-- The purposes an access has for the permission check (R157, R231). -/
inductive Purpose where
  | read | write | fetch
  deriving DecidableEq, Repr

/-- The permission check (R157 case 3, R231). -/
def Xlate.permits (x : Xlate) (p : Purpose) (sup : Bool) : Bool :=
  (!x.sup || sup) && (match p with
    | .read => true
    | .write => x.writable
    | .fetch => x.exec && x.peer.isNone)

/-- This device's number in its domain. -/
def ownDev : Nat := Config.dev.toNat

/-- The physical target of a virtual address. -/
def Xlate.target (x : Xlate) (va : Nat) : Target :=
  match x.peer with
  | none => .here (.mem (x.pa + (va - x.va)))
  | some d => .peer d (x.pa + (va - x.va))

/-- A physical address that memory answers for: a byte of HBM (R1), or of an enabled view range (R116). -/
def State.hasByte (s : State) (a : Nat) : Bool := decide (a < Config.hbmEnd) || (s.windowAt a).isSome

/-- Where an access to a target goes. DEDUCED: a physical address of this device that memory does not answer for is
reached as the host reaches it, by a message of R305 to this device itself, uncached: the control space answers there as
R399 says, and any other address with status 1 (R161; log entry 48). -/
def State.route (s : State) (t : Target) : Target :=
  match t with
  | .here (.mem a) => if s.hasByte a then t else .peer ownDev a
  | .here (.scr _ _) => t
  | .peer _ _ => t

/-- Where a lookup of a translation ends. -/
inductive Looked where
  | found (x : Xlate) (s : State)
  | absent
  | malformed
  /-- the miss joined the walk of a key, whose outcome comes later (R159) -/
  | joined (key : Nat) (s : State)
  deriving Repr

/-- The key of a walk: VA[56:13] and address space (R159). -/
def walkKey (asid va : Nat) : Nat := va / 2 ^ 13 * 2 ^ 12 + asid

/-- A walk has a key. -/
def Walk.has (k : Walk) (asid va : Nat) : Bool := decide (walkKey k.asid (k.page * 2 ^ 13) = walkKey asid va)

/-- A walk of an address's key is in flight, or every walk unit has one (R159). -/
def State.mustQueue (s : State) (asid va : Nat) : Bool :=
  (s.walks.any fun k => k.has asid va) || decide (32 ≤ s.walks.length)

/-- A miss of a core joins the walk of its key that is in flight, or starts one, which waits its turn behind 32 others
(R159). -/
def State.joinWalk (s : State) (core asid va : Nat) : State :=
  { s with walks :=
      if s.walks.any fun k => k.has asid va then
        s.walks.map fun k => if k.has asid va && !k.cores.contains core then { k with cores := k.cores ++ [core] } else k
      else s.walks ++ [⟨asid, va / 2 ^ 13, [core]⟩] }

/-- Look up a translation: in the core's TLB, in the die's cache, by a walk (R158, R159). `outs` are the faults that walks
have handed to the party that asks. Where no walk stands before it a walk may end at once, when the current choice says
so. -/
def State.lookup (s : State) (outs : List (Nat × Nat)) (core asid root va : Nat) : Looked :=
  match (s.core core).tlb.find? fun x => x.covers asid va with
  | some x => .found x s
  | none =>
    match (s.dieTlb.getD (dieOf core) []).find? fun x => x.covers asid va with
    | some x => .found x (s.fillCore core x)
    | none =>
      match outs.find? fun o => decide (o.1 = walkKey asid va) with
      | some o => if o.2 = 0x13 then .absent else .malformed
      | none =>
        if s.later || s.mustQueue asid va then .joined (walkKey asid va) (s.joinWalk core asid va)
        else match s.walk asid root va with
          | .absent => .absent
          | .malformed => .malformed
          | .leaf x => .found x (s.fillTlb core x)

/-- A wave waits for walks (R159). -/
def State.awaitWalks (s : State) (key : Nat) (ks : List Nat) : State := s.modWave key fun w => { w with walking := ks }

/-- A copy that may serve a load: its lease runs, it is not set aside, and the choice of the step, or a fill by the
same word, makes it serve (R174, R177, R203). -/
def State.servesFrom (s : State) (core acq since line : Nat) : Option Line :=
  match (s.core core).l1.get? line with
  | none => none
  | some k =>
    if decide (s.now < k.lease) && decide (acq ≤ k.fill) && (s.hit || decide (since ≤ k.fill)) then some k else none

/-! ## The checks of R202 -/

/-- What the checks of R202 come to. -/
inductive Checked where
  | ok (rs : List Reach) (s : State)
  | fault (cause lane : Nat) (addr : DWord)
  /-- a recoverable translation fault: the wave parks -/
  | park (lane : Nat) (addr : DWord)
  /-- it waits for a cluster member that has not started (R43) -/
  | wait (s : State)
  /-- it waits for walks, by their keys (R159) -/
  | walk (keys : List Nat) (s : State)
  /-- DQM: an access to a member that has not started ends the quantum (R205) -/
  | endQuantum
  deriving Repr

/-- Reach the targets of the lanes that passed the earlier checks, in ascending order: translation and its faults in
the order of R202 steps 4 to 6. All lanes are looked up first, then the fault with the earliest step decides. The walks
that lanes have joined come last, by their keys. -/
def State.reachAll (s : State) (c : Ctx) : List (Nat × DWord) → State × List (Nat × DWord × Option (Except Nat Xlate)) × List Nat
  | [] => (s, [], [])
  | (lane, a) :: rest =>
    if spaceOf a = 0 then
      match s.lookup c.w.walkOut c.w.core c.l.asid c.l.root (offsetOf a) with
      | .found x s =>
        let r := State.reachAll s c rest
        (r.1, (lane, a, some (.ok x)) :: r.2.1, r.2.2)
      | .absent =>
        let r := State.reachAll s c rest
        (r.1, (lane, a, some (.error 0x13)) :: r.2.1, r.2.2)
      | .malformed =>
        let r := State.reachAll s c rest
        (r.1, (lane, a, some (.error 0x14)) :: r.2.1, r.2.2)
      | .joined k s =>
        let r := State.reachAll s c rest
        (r.1, r.2.1, k :: r.2.2)
    else
      let r := State.reachAll s c rest
      (r.1, (lane, a, none) :: r.2.1, r.2.2)

/-- The target of a lane that passed its translation. -/
def State.reach (s : State) (c : Ctx) (x : Nat × DWord × Option (Except Nat Xlate)) : Reach :=
  match x.2.2 with
  | some (.ok k) => ⟨x.1, x.2.1, s.route (k.target (offsetOf x.2.1))⟩
  | _ => ⟨x.1, x.2.1, .here (c.onChip x.1 x.2.1)⟩

/-- A write to an enabled view range (R114). -/
def State.inView (s : State) (t : Target) : Bool :=
  match t with
  | .here (.mem a) => (s.windowAt a).isSome
  | _ => false

/-- Whether an access consumes the bytes it reaches, and whether a copy in L1 may serve it (R154, R174). -/
inductive Takes where
  | nothing
  | home
  | copy
  deriving DecidableEq, Repr

/-- An access consumes poisoned bytes (R154): none where a copy in the core's L1 serves a load in free mode. -/
def State.poisonedAt (s : State) (c : Ctx) (k : Takes) (t : Target) (n : Nat) : Bool :=
  match t with
  | .here l => decide (k ≠ .nothing) && s.poisoned l n &&
      !(match l with
        | .mem a => decide (k = .copy) && !c.l.dqm && decide (a < 2 ^ 48) &&
            (s.servesFrom c.w.core c.w.acq s.seq (a / 64)).isSome
        | .scr _ _ => false)
  | .peer _ _ => false

/-- R202: the checks over the lanes' addresses, in the order of the rule; the lowest lane that fails the first failing
check is reported. -/
def State.check (s : State) (c : Ctx) (as : List (Nat × DWord)) (size : Nat) (p : Purpose) (takes : Takes) : Checked :=
  match as.find? fun x => !s.spaceOk c x.2 with
  | some x => .fault 0x10 x.1 x.2
  | none =>
  match as.find? fun x => decide (x.2.toNat % size ≠ 0) with
  | some x => .fault 0x11 x.1 x.2
  | none =>
  match as.find? fun x => decide (c.spaceSize x.2 < offsetOf x.2 + size) with
  | some x => .fault 0x12 x.1 x.2
  | none =>
  if as.any fun x => s.unstarted c x.2 then (if c.l.dqm then .endQuantum else .wait s)
  else
    let r := s.reachAll c as
    if r.2.2 ≠ [] then .walk r.2.2 r.1
    else
    match r.2.1.find? fun x => match x.2.2 with | some (.error 0x13) => true | _ => false with
    | some x => .park x.1 x.2.1
    | none =>
    match r.2.1.find? fun x => match x.2.2 with | some (.error _) => true | _ => false with
    | some x => .fault 0x14 x.1 x.2.1
    | none =>
    match r.2.1.find? fun x => match x.2.2 with | some (.ok k) => !k.permits p c.w.sup | _ => false with
    | some x => .fault 0x15 x.1 x.2.1
    | none =>
      let rs := r.2.1.map (s.reach c)
      match (if p = .write then rs.find? fun x => s.inView x.tgt else none) with
      | some x => .fault 0x16 x.lane x.addr
      | none =>
      match rs.find? fun x => s.poisonedAt c takes x.tgt size with
      | some x => .fault 0x17 x.lane x.addr
      | none => .ok rs r.1

/-- What the loads of helper lanes come to. -/
structure Helped where
  /-- the lanes whose checks pass, each with its target -/
  rs : List Reach
  /-- walks that some wait for -/
  keys : List Nat
  /-- one waits for a member of the cluster that has not started -/
  unstarted : Bool
  state : State
  deriving Repr

/-- The loads of helper lanes: a fault is suppressed (R24, R202); one may have to wait, for a walk or for a member of the
cluster that has not started (R43, R159). -/
def State.helperReach (s : State) (c : Ctx) (size : Nat) (takes : Takes) : List (Nat × DWord) → Helped
  | [] => ⟨[], [], false, s⟩
  | (lane, a) :: rest =>
    match State.check { s with later := false } c [(lane, a)] size .read takes with
    | .ok rs t =>
      let x := State.helperReach { t with later := s.later } c size takes rest
      { x with rs := rs ++ x.rs }
    | .walk ks t =>
      let x := State.helperReach { t with later := s.later } c size takes rest
      { x with keys := ks ++ x.keys }
    | .wait _ => { State.helperReach s c size takes rest with unstarted := true }
    | .endQuantum => { State.helperReach s c size takes rest with unstarted := true }
    | .fault _ _ _ => State.helperReach s c size takes rest
    | .park _ _ => State.helperReach s c size takes rest

end Sys2Proof.Machine
end

