-- ==== Sys2Proof/Machine/Issue.lean ====
section
/-! DEFINITION. The issue of a word: the decision of R62, the waits of R26, the register checks, and how what a form
does ends (R53 to R63, R277, R395). -/

namespace Sys2Proof.Machine

open Sys2Proof

/-- What a form of instruction is to the issue logic. -/
structure Form where
  g : Guard
  u : Bool
  /-- words: 2 for a literal pair -/
  size : Nat
  /-- fields read, in the order of R60, with the length of the run each names -/
  reads : List (Reg × Nat)
  writes : List (Reg × Nat)
  /-- helper lanes execute the form too (R24) -/
  helpers : Bool
  /-- `poll` (R28, R216) -/
  poll : Bool := false
  /-- lanes whose words reach an executing lane, given the executing lanes (R395) -/
  carry : Mask → Mask := fun t => t

/-- How what a form does ends. -/
inductive Res where
  /-- done: the wave moves on to the next word -/
  | done (x : Series) (s : State)
  /-- done, with the program counter already set -/
  | jump (x : Series) (s : State)
  /-- done, and the quantum ends (R205) -/
  | doneEnd (x : Series) (s : State)
  /-- done, the program counter set, and the quantum ends -/
  | jumpEnd (x : Series) (s : State)
  /-- not issued: Waiting (R26) -/
  | wait (s : State)
  /-- not retired: Blocked (R26) -/
  | block (b : Blocked) (s : State)
  /-- not retired, and the quantum ends before it (R205) -/
  | endFirst (s : State)
  /-- Blocked, and the quantum ends at it (R205) -/
  | blockEnd (b : Blocked) (s : State)
  /-- a halting cause, before any effect -/
  | halt (cause : Nat) (addr : DWord) (detail : Word)
  /-- a recoverable translation fault -/
  | park (lane : Nat) (addr : DWord)
  /-- the word has already been retired or halted, with the other waves it concerns -/
  | left (s : State)
  deriving Repr

/-- Skid of a sibling of a halting wave (R371): counts what it retires after the broadcast. -/
def State.countSkid (s : State) (key b : Nat) : State :=
  match s.blocks.get? b with
  | none => s
  | some blk =>
    match blk.halt with
    | none => s
    | some h => if h.done then s else s.modWave key fun w => if w.halted then w else { w with skid := w.skid + 1 }

/-- Move on past a word (R231) and retire it. -/
def State.retireAt (s : State) (c : Ctx) (size : Nat) (x : Series) : State :=
  (s.modWave c.key fun w => { (w.retire c.l s.now x) with pc := w.pc + BitVec.ofNat 64 (4 * size) }).countSkid
    c.key c.w.block

/-- Retire a word that has set the program counter itself. -/
def State.retireJump (s : State) (c : Ctx) (x : Series) : State :=
  (s.modWave c.key fun w => w.retire c.l s.now x).countSkid c.key c.w.block

/-- End the wave's quantum (R205); no effect in free mode. -/
def State.endQuantum (s : State) (c : Ctx) : State :=
  if c.l.dqm then s.modWave c.key fun w => { w with qend := true } else s

/-- The wave does not issue in this cycle: it leaves Ready until something changes (R26, R29). -/
def State.stallWave (s : State) (key : Nat) : State :=
  s.modWave key fun w => { w with stalled := some s.ver, readyFrom := s.now, starving := false }

/-- Put a wave into Blocked. -/
def State.blockWave (s : State) (key : Nat) (b : Blocked) : State :=
  s.modWave key fun w => { w with blocked := some b, stalled := some s.ver, readyFrom := s.now, starving := false }

/-- The word after this one would lie at 2^57 or beyond (R231). -/
def Ctx.atEdge (c : Ctx) (size : Nat) : Bool := decide (2 ^ 57 ≤ c.w.pc.toNat + 4 * size)

/-- A word that has not retired has popped nothing (R31): the queues of the block are as before it. -/
def State.unpop (s : State) (c : Ctx) : State := s.modBlock c.w.block fun b => { b with queues := c.b.queues }

/-- An error consumed by a block may be rolled back: a snapshot stands that has served fewer than twice (R394). -/
def Block.rolls (b : Block) : Bool := b.snap.isSome && decide (b.consumed < 2)

/-- The block stops for a rollback (R394); the ROLLBACK event follows. -/
def State.beginRollback (s : State) (key block : Nat) : State :=
  s.modBlock block fun b => { b with halt := some (b.halt.getD ⟨0x43, key, false, false⟩) }

/-- An address in a block's own scratchpad run. -/
def Block.ownAddr (b : Block) (a : DWord) : Bool :=
  match spaceOf a with
  | 0xC => true
  | 0xF => true
  | 0xD => decide ((a.extractLsb' 32 3).toNat = b.mbr)
  | _ => false

/-- A deferred fault is an error consumed in the block's scratchpad or accumulator allocation (R394): a unit of it that
fails verification (bit 31 of DETAIL marks a tenure, bit 30 a follower's unit), or poison that a job or a fetch meets. -/
def Block.consumedBy (b : Block) (cause : Nat) (addr : DWord) (detail : Word) : Bool :=
  (cause == 0x34 && !detail.getLsbD 31 && !detail.getLsbD 30) || (cause == 0x17 && b.ownAddr addr)

/-- A halting cause of a word: poison in the block's own scratchpad leads to rollback where the run selects it, and at
a third consumption to cause 0x41 (R394). -/
def State.haltWord (s : State) (c : Ctx) (cause : Nat) (addr : DWord) (detail : Word) : State :=
  if cause = 0x17 ∧ c.b.ownAddr addr ∧ c.b.snap.isSome then
    if c.b.rolls then s.beginRollback c.key c.w.block else s.takeHalt c.key 0x41 addr c.t detail
  else s.takeHalt c.key cause addr c.t detail

/-- A word waits: `t` is what it has come to, `u` the state in which its wave waits. One that has begun keeps the lanes that
execute it (R62); at the last address it raises the branch-target fault in place of its effect (R231, R249). -/
def State.waits (s : State) (c : Ctx) (size : Nat) (t u : State) : State :=
  match t.waves.get? c.key with
  | none => u
  | some w =>
    if !w.midWord then u
    else if c.atEdge size then s.takeHalt c.key 0x07 0 c.t 0
    else u.modWave c.key fun w => { w with heldT := some c.t }

/-- Settle how a word ended. `s` is the state before it. A word that would fall through past the last address raises
the branch-target fault in place of its effect (R231, R232). -/
def State.settle (s : State) (c : Ctx) (size : Nat) : Res → State
  | .done x t => if c.atEdge size then s.takeHalt c.key 0x07 0 c.t 0 else t.retireAt c size x
  | .jump x t => t.retireJump c x
  | .doneEnd x t => if c.atEdge size then s.takeHalt c.key 0x07 0 c.t 0 else (t.retireAt c size x).endQuantum c
  | .jumpEnd x t => (t.retireJump c x).endQuantum c
  | .wait t => s.waits c size t ((t.unpop c).stallWave c.key)
  | .block b t => (t.unpop c).blockWave c.key b
  | .endFirst t => s.waits c size t (((t.unpop c).stallWave c.key).endQuantum c)
  | .blockEnd b t => ((t.unpop c).blockWave c.key b).endQuantum c
  | .halt cause addr detail => s.haltWord c cause addr detail
  | .park lane addr => s.takePark c.key addr c.t lane
  | .left t => t

/-- The number that stands for a hardware queue among the register slots. -/
def queueSlot (n : Nat) : Nat := 300 + n

/-- The register slots a form names, and the queues it pushes. -/
def Form.slots (f : Form) (w : Wave) : List Nat :=
  ((f.reads ++ f.writes).flatMap fun x => w.slotsOf x.1 x.2) ++
    f.writes.filterMap fun x => match w.slotOf x.1.toNat with
      | .qout n => some (queueSlot n)
      | _ => none

/-- The slot a guard reads. -/
def guardSlots : Guard → List Nat
  | .always => []
  | .p1 => [259]
  | .p2 => [260]
  | .p3 => [261]
  | .np1 => [259]
  | .np2 => [260]
  | .np3 => [261]

/-- Register slots of the wave that an outstanding load or tile operation will write (R26, R348), and queues that an
outstanding load will push, which keep their order (R31). -/
def State.pendingSlots (s : State) (key : Nat) (w : Wave) : List Nat :=
  (w.outst.flatMap fun a => a.dest ++ (a.queue.map queueSlot).toList) ++
  ((s.core w.core).ops.flatMap fun o => if o.wave = key then o.dest else [])

/-- Fields that break R59 or R60 (R62). -/
def Form.inRange (f : Form) (w : Wave) (l : Launch) : Bool :=
  f.reads.all (fun x => w.mayRead l x.1 x.2) && f.writes.all fun x => w.mayWrite l x.1 x.2

/-- A field of the form names a hardware queue. -/
def Form.queued (f : Form) (w : Wave) : Bool :=
  (f.reads ++ f.writes).any fun x => match w.slotOf x.1.toNat with
    | .qin _ => true
    | .qout _ => true
    | _ => false

/-- The helper lanes in which the form executes (R24): none for a form that pushes or pops. -/
def Form.helperLanes (f : Form) (w : Wave) : Mask :=
  if !f.helpers || f.queued w then 0
  else w.helpers &&& maskOf fun i => w.guardIn f.g i

/-- Lanes of registers read that hold an uncorrectable error: those in executing lanes are consumed, the others are
latent (R395). -/
def struckIn (w : Wave) (f : Form) (t : Mask) : Bool × List Nat :=
  if w.struck = [] && w.poison = [] then (false, [])
  else
    let slots := f.reads.flatMap fun x => w.slotsOf x.1 x.2
    (slots.any fun k => decide ((w.struck.getD k 0 ||| w.poison.getD k 0) &&& f.carry t ≠ 0),
     slots.filter fun k => decide (w.struck.getD k 0 &&& ~~~t ≠ 0))

/-- Latent errors are poisoned and logged with record 0x42 (R395). -/
def State.latent (s : State) (c : Ctx) : List Nat → State
  | [] => s
  | k :: ks =>
    State.latent ((s.modWave c.key fun w =>
      { w with poison := w.poison.put 0 k (w.poison.getD k 0 ||| (w.struck.getD k 0 &&& ~~~c.t))
               struck := w.struck.put 0 k (w.struck.getD k 0 &&& c.t) }).post
      (waveRec c.l c.key c.w c.b 0x42 0 c.t 0)) c ks

/-- An uncorrectable error is consumed, or a duplicated issue disagrees: rollback where the run selects it and the
snapshot has been used fewer than twice, else a halt (R392, R394, R395). The ROLLBACK event follows. -/
def State.consumeError (s : State) (c : Ctx) (cause : Nat) : State :=
  if c.b.rolls then s.beginRollback c.key c.w.block else s.takeHalt c.key cause 0 c.t 0

/-- What a word leaves of its effect when only helper lanes execute it: their registers (R24). -/
def Ctx.helpersKept (c : Ctx) (t : State) : State :=
  t.modWave c.key fun v => { c.w with regs := v.regs, poison := v.poison, struck := v.struck }

/-- A word that no lane executes retires as a no-op (R62); a helper in which its guard holds executes its form all the
same, with a result in its own registers alone (R24, R55). DESIGN CHOICE: R62 says that such a word changes nothing but what
it lists, and no rule says which of the two gives way (log entry 53). -/
def Ctx.helpersOnly (c : Ctx) (f : Form) (body : Ctx → List (List LaneVec) → State → Res) (s : State) : Res :=
  let x : Series := if f.poll then .idle else .plain
  if c.hl = 0 || !f.inRange c.w c.l then .done x s
  else match s.readFields c f.reads with
    | .ok (ops, s1) => match body c ops { s1 with later := false } with
      | .done _ t => .done x (c.helpersKept t)
      | .doneEnd _ t => .done x (c.helpersKept t)
      | .wait t => .wait t
      | .endFirst t => .endFirst t
      | _ => .done x s
    | _ => .done x s

/-- The lanes that execute a word: of one that has begun, those that executed it then (R62). -/
def Wave.lanesFor (w : Wave) (g : Guard) (u : Bool) : Mask := w.heldT.getD (w.executing g u)

/-- Issue a word: R62 with the waits of R26. The form's own effect is `body`, which gets the operands read. -/
def issue (f : Form) (body : Ctx → List (List LaneVec) → State → Res) (s : State) :
    Host.Outcome State Fault Refusal :=
  match s.parties with
  | none => .fault .noIssuingWave
  | some (key, w, b, l) =>
    if (guardSlots f.g).any fun k => (s.pendingSlots key w).contains k then .next (s.stallWave key)
    else
      let c : Ctx := ⟨key, w, b, l, w.lanesFor f.g f.u, if f.u then 0 else f.helperLanes w, f.u⟩
      if c.t = 0 then
        .next (if c.hl ≠ 0 ∧ ((f.slots w).any fun k => (s.pendingSlots key w).contains k) = true then s.stallWave key
          else s.settle c f.size (c.helpersOnly f body s))
      else if !f.inRange w l then .next (s.takeHalt key 0x02 0 c.t 0)
      else if (f.slots w).any fun k => (s.pendingSlots key w).contains k then .next (s.stallWave key)
      else if w.mismatch && l.record.options.getLsbD 3 && l.standing.isNone then
        .next ((s.modWave key fun w => { w with mismatch := false }).consumeError c 0x40)
      else if (struckIn w f c.t).1 then .next (s.consumeError c 0x41)
      else
        match s.roomFor c f.writes with
        | .fault k => .next (s.takeHalt key k 0 c.t 0)
        | .wait n => .next (s.blockWave key (.queue n))
        | .ok () =>
          match s.readFields c f.reads with
          | .fault k => .next (s.takeHalt key k 0 c.t 0)
          | .wait n => .next (s.blockWave key (.queue n))
          | .ok (ops, s1) => .next (s.settle c f.size (body c ops (s1.latent c (struckIn w f c.t).2)))

/-- A form at which the block's rollback interval closes: once it has retired, a new snapshot is taken (R393). A word
that retires as a no-op takes none (R62). -/
def closing (g : Guard) (u : Bool) (run : State → Host.Outcome State Fault Refusal) (s : State) : Host.Outcome State Fault Refusal :=
  match run s, s.parties with
  | .next t, some (key, w, b, l) =>
    if decide (w.lanesFor g u ≠ 0) && (b.snap.isSome || l.record.options.getLsbD 2) then
      match t.waves.get? key with
      | some v => .next (if v.retired = w.retired then t else t.snapshot w.block)
      | none => .next t
    else .next t
  | r, _ => r

/-- The operand of a field, one register wide. -/
def opReg (ops : List (List LaneVec)) (i : Nat) : LaneVec := (ops.getD i []).getD 0 zeroVec

/-- Register `k` of the run that a field names. -/
def opRun (ops : List (List LaneVec)) (i k : Nat) : LaneVec := (ops.getD i []).getD k zeroVec

/-- One lane of an operand. -/
def opLane (ops : List (List LaneVec)) (i lane : Nat) : Word := laneOf (opReg ops i) lane

/-- One lane of an operand pair (R61). -/
def opPair (ops : List (List LaneVec)) (i lane : Nat) : DWord :=
  pairOf (laneOf (opRun ops i 0) lane) (laneOf (opRun ops i 1) lane)

/-- A form that writes one register from its operands, lane by lane, and nothing else (R75). -/
def issueAlu (g : Guard) (u : Bool) (size : Nat) (d : Reg) (reads : List (Reg × Nat))
    (v : Ctx → List (List LaneVec) → Nat → Word) (s : State) : Host.Outcome State Fault Refusal :=
  issue ⟨g, u, size, reads, [(d, 1)], true, false, id⟩
    (fun c ops s => .done .plain (s.writeReg c d.toNat (v c ops))) s

/-- A form that writes a register pair from its operands and nothing else. -/
def issueAluPair (g : Guard) (u : Bool) (d : Reg) (reads : List (Reg × Nat))
    (v : Ctx → List (List LaneVec) → Nat → DWord) (s : State) : Host.Outcome State Fault Refusal :=
  issue ⟨g, u, 1, reads, [(d, 2)], true, false, id⟩
    (fun c ops s => .done .plain (s.writePair c d.toNat (v c ops))) s

/-- A form that writes one register and raises flags (R117). -/
def issueFloat (g : Guard) (u : Bool) (d : Reg) (reads : List (Reg × Nat))
    (v : Ctx → List (List LaneVec) → Nat → Word × Flags) (s : State) : Host.Outcome State Fault Refusal :=
  issue ⟨g, u, 1, reads, [(d, 1)], true, false, id⟩
    (fun c ops s =>
      .done .plain ((s.writeReg c d.toNat fun i => (v c ops i).1).raiseFlags c fun i => (v c ops i).2)) s

end Sys2Proof.Machine
end

