-- ==== Sys2Proof/Machine/Control.lean ====
section
/-! DEFINITION. Divergence, calls and control flow but `exit`, software traps and undefined words (R231 to R250, R382, R398). -/

namespace Sys2Proof.Machine

open Sys2Proof

/-- A target as a number, before its range check (R52, R232). -/
def jTarget (pc : DWord) (off : BitVec 21) : Int := (pc.toNat : Int) + 4 * off.toInt

/-- A target in the range of R232. -/
def targetOk (t : Int) : Bool := decide (0 ≤ t) && decide (t ≤ 2 ^ 57 - 4)

/-- The next word's address. -/
def Ctx.next (c : Ctx) : DWord := c.w.pc + 4

/-- The stack holds a token. -/
def hasToken (st : List StackEntry) : Bool := st.any fun e => match e with
  | .token _ _ => true
  | .path _ _ => false

/-- `transfer` of R235: the fault it raises, or the wave after it. -/
def Ctx.transfer (c : Ctx) (target : DWord) (w : Wave) : Except Nat Wave :=
  if c.u || c.t == w.active then .ok { w with pc := target }
  else if !hasToken w.stack then .error 0x04
  else if 16 ≤ w.stack.length then .error 0x05
  else .ok { w with stack := .path c.next (w.active &&& ~~~c.t) :: w.stack, active := c.t, pc := target }

/-- The link of a call (R237): `lr` in the transferring lanes, and a push onto the return stack (R240). -/
def Ctx.link (c : Ctx) (w : Wave) : Wave :=
  let w := w.writeSlot slotLr c.dests fun _ => c.next.extractLsb' 0 32
  { w with rets := c.next :: w.rets.take 7 }

/-- A transfer to an address that passed its checks, with or without a link. -/
def Ctx.go (c : Ctx) (target : DWord) (call : Bool) (s : State) : Res :=
  let now := s.waves.getD c.key c.w
  match c.transfer target (if call then c.link now else now) with
  | .error k => .halt k 0 0
  | .ok w => .jump .plain (s.modWave c.key fun _ => w)

/-- A form of control: no register is written through a field. -/
def controlForm (g : Guard) (u : Bool) (reads : List (Reg × Nat)) : Form :=
  ⟨g, u, 1, reads, [], false, false, id⟩

/-- The form of a transfer: a call writes `lr` (R237), and so waits for a load that will write it (R26). -/
def transferForm (g : Guard) (u call : Bool) (reads : List (Reg × Nat)) : Form :=
  ⟨g, u, 1, reads, if call then [(120, 1)] else [], false, false, id⟩

/-- `j` and `call` (R236). -/
def issueJump (off : BitVec 21) (g : Guard) (u call : Bool) (s : State) : Host.Outcome State Fault Refusal :=
  issue (transferForm g u call []) (fun c _ s =>
    if targetOk (jTarget c.w.pc off) then c.go (BitVec.ofInt 64 (jTarget c.w.pc off)) call s
    else .halt 0x07 0 0) s

/-- `j` (R236). -/
def execJ (off : BitVec 21) (g : Guard) (u : Bool) (s : State) : Host.Outcome State Fault Refusal :=
  issueJump off g u false s

/-- `call` (R236, R237). -/
def execCall (off : BitVec 21) (g : Guard) (u : Bool) (s : State) : Host.Outcome State Fault Refusal :=
  issueJump off g u true s

/-- The executing lanes hold one and the same value. -/
def Ctx.uniform {α : Type} [BEq α] (c : Ctx) (f : Nat → α) : Bool :=
  c.lanes.all fun i => f i == f (firstLane c.t)

/-- `jr` and `callr` (R238). -/
def issueJumpReg (a : Reg) (g : Guard) (u call : Bool) (s : State) : Host.Outcome State Fault Refusal :=
  issue (transferForm g u call [(a, 2)]) (fun c ops s =>
    let t := opPair ops 0 (firstLane c.t)
    if c.uniform (opPair ops 0) && t.extractLsb' 57 7 == 0 && t.extractLsb' 0 2 == 0 then c.go t call s
    else .halt 0x07 0 0) s

/-- `jr` (R238). -/
def execJr (a : Reg) (g : Guard) (u : Bool) (s : State) : Host.Outcome State Fault Refusal :=
  issueJumpReg a g u false s

/-- `callr` (R238). -/
def execCallr (a : Reg) (g : Guard) (u : Bool) (s : State) : Host.Outcome State Fault Refusal :=
  issueJumpReg a g u true s

/-- `ret` (R239). -/
def execRet (g : Guard) (s : State) : Host.Outcome State Fault Refusal :=
  issue (controlForm g false [(120, 1)]) (fun c ops s =>
    if !c.uniform (opLane ops 0) then .halt 0x06 0 0
    else
      let t := opLane ops 0 (firstLane c.t)
      if t.extractLsb' 0 2 != 0 then .halt 0x07 0 0
      else
        let target : DWord := (c.w.pc.extractLsb' 32 25 ++ t).setWidth 64
        let now := s.waves.getD c.key c.w
        let w := match now.rets with
          | [] => now
          | top :: rest => { now with rets := if top = target then rest else [] }
        match c.transfer target w with
        | .error k => .halt k 0 0
        | .ok w => .jump .plain (s.modWave c.key fun _ => w)) s

/-- `join.set` (R241). DESIGN CHOICE: a target out of range is reported before a full stack where both hold; no rule says
which comes first (log entry 75). -/
def execJoinSet (off : BitVec 21) (g : Guard) (s : State) : Host.Outcome State Fault Refusal :=
  issue (controlForm g false []) (fun c _ s =>
    if !targetOk (jTarget c.w.pc off) then .halt 0x07 0 0
    else if 16 ≤ c.w.stack.length then .halt 0x05 0 0
    else .done .plain (s.modWave c.key fun w =>
      { w with stack := .token (BitVec.ofInt 64 (jTarget c.w.pc off)) 0 :: w.stack })) s

/-- The path entries above the nearest token, the token, and what lies below it. -/
def splitStack : List StackEntry → List (DWord × Mask) × Option (DWord × Mask) × List StackEntry
  | [] => ([], none, [])
  | .token r m :: rest => ([], some (r, m), rest)
  | .path p m :: rest => ((p, m) :: (splitStack rest).1, (splitStack rest).2.1, (splitStack rest).2.2)

/-- Path entries as they stand on the stack. -/
def pathsOf (ps : List (DWord × Mask)) : List StackEntry := ps.map fun p => .path p.1 p.2

/-- `join` (R143, R242). -/
def execJoin (g : Guard) (s : State) : Host.Outcome State Fault Refusal :=
  issue (controlForm g false []) (fun c _ s =>
    match splitStack c.w.stack with
    | (_, none, _) => .halt 0x04 0 0
    | (ps, some (r, m), rest) =>
      if r ≠ c.w.pc then .halt 0x04 0 0
      else match ps with
        | [] => .done .plain (s.modWave c.key fun w => { w with active := m ||| w.active, stack := rest })
        | (p, k) :: more => .jump .plain (s.modWave c.key fun w =>
            { w with pc := p, active := k, stack := pathsOf more ++ .token r (m ||| w.active) :: rest })) s

/-- `yield` (R146, R243). -/
def execYield (g : Guard) (s : State) : Host.Outcome State Fault Refusal :=
  issue (controlForm g false []) (fun c _ s =>
    match splitStack c.w.stack with
    | ((p, k) :: more, some (r, m), rest) => .jump .yields (s.modWave c.key fun w =>
        { w with pc := p, active := k,
                 stack := pathsOf more ++ .path c.next w.active :: .token r m :: rest })
    | _ => .done .yields s) s

/-- `resume` of R245: what runs when the running path has no lane left; none when the wave has exited. -/
def resumeFrom : List StackEntry → Option (DWord × Mask × List StackEntry)
  | [] => none
  | .path p m :: rest => some (p, m, rest)
  | .token r m :: rest => if m = 0 then resumeFrom rest else some (r + 4, m, rest)

/-- `nop` (R246). -/
def execNop (g : Guard) (s : State) : Host.Outcome State Fault Refusal :=
  issue (controlForm g false []) (fun _ _ s => .done .plain s) s

/-- `trap` (R247): the block halts with cause 0x08 and the code in DETAIL; the word retires at the resume. -/
def execTrap (imm : BitVec 14) (g : Guard) (s : State) : Host.Outcome State Fault Refusal :=
  issue (controlForm g false []) (fun _ _ _ => .halt 0x08 0 (imm.setWidth 32)) s

/-- `trret` (R382). -/
def execTrret (g : Guard) (s : State) : Host.Outcome State Fault Refusal :=
  issue (controlForm g false []) (fun c _ s =>
    if !c.w.sup then .halt 0x03 0 0
    else if c.w.stack.length ≠ c.w.tdepth then .halt 0x04 0 0
    else .jump .returns (s.modWave c.key fun w => w.trapReturn)) s

/-- The lane map that a section has adopted (R397). -/
def LaneMaps.get (m : LaneMaps) (sect : Nat) : BitVec 15 :=
  match sect with
  | 0 => m.s0
  | 1 => m.s1
  | 2 => m.s2
  | _ => m.s3

/-- A section adopts a lane map (R398). -/
def LaneMaps.set (m : LaneMaps) (sect : Nat) (v : BitVec 15) : LaneMaps :=
  match sect with
  | 0 => { m with s0 := v }
  | 1 => { m with s1 := v }
  | 2 => { m with s2 := v }
  | _ => { m with s3 := v }

/-- LMAPn (R398). -/
def State.lmap (s : State) (n : Nat) : BitVec 15 := s.ctl.lmaps.getD n mapNone

/-- FAIL1 and FAIL2 of a lane map both name a lane: the section runs in two passes (R397). -/
def twoPass (m : BitVec 15) : Bool := decide ((m.extractLsb' 0 7).toNat ≤ 64) && decide ((m.extractLsb' 8 7).toNat ≤ 64)

/-- A lane-map value is accepted (R397). -/
def mapOk (m : BitVec 15) : Bool :=
  let f1 := (m.extractLsb' 0 7).toNat
  let f2 := (m.extractLsb' 8 7).toNat
  (decide (f1 ≤ 64) || f1 == 127) && (decide (f2 ≤ 64) || f2 == 127) && !(decide (f1 ≤ 64) && decide (f2 ≤ f1))

/-- The issuing wave's section adopts its LMAPn (R398). -/
def State.adoptMap (s : State) (core sect : Nat) : State :=
  s.modCore core fun k => { k with maps := k.maps.set sect (s.lmap (4 * core + sect)) }

/-- `lmap.ld` (R398). -/
def execLmapLd (g : Guard) (s : State) : Host.Outcome State Fault Refusal :=
  issue (controlForm g false []) (fun c _ s =>
    if !c.w.sup then .halt 0x03 0 0 else .done .plain (s.adoptMap c.w.core c.w.sect)) s

/-- The guard and uniform bit by which an undefined word is judged (R53, R54): g = 100 holds in every lane, and a
literal word as the second word of a pairing is judged as g = 000, u = 0. -/
def undefJudge (pfx : Option (BitVec 25)) (w : Word) : Guard × Bool :=
  if pfx.isSome && majorOf w == 1 then (.always, false) else ((guardOf (gOf w)).getD .always, uOf w)

/-- An undefined word or pairing (R62, R63). -/
def execUndefinedWord (pfx : Option (BitVec 25)) (w : BitVec 32) (s : State) :
    Host.Outcome State Fault Refusal :=
  issue ⟨(undefJudge pfx w).1, (undefJudge pfx w).2, if pfx.isSome then 2 else 1, [], [], false, false, id⟩
    (fun _ _ _ => .halt 0x01 0 0) s

end Sys2Proof.Machine
end

