-- ==== Sys2Proof/Machine/Special.lean ====
section
/-! DEFINITION. The special registers and the window base (R84 to R88, R103, R104, R381, R397, R398). -/

namespace Sys2Proof.Machine

open Sys2Proof

/-- The quanta completed by a grid: the number of the boundary that opened the current quantum (R88). -/
def State.quanta (s : State) (l : Launch) : Nat :=
  match l.standing with
  | none => l.bounds
  | some k => match s.programs.get? k with
    | none => 0
    | some p => p.bound

/-- Device time as a wave reads it: cycles since power (R87), or logical time in DQM (R88). -/
def State.deviceTime (s : State) (l : Launch) (w : Wave) : DWord :=
  BitVec.ofNat 64 (if l.dqm then s.quanta l * 65536 + w.qcount else s.now)

/-- `%tkt` (R86, R220, R222). -/
def Block.tktWord (b : Block) : Word :=
  BitVec.ofNat 32 ((if b.tktAband then 2 ^ 31 else 0) + min (b.ticket.getD 0x7FFFFFFF) 0x7FFFFFFF)

/-- A core's governor once the clock has reached the window of 1,200 cycles that a time lies in (R335). -/
def Core.atWindow (k : Core) (now : Nat) : Core :=
  if now / 1200 ≤ k.govWin then k
  else { k with govLast := if now / 1200 = k.govWin + 1 then k.govIssues else 0, govIssues := 0, govWin := now / 1200 }

/-- The budget of a core's governor window (R335, R336, R403): GOVMAX 0 acts as 1, and the firmware's limit applies
beside it. -/
def State.govBudget (s : State) (core : Nat) : Nat :=
  min (min (max 1 s.ctl.govMax.toNat) s.ctl.fwgov.toNat) (((s.core core).atWindow s.now).govLast + s.ctl.govStep.toNat)

/-- `%mxgov` (R335). -/
def State.mxgov (s : State) (l : Launch) (core : Nat) : Word :=
  if l.dqm then 0xFFFF0000
  else BitVec.ofNat 32 ((s.govBudget core - ((s.core core).atWindow s.now).govIssues) % 2 ^ 16 * 2 ^ 16 + min 0xFFFF (s.core core).govStalls)

/-- `%tstat` (R381). -/
def Wave.tstat (w : Wave) : Word :=
  BitVec.ofNat 32 (w.tdepth % 32 * 2 ^ 16 + w.tlevel % 8 * 2 ^ 8 + if w.sup then 1 else 0)

/-- `%lrmap` (R397). -/
def lrmapWord (m : BitVec 15) : Word :=
  (if twoPass m then 0x80000000 else 0) ||| m.setWidth 32

/-- A special register whose access is SV (R86, R381). -/
def svOnly : SReg → Bool
  | .lrmap => true
  | .tepcLo => true
  | .tepcHi => true
  | .tcause => true
  | .tstat => true
  | .tscr0 => true
  | .tscr1 => true
  | .tscr2 => true
  | .tscr3 => true
  | .wave => false
  | .block => false
  | .clus => false
  | .mbr => false
  | .core => false
  | .eq => false
  | .cycleLo => false
  | .cycleHi => false
  | .wtime => false
  | .wtcmp => false
  | .dix => false
  | .qtm => false
  | .gen => false
  | .fpflags => false
  | .fpmode => false
  | .seedLo => false
  | .seedHi => false
  | .wb => false
  | .mxgov => false
  | .tkt => false

/-- The value of a special register in a lane (R86); `time` is device time as captured (R87). -/
def State.sreg (s : State) (c : Ctx) (time : DWord) (r : SReg) (lane : Nat) : Word :=
  match r with
  | .wave => BitVec.ofNat 32 c.w.index
  | .block => BitVec.ofNat 32 c.b.linear
  | .clus => BitVec.ofNat 32 c.b.clus
  | .mbr => BitVec.ofNat 32 c.b.mbr
  | .core => BitVec.ofNat 32 (c.w.sect * 2 ^ 16 + c.w.core)
  | .eq => if c.l.standing.isSome then BitVec.ofNat 32 c.b.rank else 0xFFFFFFFF
  | .cycleLo => time.extractLsb' 0 32
  | .cycleHi => time.extractLsb' 32 32
  | .wtime => s.wtime c.l c.w
  | .wtcmp => c.w.wtcmp
  | .dix => BitVec.ofNat 32 c.w.retired
  | .qtm => if c.l.dqm then BitVec.ofNat 32 (s.quanta c.l + 1) else 0
  | .gen => if c.l.standing.isSome then c.b.gen.extractLsb' 0 32 else 0
  | .fpflags => (c.w.fpflags.getD lane 0).setWidth 32
  | .fpmode => c.w.fpmode
  | .seedLo => c.w.seed.extractLsb' 0 32
  | .seedHi => c.w.seed.extractLsb' 32 32
  | .wb => BitVec.ofNat 32 c.w.wb
  | .mxgov => s.mxgov c.l c.w.core
  | .tkt => c.b.tktWord
  | .lrmap => lrmapWord ((s.core c.w.core).maps.get c.w.sect)
  | .tepcLo => c.w.tepc.extractLsb' 0 32
  | .tepcHi => (c.w.tepc.extractLsb' 32 25).setWidth 32
  | .tcause => c.w.tcause.setWidth 32
  | .tstat => c.w.tstat
  | .tscr0 => c.w.tscr0
  | .tscr1 => c.w.tscr1
  | .tscr2 => c.w.tscr2
  | .tscr3 => c.w.tscr3

/-- Device time as a read of `r` finds it, and the latch it leaves (R87). -/
def State.capture (s : State) (c : Ctx) (r : SReg) : DWord × Option DWord :=
  match r with
  | .cycleLo => (s.deviceTime c.l c.w, some (s.deviceTime c.l c.w))
  | .cycleHi => (c.w.latch.getD (s.deviceTime c.l c.w), some (c.w.latch.getD (s.deviceTime c.l c.w)))
  | _ => (0, c.w.latch)

/-- `mov.s` (R85). -/
def execMovS (d : Reg) (sr : SReg) (g : Guard) (u : Bool) (s : State) : Host.Outcome State Fault Refusal :=
  issue ⟨g, u, 1, [], [(d, 1)], true, false, id⟩ (fun c _ s =>
    if svOnly sr && !c.w.sup then .halt 0x03 0 0
    else
      .done .plain ((s.modWave c.key fun w => { w with latch := (s.capture c sr).2 }).writeReg c d.toNat
        (s.sreg c (s.capture c sr).1 sr))) s

/-- A value written to `%fpmode` (R103): the reserved codes of RM become RNE. -/
def fpmodeOf (v : Word) : Word :=
  (v &&& 0x18) ||| if (v &&& 7) = 0 ∨ (v &&& 7) = 6 ∨ (v &&& 7) = 7 then 1 else v &&& 7

/-- A write of a special register (R85, R86, R381, R398): RO registers and reserved bits keep their values. DESIGN CHOICE:
`mov.s.w.u` to the per-lane `%fpflags` writes the copy of the source lane alone, the one lane that executes; R56 and R75
could be read to broadcast to every lane of S (log entry 57). -/
def State.setSreg (s : State) (c : Ctx) (r : SReg) (v : LaneVec) : State :=
  let x := laneOf v (firstLane c.t)
  match r with
  | .wtime => s.modWave c.key fun w => { w with wtime := if c.l.dqm then x else x - BitVec.ofNat 32 s.now }
  | .wtcmp => s.modWave c.key fun w => { w with wtcmp := x }
  | .fpflags => s.modWave c.key fun w =>
      { w with fpflags := (List.range 64).map fun i =>
          if c.t.getLsbD i then (laneOf v i).setWidth 8 &&& 0x1F else w.fpflags.getD i 0 }
  | .fpmode => s.modWave c.key fun w => { w with fpmode := fpmodeOf x }
  | .seedLo => s.modWave c.key fun w => { w with seed := pairOf x (w.seed.extractLsb' 32 32) }
  | .seedHi => s.modWave c.key fun w => { w with seed := pairOf (w.seed.extractLsb' 0 32) x }
  | .lrmap =>
      if mapOk (x.setWidth 15) then
        let m := x.setWidth 15 &&& 0x7F7F
        (s.modCtl fun k => { k with lmaps := k.lmaps.set (4 * c.w.core + c.w.sect) m }).adoptMap c.w.core c.w.sect
      else s
  | .tepcLo => s.modWave c.key fun w => { w with tepc := pairOf x (w.tepc.extractLsb' 32 32) }
  | .tepcHi => s.modWave c.key fun w => { w with tepc := pairOf (w.tepc.extractLsb' 0 32) (x &&& 0x01FFFFFF) }
  | .tcause => s.modWave c.key fun w => { w with tcause := x.setWidth 8 }
  | .tstat => s.modWave c.key fun w =>
      { w with tdepth := (x.extractLsb' 16 5).toNat, tlevel := (x.extractLsb' 8 3).toNat }
  | .tscr0 => s.modWave c.key fun w => { w with tscr0 := x }
  | .tscr1 => s.modWave c.key fun w => { w with tscr1 := x }
  | .tscr2 => s.modWave c.key fun w => { w with tscr2 := x }
  | .tscr3 => s.modWave c.key fun w => { w with tscr3 := x }
  | .wave => s
  | .block => s
  | .clus => s
  | .mbr => s
  | .core => s
  | .eq => s
  | .cycleLo => s
  | .cycleHi => s
  | .dix => s
  | .qtm => s
  | .gen => s
  | .wb => s
  | .mxgov => s
  | .tkt => s

/-- `mov.s.w` (R85). -/
def execMovSW (d : Reg) (sr : SReg) (g : Guard) (u : Bool) (s : State) : Host.Outcome State Fault Refusal :=
  issue ⟨g, u, 1, [(d, 1)], [], false, false, id⟩ (fun c ops s =>
    if svOnly sr && !c.w.sup then .halt 0x03 0 0
    else .done .plain (s.setSreg c sr (opReg ops 0))) s

/-- `wbase` (R84). -/
def execWbase (imm : BitVec 14) (g : Guard) (s : State) : Host.Outcome State Fault Refusal :=
  issue (controlForm g false []) (fun c _ s =>
    if c.w.regCount ≤ imm.toNat then .halt 0x02 0 0
    else .done .plain (s.modWave c.key fun w => { w with wb := imm.toNat })) s

end Sys2Proof.Machine
end

