-- ==== Sys2Proof/Machine/Access.lean ====
section
/-! DEFINITION. How accesses are performed: copies in L1 and their leases, homes and completion times, the commit
share, requests to peers, loads and stores that complete later (R153, R161, R173 to R180, R197, R202 to R206). -/

namespace Sys2Proof.Machine

open Sys2Proof

/-! ## Homes and copies -/

/-- The home that serialises a byte of memory: a line, or a word of a die scratchpad. -/
def homeKey (a : Nat) : Nat := if a < 2 ^ 48 then a / 64 else 2 ^ 60 + a / 4

/-- Cycles of a lease at 1.2 GHz (R174, R400). DESIGN CHOICE: a length that is no whole number of cycles is rounded up, so
that 512 ns are 615 cycles (log entry 58). -/
def State.leaseLen (s : State) : Nat := (s.ctl.leaseNs.toNat * 6 + 4) / 5

/-- The completion time V that the home of an address gives to a write made now (R173). -/
def State.completion (s : State) (a : Nat) : Nat :=
  if a < 2 ^ 48 then max s.now (max (s.home (homeKey a)).lease (s.home (homeKey a)).last) + 1 else s.now

/-- The home notes the completion time of a write (R173). -/
def State.noteWrite (s : State) (a v : Nat) : State :=
  if a < 2 ^ 48 then { s with homes := s.homes.set (homeKey a) { s.home (homeKey a) with last := v } } else s

/-- Put a copy into an L1, which holds 128 KiB (R153); a full one gives up the copy that the step picks. DESIGN CHOICE:
which copy goes is a choice of the step (log entry 55). -/
def l1In (pick line : Nat) (copy : Line) (m : KMap Line) : KMap Line :=
  if (m.get? line).isSome || decide (m.length < 2048) then m.set line copy
  else (m.erase (m.keys.getD (pick % m.length) 0)).set line copy

/-- Fill a line into a core's L1 with a new lease (R174); on its way it is brought into L2 (R153). -/
def State.fillLine (s : State) (core line : Nat) : State :=
  let copy : Line := ⟨bytesFrom s.homeByte (line * 64) 64, s.now + s.leaseLen, s.seq⟩
  let h := s.home line
  let s := (s.keepView (line * 64)).modCore core fun k => { k with l1 := l1In s.pick line copy k.l1 }
  { s with homes := s.homes.set line { h with lease := max h.lease copy.lease }, seq := s.seq + 1 }

/-- A load that misses allocates its line in L1 and takes a lease on it (R153): one that finds a copy whose lease runs
does not. -/
def State.allocate (s : State) (core line : Nat) : State :=
  match (s.core core).l1.get? line with
  | some k => if s.now < k.lease then s else s.fillLine core line
  | none => s.fillLine core line

/-- Read bytes of global memory through a core's L1 (R153, R174). -/
def State.readGlobal (s : State) (core acq since a n : Nat) : List Byte × State :=
  match s.servesFrom core acq since (a / 64) with
  | some k => ((k.bytes.drop (a % 64)).take n, s)
  | none => (bytesFrom s.homeByte a n, s.fillLine core (a / 64))

/-- Replace bytes inside a copy. -/
def putInto (bs : List Byte) (off : Nat) (new : List Byte) : List Byte :=
  bs.take off ++ new ++ bs.drop (off + new.length)

/-- A store of a core updates the core's own copy (R153, R174). -/
def State.updateCopy (s : State) (core a : Nat) (bs : List Byte) : State :=
  match (s.core core).l1.get? (a / 64) with
  | none => s
  | some k => s.modCore core fun c => { c with l1 := c.l1.set (a / 64) { k with bytes := putInto k.bytes (a % 64) bs } }

/-- Drop a core's copy of the line of an address (R174, R209). -/
def State.dropCopy (s : State) (core a : Nat) : State :=
  match (s.core core).l1.get? (a / 64) with
  | none => s
  | some _ => s.modCore core fun c => { c with l1 := c.l1.erase (a / 64) }

/-- Remember what `n` bytes of memory hold before a write that completes only at `v`: a DQM launch that did not make it reads
the write from the first boundary at which it has completed (R198). -/
def State.noteUnripe (s : State) (by_ : Option Nat) (a n v : Nat) : State :=
  if v ≤ s.now || !(s.launches.any fun e => e.2.dqm) then s
  else { s with unripe := (s.unripe.filter fun u => decide (s.now < u.until_)) ++
    (List.range n).map fun i => ⟨a + i, s.rawByte (a + i), by_, v⟩ }

/-- The home applies a store of a core: the bytes, and its completion time (R173). -/
def State.applyStore (s : State) (by_ : Option Nat) (core : Nat) (l : Loc) (bs : List Byte) : Nat × State :=
  match l with
  | .scr _ _ => (s.now, s.writeLoc by_ l bs)
  | .mem a =>
    let v := s.completion a
    (v, (((s.noteUnripe by_ a bs.length v).writeLoc by_ l bs).updateCopy core a bs).noteWrite a v)

/-! ## Read-modify-write -/

/-- OP(old, v) of R211, on a width of 4 or 8 bytes. -/
def atomInt (o : AtomOp) (width : Nat) (old v : Nat) : Nat :=
  let m := 2 ^ (8 * width)
  let sg (x : Nat) : Int := if x < m / 2 then (x : Int) else (x : Int) - m
  match o with
  | .add => (old + v) % m
  | .and => old &&& v
  | .or => old ||| v
  | .xor => old ^^^ v
  | .min => if sg old ≤ sg v then old else v
  | .max => if sg old ≤ sg v then v else old
  | .minu => min old v
  | .maxu => max old v
  | .xchg => v

/-- The FP32 atomics (R212): RNE, subnormals kept, no flag. -/
def atomFloat (o : AtomFOp) (old v : Nat) : Nat :=
  match o with
  | .add => (fp32.addF rneKeep (fp32.read old) (fp32.read v)).1
  | .min => (fp32.minmax false old v).1
  | .max => (fp32.minmax true old v).1

/-- Bytes a read-modify-write covers. -/
def Rmw.width : Rmw → Nat
  | .int _ n => n
  | .f32 _ => 4
  | .cas n => n

/-- What a read-modify-write leaves in place of `old`: nothing for a `cas` whose compare fails (R213). -/
def Rmw.result (op : Rmw) (old : Nat) (v w : DWord) : Option Nat :=
  match op with
  | .int o n => some (atomInt o n old (v.toNat % 2 ^ (8 * n)))
  | .f32 o => some (atomFloat o old (v.toNat % 2 ^ 32))
  | .cas n => if old = v.toNat % 2 ^ (8 * n) then some (w.toNat % 2 ^ (8 * n)) else none

/-- Perform a read-modify-write at its home (R179, R214): the old value, the completion time, and the state. -/
def State.applyRmw (s : State) (by_ : Option Nat) (core : Nat) (op : Rmw) (l : Loc) (v w : DWord) : Nat × Nat × State :=
  let old := leNat (s.readLoc s.rawByte l op.width)
  let s1 := match op.result old v w with
    | none => s
    | some x => (match l with
        | .mem a => s.noteUnripe by_ a op.width (s.completion a)
        | .scr _ _ => s).writeLoc by_ l (natLe op.width x)
  match l with
  | .scr _ _ => (old, s.now, s1)
  | .mem a => (old, s.completion a, (s1.dropCopy core a).noteWrite a (s.completion a))

/-! ## SC stamps (R180) -/

/-- The stamp count of the home of a location. DESIGN CHOICE: at a peer's home it counts as 0: the messages of R305 carry no
stamp, and no rule says which one the operation receives (log entry 80). -/
def State.stampOf (s : State) (t : Target) : Nat :=
  match t with
  | .here (.mem a) => (s.home (homeKey a)).stamp
  | .here (.scr b off) => (s.scrStamps.getD b []).getD (off / 4) 0
  | .peer _ _ => 0

/-- Give an SC operation of a core its stamp; `k` is the core's clock as issued. -/
def State.stamp (s : State) (core k : Nat) (t : Target) : State :=
  let n := max k (s.stampOf t) + 1
  let s := s.modCore core fun c => { c with clock := max c.clock n }
  match t with
  | .here (.mem a) => { s with homes := s.homes.set (homeKey a) { s.home (homeKey a) with stamp := n } }
  | .here (.scr b off) => { s with scrStamps := s.scrStamps.set b ((s.scrStamps.getD b []).set (off / 4) n) }
  | .peer _ _ => s

/-! ## The commit share (R197, R204) -/

/-- Byte i of a target lies in a store of `n` bytes to `u`, at the position given. -/
def Target.within (t : Target) (i : Nat) (u : Target) (n : Nat) : Option Nat :=
  let inside (a b : Nat) : Option Nat := if b ≤ a + i ∧ a + i < b + n then some (a + i - b) else none
  match t, u with
  | .here (.mem a), .here (.mem b) => inside a b
  | .here (.scr k a), .here (.scr j b) => if k = j then inside a b else none
  | .peer d a, .peer e b => if d = e then inside a b else none
  | .here (.mem _), .here (.scr _ _) => none
  | .here (.mem _), .peer _ _ => none
  | .here (.scr _ _), .here (.mem _) => none
  | .here (.scr _ _), .peer _ _ => none
  | .peer _ _, .here (.mem _) => none
  | .peer _ _, .here (.scr _ _) => none

/-- The target some bytes on. -/
def Target.shift (t : Target) (k : Nat) : Target :=
  match t with
  | .here (.mem a) => .here (.mem (a + k))
  | .here (.scr b off) => .here (.scr b (off + k))
  | .peer d a => .peer d (a + k)

/-- The latest buffered write of the wave to byte i of a target, or the byte below it (R197). -/
def shareByte (share : List Buffered) (t : Target) (i : Nat) (below : Byte) : Byte :=
  share.foldl (fun b e => match e with
    | .store u n data _ _ => match t.within i u n with
      | some k => BitVec.ofNat 8 (data / 256 ^ k)
      | none => b
    | .rmw _ _ _ _ _ _ _ _ => b
    | .take => b
    | .tile _ => b
    | .strike _ _ => b
    | .job _ _ => b) below

/-- Lay the wave's buffered writes over bytes. -/
def overlay (share : List Buffered) (t : Target) (bs : List Byte) : List Byte :=
  if share = [] then bs else (List.range bs.length).map fun i => shareByte share t i (bs.getD i 0)

/-- Buffered bytes that a later store of the wave has overwritten leave the share (R197, R359): the bytes of a `tst` into
the block's own scratchpad, which land at the boundary, go in program order before a store that takes effect at once. -/
def dropShare (share : List Buffered) (t : Target) (n : Nat) : List Buffered :=
  share.flatMap fun e => match e with
    | .store u m data lane addr =>
      if t.overlaps n u m then
        (List.range m).filterMap fun k =>
          if (u.within k t n).isSome then none
          else some (.store (u.shift k) 1 (data / 256 ^ k % 256) lane addr)
      else [e]
    | .rmw _ _ _ _ _ _ _ _ => [e]
    | .take => [e]
    | .tile _ => [e]
    | .job _ _ => [e]
    | .strike _ _ => [e]

/-- A load of the wave reads bytes (R174, R197): `peer` holds what a peer answered. -/
def State.readFor (s : State) (l : Launch) (w : Wave) (since : Nat) (t : Target) (n : Nat) (peer : List Byte) :
    List Byte × State :=
  match t with
  | .peer _ _ => (overlay w.share t peer, s)
  | .here (.scr b off) => (overlay w.share t (s.readLoc s.rawByte (.scr b off) n), s)
  | .here (.mem a) =>
    if l.dqm then
      (overlay w.share t (bytesFrom (s.byteVia (s.underByte l)) a n),
        if a < 2 ^ 48 then (s.keepView a).allocate w.core (a / 64) else s)
    else if a < 2 ^ 48 then s.readGlobal w.core w.acq since a n
    else (bytesFrom s.rawByte a n, s)

/-- A target in the block's own scratchpad run: in DQM its writes take effect at once (R197). -/
def Ctx.ownScr (c : Ctx) (t : Target) : Bool :=
  match t with
  | .here (.scr b _) => decide (b = c.w.block)
  | .here (.mem _) => false
  | .peer _ _ => false

/-- Buffer entries of the wave, taking space of its share. -/
def State.buffer (s : State) (key : Nat) (es : List Buffered) (space : Nat) : State :=
  s.modWave key fun w => { w with share := w.share ++ es, shareUsed := w.shareUsed + space }

/-! ## Requests to peers (R161, R305) -/

/-- Bytes followed by zeros up to a multiple of 16. -/
def pad16 (bs : List Byte) : List Byte := bs ++ List.replicate (roundUpTo bs.length 16 - bs.length) 0

/-- Cycles of 1 ms at 1.2 GHz (R305). -/
def msCycles : Nat := 1200000

/-- The first working port from a plane on (R304); the plane's own when none works. -/
def State.portFor (s : State) (plane : Nat) : Nat :=
  (((List.range 16).map fun i => (plane + i) % 16).find? fun p => !s.ctl.portDown.getLsbD p).getD (plane % 16)

/-- A message of a reserved kind or type, or one whose lengths disagree, is dropped at the port it came to and counted there
(R298). -/
def State.dropAt (s : State) (port : Nat) : State :=
  let n : Word := BitVec.ofNat 32 (min (2 ^ 32 - 1) ((s.ctl.portDrop.getD port 0).toNat + 1))
  if s.powered ∧ port < 16 ∧ s.ctl.portDown.getLsbD port = false then
    s.modCtl fun k => { k with portDrop := k.portDrop.put 0 port n }
  else s

/-- A message arrives from an endpoint, if the module takes any (R13, R400); `agree`: its lengths agree. The port it came to
is subject a of its event. -/
def State.hear (s : State) (src : BitVec 16) (agree : Bool) (f : State → State) : State :=
  if s.deaf then s
  else if 2 ≤ (src.extractLsb' 12 4).toNat ∨ agree = false then s.dropAt s.subj.a
  else f s

/-- The class of a message kind (R299). -/
def msgClass (kind : BitVec 16) : Nat :=
  match kind.toNat with
  | 0x10 => 0
  | 0x12 => 0
  | 0x14 => 0
  | 0x11 => 1
  | 0x13 => 1
  | 0x15 => 1
  | 0x30 => 3
  | _ => 2

/-- Give a message to the port of its plane: it asks for a grant (R304, R305). -/
def State.emit (s : State) (plane : Nat) (m : OutMsg) : State :=
  { s with grants := s.grants ++ [⟨s.portFor plane, msgClass m.kind, m⟩] }

/-- The plane of a memory message (R304). -/
def memPlane (pa : Nat) : Nat := pa / 64 % 16

/-- A request that one lane makes of a peer: `size` bytes are accessed. -/
structure Ask where
  lane : Nat
  addr : DWord
  dev : Nat
  kind : BitVec 16
  payload : List Byte
  size : Nat
  deriving DecidableEq, Repr

/-- Send a remote-memory request for a wave's lane, as part of access `acc`; its tag is fresh. -/
def State.ask (s : State) (key acc : Nat) (q : Ask) : Nat × State :=
  let tag := s.seq % 2 ^ 32
  let s := s.emit (memPlane (leNat (q.payload.take 8))) ⟨q.kind, BitVec.ofNat 16 q.dev, BitVec.ofNat 32 tag, q.payload⟩
  (tag, { s with
    remote := s.remote.set tag ⟨q.dev, key, q.lane, q.addr, s.now + msCycles, none, [], acc,
      decide (q.kind ≠ 0x0010), q.size, q.addr.toNat⟩
    seq := s.seq + 1 })

/-- The payload of a read request (R305). -/
def readPayload (pa n : Nat) : List Byte := natLe 8 pa ++ natLe 4 n ++ natLe 4 0

/-- The payload of a write request (R305). -/
def writePayload (pa : Nat) (bs : List Byte) : List Byte := natLe 8 pa ++ natLe 4 bs.length ++ natLe 4 0 ++ pad16 bs

/-- Major and fn[6:3] of an atomic (R211 to R213). -/
def Rmw.code : Rmw → Nat × Nat
  | .int o n => (if n = 4 then 0x60 else 0x61, match o with
    | .add => 0 | .and => 1 | .or => 2 | .xor => 3 | .min => 4 | .max => 5 | .minu => 6 | .maxu => 7 | .xchg => 8)
  | .f32 o => (0x62, match o with | .add => 0 | .min => 1 | .max => 2)
  | .cas n => (0x63, if n = 4 then 0 else 1)

/-- The payload of an atomic request (R305). -/
def rmwPayload (pa : Nat) (op : Rmw) (v w : DWord) : List Byte :=
  natLe 8 pa ++ natLe 1 op.code.1 ++ natLe 1 op.code.2 ++ natLe 6 0 ++
    pad16 (natLe op.width v.toNat ++ match op with
      | .cas n => natLe n w.toNat
      | .int _ _ => []
      | .f32 _ => [])

/-- Send the requests of a word. -/
def State.askAll (s : State) (key acc : Nat) : List Ask → List Nat × State
  | [] => ([], s)
  | q :: qs =>
    let x := s.ask key acc q
    let y := State.askAll x.2 key acc qs
    (x.1 :: y.1, y.2)

/-- How far the requests of a word are. -/
inductive Asked where
  /-- every answer has come: the data by lane -/
  | ready (data : List (Nat × List Byte)) (s : State)
  | pending (s : State)
  /-- a lane's access failed at the peer -/
  | bad (lane : Nat) (addr : DWord)
  deriving Repr

/-- Answers to requests that a word under way in a snapshot has made stay with it (R393, R394). -/
def Snapshot.keep (n : Snapshot) (key : Nat) (tags : List Nat) (got : KMap RemoteReq) : Snapshot :=
  if n.waves.any fun e => decide (e.1 = key) && decide (e.2.remote = tags) then
    { n with answers := got.foldl (fun m e => m.set e.1 e.2) n.answers }
  else n

/-- Answers that a word has received stay with a snapshot in which it was under way. -/
def State.keepAnswers (s : State) (c : Ctx) : State :=
  let got := s.remote.filter fun e => c.w.remote.contains e.1
  s.modBlock c.w.block fun b => { b with snap := b.snap.map fun n => n.keep c.key c.w.remote got }

/-- Collect the answers to a word's requests (R161, R305): `judged` are the lanes whose failure faults. -/
def State.hearAsks (s : State) (c : Ctx) (judged : Mask) : Asked :=
  if c.w.remote = [] then .ready [] s
  else
    let got := c.w.remote.map fun t => s.remote.get? t
    if got.any fun r => match r with
      | some r => r.status.isNone
      | none => false then .pending s
    else match got.find? fun r => match r with
      | some r => decide (r.status ≠ some 0) && judged.getLsbD r.lane
      | none => false with
      | some (some r) => .bad r.lane r.addr
      | _ => .ready (got.filterMap fun r => r.map fun r => (r.lane, r.data))
          { s.keepAnswers c with remote := s.remote.filter fun e => !c.w.remote.contains e.1 }

/-- Send a word's requests: where its accesses go is settled with them (R202). -/
def State.sendAsks (s : State) (c : Ctx) (qs : List Ask) (rs hs : List Reach) : State :=
  let x := s.askAll c.key s.seq qs
  x.2.modWave c.key fun w => { w with remote := x.1, reach := rs, reachHelp := hs }

/-- Send a word's requests, or collect their answers. -/
def State.consult (s : State) (c : Ctx) (qs : List Ask) (rs hs : List Reach) (judged : Mask) : Asked :=
  if qs = [] then .ready [] s
  else if c.w.remote = [] then .pending (s.sendAsks c qs rs hs)
  else s.hearAsks c judged

/-- Bytes that a lane's answer holds. -/
def laneData (xs : List (Nat × List Byte)) (lane : Nat) : List Byte :=
  match xs.find? fun x => decide (x.1 = lane) with
  | some x => x.2
  | none => []

/-! ## Gates -/

/-- Two ranges (first byte, bytes) meet. -/
def rangesMeet (x y : Nat × Nat) : Bool := decide (x.1 < y.1 + y.2) && decide (y.1 < x.1 + x.2)

/-- An access that one of the block's own jobs holds (R166). -/
def State.heldByJob (s : State) (c : Ctx) (as : List (Nat × DWord)) (size : Nat) (store : Bool) : Bool :=
  (s.core c.w.core).jobs.any fun j => decide (j.block = c.w.block) &&
    as.any fun x => (j.writes ++ if store then j.reads else []).any fun r => rangesMeet (c.footprintAddr x.2, size) r

/-- An access of the wave that overlaps the target is outstanding (R175). -/
def Wave.busyAt (w : Wave) (t : Target) (n : Nat) : Bool :=
  w.outst.any fun a => a.parts.any fun p => t.overlaps n p.tgt a.width

/-- Where an address leads as its translation stands, with no walk joined. -/
def State.placeNow (s : State) (c : Ctx) (a : DWord) : Option Target :=
  if spaceOf a = 0 then
    match s.cached c.w.core c.l.asid (offsetOf a) with
    | some x => some (s.route (x.target (offsetOf a)))
    | none => match s.walk c.l.asid c.l.root (offsetOf a) with
      | .leaf x => some (s.route (x.target (offsetOf a)))
      | .absent => none
      | .malformed => none
  else some (.here (c.onChip 0 a))

/-- A run of bytes cut at the ends of 8 KiB pages. -/
def pageCuts (a : DWord) (n : Nat) : List (DWord × Nat) :=
  if spaceOf a = 0 then
    let lo := offsetOf a
    (List.range ((lo % 8192 + n + 8191) / 8192)).map fun i =>
      let b := max lo ((lo / 8192 + i) * 8192)
      (stepAddr a ((b - lo : Nat) : Int), min (lo + n) ((lo / 8192 + i + 1) * 8192) - b)
  else [(a, n)]

/-- Where runs of bytes lie. -/
def State.placesOf (s : State) (c : Ctx) (runs : List (DWord × Nat)) : List (Target × Nat) :=
  (runs.flatMap fun r => pageCuts r.1 r.2).filterMap fun r => (s.placeNow c r.1).map fun t => (t, r.2)

/-- Bytes of two lists of places meet. -/
def placesMeet (xs ys : List (Target × Nat)) : Bool := xs.any fun x => ys.any fun y => x.1.overlaps x.2 y.1 y.2

/-- Bytes that a tile operation of the wave has still to store, or for a store to fetch, meet runs of bytes or places
(R175, R359): by their addresses, or where these lead. -/
def State.heldByTile (s : State) (c : Ctx) (runs : List (DWord × Nat)) (places : List (Target × Nat)) (store : Bool) : Bool :=
  (s.core c.w.core).ops.any fun o => decide (o.wave = c.key) &&
    (let open_ := o.spans ++ if store then o.rows else []
     (runs.any fun x => open_.any fun r => rangesMeet (c.footprintAddr x.1, x.2) (c.footprintAddr r.1, r.2)) ||
       (decide (open_ ≠ []) && placesMeet (places ++ s.placesOf c runs) (s.placesOf c open_)))

/-- The places of reaches. -/
def placesAt (rs : List Reach) (size : Nat) : List (Target × Nat) := rs.map fun r => (r.tgt, size)

/-- What stands between a word and its accesses. -/
inductive Gate where
  | go (rs hs : List Reach) (s : State)
  | stop (r : Res)
  deriving Repr

/-- The checks of R202, then the holds of R166 and R175; a word that has sent its requests has passed them. `helpers` are
addresses of helper lanes (loads only). -/
def State.gate (s : State) (c : Ctx) (as helpers : List (Nat × DWord)) (size : Nat) (p : Purpose) (takes : Takes) : Gate :=
  if c.w.remote ≠ [] then .go c.w.reach c.w.reachHelp s
  else match s.check c as size p takes with
  | .fault k lane addr => .stop (.halt k addr (BitVec.ofNat 32 lane))
  | .park lane addr => .stop (.park lane addr)
  | .wait s => .stop (.wait s)
  | .walk ks s => .stop (.wait (s.awaitWalks c.key ks))
  | .endQuantum => .stop (.endFirst s)
  | .ok rs s =>
    let h := s.helperReach c size takes helpers
    if h.unstarted then .stop (if c.l.dqm then .endFirst s else .wait s)
    else if h.keys ≠ [] then .stop (.wait (h.state.awaitWalks c.key h.keys))
    else
      let s := h.state
      if s.heldByJob c (as ++ helpers) size (p == .write) then .stop (if c.l.dqm then .endFirst s else .wait s)
      else if (rs ++ h.rs).any fun r => c.w.busyAt r.tgt size then .stop (.wait s)
      else if s.heldByTile c ((as ++ helpers).map fun x => (x.2, size)) (placesAt (rs ++ h.rs) size) (p == .write) then
        .stop (.wait s)
      else .go rs h.rs s

/-- The lanes' addresses: base pairs in operand i, and an offset (R201). -/
def addrsOf (ops : List (List LaneVec)) (i : Nat) (off : Int) (m : Mask) : List (Nat × DWord) :=
  (lanesOf m).map fun l => (l, stepAddr (opPair ops i l) off)

/-! ## Loads -/

/-- Word k of loaded bytes; bytes and halves are extended (R206). -/
def loadedWord (size : Nat) (signed : Bool) (bs : List Byte) (k : Nat) : Word :=
  if 4 ≤ size then BitVec.ofNat 32 (leNat ((bs.drop (4 * k)).take 4))
  else
    let x : BitVec 32 := BitVec.ofNat 32 (leNat bs)
    if !signed then x
    else if size = 2 then (x.setWidth 16).signExtend 32
    else (x.setWidth 8).signExtend 32

/-- Words of an access. -/
def wordsOf (size : Nat) : Nat := max 1 (size / 4)

/-- Write a run of destination registers. -/
def State.writeRun (s : State) (c : Ctx) (d : Reg) (n : Nat) (v : Nat → Nat → Word) : State :=
  (List.range n).foldl (fun s i => s.writeReg c (d.toNat + i) fun lane => v lane i) s

/-- The reaches whose bytes no reach before them reads. -/
def keepFirst : List Reach → List Reach
  | [] => []
  | r :: rs => r :: (keepFirst rs).filter fun q => decide (q.tgt ≠ r.tgt)

/-- The lane that reads the bytes of a reach for every lane that reads them (R203). -/
def leadOf (rs : List Reach) (r : Reach) : Nat :=
  match rs.find? fun q => decide (q.tgt = r.tgt) with
  | some q => q.lane
  | none => r.lane

/-- Read reaches of a load one by one. -/
def State.readEach (s : State) (l : Launch) (w : Wave) (since n : Nat) (peer : List (Nat × List Byte)) :
    List Reach → List (Nat × List Byte) × State
  | [] => ([], s)
  | r :: rs =>
    let x := s.readFor l w since r.tgt n (laneData peer r.lane)
    let y := State.readEach x.2 l w since n peer rs
    ((r.lane, x.1) :: y.1, y.2)

/-- Read every reach of a load: lanes that read the same bytes receive the same value (R203). -/
def State.readAll (s : State) (l : Launch) (w : Wave) (since n : Nat) (peer : List (Nat × List Byte)) (rs : List Reach) :
    List (Nat × List Byte) × State :=
  let x := s.readEach l w since n peer (keepFirst rs)
  (rs.map fun r => (r.lane, laneData x.1 (leadOf rs r)), x.2)

/-- A read request for each of the reaches that lie at peers. -/
def askReads (rs : List Reach) (n : Nat) : List Ask :=
  rs.filterMap fun r => match r.tgt with
    | .peer d pa => some ⟨r.lane, r.addr, d, 0x0010, readPayload pa n, n⟩
    | .here _ => none

/-- The read requests of a load: one for bytes that several lanes read (R203). -/
def readAsks (rs : List Reach) (n : Nat) : List Ask := askReads (keepFirst rs) n

/-- A reach at a peer. -/
def Reach.remote (r : Reach) : Bool :=
  match r.tgt with
  | .peer _ _ => true
  | .here _ => false

/-- A load issued by a word, which its lanes' registers receive later. -/
def Ctx.access (c : Ctx) (id size : Nat) (signed : Bool) (d : Reg) (rs : List Reach) : Access where
  id := id
  store := false
  width := size
  signed := signed
  dest := c.w.slotsOf d (wordsOf size)
  bcast := if c.u then c.w.active else 0
  parts := rs.map fun r => ⟨r.lane, r.tgt, c.footprintAddr r.addr, 0, 0⟩
  rmw := none
  poll := none
  sc := none
  rel := none
  queue := match c.w.slotOf d.toNat with
    | .qout n => some n
    | _ => none
  got := []

/-- Unreachable helper lanes receive 0 (R24). -/
def State.zeroLost (s : State) (c : Ctx) (d : Reg) (size : Nat) (hs : List Reach) : State :=
  let lost := c.hl &&& ~~~(maskOf fun i => hs.any fun r => r.lane == i)
  s.modWave c.key fun w => (c.w.slotsOf d (wordsOf size)).foldl (fun w k => w.writeSlot k lost fun _ => 0) w

/-- Note a load whose data returns later: unreachable helper lanes receive 0 now. -/
def State.deferLoad (s : State) (c : Ctx) (d : Reg) (size : Nat) (signed : Bool) (rs hs : List Reach) : State :=
  ((s.zeroLost c d size hs).modWave c.key fun w =>
    { w with outst := w.outst ++ [c.access s.seq size signed d (rs ++ hs)] }).nextSeq

/-- A plain load (R206): performed now, or, in free mode when the choice says so, later; its words enter a queue once every
lane's has returned (R31). -/
def loadBody (size : Nat) (signed : Bool) (d : Reg) (off : Int) (c : Ctx) (ops : List (List LaneVec)) (s : State) :
    Res :=
  match s.gate c (addrsOf ops 0 off c.t) (addrsOf ops 0 off c.hl) size .read .copy with
  | .stop r => r
  | .go rs hs s =>
    match s.consult c (readAsks (rs ++ hs) size) rs hs c.t with
    | .pending s => .wait s
    | .bad lane addr => .halt 0x17 addr (BitVec.ofNat 32 lane)
    | .ready peer s =>
      if s.later && !c.l.dqm && !((rs ++ hs).any Reach.remote) then
        .done .plain (s.deferLoad c d size signed rs hs)
      else
        let x := s.readAll c.l c.w s.seq size peer (rs ++ hs)
        .done .plain (x.2.writeRun c d (wordsOf size) fun lane k => loadedWord size signed (laneData x.1 lane) k)

/-! ## Stores -/

/-- The data a lane stores, little-endian (R206). -/
def storeData (size : Nat) (ops : List (List LaneVec)) (i lane : Nat) : Nat :=
  if 4 ≤ size then (List.range (size / 4)).foldl (fun x k => x + (laneOf (opRun ops i k) lane).toNat * 2 ^ (32 * k)) 0
  else (opLane ops i lane).toNat % 2 ^ (8 * size)

/-- Perform the stores of the reaches on this device in ascending lane order, and raise the wave's horizon. -/
def State.storeAll (s : State) (key core : Nat) (n : Nat) (data : Nat → Nat) : List Reach → Nat → Nat × State
  | [], v => (v, s)
  | r :: rs, v =>
    match r.tgt with
    | .peer _ _ => State.storeAll s key core n data rs v
    | .here l =>
      let x := s.applyStore none core l (natLe n (data r.lane))
      State.storeAll (x.2.modWave key fun w => { w with horizon := max w.horizon (x.1 + 1) }) key core n data rs (max v x.1)

/-- The write requests of the reaches that lie at peers. -/
def writeAsks (rs : List Reach) (n : Nat) (data : Nat → Nat) : List Ask :=
  rs.filterMap fun r => match r.tgt with
    | .peer d pa => some ⟨r.lane, r.addr, d, 0x0012, writePayload pa (natLe n (data r.lane)), n⟩
    | .here _ => none

/-- Stores into the block's own scratchpad take the place of what the share held there (R197, R359). -/
def State.supersede (s : State) (key : Nat) (near : List Reach) (n : Nat) : State :=
  if near = [] then s
  else s.modWave key fun w => { w with share := near.foldl (fun sh r => dropShare sh r.tgt n) w.share }

/-- In DQM (R197, R204): lanes in the block's own scratchpad take effect at once, the others enter the share. -/
def dqmStore (c : Ctx) (size : Nat) (data : Nat → Nat) (rs : List Reach) (s : State) : Res :=
  let far := rs.filter fun r => !c.ownScr r.tgt
  if far ≠ [] ∧ 1024 < c.w.shareUsed + size * far.length then .endFirst s
  else
    let near := rs.filter fun r => c.ownScr r.tgt
    let s := (s.storeAll c.key c.w.core size data near 0).2.supersede c.key near size
    .done .plain (if far = [] then s
      else s.buffer c.key (far.map fun r => .store r.tgt size (data r.lane) r.lane r.addr) (size * far.length))

/-- Lanes whose bytes a higher lane overwrites (R203). -/
def keepLast : List Reach → List Reach
  | [] => []
  | r :: rs => if rs.any fun q => decide (q.tgt = r.tgt) then keepLast rs else r :: keepLast rs

/-- A store issued by a word, which its homes apply later. -/
def Ctx.storeAccess (c : Ctx) (id size : Nat) (data : Nat → Nat) (rs : List Reach) : Access where
  id := id
  store := true
  width := size
  signed := false
  dest := []
  bcast := 0
  parts := (keepLast rs).map fun r => ⟨r.lane, r.tgt, c.footprintAddr r.addr, data r.lane, 0⟩
  rmw := none
  poll := none
  sc := none
  rel := none
  queue := none
  got := []

/-- Note a store that its homes apply later. -/
def State.deferStore (s : State) (c : Ctx) (id size : Nat) (data : Nat → Nat) (rs : List Reach) : State :=
  s.modWave c.key fun w => { w with outst := w.outst ++ [c.storeAccess id size data rs] }

/-- A plain store (R206): a store to a peer may be acknowledged after the word has retired (R176 point 3). -/
def storeBody (size : Nat) (off : Int) (c : Ctx) (ops : List (List LaneVec)) (s : State) : Res :=
  match s.gate c (addrsOf ops 1 off c.t) [] size .write .nothing with
  | .stop r => r
  | .go rs _ s =>
    let data := storeData size ops 0
    if c.l.dqm then dqmStore c size data rs s
    else
      let here := rs.filter fun r => !r.remote
      if s.later && decide (c.w.remote = []) then
        let x := s.nextSeq.askAll c.key s.seq (writeAsks rs size data)
        let t := x.2.modWave c.key fun w => { w with peerOut := w.peerOut ++ x.1 }
        .done .plain (if here = [] then t else t.deferStore c s.seq size data here)
      else match s.consult c (writeAsks rs size data) rs [] c.t with
        | .pending s => .wait s
        | .bad lane addr => .halt 0x17 addr (BitVec.ofNat 32 lane)
        | .ready _ s => .done .plain (s.storeAll c.key c.w.core size data here 0).2

/-! ## Accesses that complete later -/

/-- The comparison of a poll: m c d (R144). -/
def pollHolds (p : PollCond) (m d : Word) : Bool :=
  match p with
  | .eq => m == d
  | .ne => m != d
  | .ge => decide (d.toInt ≤ m.toInt)
  | .gt => decide (d.toInt < m.toInt)
  | .le => decide (m.toInt ≤ d.toInt)
  | .lt => decide (m.toInt < d.toInt)
  | .geu => decide (d.toNat ≤ m.toNat)
  | .ltu => decide (m.toNat < d.toNat)

/-- Word k that a part of a load leaves in its lane: of the bytes read, or, for a `poll`, the outcome of its
comparison. -/
def Access.word (a : Access) (p : Part) (bs : List Byte) (k : Nat) : Word :=
  match a.poll with
  | none => loadedWord a.width a.signed bs k
  | some q => if pollHolds q (loadedWord a.width a.signed bs k) (BitVec.ofNat 32 p.data) then 1 else 0

/-- The lanes that a part of an access writes: its own, or those of a broadcast. -/
def Access.lanes (a : Access) (p : Part) : Mask := if a.bcast = 0 then maskOf fun i => i == p.lane else a.bcast

/-- Write the words that a part of an access returns into the registers of its lanes. -/
def Access.writeTo (a : Access) (p : Part) (v : Nat → Word) (w : Wave) : Wave :=
  a.dest.zipIdx.foldl (fun w k => w.writeSlot k.1 (a.lanes p) fun _ => v k.2) w

/-- The words that a part of an access returns: into registers, or kept for the queue they will enter. -/
def State.writePart (s : State) (key : Nat) (a : Access) (p : Part) (v : Nat → Word) : State :=
  s.modWave key fun w =>
    if a.queue.isSome then { w with outst := w.outst.map fun x => if x.id = a.id then { x with got := x.got ++ [(p.lane, v 0)] } else x }
    else a.writeTo p v w

/-- Give an SC operation its stamp at its home, when the access is one (R180). -/
def State.stampPart (s : State) (core : Nat) (a : Access) (p : Part) : State :=
  match a.sc with
  | none => s
  | some k => s.stamp core k p.tgt

/-- Perform the parts of an outstanding load that read the bytes of `p`, which is one of them (R203): the bytes go to their
lanes' registers, or to the lanes of a broadcast. An SC load reads at the home (R180), and allocates its line in L1 as every
load that misses (R153). -/
def State.returnPart (s : State) (key core : Nat) (a : Access) (p : Part) (ps : List Part) : State :=
  match s.waves.get? key with
  | none => s
  | some w =>
    match (s.blocks.get? w.block).bind fun b => s.launches.get? b.launch with
    | none => s
    | some l =>
      let x := match a.sc, p.tgt with
        | some _, .here (.mem m) => (s.readLoc s.rawByte (.mem m) a.width, if m < 2 ^ 48 then s.allocate core (m / 64) else s)
        | some _, .here (.scr b off) => (s.readLoc s.rawByte (.scr b off) a.width, s)
        | _, _ => s.readFor l w s.seq p.tgt a.width []
      (ps.filter fun q => decide (q.tgt = p.tgt)).foldl (fun s q => (s.writePart key a q (a.word q x.1)).stampPart core a q) x.2

/-- Perform a part of an outstanding store or read-modify-write, which gives the old value to its lane. DESIGN CHOICE: the
checks of R202 are those of the word as it issues: a part performed after a window has been enabled over its bytes writes
the bytes under the view, and one performed after its bytes have been poisoned raises nothing; no rule says what becomes of
such an access (log entry 79). -/
def State.ackPart (s : State) (key core : Nat) (a : Access) (p : Part) : State :=
  match p.tgt with
  | .peer _ _ => s
  | .here l =>
    match a.rmw with
    | none =>
      let x := s.applyStore none core l (natLe a.width p.data)
      (x.2.modWave key fun w => { w with horizon := max w.horizon (x.1 + 1) }).stampPart core a p
    | some op =>
      let x := s.applyRmw none core op l (BitVec.ofNat 64 p.data) (BitVec.ofNat 64 p.data2)
      (x.2.2.modWave key fun w => { w with horizon := max w.horizon (x.2.1 + 1) }).writePart key a p fun k =>
        BitVec.ofNat 32 (x.1 / 2 ^ (32 * k))

/-- The parts of a load whose bytes no part before them reads. -/
def firstParts : List Part → List Part
  | [] => []
  | p :: ps => p :: (firstParts ps).filter fun q => decide (q.tgt ≠ p.tgt)

/-- Perform parts of an outstanding access. -/
def State.performParts (s : State) (key core : Nat) (a : Access) (ps : List Part) : State :=
  if a.store then ps.foldl (fun s p => s.ackPart key core a p) s
  else (firstParts ps).foldl (fun s p => s.returnPart key core a p ps) s

/-- A part of an access is performed when the parts of some lanes are (R203): of a load, with any part that reads the
same bytes; of a store or read-modify-write, once no lower lane's part at the same bytes is left behind. -/
def Access.due (a : Access) (lanes : Mask) (p : Part) : Bool :=
  if a.store then lanes.getLsbD p.lane &&
    a.parts.all fun q => !(decide (q.lane < p.lane) && q.tgt.overlaps a.width p.tgt a.width) || lanes.getLsbD q.lane
  else lanes.getLsbD p.lane || a.parts.any fun q => decide (q.tgt = p.tgt) && lanes.getLsbD q.lane

/-- An outstanding access once only some parts are left: it goes when none is. -/
def partsLeft (id : Nat) (left : List Part) (xs : List Access) : List Access :=
  if left = [] then xs.filter fun x => decide (x.id ≠ id)
  else xs.map fun x => if x.id = id then { x with parts := left } else x

/-- The words of a load that has wholly returned enter its queue, in ascending lane order (R31). -/
def Access.pushInto (a : Access) (index : Nat) (qs : KMap (List Word)) : KMap (List Word) :=
  match a.queue with
  | none => qs
  | some n => qs.set (4 * index + n) (qs.getD (4 * index + n) [] ++
      (lanesOf (maskOf fun i => a.got.any fun x => decide (x.1 = i))).filterMap fun i =>
        (a.got.find? fun x => decide (x.1 = i)).map (·.2))

/-- A part of an access to a block's own scratchpad, as it acts on a scratchpad and a wave kept in a snapshot (R394): the
access was under way as the snapshot was taken. -/
def Access.redo (a : Access) (b : Nat) (x : KMap Byte × Wave) (p : Part) : KMap Byte × Wave :=
  match p.tgt with
  | .here (.scr k off) =>
    if k ≠ b ∨ a.store = false then x
    else match a.rmw with
      | none => (putBytes x.1 off (natLe a.width p.data), x.2)
      | some op =>
        let old := leNat ((List.range op.width).map fun i => x.1.getD (off + i) 0)
        (match op.result old (BitVec.ofNat 64 p.data) (BitVec.ofNat 64 p.data2) with
          | none => x.1
          | some y => putBytes x.1 off (natLe op.width y), a.writeTo p (fun k => BitVec.ofNat 32 (old / 2 ^ (32 * k))) x.2)
  | _ => x

/-- The access goes on in a snapshot that it was under way in as in the block itself: its registers receive what they have
received, its stores into the block's scratchpad stand (R393, R394). -/
def Snapshot.follow (n : Snapshot) (b key : Nat) (a : Access) (done left : List Part) (new : Wave) : Snapshot :=
  match n.waves.find? fun e => decide (e.1 = key) with
  | none => n
  | some (_, old) =>
    if old.outst.all fun x => decide (x.id ≠ a.id) then n
    else
      let lanes := done.foldl (fun m p => m ||| a.lanes p) (0 : Mask)
      let took := a.dest.foldl (fun w k => w.writeSlot k lanes (new.slotLane k)) old
      let x := done.foldl (a.redo b) (n.scr, took)
      let w := { x.2 with outst := partsLeft a.id left (x.2.outst.map fun y => if y.id = a.id then { y with got := a.got } else y) }
      { n with
        scr := x.1
        queues := if left = [] then a.pushInto old.index n.queues else n.queues
        waves := n.waves.map fun e => if e.1 = key then (e.1, w) else e }

/-- What follows once parts of an access have been performed: the snapshot that it was under way in follows, the access
goes once no part is left, and the words of a load into a queue then enter it. -/
def State.partsDone (s : State) (key id : Nat) (done left : List Part) : State :=
  match (s.waves.get? key).bind fun v => (v.outst.find? fun x => decide (x.id = id)).map fun a => (v, a) with
  | none => s
  | some (v, a) =>
    let s := s.modBlock v.block fun b => { b with
      snap := b.snap.map fun n => n.follow v.block key a done left v
      queues := if left = [] then a.pushInto v.index b.queues else b.queues }
    s.modWave key fun w => { w with outst := partsLeft id left w.outst }

/-- Perform the parts of an outstanding access that lie in the lanes of a mask (R173, R175). -/
def State.perform (s : State) (key id : Nat) (lanes : Mask) : State :=
  match s.waves.get? key with
  | none => s
  | some w =>
    match w.outst.find? fun a => decide (a.id = id) with
    | none => s
    | some a =>
      (s.performParts key w.core a (a.parts.filter (a.due lanes))).partsDone key id (a.parts.filter (a.due lanes))
        (a.parts.filter fun p => !a.due lanes p)

/-- Perform every outstanding access of a wave, oldest first. -/
def State.drain (s : State) (key : Nat) : State :=
  match s.waves.get? key with
  | none => s
  | some w => w.outst.foldl (fun s a => s.perform key a.id (BitVec.allOnes 64)) s

/-! ## Holds of a release and effects of an acquire -/

/-- Cell scope or wider. -/
def wideScope : Scope → Bool
  | .wave => false
  | .block => false
  | .cell => true
  | .die => true
  | .device => true
  | .system => true

/-- A tile operation of the wave has accesses to memory that are not performed (R324, R359): stores that have all been made,
and await acknowledgements of peers alone, count at system scope only (R176 point 3). -/
def State.tileOpen (s : State) (w : Wave) (sc : Scope) : Bool :=
  (s.core w.core).ops.any fun o => decide (o.wave = waveKey w.block w.index w.shadow) &&
    decide (o.rows ≠ [] ∨ (o.spans ≠ [] ∧ (sc = .system ∨ o.out ≠ some [])))

/-- The first hold of a release has ended (R176 points 1 to 3). -/
def State.released (s : State) (w : Wave) (sc : Scope) : Bool :=
  decide (w.outst = []) && !s.tileOpen w sc && (!wideScope sc || decide (w.horizon ≤ s.now)) && (sc != .system || decide (w.peerOut = []))

/-- How wide a scope is (R171). -/
def scopeRank : Scope → Nat
  | .wave => 0
  | .block => 1
  | .cell => 2
  | .die => 3
  | .device => 4
  | .system => 5

/-- A scope that leaves out waves of this device (R171). -/
def narrow (sc : Scope) : Bool := decide (scopeRank sc < 4)

/-- A wave's scope takes in another wave (R171). -/
def Wave.includes (w v : Wave) (sc : Scope) : Bool :=
  match sc with
  | .wave => decide (w.block = v.block) && decide (w.index = v.index) && w.shadow == v.shadow
  | .block => decide (w.block = v.block)
  | .cell => decide (w.core / 8 = v.core / 8)
  | .die => decide (dieOf w.core = dieOf v.core)
  | .device => true
  | .system => true

/-- An access that its wave has published at a scope: it is performed before any access that follows an acquire which
synchronises with the release (R172). -/
def Access.publish (sc : Scope) (a : Access) : Access :=
  { a with rel := some (match a.rel with
      | none => sc
      | some r => if scopeRank r < scopeRank sc then sc else r) }

/-- The first hold of a release, or the hold of a fence: the state once it has ended, or none while it lasts (R176,
R178). For parties outside a narrow scope a release promises nothing (R172), so that the hold may be taken to end at
once, when the choice of the step says so: the earlier accesses are then performed at the latest when a wave inside the
scope acquires. -/
def State.firstHold (s : State) (c : Ctx) (sc : Scope) : Option State :=
  if s.released c.w sc then some s
  else if s.later && narrow sc && !s.tileOpen c.w sc then
    some (s.modWave c.key fun w => { w with outst := w.outst.map (Access.publish sc) })
  else none

/-- Accesses of other waves that are published to a wave, whose acquire has the scope given (R172). -/
def State.published (s : State) (key : Nat) (q : Wave) (sc : Scope) : List (Nat × Nat) :=
  s.waves.flatMap fun e => if e.1 = key then [] else
    (e.2.outst.filter fun a => match a.rel with
      | some r => e.2.includes q r && q.includes e.2 sc
      | none => false).map fun a => (e.1, a.id)

/-- An acquire (R172, R177): what is published to the wave is performed, and at cell scope or wider older copies are set
aside. -/
def State.acquire (s : State) (key : Nat) (sc : Scope) : State :=
  match s.waves.get? key with
  | none => s
  | some q =>
    let s := (s.published key q sc).foldl (fun s x => s.perform x.1 x.2 (BitVec.allOnes 64)) s
    if wideScope sc then s.modWave key fun w => { w with acq := s.seq } else s

/-- The word's own access is performed later, in its lanes one by one, and holds the wave until then (R175 to R177). -/
def State.holdFor (s : State) (c : Ctx) (a : Access) : State :=
  (s.modWave c.key fun w => { w with outst := w.outst ++ [a], holdOn := some a.id }).nextSeq

/-- The access that holds the wave's word has not been performed. -/
def Wave.holding (w : Wave) (id : Nat) : Bool := w.outst.any fun a => decide (a.id = id)

/-- The registers an access would write are no queue, no constant and no guard: it may be performed later. -/
def Wave.mayDefer (w : Wave) (d : Reg) (n : Nat) : Bool :=
  (List.range n).all fun i => match w.slotOf (d.toNat + i) with
    | .phys k => decide (k < 259)
    | _ => false

/-- Give every reach of an SC operation its stamp, in ascending lane order (R180). -/
def State.stampAll (s : State) (core k : Nat) : List Reach → State
  | [] => s
  | r :: rs => State.stampAll (s.stamp core k r.tgt) core k rs

end Sys2Proof.Machine
end

