-- ==== Sys2Proof/Machine/Memory.lean ====
section
/-! DEFINITION. Memory instructions: loads, stores, prefetch, L1 control, acquire, release and SC forms, atomics,
compare-and-swap, fences and polls (R144, R173 to R180, R201 to R216). -/

namespace Sys2Proof.Machine

open Sys2Proof

/-! ## Plain loads and stores (R206) -/

/-- A plain load; `words` is 2 when a literal word stands before it. -/
def issueLoad (d a : Reg) (size : Nat) (signed : Bool) (off : Int) (words : Nat) (g : Guard) (u : Bool) (s : State) :
    Host.Outcome State Fault Refusal :=
  issue ⟨g, u, words, [(a, 2)], [(d, wordsOf size)], true, false, id⟩ (loadBody size signed d off) s

/-- A plain store. -/
def issueStore (d a : Reg) (size : Nat) (off : Int) (words : Nat) (g : Guard) (u : Bool) (s : State) :
    Host.Outcome State Fault Refusal :=
  issue ⟨g, u, words, [(d, wordsOf size), (a, 2)], [], false, false, id⟩ (storeBody size off) s

/-- `ld.w` (R206). -/
def execLdW (d a : Reg) (imm : BitVec 7) (g : Guard) (u : Bool) (s : State) : Host.Outcome State Fault Refusal :=
  issueLoad d a 4 false (4 * imm.toInt) 1 g u s

/-- `ld.w` with a literal word before it (R53). -/
def execLdWP (d a : Reg) (imm : BitVec 32) (g : Guard) (u : Bool) (s : State) : Host.Outcome State Fault Refusal :=
  issueLoad d a 4 false imm.toInt 2 g u s

/-- `ld.d` (R206). -/
def execLdD (d a : Reg) (imm : BitVec 7) (g : Guard) (u : Bool) (s : State) : Host.Outcome State Fault Refusal :=
  issueLoad d a 8 false (8 * imm.toInt) 1 g u s

/-- `ld.d` with a literal word before it (R53). -/
def execLdDP (d a : Reg) (imm : BitVec 32) (g : Guard) (u : Bool) (s : State) : Host.Outcome State Fault Refusal :=
  issueLoad d a 8 false imm.toInt 2 g u s

/-- `ld.q` (R206). -/
def execLdQ (d a : Reg) (imm : BitVec 7) (g : Guard) (u : Bool) (s : State) : Host.Outcome State Fault Refusal :=
  issueLoad d a 16 false (16 * imm.toInt) 1 g u s

/-- `ld.q` with a literal word before it (R53). -/
def execLdQP (d a : Reg) (imm : BitVec 32) (g : Guard) (u : Bool) (s : State) : Host.Outcome State Fault Refusal :=
  issueLoad d a 16 false imm.toInt 2 g u s

/-- `ld.h` (R206). -/
def execLdH (d a : Reg) (imm : BitVec 7) (g : Guard) (u : Bool) (s : State) : Host.Outcome State Fault Refusal :=
  issueLoad d a 2 true (2 * imm.toInt) 1 g u s

/-- `ld.h` with a literal word before it (R53). -/
def execLdHP (d a : Reg) (imm : BitVec 32) (g : Guard) (u : Bool) (s : State) : Host.Outcome State Fault Refusal :=
  issueLoad d a 2 true imm.toInt 2 g u s

/-- `ld.hu` (R206). -/
def execLdHu (d a : Reg) (imm : BitVec 7) (g : Guard) (u : Bool) (s : State) : Host.Outcome State Fault Refusal :=
  issueLoad d a 2 false (2 * imm.toInt) 1 g u s

/-- `ld.hu` with a literal word before it (R53). -/
def execLdHuP (d a : Reg) (imm : BitVec 32) (g : Guard) (u : Bool) (s : State) : Host.Outcome State Fault Refusal :=
  issueLoad d a 2 false imm.toInt 2 g u s

/-- `ld.b` (R206). -/
def execLdB (d a : Reg) (imm : BitVec 7) (g : Guard) (u : Bool) (s : State) : Host.Outcome State Fault Refusal :=
  issueLoad d a 1 true (1 * imm.toInt) 1 g u s

/-- `ld.b` with a literal word before it (R53). -/
def execLdBP (d a : Reg) (imm : BitVec 32) (g : Guard) (u : Bool) (s : State) : Host.Outcome State Fault Refusal :=
  issueLoad d a 1 true imm.toInt 2 g u s

/-- `ld.bu` (R206). -/
def execLdBu (d a : Reg) (imm : BitVec 7) (g : Guard) (u : Bool) (s : State) : Host.Outcome State Fault Refusal :=
  issueLoad d a 1 false (1 * imm.toInt) 1 g u s

/-- `ld.bu` with a literal word before it (R53). -/
def execLdBuP (d a : Reg) (imm : BitVec 32) (g : Guard) (u : Bool) (s : State) : Host.Outcome State Fault Refusal :=
  issueLoad d a 1 false imm.toInt 2 g u s

/-- `st.w` (R206). -/
def execStW (d a : Reg) (imm : BitVec 7) (g : Guard) (u : Bool) (s : State) : Host.Outcome State Fault Refusal :=
  issueStore d a 4 (4 * imm.toInt) 1 g u s

/-- `st.w` with a literal word before it (R53). -/
def execStWP (d a : Reg) (imm : BitVec 32) (g : Guard) (u : Bool) (s : State) : Host.Outcome State Fault Refusal :=
  issueStore d a 4 imm.toInt 2 g u s

/-- `st.d` (R206). -/
def execStD (d a : Reg) (imm : BitVec 7) (g : Guard) (u : Bool) (s : State) : Host.Outcome State Fault Refusal :=
  issueStore d a 8 (8 * imm.toInt) 1 g u s

/-- `st.d` with a literal word before it (R53). -/
def execStDP (d a : Reg) (imm : BitVec 32) (g : Guard) (u : Bool) (s : State) : Host.Outcome State Fault Refusal :=
  issueStore d a 8 imm.toInt 2 g u s

/-- `st.q` (R206). -/
def execStQ (d a : Reg) (imm : BitVec 7) (g : Guard) (u : Bool) (s : State) : Host.Outcome State Fault Refusal :=
  issueStore d a 16 (16 * imm.toInt) 1 g u s

/-- `st.q` with a literal word before it (R53). -/
def execStQP (d a : Reg) (imm : BitVec 32) (g : Guard) (u : Bool) (s : State) : Host.Outcome State Fault Refusal :=
  issueStore d a 16 imm.toInt 2 g u s

/-- `st.h` (R206). -/
def execStH (d a : Reg) (imm : BitVec 7) (g : Guard) (u : Bool) (s : State) : Host.Outcome State Fault Refusal :=
  issueStore d a 2 (2 * imm.toInt) 1 g u s

/-- `st.h` with a literal word before it (R53). -/
def execStHP (d a : Reg) (imm : BitVec 32) (g : Guard) (u : Bool) (s : State) : Host.Outcome State Fault Refusal :=
  issueStore d a 2 imm.toInt 2 g u s

/-- `st.b` (R206). -/
def execStB (d a : Reg) (imm : BitVec 7) (g : Guard) (u : Bool) (s : State) : Host.Outcome State Fault Refusal :=
  issueStore d a 1 (1 * imm.toInt) 1 g u s

/-- `st.b` with a literal word before it (R53). -/
def execStBP (d a : Reg) (imm : BitVec 32) (g : Guard) (u : Bool) (s : State) : Host.Outcome State Fault Refusal :=
  issueStore d a 1 imm.toInt 2 g u s

/-! ## Prefetch and L1 control (R208, R209) -/

/-- Look up the translations of global addresses, without a fault: those found, by lane, and the walks that a miss has joined
(R159). -/
def State.quietLook (s : State) (c : Ctx) (as : List (Nat × DWord)) : List (Nat × DWord × Xlate) × List Nat × State :=
  let r := State.reachAll { s with later := false } c (as.filter fun x => decide (spaceOf x.2 = 0) && s.spaceOk c x.2)
  (r.2.1.filterMap fun x => match x.2.2 with
    | some (.ok k) => some (x.1, x.2.1, k)
    | _ => none, r.2.2, { r.1 with later := s.later })

/-- `pf.l1` or `pf.l2` in one lane (R208): no effect where any fault would be raised. -/
def State.prefetchLane (s : State) (c : Ctx) (l1 : Bool) (a : DWord) (x : Xlate) : State :=
  match s.route (x.target (offsetOf a)) with
  | .here (.mem p) =>
    if !x.permits .read c.w.sup || s.poisoned (.mem p) 1 || !decide (p < 2 ^ 48) then s
    else if l1 then s.fillLine c.w.core (p / 64)
    else s.keepView p
  | .here (.scr _ _) => s
  | .peer _ _ => s

/-- A prefetch into L1, or into L2 alone. -/
def issuePrefetch (a : Reg) (l1 : Bool) (off : Int) (words : Nat) (g : Guard) (u : Bool) (s : State) :
    Host.Outcome State Fault Refusal :=
  issue ⟨g, u, words, [(a, 2)], [], false, false, id⟩ (fun c ops s =>
    let q := s.quietLook c (addrsOf ops 0 off c.t)
    if q.2.1 ≠ [] then .wait (q.2.2.awaitWalks c.key q.2.1)
    else .done .plain (q.1.foldl (fun s x => s.prefetchLane c l1 x.2.1 x.2.2) q.2.2)) s

/-- `pf.l1` (R208). -/
def execPfL1 (a : Reg) (imm : BitVec 7) (g : Guard) (u : Bool) (s : State) : Host.Outcome State Fault Refusal :=
  issuePrefetch a true (4 * imm.toInt) 1 g u s

/-- `pf.l1` with a literal word before it (R53). -/
def execPfL1P (a : Reg) (imm : BitVec 32) (g : Guard) (u : Bool) (s : State) : Host.Outcome State Fault Refusal :=
  issuePrefetch a true imm.toInt 2 g u s

/-- `pf.l2` (R208). -/
def execPfL2 (a : Reg) (imm : BitVec 7) (g : Guard) (u : Bool) (s : State) : Host.Outcome State Fault Refusal :=
  issuePrefetch a false (4 * imm.toInt) 1 g u s

/-- `pf.l2` with a literal word before it (R53). -/
def execPfL2P (a : Reg) (imm : BitVec 32) (g : Guard) (u : Bool) (s : State) : Host.Outcome State Fault Refusal :=
  issuePrefetch a false imm.toInt 2 g u s

/-- `cinv` in one lane (R209). -/
def State.cinvLane (s : State) (c : Ctx) (a : DWord) (x : Xlate) : State :=
  match s.route (x.target (offsetOf a)) with
  | .here (.mem p) => s.dropCopy c.w.core p
  | .here (.scr _ _) => s
  | .peer _ _ => s

/-- `cinv` (R209). -/
def execCinv (a : Reg) (g : Guard) (u : Bool) (s : State) : Host.Outcome State Fault Refusal :=
  issue ⟨g, u, 1, [(a, 2)], [], false, false, id⟩ (fun c ops s =>
    match (addrsOf ops 0 0 c.t).find? fun x => !s.spaceOk c x.2 with
    | some x => .halt 0x10 x.2 (BitVec.ofNat 32 x.1)
    | none =>
      let q := s.quietLook c (addrsOf ops 0 0 c.t)
      if q.2.1 ≠ [] then .wait (q.2.2.awaitWalks c.key q.2.1)
      else .done .plain (q.1.foldl (fun s x => s.cinvLane c x.2.1 x.2.2) q.2.2)) s

/-- `cinv.all` (R209). -/
def execCinvAll (g : Guard) (u : Bool) (s : State) : Host.Outcome State Fault Refusal :=
  issue ⟨g, u, 1, [], [], false, false, id⟩ (fun c _ s =>
    .done .plain (s.modCore c.w.core fun k => { k with l1 := [] })) s

/-! ## Acquire, release and SC forms (R210) -/

/-- Loads at their homes allocate their lines in L1 where they are not there (R153). -/
def State.allocateAll (s : State) (core : Nat) (rs : List Reach) : State :=
  rs.foldl (fun s r => match r.tgt with
    | .here (.mem a) => if a < 2 ^ 48 then s.allocate core (a / 64) else s
    | _ => s) s

/-- An acquire of the word, at its scope: the loads of helper lanes alone acquire nothing (R24). -/
def Ctx.acquired (c : Ctx) (sc : Scope) (s : State) : State := if c.t = 0 then s else s.acquire c.key sc

/-- Read bytes at their home, past every copy of the core. -/
def State.readHomes (s : State) (l : Launch) (w : Wave) (n : Nat) (peer : List (Nat × List Byte)) (rs : List Reach) :
    List (Nat × List Byte) :=
  rs.map fun r => (r.lane, match r.tgt with
    | .peer _ _ => overlay w.share r.tgt (laneData peer (leadOf rs r))
    | .here t => overlay w.share r.tgt (s.readLoc (if l.dqm then s.underByte l else s.rawByte) t n))

/-- `ld.acq` and `ld.sc`: a load whose later accesses wait for it, and, for SC, a stamp (R177, R180). Its lanes may be
performed one by one (R175). In DQM a plain load (R197). -/
def acqBody (size : Nat) (sc : Scope) (stamped : Bool) (d : Reg) (c : Ctx) (ops : List (List LaneVec)) (s : State) :
    Res :=
  match c.w.holdOn with
  | some id => if c.w.holding id then .wait s else .done .plain (s.acquire c.key sc)
  | none =>
  match s.gate c (addrsOf ops 0 0 c.t) (addrsOf ops 0 0 c.hl) size .read (if stamped && !c.l.dqm then .home else .copy) with
  | .stop r => r
  | .go rs hs s =>
    if s.later && !c.l.dqm && c.w.mayDefer d (wordsOf size) && !((rs ++ hs).any Reach.remote) then
      .wait ((s.zeroLost c d size hs).holdFor c { c.access s.seq size false d (rs ++ hs) with
        sc := if stamped then some (s.core c.w.core).clock else none })
    else
    match s.consult c (readAsks (rs ++ hs) size) rs hs c.t with
    | .pending s => .wait s
    | .bad lane addr => .halt 0x17 addr (BitVec.ofNat 32 lane)
    | .ready peer s =>
      let put (x : List (Nat × List Byte) × State) : State :=
        x.2.writeRun c d (wordsOf size) fun lane k => loadedWord size false (laneData x.1 lane) k
      if c.l.dqm then .done .plain (put (s.readAll c.l c.w s.seq size peer (rs ++ hs)))
      else if stamped then
        let s := put (s.readHomes c.l c.w size peer (rs ++ hs), s.allocateAll c.w.core (rs ++ hs))
        .done .plain (c.acquired sc (s.stampAll c.w.core (s.core c.w.core).clock rs))
      else .done .plain (c.acquired sc (put (s.readAll c.l c.w s.seq size peer (rs ++ hs))))

/-- The second hold of a release whose own access was performed later (R176 point 4): until it has been performed in
every lane, peers have acknowledged their lanes, and at cell scope or wider until device time has passed its completion. -/
def Ctx.secondHold (c : Ctx) (id : Nat) (sc : Scope) (s : State) (after : List (Nat × List Byte) → State → State) : Res :=
  if c.w.holding id || (wideScope sc && decide (s.now < c.w.horizon)) then .wait s
  else match s.hearAsks c c.t with
    | .pending s => .wait s
    | .bad lane addr => .halt 0x17 addr (BitVec.ofNat 32 lane)
    | .ready peer s => .done .plain (after peer s)

/-- A word of release, atomic or `cas` is under way: its lanes at peers are asked for, those on this device are performed
later, one by one (R145, R175, R203). -/
def State.startLater (s : State) (c : Ctx) (qs : List Ask) (rs : List Reach) (a : Nat → Access) : State :=
  let s := if qs = [] then s else s.sendAsks c qs rs []
  if rs.all Reach.remote then s else s.holdFor c (a s.seq)

/-- The reaches on this device. -/
def hereOf (rs : List Reach) : List Reach := rs.filter fun r => !r.remote

/-- `st.rel` and `st.sc` (R176, R180): the first hold, the store, and the second hold. The lanes of the store are not
ordered among themselves (R145). In DQM a plain store (R197). -/
def relBody (size : Nat) (sc : Scope) (stamped : Bool) (c : Ctx) (ops : List (List LaneVec)) (s : State) : Res :=
  match c.w.holdOn with
  | some id => c.secondHold id sc s fun _ s =>
      if stamped then s.stampAll c.w.core (s.core c.w.core).clock (c.w.reach.filter Reach.remote) else s
  | none =>
  match c.w.hold with
  | some v => if v ≤ s.now then .done .plain s else .wait s
  | none =>
    match s.gate c (addrsOf ops 1 0 c.t) [] size .write .nothing with
    | .stop r => r
    | .go rs _ s =>
      let data := storeData size ops 0
      if c.l.dqm then dqmStore c size data rs s
      else match s.firstHold c sc with
      | none => .wait s
      | some s =>
      if s.later && decide (c.w.remote = []) then
        .wait (s.startLater c (writeAsks rs size data) rs fun id => { c.storeAccess id size data (hereOf rs) with
          sc := if stamped then some (s.core c.w.core).clock else none })
      else match s.consult c (writeAsks rs size data) rs [] c.t with
        | .pending s => .wait s
        | .bad lane addr => .halt 0x17 addr (BitVec.ofNat 32 lane)
        | .ready _ s =>
          let x := s.storeAll c.key c.w.core size data (hereOf rs) 0
          let s := if stamped then x.2.stampAll c.w.core (x.2.core c.w.core).clock rs else x.2
          if wideScope sc && decide (s.now < x.1) then
            .wait (s.modWave c.key fun w => { w with hold := some x.1, remote := [], reach := [] })
          else .done .plain s

/-- A load of major 0x5E. -/
def issueAcq (d a : Reg) (size : Nat) (sc : Scope) (stamped : Bool) (g : Guard) (u : Bool) (s : State) :
    Host.Outcome State Fault Refusal :=
  issue ⟨g, u, 1, [(a, 2)], [(d, wordsOf size)], true, false, id⟩ (acqBody size sc stamped d) s

/-- A store of major 0x5E. -/
def issueRel (d a : Reg) (size : Nat) (sc : Scope) (stamped : Bool) (g : Guard) (u : Bool) (s : State) :
    Host.Outcome State Fault Refusal :=
  closing g u (issue ⟨g, u, 1, [(d, wordsOf size), (a, 2)], [], false, false, id⟩ (relBody size sc stamped)) s

/-- `ld.acq.w` (R210). -/
def execLdAcqW (d a : Reg) (sc : Scope) (g : Guard) (u : Bool) (s : State) : Host.Outcome State Fault Refusal :=
  issueAcq d a 4 sc false g u s

/-- `ld.acq.d` (R210). -/
def execLdAcqD (d a : Reg) (sc : Scope) (g : Guard) (u : Bool) (s : State) : Host.Outcome State Fault Refusal :=
  issueAcq d a 8 sc false g u s

/-- `st.rel.w` (R210). -/
def execStRelW (d a : Reg) (sc : Scope) (g : Guard) (u : Bool) (s : State) : Host.Outcome State Fault Refusal :=
  issueRel d a 4 sc false g u s

/-- `st.rel.d` (R210). -/
def execStRelD (d a : Reg) (sc : Scope) (g : Guard) (u : Bool) (s : State) : Host.Outcome State Fault Refusal :=
  issueRel d a 8 sc false g u s

/-- `ld.sc.w` (R210). -/
def execLdScW (d a : Reg) (sc : Scope) (g : Guard) (u : Bool) (s : State) : Host.Outcome State Fault Refusal :=
  issueAcq d a 4 sc true g u s

/-- `ld.sc.d` (R210). -/
def execLdScD (d a : Reg) (sc : Scope) (g : Guard) (u : Bool) (s : State) : Host.Outcome State Fault Refusal :=
  issueAcq d a 8 sc true g u s

/-- `st.sc.w` (R210). -/
def execStScW (d a : Reg) (sc : Scope) (g : Guard) (u : Bool) (s : State) : Host.Outcome State Fault Refusal :=
  issueRel d a 4 sc true g u s

/-- `st.sc.d` (R210). -/
def execStScD (d a : Reg) (sc : Scope) (g : Guard) (u : Bool) (s : State) : Host.Outcome State Fault Refusal :=
  issueRel d a 8 sc true g u s

/-! ## Atomics and compare-and-swap (R211 to R214) -/

/-- Words of d that a read-modify-write reads, and words it writes. -/
def Rmw.reads : Rmw → Nat
  | .int _ n => n / 4
  | .f32 _ => 1
  | .cas n => n / 2

/-- Words of d that receive the old value. -/
def Rmw.words (op : Rmw) : Nat := op.width / 4

/-- The operands of a lane: v, and the second operand of a `cas`. -/
def Rmw.operands (op : Rmw) (ops : List (List LaneVec)) (lane : Nat) : DWord × DWord :=
  match op with
  | .cas n =>
    if n = 4 then ((laneOf (opRun ops 0 0) lane).setWidth 64, (laneOf (opRun ops 0 1) lane).setWidth 64)
    else (pairOf (laneOf (opRun ops 0 0) lane) (laneOf (opRun ops 0 1) lane),
      pairOf (laneOf (opRun ops 0 2) lane) (laneOf (opRun ops 0 3) lane))
  | .int _ n =>
    if n = 4 then ((laneOf (opRun ops 0 0) lane).setWidth 64, 0)
    else (pairOf (laneOf (opRun ops 0 0) lane) (laneOf (opRun ops 0 1) lane), 0)
  | .f32 _ => ((laneOf (opRun ops 0 0) lane).setWidth 64, 0)

/-- Perform the read-modify-writes of the reaches on this device in ascending lane order (R203): old values by lane,
and the latest completion time. -/
def State.rmwAll (s : State) (key core : Nat) (op : Rmw) (v : Nat → DWord × DWord) :
    List Reach → Nat → List (Nat × Nat) × Nat × State
  | [], t => ([], t, s)
  | r :: rs, t =>
    match r.tgt with
    | .peer _ _ => State.rmwAll s key core op v rs t
    | .here l =>
      let x := s.applyRmw none core op l (v r.lane).1 (v r.lane).2
      let s := x.2.2.modWave key fun w => { w with horizon := max w.horizon (x.2.1 + 1) }
      let y := State.rmwAll s key core op v rs (max t x.2.1)
      ((r.lane, x.1) :: y.1, y.2)

/-- Perform the read-modify-writes of a wave in DQM in its own block's scratchpad, at once and in ascending lane order
(R197, R203): each finds what the wave has stored before it, the bytes of a `tst` among it (R359). -/
def State.ownRmw (s : State) (key : Nat) (op : Rmw) (v : Nat → DWord × DWord) : List Reach → List (Nat × Nat) × State
  | [] => ([], s)
  | r :: rs =>
    match r.tgt with
    | .peer _ _ => State.ownRmw s key op v rs
    | .here l =>
      let share := ((s.waves.get? key).map fun w => w.share).getD []
      let old := leNat (overlay share r.tgt (s.readLoc s.rawByte l op.width))
      let t := match op.result old (v r.lane).1 (v r.lane).2 with
        | none => s
        | some x => (s.writeLoc none l (natLe op.width x)).supersede key [r] op.width
      let y := State.ownRmw t key op v rs
      ((r.lane, old) :: y.1, y.2)

/-- The atomic requests of the reaches that lie at peers. -/
def rmwAsks (op : Rmw) (v : Nat → DWord × DWord) (rs : List Reach) : List Ask :=
  rs.filterMap fun r => match r.tgt with
    | .peer d pa => some ⟨r.lane, r.addr, d, 0x0014, rmwPayload pa op (v r.lane).1 (v r.lane).2, op.width⟩
    | .here _ => none

/-- The old value of a lane. -/
def oldOf (xs : List (Nat × Nat)) (lane : Nat) : Nat :=
  match xs.find? fun x => decide (x.1 = lane) with
  | some x => x.2
  | none => 0

/-- Write the old values into d, in the lanes that have one: of a uniform word the source lane has it for all, or none has. -/
def State.writeOld (s : State) (c : Ctx) (op : Rmw) (d : Reg) (xs : List (Nat × Nat)) : State :=
  if xs = [] then s
  else
    let got := maskOf fun i => xs.any fun x => decide (x.1 = i)
    State.writeRun s { c with t := got, hl := 0 } d op.words fun lane k => BitVec.ofNat 32 (oldOf xs lane / 2 ^ (32 * k))

/-- The buffered entries of a read-modify-write in DQM. -/
def rmwEntries (c : Ctx) (op : Rmw) (d : Reg) (v : Nat → DWord × DWord) (rs : List Reach) : List Buffered :=
  rs.map fun r => .rmw op r.tgt (v r.lane).1 (v r.lane).2 (c.w.slotsOf d op.words)
    (if c.u then c.w.active else maskOf fun i => i == r.lane) r.lane r.addr

/-- A read-modify-write in DQM (R204, R205, R214): in the block's own scratchpad at once, elsewhere at the commit; a
`cas.d` too large for an empty share goes in parts; `rs` are the lanes that no part has taken yet. -/
def dqmRmw (c : Ctx) (op : Rmw) (d : Reg) (v : Nat → DWord × DWord) (rs : List Reach) (s : State) : Res :=
  let each := if op = .cas 8 then 32 else 16
  let far := rs.filter fun r => !c.ownScr r.tgt
  let near (s : State) : State :=
    if c.w.partDone = 0 then
      let x := s.ownRmw c.key op v (rs.filter fun r => c.ownScr r.tgt)
      x.2.writeOld c op d x.1
    else s
  if far = [] then .done .plain (near s)
  else if c.w.shareUsed + each * far.length ≤ 1024 then
    .doneEnd .plain ((near s).buffer c.key (rmwEntries c op d v far) (each * far.length))
  else if each * far.length ≤ 1024 ∨ c.w.shareUsed ≠ 0 then .endFirst s
  else
    let part := far.take (1024 / each)
    .endFirst (((near s).buffer c.key (rmwEntries c op d v part) 1024).modWave c.key fun w =>
      { w with partDone := w.partDone ||| maskOf fun i =>
          (part ++ rs.filter fun r => c.ownScr r.tgt).any fun r => r.lane == i })

/-- A read-modify-write issued by a word, which its homes perform later. -/
def Ctx.rmwAccess (c : Ctx) (id : Nat) (op : Rmw) (d : Reg) (v : Nat → DWord × DWord) (rs : List Reach) : Access :=
  { c.access id op.width false d rs with
    store := true
    dest := c.w.slotsOf d op.words
    parts := rs.map fun r => ⟨r.lane, r.tgt, c.footprintAddr r.addr, (v r.lane).1.toNat, (v r.lane).2.toNat⟩
    rmw := some op }

/-- An atomic or `cas`: a release and an acquire at its scope (R179, R211 to R214). Its lanes may be performed one by
one, those at one location in ascending order (R175, R203). -/
def rmwBody (op : Rmw) (sc : Scope) (d : Reg) (c : Ctx) (ops : List (List LaneVec)) (s : State) : Res :=
  match c.w.holdOn with
  | some id => c.secondHold id sc s fun peer s =>
      (s.writeOld c op d (peer.map fun p => (p.1, leNat (p.2.take op.width)))).acquire c.key sc
  | none =>
  match c.w.hold with
  | some v => if v ≤ s.now then .done .plain s else .wait s
  | none =>
    match s.gate c (addrsOf ops 1 0 (if c.w.partDone = 0 then c.t else c.t &&& ~~~c.w.partDone)) [] op.width .write .home with
    | .stop r => r
    | .go rs _ s =>
      let v := op.operands ops
      if c.l.dqm then dqmRmw c op d v rs s
      else match s.firstHold c sc with
      | none => .wait s
      | some s =>
      if s.later && c.w.mayDefer d op.words && decide (c.w.remote = []) then
        .wait (s.startLater c (rmwAsks op v rs) rs fun id => c.rmwAccess id op d v (hereOf rs))
      else match s.consult c (rmwAsks op v rs) rs [] c.t with
        | .pending s => .wait s
        | .bad lane addr => .halt 0x17 addr (BitVec.ofNat 32 lane)
        | .ready peer s =>
          let x := s.rmwAll c.key c.w.core op v rs 0
          let far := peer.map fun p => (p.1, leNat (p.2.take op.width))
          let s := (x.2.2.writeOld c op d (x.1 ++ far)).acquire c.key sc
          if wideScope sc && decide (s.now < x.2.1) then
            .wait (s.modWave c.key fun w => { w with hold := some x.2.1, remote := [], reach := [] })
          else .done .plain s

/-- An atomic or `cas`. -/
def issueRmw (op : Rmw) (d a : Reg) (sc : Scope) (g : Guard) (u : Bool) (s : State) :
    Host.Outcome State Fault Refusal :=
  closing g u (issue ⟨g, u, 1, [(d, op.reads), (a, 2)], [(d, op.words)], false, false, id⟩ (rmwBody op sc d)) s

/-- `atom`, 32 bits (R211). -/
def execAtom (o : AtomOp) (d a : Reg) (sc : Scope) (g : Guard) (u : Bool) (s : State) :
    Host.Outcome State Fault Refusal :=
  issueRmw (.int o 4) d a sc g u s

/-- `atom`, 64 bits (R211). -/
def execAtomD (o : AtomOp) (d a : Reg) (sc : Scope) (g : Guard) (u : Bool) (s : State) :
    Host.Outcome State Fault Refusal :=
  issueRmw (.int o 8) d a sc g u s

/-- `atom`, FP32 (R212). -/
def execAtomF32 (o : AtomFOp) (d a : Reg) (sc : Scope) (g : Guard) (u : Bool) (s : State) :
    Host.Outcome State Fault Refusal :=
  issueRmw (.f32 o) d a sc g u s

/-- `cas.w` (R213). -/
def execCasW (d a : Reg) (sc : Scope) (g : Guard) (u : Bool) (s : State) : Host.Outcome State Fault Refusal :=
  issueRmw (.cas 4) d a sc g u s

/-- `cas.d` (R213). -/
def execCasD (d a : Reg) (sc : Scope) (g : Guard) (u : Bool) (s : State) : Host.Outcome State Fault Refusal :=
  issueRmw (.cas 8) d a sc g u s

/-! ## Fences and polls (R178, R144) -/

/-- `fence` (R178, R215); in DQM it adds nothing (R197). -/
def execFence (sc : Scope) (g : Guard) (s : State) : Host.Outcome State Fault Refusal :=
  issue (controlForm g false []) (fun c _ s =>
    if c.l.dqm then .done .plain s
    else match s.firstHold c sc with
      | none => .wait s
      | some s => .done .plain (s.acquire c.key sc)) s

/-- `poll` (R144, R216). Its lanes may read one by one (R175). -/
def pollBody (p : PollCond) (sc : Scope) (d : Reg) (c : Ctx) (ops : List (List LaneVec)) (s : State) : Res :=
  match c.w.holdOn with
  | some id =>
    if c.w.holding id then .wait s
    else if c.lanes.all fun lane => opLane ops 0 lane == 1 then .done .met (s.acquire c.key sc)
    else .doneEnd .failed (s.acquire c.key sc)
  | none =>
  match s.gate c (addrsOf ops 1 0 c.t) (addrsOf ops 1 0 c.hl) 4 .read .copy with
  | .stop r => r
  | .go rs hs s =>
    if s.later && !c.l.dqm && c.w.mayDefer d 1 && !((rs ++ hs).any Reach.remote) then
      .wait ((s.zeroLost c d 4 hs).holdFor c { c.access s.seq 4 false d [] with
        parts := (rs ++ hs).map fun r => ⟨r.lane, r.tgt, c.footprintAddr r.addr, (opLane ops 0 r.lane).toNat, 0⟩
        poll := some p })
    else
    match s.consult c (readAsks (rs ++ hs) 4) rs hs c.t with
    | .pending s => .wait s
    | .bad lane addr => .halt 0x17 addr (BitVec.ofNat 32 lane)
    | .ready peer s =>
      let x := s.readAll c.l c.w s.seq 4 peer (rs ++ hs)
      let holds (lane : Nat) : Bool := decide (laneData x.1 lane ≠ []) && pollHolds p (loadedWord 4 false (laneData x.1 lane) 0) (opLane ops 0 lane)
      let s := x.2.writeRun c d 1 fun lane _ => if holds lane then 1 else 0
      let s := if c.l.dqm then s else c.acquired sc s
      if c.lanes.all holds then .done .met s else .doneEnd .failed s

/-- `poll` (R216). -/
def execPoll (p : PollCond) (d a : Reg) (sc : Scope) (g : Guard) (u : Bool) (s : State) :
    Host.Outcome State Fault Refusal :=
  issue ⟨g, u, 1, [(d, 1), (a, 2)], [(d, 1)], true, true, id⟩ (pollBody p sc d) s

end Sys2Proof.Machine
end

