-- ==== Sys2Proof/Machine/Sync.lean ====
section
/-! DEFINITION. Exit, barriers, ordered tickets and the directions of the hardware queues (R217 to R225, R245, R310). -/

namespace Sys2Proof.Machine

open Sys2Proof

/-! ## CRC-32C and message payloads -/

/-- One bit of a reflected CRC-32C. -/
def crcBit (c : Word) : Word := if c.getLsbD 0 then (c >>> 1) ^^^ 0x82F63B78 else c >>> 1

/-- One byte of a CRC-32C. -/
def crcByte (c : Word) (b : Byte) : Word :=
  crcBit (crcBit (crcBit (crcBit (crcBit (crcBit (crcBit (crcBit (c ^^^ b.setWidth 32))))))))

/-- The CRC-32C of bytes (R7). -/
def crc32c (bs : List Byte) : Word := (bs.foldl crcByte 0xFFFFFFFF) ^^^ 0xFFFFFFFF

/-- The plane of control and collective messages to or from an endpoint (R304). -/
def controlPlane (other : BitVec 16) : Nat := (ownDev + other.toNat % 4096) % 16

/-- Send a message of the control or collective class (R298, R304). -/
def State.send (s : State) (kind dst : BitVec 16) (tag : Word) (payload : List Byte) : State :=
  s.emit (controlPlane dst) ⟨kind, dst, tag, payload⟩

/-! ## Groups of waves -/

/-- Blocks of a run (R14, R15). -/
def LaunchRec.total (r : LaunchRec) : Nat := r.gx * r.gy * r.gz

/-- The scope of a barrier's ordering (R217). -/
def barScope : Blocked → Scope
  | .barB => .block
  | .barC => .cell
  | .barDev => .device
  | .barDom => .system
  | .ticket _ => .device
  | .queue _ => .wave
  | .pin _ _ => .wave
  | .handle => .wave

/-- The launch of a wave runs in DQM. -/
def State.inDqm (s : State) (w : Wave) : Bool :=
  match (s.blocks.get? w.block).bind fun b => s.launches.get? b.launch with
  | none => false
  | some l => l.dqm

/-- A wave counts as arrived at a barrier (R218): one that has exited once its accesses are ordered before it, as an
arrival's are (R217, R310); in DQM nothing is awaited (R197). -/
def State.arrivedAt (s : State) (k : Blocked) (w : Wave) : Bool :=
  (w.exited && (s.inDqm w || s.released w (barScope k))) ||
    (decide (w.blocked = some k) && !w.halted && w.parked.isNone)

/-- Every wave of a block but `self` has arrived. -/
def State.blockArrived (s : State) (k : Blocked) (b : Nat) (self : Option Nat) : Bool :=
  (s.wavesOf b).all fun e => decide (some e.1 = self) || s.arrivedAt k e.2

/-- The ranks of the cluster of a block. -/
def clusterRanks (l : Launch) (b : Block) : List Nat :=
  (List.range l.clusterSize).map fun m => b.cpos * l.clusterSize + m

/-- A member has arrived with every wave, or has retired; one that has not started has not (R43, R218). -/
def State.memberArrived (s : State) (k : Blocked) (launch : Nat) (l : Launch) (rank : Nat) (self : Option Nat) : Bool :=
  match s.blocks.get? (blockKey launch rank) with
  | some _ => s.blockArrived k (blockKey launch rank) self
  | none => (l.retiredRanks.get? rank).isSome

/-- Every wave of a run has arrived: its blocks are all resident or retired. -/
def State.runArrived (s : State) (k : Blocked) (launch : Nat) (l : Launch) (self : Option Nat) : Bool :=
  decide ((s.blocksOf launch).length + l.retiredRanks.length = l.record.total) &&
  (s.blocksOf launch).all fun e => s.blockArrived k e.1 self

/-- The blocks whose waves take part in a barrier with block `b` of the launch. -/
def State.barBlocks (s : State) (k : Blocked) (launch : Nat) (l : Launch) (key : Nat) (b : Block) : List Nat :=
  match k with
  | .barB => [key]
  | .barC => if l.standing.isSome then [key] else (clusterRanks l b).map (blockKey launch)
  | _ => (s.blocksOf launch).map (·.1)

/-- Every participant but `self` has arrived (R218). -/
def State.allArrived (s : State) (k : Blocked) (launch : Nat) (l : Launch) (key : Nat) (b : Block) (self : Option Nat) :
    Bool :=
  match k with
  | .barB => s.blockArrived k key self
  | .barC =>
    if l.standing.isSome then s.blockArrived k key self
    else (clusterRanks l b).all fun r => s.memberArrived k launch l r self
  | _ => s.runArrived k launch l self

/-- A waiter leaves a barrier: an acquire at its scope, and its word retires (R217, R218). -/
def State.passBar (s : State) (k : Blocked) (key : Nat) : State :=
  match s.waves.get? key with
  | none => s
  | some w =>
    match (s.blocks.get? w.block).bind fun b => s.launches.get? b.launch with
    | none => s
    | some l =>
      if w.blocked = some k && !w.exited then
        let s := if l.dqm then s else s.acquire key (barScope k)
        (s.modWave key fun w => { (w.retire l s.now .plain) with pc := w.pc + 4 }).countSkid key w.block
      else s

/-- Release every waiter of the participants. -/
def State.releaseBar (s : State) (k : Blocked) (bs : List Nat) : State :=
  bs.foldl State.snapshot ((s.waves.filter fun e => bs.contains e.2.block && decide (e.2.blocked = some k)).foldl
    (fun s e => s.passBar k e.1) s)

/-! ## The domain barrier (R310) -/

/-- The domain group of a run: the valid entry of its table, and of several the one that an open function picks: no rule
says which group `bar.dom` uses (R217, R295, R310; log entry 10). -/
def Launch.domain (l : Launch) : Option (Nat × Group) :=
  if l.flags.getLsbD 3 then
    match (l.groups.zipIdx.filter fun x => x.1.valid).map fun x => (x.2, x.1) with
    | [] => none
    | [x] => some x
    | xs => xs[Config.domPick (xs.map (·.1)) % xs.length]?
  else none

/-- The members of a group, by rising device number; a member's rank is its position (R295). -/
def Group.list (g : Group) : List Nat := (List.range 144).filter fun i => g.members.getLsbD i

/-- The root: the member with the lowest device number. -/
def Group.root (g : Group) : Nat := g.list.headD 0

/-- A barrier message's payload (R310). -/
def barBytes (m : BarMsg) : List Byte :=
  [m.group, m.status, 0, 0] ++ natLe 4 m.tag.toNat ++ natLe 4 m.gen.toNat ++ natLe 4 m.crc.toNat

/-- A release reaches this device: its waiters leave, or, on a mismatch, fault (R310). -/
def State.domRelease (s : State) (m : BarMsg) : State :=
  match s.launches.find? fun e => decide (e.2.tag = m.tag) && e.2.flags.getLsbD 3 &&
      decide (BitVec.ofNat 32 (e.2.domGen + 1) = m.gen) with
  | none => s
  | some e =>
    let s := s.modLaunch e.1 fun l => { l with domGen := l.domGen + 1, domSent := false }
    let bs := (s.blocksOf e.1).map (·.1)
    if m.status = 0 then s.releaseBar .barDom bs
    else (s.waves.filter fun w => bs.contains w.2.block && decide (w.2.blocked = some .barDom)).foldl
      (fun s w => (s.modWave w.1 fun w => { w with blocked := none }).takeHalt w.1 0x22 0 w.2.active 0) s

/-- The root counts arrivals of a generation, and releases it when all members have arrived (R310). -/
def State.domCount (s : State) (group : Byte) (tag gen : Word) : State :=
  match s.domRoots.get? (16 * tag.toNat + group.toNat) with
  | none => s
  | some g =>
    let here := s.doms.filter fun x => decide (x.2.group = group) && decide (x.2.tag = tag) &&
      (decide (x.2.gen = gen) || decide (x.2.gen = 0xFFFFFFFF))
    if g.list.all fun d => here.any fun x => decide (x.1 = BitVec.ofNat 16 d) then
      let same := here.all fun x => decide (x.2.crc = g.crc)
      let m : BarMsg := ⟨group, if same then 0 else 1, tag, gen, g.crc⟩
      let s := { s with doms := s.doms.filter fun x =>
        !(decide (x.2.group = group) && decide (x.2.tag = tag) && decide (x.2.gen = gen)) }
      let s := (g.list.filter fun d => decide (d ≠ ownDev)).foldl
        (fun s d => s.send 0x0021 (BitVec.ofNat 16 d) 0 (barBytes m)) s
      s.domRelease m
    else s

/-- Once the run of every member has ended, the root keeps nothing of the barriers of the run: its arrivals for every later
generation have none left to serve (R310 point 2). -/
def State.domSweep (s : State) (group : Byte) (tag : Word) : State :=
  match s.domRoots.get? (16 * tag.toNat + group.toNat) with
  | none => s
  | some g =>
    let mine (x : BitVec 16 × BarMsg) : Bool := decide (x.2.group = group) && decide (x.2.tag = tag)
    if g.list.all fun d => s.doms.any fun x => mine x && decide (x.1 = BitVec.ofNat 16 d) && decide (x.2.gen = 0xFFFFFFFF) then
      { s with doms := s.doms.filter fun x => !mine x, domRoots := s.domRoots.erase (16 * tag.toNat + group.toNat) }
    else s

/-- An arrival of this device, counted by itself when it is the root (R310). -/
def State.domArrive (s : State) (l : Launch) (gen : Word) : State :=
  match l.domain with
  | none => s
  | some (n, g) =>
    let m : BarMsg := ⟨BitVec.ofNat 8 n, 0, l.tag, gen, g.crc⟩
    if g.root = ownDev then
      let s := { s with domRoots := s.domRoots.set (16 * l.tag.toNat + n) g,
                        doms := s.doms ++ [(BitVec.ofNat 16 ownDev, m)] }
      (s.domCount m.group m.tag (if gen = 0xFFFFFFFF then BitVec.ofNat 32 (l.domGen + 1) else gen)).domSweep m.group m.tag
    else s.send 0x0020 (BitVec.ofNat 16 g.root) 0 (barBytes m)

/-- When the last local participant has arrived, the device's arrival leaves (R310 point 1). -/
def State.domTry (s : State) (launch : Nat) : State :=
  match s.launches.get? launch with
  | none => s
  | some l =>
    if l.domain.isSome && !l.domSent && s.runArrived .barDom launch l none &&
        (s.waves.any fun e => decide (e.2.blocked = some .barDom) &&
          ((s.blocksOf launch).map (·.1)).contains e.2.block) then
      (s.modLaunch launch fun l => { l with domSent := true }).domArrive l (BitVec.ofNat 32 (l.domGen + 1))
    else s

/-! ## Barriers (R217 to R219) -/

/-- A barrier that releases at the boundary in DQM (R205). -/
def barAtBoundary : Blocked → Bool
  | .barB => false
  | .barC => true
  | .barDev => true
  | .barDom => false
  | .ticket _ => false
  | .queue _ => false
  | .pin _ _ => false
  | .handle => false

/-- Release a barrier whose participants have all arrived or exited. In DQM, those that wait for the boundary stay. -/
def State.tryBar (s : State) (k : Blocked) (key : Nat) : State :=
  match s.blocks.get? key with
  | none => s
  | some b =>
    match s.launches.get? b.launch with
    | none => s
    | some l =>
      if k = .barDom then s.domTry b.launch
      else if l.dqm && barAtBoundary k then s
      else if s.allArrived k b.launch l key b none then s.releaseBar k (s.barBlocks k b.launch l key b)
      else s

/-- A wave arrives at a barrier. -/
def issueBar (k : Blocked) (allowed : Launch → Bool) (g : Guard) (s : State) : Host.Outcome State Fault Refusal :=
  closing g false (issue (controlForm g false []) (fun c _ s =>
    if !allowed c.l then .halt 0x22 0 0
    else if c.atEdge 1 then .halt 0x07 0 0
    else match (if c.l.dqm then some s else s.firstHold c (barScope k)) with
    | none => .wait s
    | some s =>
    if c.l.dqm && barAtBoundary k then .blockEnd k s
    else if k ≠ .barDom && s.allArrived k c.b.launch c.l c.w.block c.b (some c.key) then
      let s := s.releaseBar k (s.barBlocks k c.b.launch c.l c.w.block c.b)
      .done .plain (if c.l.dqm then s else s.acquire c.key (barScope k))
    else if k = .barDom then
      let s := (s.blockWave c.key k).domTry c.b.launch
      match s.waves.get? c.key with
      | none => .jump .plain s
      | some w => if w.blocked = some k then .block k s else .left s
    else .block k s)) s

/-- `bar.b` (R217). -/
def execBarB (g : Guard) (s : State) : Host.Outcome State Fault Refusal :=
  issueBar .barB (fun _ => true) g s

/-- `bar.c` (R217). -/
def execBarC (g : Guard) (s : State) : Host.Outcome State Fault Refusal :=
  issueBar .barC (fun _ => true) g s

/-- `bar.dev` (R217, R219). -/
def execBarDev (g : Guard) (s : State) : Host.Outcome State Fault Refusal :=
  issueBar .barDev (fun l => l.standing.isNone && l.flags.getLsbD 0) g s

/-- `bar.dom` (R217, R219). -/
def execBarDom (g : Guard) (s : State) : Host.Outcome State Fault Refusal :=
  issueBar .barDom (fun l => l.standing.isNone && !l.dqm && l.domain.isSome) g s

/-! ## Exit (R245) -/

/-- An exited wave counts as arrived at every barrier (R218). -/
def State.afterExit (s : State) (b : Nat) : State :=
  (((s.tryBar .barB b).tryBar .barC b).tryBar .barDev b).tryBar .barDom b

/-- `exit` (R245). -/
def execExit (g : Guard) (s : State) : Host.Outcome State Fault Refusal :=
  issue (controlForm g false []) (fun c _ s =>
    let left := c.w.active &&& ~~~c.t
    let live := c.w.live &&& ~~~c.t
    if left ≠ 0 then .doneEnd .plain (s.modWave c.key fun w => { w with live := live, active := left })
    else match resumeFrom c.w.stack with
      | some (p, m, rest) => .jumpEnd .plain (s.modWave c.key fun w =>
          { w with live := live, pc := p, active := m, stack := rest })
      | none => .jumpEnd .plain ((s.modWave c.key fun w =>
          { w with live := live, active := 0, stack := [], exited := true,
                   mxflags := [] }).afterExit c.w.block)) s

/-! ## Tickets (R220 to R224) -/

/-- Every wave of the block is past the first hold of a release at device scope (R222). -/
def State.blockReleased (s : State) (b : Nat) : Bool := (s.wavesOf b).all fun e => s.released e.2 .device

/-- `tkt.take` (R222, R224). -/
def execTktTake (g : Guard) (s : State) : Host.Outcome State Fault Refusal :=
  closing g true (issue (controlForm g true []) (fun c _ s =>
    match c.b.ticket with
    | none => .done .plain s
    | some r =>
      if c.l.standing.isSome then .done .plain s
      else if c.l.dqm then .done .plain (s.buffer c.key [.take] 0)
      else if !s.blockReleased c.w.block then .wait s
      else .done .plain ((s.modBlock c.w.block fun b => { b with ticket := none }).modLaunch c.b.launch fun l =>
        l.take r false))) s

/-- `tkt.wait` (R221, R224). -/
def execTktWait (d : Reg) (g : Guard) (s : State) : Host.Outcome State Fault Refusal :=
  issue ⟨g, true, 1, [], [(d, 1)], false, false, id⟩ (fun c _ s =>
    let answer (s : State) (x : Word) : Res := .done .plain (s.writeReg c d.toNat fun _ => x)
    if c.l.standing.isSome then answer s 0x7FFFFFFF
    else match c.b.ticket with
      | none => answer s c.b.tktWord
      | some r =>
        if r ≤ c.l.tickets then
          let a := decide (0 < r) && (c.l.abandoned.get? (r - 1)).isSome
          let s := s.modBlock c.w.block fun b => { b with tktAband := a }
          let s := if c.l.dqm then s else s.acquire c.key .device
          answer s (BitVec.ofNat 32 ((if a then 2 ^ 31 else 0) + r))
        else if c.l.dqm then .blockEnd (.ticket d.toNat) s
        else .block (.ticket d.toNat) s) s

/-! ## Queue directions (R225) -/

/-- A wave of the pair is Blocked on a queue. -/
def State.blockedOn (s : State) (key n : Nat) : Bool :=
  match s.waves.get? key with
  | none => false
  | some w => decide (w.blocked = some (.queue n))

/-- `qcfg` (R225). -/
def execQcfg (a : Reg) (g : Guard) (s : State) : Host.Outcome State Fault Refusal :=
  issue (controlForm g true [(a, 1)]) (fun c ops s =>
    let new : BitVec 4 := (opLane ops 0 c.src).setWidth 4
    let old := c.b.dirsOf c.w.index
    let busy (n : Nat) : Bool := decide (new.getLsbD n ≠ old.getLsbD n) &&
      (decide (c.b.queue c.w.index n ≠ []) || s.blockedOn c.partner n)
    let coming (n : Nat) : Bool := decide (new.getLsbD n ≠ old.getLsbD n) &&
      (s.stillPushes c.key n || s.stillPushes c.partner n)
    if !c.l.record.options.getLsbD 1 then .halt 0x20 0 0
    else if [0, 1, 2, 3].any busy then .halt 0x20 0 0
    else if [0, 1, 2, 3].any coming then .wait s
    else .done .plain (s.modBlock c.w.block fun b => { b with dirs := b.dirs.put 0b1100 c.w.index new })) s

end Sys2Proof.Machine
end

