-- ==== Sys2Proof/Machine/Copy.lean ====
section
/-! DEFINITION. The copy engine and its waits: copy jobs, batches, `wait.b`, `wait.c` (R163 to R170, R226 to R229). -/

namespace Sys2Proof.Machine

open Sys2Proof

/-! ## Descriptors (R163, R164) -/

/-- Word k of a descriptor. -/
def dw (desc : List Word) (k : Nat) : Nat := (desc.getD k 0).toNat

/-- Source and destination addresses of a descriptor. -/
def descSrc (desc : List Word) : DWord := pairOf (desc.getD 0 0) (desc.getD 1 0)

/-- The destination address. -/
def descDst (desc : List Word) : DWord := pairOf (desc.getD 2 0) (desc.getD 3 0)

/-- A signed word of a descriptor. -/
def descInt (desc : List Word) (k : Nat) : Int := (desc.getD k 0).toInt

/-- The limits of words 4 to 7 (R163). -/
def descOk (kind : JobKind) (desc : List Word) : Bool :=
  let w4 := dw desc 4
  let w5 := dw desc 5
  match kind with
  | .d1 => decide (4 ≤ w4) && decide (w4 ≤ 16777216) && decide (w4 % 4 = 0) && w5 == 0 && dw desc 6 == 0 && dw desc 7 == 0
  | .d2 => decide (4 ≤ w4) && decide (w4 ≤ 65536) && decide (w4 % 4 = 0) && decide (1 ≤ w5) && decide (w5 ≤ 65536) &&
      decide (dw desc 6 % 4 = 0) && decide (dw desc 7 % 4 = 0)
  | .g => decide (4 ≤ w4) && decide (w4 ≤ 4096) && decide (w4 % 4 = 0) && decide (1 ≤ w5) && decide (w5 ≤ 65536) &&
      decide (dw desc 6 % 4 = 0) && dw desc 7 == 0
  | .coll _ => true

/-- Rows of a two-dimensional job as a range: from the lowest to the highest byte of any row (R164). -/
def rowsRange (base : Nat) (stride : Int) (rows bytes : Nat) : Nat × Nat :=
  let span := stride * ((rows : Int) - 1)
  if 0 ≤ span then (base, span.toNat + bytes) else (((base : Int) + span).toNat, (-span).toNat + bytes)

/-- The footprints of a copy job: what it reads, and what it writes (R164). -/
def footprints (kind : JobKind) (desc : List Word) (src dst : Nat) : List (Nat × Nat) × List (Nat × Nat) :=
  let w4 := dw desc 4
  let w5 := dw desc 5
  match kind with
  | .d1 => ([(src, w4)], [(dst, w4)])
  | .d2 => ([rowsRange src (descInt desc 6) w5 w4], [rowsRange dst (descInt desc 7) w5 w4])
  | .g => ([(0xC * 2 ^ 60 + dw desc 6, 4 * w5), (src, 65536 * w4)], [(dst, w5 * w4)])
  | .coll _ => ([], [])

/-- Ranges of two lists meet. -/
def anyMeet (xs ys : List (Nat × Nat)) : Bool := xs.any fun x => ys.any fun y => rangesMeet x y

/-- Units that a job is moved in: 64 bytes, rows or elements (R167). -/
def jobUnits (kind : JobKind) (desc : List Word) : Nat :=
  match kind with
  | .d1 => (dw desc 4 + 63) / 64
  | .d2 => dw desc 5
  | .g => dw desc 5
  | .coll _ => 2

/-- Source, destination and bytes of a unit; `x` is the index a gather has read. -/
def jobUnit (kind : JobKind) (desc : List Word) (k x : Nat) : DWord × DWord × Nat :=
  match kind with
  | .d1 => (stepAddr (descSrc desc) (64 * k), stepAddr (descDst desc) (64 * k), min 64 (dw desc 4 - 64 * k))
  | .d2 => (stepAddr (descSrc desc) (descInt desc 6 * k), stepAddr (descDst desc) (descInt desc 7 * k), dw desc 4)
  | .g => (stepAddr (descSrc desc) (x * dw desc 4), stepAddr (descDst desc) (k * dw desc 4), dw desc 4)
  | .coll _ => (0, 0, 0)

/-! ## Jobs of a core -/

/-- Jobs that hold an engine slot (R168). -/
def Core.engaged (k : Core) : Nat := (k.jobs.filter fun j => !j.queued).length

/-- A job by its number. -/
def State.job (s : State) (core id : Nat) : Option Job := (s.core core).jobs.find? fun j => decide (j.id = id)

/-- Change a job. -/
def State.modJob (s : State) (core id : Nat) (f : Job → Job) : State :=
  s.modCore core fun k => { k with jobs := k.jobs.map fun j => if j.id = id then f j else j }

/-- Remove a job. -/
def State.dropJob (s : State) (core id : Nat) : State :=
  s.modCore core fun k => { k with jobs := k.jobs.filter fun j => decide (j.id ≠ id) }

/-- Outstanding stores and atomics of the block that overlap a job's footprints (R166). -/
def State.earlierStores (s : State) (b : Nat) (ranges : List (Nat × Nat)) : List (Nat × Nat) :=
  (s.wavesOf b).flatMap fun e => (e.2.outst.filter fun a =>
    a.store && a.parts.any fun p => ranges.any fun r => rangesMeet (p.ga, a.width) r).map fun a => (e.1, a.id)

/-- Those of them that go to peers: the tags of requests that write and await an answer (R161, R166). -/
def State.earlierAsks (s : State) (b : Nat) (ranges : List (Nat × Nat)) : List Nat :=
  (s.wavesOf b).flatMap fun e => (e.2.peerOut ++ e.2.remote).filter fun t => match s.remote.get? t with
    | some r => r.write && r.status.isNone && ranges.any fun x => rangesMeet (r.ga, r.size) x
    | none => false

/-- Those of tile operations that have not retired (R166, R359). -/
def State.earlierTiles (s : State) (c : Ctx) (ranges : List (Nat × Nat)) : List Nat :=
  ((s.core c.w.core).ops.filter fun o => decide (o.block = c.w.block) &&
    o.spans.any fun x => ranges.any fun r => rangesMeet (c.footprintAddr x.1, x.2) r).map (·.id)

/-- An earlier access of the block still holds a job (R166). -/
def State.jobHeld (s : State) (core : Nat) (j : Job) : Bool :=
  (j.waits.any fun x => match s.waves.get? x.1 with
    | some w => w.holding x.2
    | none => false) ||
  (j.waitTags.any fun t => match s.remote.get? t with
    | some r => r.status.isNone
    | none => false) ||
  j.waitOps.any fun i => (s.core core).ops.any fun o => decide (o.id = i)

/-- Give a job to the core's engine, or, in DQM, to the wave's commit share (R165, R168, R204). -/
def State.addJob (s : State) (c : Ctx) (kind : JobKind) (desc : List Word) (reads writes : List (Nat × Nat)) :
    Res :=
  if c.l.dqm && decide (1024 < c.w.shareUsed + 32) then .endFirst s
  else if !c.l.dqm && decide (64 ≤ (s.core c.w.core).engaged) then .wait s
  else
    let j : Job :=
      { id := s.seq, launch := c.b.launch, block := c.w.block, wave := c.key, kind := kind, desc := desc,
        batch := if c.w.batch = 2 ^ 32 - 1 then 1 else c.w.batch + 1, reads := reads, writes := writes,
        waits := s.earlierStores c.w.block (reads ++ writes), waitTags := s.earlierAsks c.w.block (reads ++ writes),
        waitOps := s.earlierTiles c (reads ++ writes), moved := 0, started := false, paused := false,
        pauseAddr := 0, sup := c.w.sup, tags := [], acks := [], vtime := 0, queued := c.l.dqm, seq := 0, got := [], segs := [],
        walking := [], walkOut := [] }
    let s := (s.modCore c.w.core fun k => { k with jobs := k.jobs ++ [j] }).nextSeq
    .done .plain (if c.l.dqm then s.buffer c.key [.job c.w.core j.id] 32 else s)

/-- An address of a descriptor passes the address-space and alignment checks, and is not in lane memory (R163, R226). -/
def State.descAddrOk (s : State) (c : Ctx) (a : DWord) : Bool :=
  s.spaceOk c a && decide (a.toNat % 4 = 0) && decide (spaceOf a ≠ 0xF)

/-- Issue a copy job (R226). -/
def issueCopy (kind : JobKind) (a : Reg) (g : Guard) (s : State) : Host.Outcome State Fault Refusal :=
  issue (⟨g, true, 1, [(a, 8)], [], false, false, id⟩) (fun c ops s =>
    let desc := (List.range 8).map fun k => laneOf (opRun ops 0 k) c.src
    let f := footprints kind desc (c.footprintAddr (descSrc desc)) (c.footprintAddr (descDst desc))
    if !descOk kind desc || !s.descAddrOk c (descSrc desc) || !s.descAddrOk c (descDst desc) || anyMeet f.1 f.2 then
      .halt 0x18 0 0
    else s.addJob c kind desc f.1 f.2) s

/-- `copy.1d` (R226). -/
def execCopy1d (a : Reg) (g : Guard) (s : State) : Host.Outcome State Fault Refusal := issueCopy .d1 a g s

/-- `copy.2d` (R226). -/
def execCopy2d (a : Reg) (g : Guard) (s : State) : Host.Outcome State Fault Refusal := issueCopy .d2 a g s

/-- `copy.g` (R226). -/
def execCopyG (a : Reg) (g : Guard) (s : State) : Host.Outcome State Fault Refusal := issueCopy .g a g s

/-! ## Batches and waits (R168, R227 to R229) -/

/-- `batch` (R227). -/
def execBatch (d : Reg) (g : Guard) (s : State) : Host.Outcome State Fault Refusal :=
  issue ⟨g, true, 1, [], [(d, 1)], false, false, id⟩ (fun c _ s =>
    let n := if c.w.batch = 2 ^ 32 - 1 then 1 else c.w.batch + 1
    .done .plain ((s.modWave c.key fun w => { w with batch := n }).writeReg c d.toNat fun _ => BitVec.ofNat 32 n)) s

/-- The deferred fault that a wait raises: of those due, the one whose operation was issued first (R228, R229). -/
def firstDeferred (due : Deferred → Bool) (ds : List Deferred) : Option Deferred :=
  (ds.filter due).foldl (fun best d => match best with
    | none => some d
    | some b => if d.ord < b.ord then some d else some b) none

/-- Raise a deferred fault precisely at the wave's present word (R228, R229); it is consumed. An error consumed in the
block's own memory leads to rollback, at a third consumption to cause 0x41 (R394). -/
def State.raiseDeferred (s : State) (key : Nat) (d : Deferred) (mask : Mask) : State :=
  let s := s.modWave key fun w => { w with deferred := w.deferred.filter fun x => decide (x ≠ d) }
  match (s.waves.get? key).bind fun w => (s.blocks.get? w.block).map fun b => (w.block, b) with
  | some (k, b) =>
    let own := b.snap.isSome && b.consumedBy d.cause d.addr d.detail
    if own && b.rolls then s.beginRollback key k
    else s.takeHaltAs (fun r => { r with job := d.job, batch := d.batch }) key (if own then 0x41 else d.cause) d.addr mask
      d.detail
  | none => s

/-- `wait.b` (R228). -/
def execWaitB (a : Reg) (g : Guard) (s : State) : Host.Outcome State Fault Refusal :=
  issue (controlForm g true [(a, 1)]) (fun c ops s =>
    let n := min (opLane ops 0 c.src).toNat c.w.batch
    let open_ := (s.core c.w.core).jobs.any fun j => decide (j.wave = c.key) && decide (j.batch ≤ n)
    if open_ then (if c.l.dqm then .endFirst s else .wait s)
    else match firstDeferred (fun d => d.job && decide (d.batch ≤ n)) c.w.deferred with
      | some d => .left (s.raiseDeferred c.key d c.t)
      | none => .done .plain s) s

/-- Tile operations of the wave that a `wait.c` of limit t requires: all but the last t issued (R229). -/
def Wave.required (w : Wave) (t n : Nat) : Bool := decide (n + t ≤ w.tiles)

/-- Stores of a wave that have not completed (R169): those with lanes outstanding here, and those with lanes at peers, each
counted once. -/
def State.storesOut (s : State) (w : Wave) : Nat :=
  (((w.outst.filter fun a => a.store).map fun a => a.id) ++
    w.peerOut.filterMap fun t => (s.remote.get? t).map fun r => r.acc).eraseDups.length

/-- Merge the flags of the required operations into their source lanes (R105). -/
def Wave.mergeFlags (w : Wave) (t : Nat) : Wave :=
  let due := w.mxflags.filter fun x => w.required t x.1
  { w with
    fpflags := (List.range 64).map fun i =>
      due.foldl (fun f x => if x.2.1 = i then f ||| x.2.2 else f) (w.fpflags.getD i 0)
    mxflags := w.mxflags.filter fun x => !w.required t x.1 }

/-- `wait.c` (R229). -/
def execWaitC (l st : BitVec 5) (t : BitVec 4) (g : Guard) (s : State) : Host.Outcome State Fault Refusal :=
  issue (controlForm g false []) (fun c _ s =>
    let loads := (c.w.outst.filter fun a => !a.store).length
    let stores := s.storesOut c.w
    let open_ := (s.core c.w.core).ops.any fun o => decide (o.wave = c.key) && c.w.required t.toNat o.seqNo
    if l.toNat < loads || st.toNat < stores || open_ then .wait s
    else
      let s := s.modWave c.key fun w => w.mergeFlags t.toNat
      match firstDeferred (fun d => !d.job && c.w.required t.toNat d.seq) c.w.deferred with
      | some d => .left (s.raiseDeferred c.key d c.t)
      | none => .done .plain s) s

/-! ## Running a job -/

/-- The launch, block and wave of a job, as a context for its checks. -/
def State.jobCtx (s : State) (j : Job) : Option Ctx :=
  match s.waves.get? j.wave, s.blocks.get? j.block, s.launches.get? j.launch with
  | some w, some b, some l => some ⟨j.wave, { w with sup := j.sup, walkOut := j.walkOut }, b, l, 0, 0, false⟩
  | _, _, _ => none

/-- What moving part of a job comes to (R167). -/
inductive Moved (α : Type) where
  | ok (x : α) (s : State)
  /-- it must wait: a peer's answer, or a cluster member that has not started -/
  | pending (s : State)
  /-- an absent page -/
  | pause (addr : DWord)
  | fault (cause : Nat) (addr : DWord)
  deriving Repr

/-- Check 4-byte words of a job in order, and find their targets; the job waits for the walk that a miss joins (R159). -/
def State.jobTargets (s : State) (core id : Nat) (c : Ctx) (p : Purpose) : List DWord → Moved (List Target)
  | [] => .ok [] s
  | a :: rest =>
    match State.check { s with later := false } c [(0, a)] 4 p (if p == .read then .home else .nothing) with
    | .ok [r] t =>
      match State.jobTargets { t with later := s.later } core id c p rest with
      | .ok xs s => .ok (r.tgt :: xs) s
      | .pending s => .pending s
      | .pause a => .pause a
      | .fault k a => .fault k a
    | .walk ks t => .pending (({ t with later := s.later } : State).modJob core id fun j => { j with walking := ks })
    | .fault k _ a => .fault k a
    | .park _ a => .pause a
    | _ => .pending s

/-- The 4-byte words from an address on. -/
def wordAddrs (a : DWord) (bytes : Nat) : List DWord := (List.range (bytes / 4)).map fun (i : Nat) => stepAddr a (4 * (i : Int))

/-- The answers to requests, by tag: none while one is awaited. -/
def State.answers (s : State) (tags : List Nat) : Option (List RemoteReq) :=
  let got := tags.filterMap fun t => s.remote.get? t
  if got.any fun r => r.status.isNone then none else some got

/-- Forget requests whose answers have served. -/
def State.forget (s : State) (tags : List Nat) : State :=
  { s with remote := s.remote.filter fun e => !tags.contains e.1 }

/-- Read words for a job: bytes of this device as they stand at their homes, bytes of peers by requests (R161, R167). -/
def State.jobRead (s : State) (core : Nat) (j : Job) (c : Ctx) (as : List DWord) : Moved (List Byte) :=
  match s.jobTargets core j.id c .read as with
  | .pending s => .pending s
  | .pause a => .pause a
  | .fault k a => .fault k a
  | .ok ts s =>
    let rs : List Reach := (as.zip ts).map fun x => ⟨0, x.1, x.2⟩
    if rs.any Reach.remote then
      if j.tags = [] then
        let x := s.askAll j.wave s.seq (askReads rs 4)
        .pending (x.2.modJob core j.id fun j => { j with tags := x.1 })
      else match s.answers j.tags with
        | none => .pending s
        | some got =>
          match got.find? fun r => decide (r.status ≠ some 0) with
          | some r => .fault 0x17 r.addr
          | none =>
            let bytes := (rs.foldl (fun (x : List Byte × List RemoteReq) r => match r.tgt with
              | .here l => (x.1 ++ s.readLoc s.rawByte l 4, x.2)
              | .peer _ _ => (x.1 ++ (match x.2 with | q :: _ => q.data.take 4 | [] => []), x.2.drop 1)) ([], got)).1
            .ok bytes ((s.forget j.tags).modJob core j.id fun j => { j with tags := [] })
    else .ok (ts.flatMap fun t => match t with
      | .here l => s.readLoc s.rawByte l 4
      | .peer _ _ => []) s

/-- The location that follows the first `n` bytes of another. -/
def Loc.after (l : Loc) (n : Nat) : Loc :=
  match l with
  | .mem a => .mem (a + n)
  | .scr b off => .scr b (off + n)

/-- The pieces of a job's write on this device: words that follow each other are one write, so that a line it covers is
written whole (R154). -/
def pieceUp : List (Target × List Byte) → List (Loc × List Byte)
  | [] => []
  | (.peer _ _, _) :: rest => pieceUp rest
  | (.here l, bs) :: rest =>
    match pieceUp rest with
    | (m, cs) :: more => if m = l.after bs.length then (l, bs ++ cs) :: more else (l, bs) :: (m, cs) :: more
    | [] => [(l, bs)]

/-- The completion time of a write of `n` bytes at a location: the latest of its lines' (R173). -/
def State.completionOf (s : State) (l : Loc) (n : Nat) : Nat :=
  match l with
  | .mem a => ((linesOf a n).map fun k => s.completion (if a < 2 ^ 48 then 64 * k else a)).foldl max s.now
  | .scr _ _ => s.now

/-- The homes note the completion time of a write of `n` bytes (R173). -/
def State.noteWrites (s : State) (l : Loc) (n v : Nat) : State :=
  match l with
  | .mem a => (linesOf a n).foldl (fun s k => s.noteWrite (if a < 2 ^ 48 then 64 * k else a) v) s
  | .scr _ _ => s

/-- What a write at a location hides from a DQM launch until it completes (R198). -/
def State.noteUnripeAt (s : State) (l : Loc) (n v : Nat) : State :=
  match l with
  | .mem a => s.noteUnripe none a n v
  | .scr _ _ => s

/-- Write the pieces of a job. -/
def State.jobPut (s : State) (core id : Nat) : List (Loc × List Byte) → State
  | [] => s
  | (l, bs) :: rest =>
    let v := s.completionOf l bs.length
    State.jobPut ((((s.noteUnripeAt l bs.length v).writeLoc none l bs).noteWrites l bs.length v).modJob core id fun j =>
      { j with vtime := max j.vtime v }) core id rest

/-- Cut bytes into words. -/
def wordsFrom : List Byte → List (List Byte)
  | a :: b :: c :: d :: rest => [a, b, c, d] :: wordsFrom rest
  | _ => []

/-- Write words for a job. -/
def State.jobWrite (s : State) (core : Nat) (j : Job) (c : Ctx) (as : List DWord) (bs : List Byte) : Moved Unit :=
  match s.jobTargets core j.id c .write as with
  | .pending s => .pending s
  | .pause a => .pause a
  | .fault k a => .fault k a
  | .ok ts s =>
    let xs := ts.zip (wordsFrom bs)
    let asks : List Ask := (as.zip xs).filterMap fun x => match x.2.1 with
      | .peer d pa => some ⟨0, x.1, d, 0x0012, writePayload pa x.2.2, x.2.2.length⟩
      | .here _ => none
    let y := s.askAll j.wave s.seq asks
    let s := if asks = [] then s else y.2.modJob core j.id fun j => { j with acks := j.acks ++ y.1 }
    .ok () (s.jobPut core j.id (pieceUp xs))

/-- The index that element k of a gather reads (R163). -/
def State.gatherIndex (s : State) (core : Nat) (c : Ctx) (j : Job) : Moved Nat :=
  let a : DWord := BitVec.ofNat 64 (0xC * 2 ^ 60 + (dw j.desc 6 + 4 * j.moved) % 2 ^ 60)
  match s.jobTargets core j.id c .read [a] with
  | .pending s => .pending s
  | .pause a => .pause a
  | .fault k a => .fault k a
  | .ok ts s =>
    let x := match ts with
      | .here l :: _ => leNat (s.readLoc s.rawByte l 4)
      | _ => 0
    if 65535 < x then .fault 0x18 a else .ok x s

/-- Move one unit of a copy job. DESIGN CHOICE: the destination of the whole unit is checked before its source is read, so
that where both would fault, or lie on absent pages, the destination's fault is met; no rule says which is met first (log
entry 59). -/
def State.copyUnit (s : State) (core : Nat) (j : Job) (c : Ctx) : Moved Unit :=
  match (if j.kind = .g then s.gatherIndex core c j else .ok 0 s) with
  | .pending s => .pending s
  | .pause a => .pause a
  | .fault k a => .fault k a
  | .ok x s =>
    let u := jobUnit j.kind j.desc j.moved x
    match s.jobTargets core j.id c .write (wordAddrs u.2.1 u.2.2) with
    | .pending s => .pending s
    | .pause a => .pause a
    | .fault k a => .fault k a
    | .ok _ s =>
      match s.jobRead core j c (wordAddrs u.1 u.2.2) with
      | .pending s => .pending s
      | .pause a => .pause a
      | .fault k a => .fault k a
      | .ok bs s => s.jobWrite core j c (wordAddrs u.2.1 u.2.2) bs

end Sys2Proof.Machine
end

