-- ==== Sys2Proof/Machine/Coll.lean ====
section
/-! DEFINITION. Collectives, and how jobs of the engine start, fault and complete (R165 to R167, R230, R306 to R309). -/

namespace Sys2Proof.Machine

open Sys2Proof

/-! ## Groups and descriptors (R230) -/

/-- The group a descriptor names, when the launch command has configured it. -/
def Launch.groupAt (l : Launch) (n : Nat) : Option Group :=
  if l.flags.getLsbD 3 then (l.groups[n]?).bind fun g => if g.valid then some g else none else none

/-- The rank of a device in a group (R295). -/
def Group.rankOf (g : Group) (dev : Nat) : Nat := (g.list.filter fun d => decide (d < dev)).length

/-- A collective whose elements are FP32. -/
def reducing : CollKind → Bool
  | .ar _ _ => true
  | .rs _ _ => true
  | .ag => false
  | .bc => false
  | .a2a => false

/-- The limits of R230 for a group of `n` devices. -/
def collOk (k : CollKind) (desc : List Word) (n : Nat) : Bool :=
  let b := dw desc 4
  decide (b % 4 = 0) && decide (4 ≤ b) && decide (b ≤ 16777216) && dw desc 7 == 0 &&
  (match k with
    | .bc => decide (dw desc 6 < n)
    | .ar _ _ => dw desc 6 == 0
    | .ag => dw desc 6 == 0
    | .rs _ _ => dw desc 6 == 0 && decide (b / 4 % n = 0)
    | .a2a => dw desc 6 == 0 && decide (b / 4 % n = 0))

/-- Bytes read and bytes written by a member (R230). -/
def collSizes (k : CollKind) (b n rank root : Nat) : Nat × Nat :=
  match k with
  | .ar _ _ => (b, b)
  | .rs _ _ => (b, b / n)
  | .ag => (b, n * b)
  | .bc => (if rank = root then b else 0, b)
  | .a2a => (b, b)

/-- A collective takes its number on its group when the device takes it from its core (R306). -/
def State.numberColl (s : State) (tag : Word) (group : Nat) : Nat × State :=
  let key := 16 * tag.toNat + group
  let n := s.colls.getD key 0 + 1
  (n, { s with colls := s.colls.set key n })

/-- `coll` (R230). -/
def execColl (k : CollKind) (a : Reg) (g : Guard) (s : State) : Host.Outcome State Fault Refusal :=
  closing g true (issue (⟨g, true, 1, [(a, 8)], [], false, false, id⟩) (fun c ops s =>
    let desc := (List.range 8).map fun i => laneOf (opRun ops 0 i) c.src
    let src := descSrc desc
    let dst := descDst desc
    let place (x : DWord) : Bool := s.descAddrOk c x && (spaceOf x == 0 || spaceOf x == 0xE)
    match (if dw desc 5 < 16 then c.l.groupAt (dw desc 5) else none) with
    | none => .halt 0x18 0 0
    | some grp =>
      let n := grp.list.length
      if !collOk k desc n || !place src || !place dst then .halt 0x18 0 0
      else
        let z := collSizes k (dw desc 4) n (grp.rankOf ownDev) (dw desc 6)
        let reads := if z.1 = 0 then [] else [(c.footprintAddr src, z.1)]
        match s.addJob c (.coll k) desc reads [(c.footprintAddr dst, z.2)] with
        | .done x s =>
          if c.l.dqm then .done x s
          else
            let y := s.numberColl c.l.tag (dw desc 5)
            .done x (y.2.modCore c.w.core fun q =>
              { q with jobs := q.jobs.map fun j => if j.id + 1 = s.seq then { j with seq := y.1 } else j })
        | r => r)) s

/-! ## Wire formats (R308, R309) -/

/-- Exponent bits, fraction bits and bytes of a wire type. -/
def wireShape : WireType → Fmt × Nat
  | .f32 => (fp32, 4)
  | .bf16 => (bf16, 2)

/-- The elements a member contributes: FP32 words as they stand, or rounded to BF16 at the source (R308). -/
def toWire (w : WireType) (bs : List Byte) : List Nat :=
  (wordsFrom bs).map fun x => match w with
    | .f32 => leNat x
    | .bf16 => (bf16.convert rneKeep (fp32.read (leNat x))).1

/-- Bytes of wire elements, as a transfer numbers them. -/
def wireBytes (w : WireType) (xs : List Nat) : List Byte := xs.flatMap fun x => natLe (wireShape w).2 x

/-- Cut a list into pieces of `n`. -/
def pieces {α : Type} (n : Nat) : Nat → List α → List (List α)
  | 0, _ => []
  | fuel + 1, xs => if xs = [] then [] else xs.take n :: pieces n fuel (xs.drop n)

/-- The exponent field of a wire value. -/
def wireExp (f : Fmt) (x : Nat) : Nat := x / 2 ^ f.fw % 2 ^ f.ew

/-- A group of values is packed (R309). -/
def packable (f : Fmt) (xs : List Nat) : Bool :=
  let e := xs.foldl (fun m x => max m (wireExp f x)) 0
  decide (xs.length = 16) && decide (e ≠ 2 ^ f.ew - 1) &&
    xs.all fun x => wireExp f x == 0 || decide (e - wireExp f x ≤ 14)

/-- One group of up to 16 values on the wire (R309). -/
def sendGroup (w : WireType) (xs : List Nat) : List Byte :=
  let f := (wireShape w).1
  if packable f xs then
    let e := xs.foldl (fun m x => max m (wireExp f x)) 0
    let code (x : Nat) : Nat := if wireExp f x = 0 then 15 else e - wireExp f x
    let nibbles := (List.range 8).map fun i =>
      (BitVec.ofNat 8 (code (xs.getD (2 * i) 0) + 16 * code (xs.getD (2 * i + 1) 0)) : Byte)
    [1, BitVec.ofNat 8 e] ++ nibbles ++ xs.flatMap fun x =>
      natLe ((wireShape w).2 - 1) (x / 2 ^ (f.ew + f.fw) * 2 ^ f.fw + x % 2 ^ f.fw)
  else (0 : Byte) :: xs.flatMap fun x => natLe (wireShape w).2 x

/-- Restore a packed group (R309). -/
def restoreGroup (w : WireType) (e : Nat) (codes rest : List Byte) : List Nat :=
  let f := (wireShape w).1
  (List.range 16).map fun i =>
    let c := (codes.getD (i / 2) 0).toNat / (if i % 2 = 1 then 16 else 1) % 16
    let v := leNat ((rest.drop (i * ((wireShape w).2 - 1))).take ((wireShape w).2 - 1))
    let ex := if c = 15 then 0 else e - c
    v / 2 ^ f.fw * 2 ^ (f.ew + f.fw) + ex * 2 ^ f.fw + v % 2 ^ f.fw

/-- The values of received groups, at most `left` of them (R309). -/
def readGroups (w : WireType) : Nat → Nat → List Byte → List Nat
  | 0, _, _ => []
  | fuel + 1, left, bs =>
    let k := (wireShape w).2
    let n := min 16 left
    match bs with
    | [] => []
    | m :: rest =>
      if m = 1 then
        match rest with
        | [] => []
        | e :: rest =>
          let size := 8 + 16 * (k - 1)
          if rest.length < size ∨ left < 16 then []
          else restoreGroup w e.toNat (rest.take 8) (rest.drop 8) ++ readGroups w fuel (left - 16) (rest.drop size)
      else if n = 0 ∨ rest.length < n * k then []
      else (pieces k n (rest.take (n * k))).map leNat ++ readGroups w fuel (left - n) (rest.drop (n * k))

/-- What is left of received bytes beyond the groups that `readGroups` reads. -/
def restGroups (w : WireType) : Nat → Nat → List Byte → List Byte
  | 0, _, bs => bs
  | fuel + 1, left, bs =>
    let k := (wireShape w).2
    let n := min 16 left
    match bs with
    | [] => []
    | m :: rest =>
      if m = 1 then
        match rest with
        | [] => bs
        | _ :: rest =>
          let size := 8 + 16 * (k - 1)
          if rest.length < size ∨ left < 16 then bs else restGroups w fuel (left - 16) (rest.drop size)
      else if n = 0 ∨ rest.length < n * k then bs
      else restGroups w fuel (left - n) (rest.drop (n * k))

/-! ## Contributions -/

/-- The wire type of a kind; kinds that move bytes unchanged have none. -/
def wireOfKind : CollKind → Option (WireType × CollOp)
  | .ar w o => some (w, o)
  | .rs w o => some (w, o)
  | .ag => none
  | .bc => none
  | .a2a => none

/-- Bytes of the transfer that each member sends to another. -/
def transferLen (k : CollKind) (b n : Nat) : Nat :=
  match k with
  | .ar .bf16 _ => b / 2
  | .rs .bf16 _ => b / 2
  | .ar .f32 _ => b
  | .rs .f32 _ => b
  | .ag => b
  | .bc => b
  | .a2a => b / n

/-- What a member sends to the member of rank `dest`: the transfer's bytes, from its source bytes. -/
def contribution (k : CollKind) (src : List Byte) (n dest : Nat) : List Byte :=
  match k with
  | .ar w _ => wireBytes w (toWire w src)
  | .rs w _ => wireBytes w (toWire w src)
  | .ag => src
  | .bc => src
  | .a2a => (src.drop (dest * (src.length / n))).take (src.length / n)

/-- The bytes of one message that carries part of a transfer. -/
def segmentBytes (k : CollKind) (part : List Byte) : List Byte :=
  match wireOfKind k with
  | none => part
  | some (w, _) => (pieces 16 (part.length + 1) ((pieces (wireShape w).2 (part.length + 1) part).map leNat)).flatMap
      (sendGroup w)

/-- Bytes of a segment that is not the last. -/
def segmentLen : Nat := 16384

/-- Cut a transfer into segments of 16,384 bytes; the last is shorter, and holds nothing where the transfer is a whole
number of segments, so that its length tells where the transfer ends. DESIGN CHOICE: R306 does not say where a transfer
is cut (log entry 60). -/
def segments : Nat → Nat → List Byte → List (Nat × List Byte)
  | 0, _, _ => []
  | fuel + 1, off, bs =>
    if bs.length < segmentLen then [(off, bs)]
    else (off, bs.take segmentLen) :: segments fuel (off + segmentLen) (bs.drop segmentLen)

/-- Send a segment of a transfer to a member (R306): its offset and its bytes. -/
def State.sendPart (s : State) (l : Launch) (j : Job) (k : CollKind) (dev : Nat) (x : Nat × List Byte) : State :=
  s.send 0x0030 (BitVec.ofNat 16 dev) 0
    ([BitVec.ofNat 8 (dw j.desc 5), (collBits k).extractLsb' 4 3 |>.setWidth 8,
      (collBits k).extractLsb' 0 4 |>.setWidth 8, 0] ++
      natLe 4 l.tag.toNat ++ natLe 4 j.seq ++ natLe 4 x.1 ++ pad16 (segmentBytes k x.2))

/-- Send a transfer to a member (R306). -/
def State.sendColl (s : State) (l : Launch) (j : Job) (k : CollKind) (dev : Nat) (bs : List Byte) : State :=
  (segments (bs.length + 1) 0 bs).foldl (fun s x => s.sendPart l j k dev x) s

/-- The other members of a group. -/
def Group.others (g : Group) : List Nat := g.list.filter fun d => decide (d ≠ ownDev)

/-- A member that contributes nothing tells the others its kind, fn and b: a message with no elements at offset b. DESIGN
CHOICE: R306 says that a pair that differs ends the job at each member, and not how a member with nothing to receive learns
of the other (log entry 60). -/
def State.announce (s : State) (l : Launch) (j : Job) (k : CollKind) (g : Group) : State :=
  g.others.foldl (fun s d => s.sendPart l j k d (dw j.desc 4, [])) s

/-- One step of the fold (R308). -/
def foldOp (w : WireType) (o : CollOp) (x y : Nat) : Nat :=
  let f := (wireShape w).1
  match o with
  | .add => (f.addF rneKeep (f.read x) (f.read y)).1
  | .max => (f.minmax true x y).1
  | .min => (f.minmax false x y).1

/-- The elements of `ar`: contributions folded in rank order (R307). -/
def foldRanks (w : WireType) (o : CollOp) : List (List Nat) → List Nat
  | [] => []
  | c :: cs => cs.foldl (fun acc y => (acc.zip y).map fun p => foldOp w o p.1 p.2) c

/-- A NaN result is the canonical NaN of the wire type (R308), in a group of one member too. -/
def wireNan (w : WireType) (x : Nat) : Nat := if ((wireShape w).1.read x).isNan then (wireShape w).1.nan else x

/-- The destination bytes of the member of a rank (R307, R308); `got` holds the transfers by rank. -/
def collResult (k : CollKind) (n rank : Nat) (got : KMap (List Byte)) : List Byte :=
  let part (i : Nat) : List Byte := got.getD i []
  match k with
  | .ag => (List.range n).flatMap part
  | .bc => got.vals.headD []
  | .a2a => (List.range n).flatMap part
  | .ar w o => widen w (folded w o)
  | .rs w o =>
    let xs := folded w o
    widen w ((xs.drop (rank * (xs.length / n))).take (xs.length / n))
where
  folded (w : WireType) (o : CollOp) : List Nat :=
    (foldRanks w o ((List.range n).map fun i =>
      (pieces (wireShape w).2 ((got.getD i []).length + 1) (got.getD i [])).map leNat)).map (wireNan w)
  widen (w : WireType) (xs : List Nat) : List Byte :=
    xs.flatMap fun x => natLe 4 (match w with | .f32 => x | .bf16 => x * 2 ^ 16)

/-! ## Receiving (R306) -/

/-- A job that a message is for. -/
def State.collJob (s : State) (m : CollMsg) : Option (Nat × Job × Launch) :=
  (s.cores.findSome? fun e => (e.2.jobs.find? fun j => match j.kind with
    | .coll _ => decide (dw j.desc 5 = m.group.toNat) && decide (BitVec.ofNat 32 j.seq = m.seq) && decide (j.seq ≠ 0) &&
        (match s.launches.get? j.launch with | some l => decide (l.tag = m.tag) | none => false)
    | _ => false).map fun j => (e.1, j)).bind fun x => (s.launches.get? x.2.launch).map fun l => (x.1, x.2, l)

/-- The bytes of a transfer of `len` bytes that the elements of a segment hold; none when they are not the bytes that
belong at its offset. -/
def segmentOf (k : CollKind) (len off : Nat) (elems : List Byte) : Option (List Byte) :=
  let want := min segmentLen (len - off)
  let got := match wireOfKind k with
    | none => (elems, [])
    | some (w, _) => (wireBytes w (readGroups w (elems.length + 1) (want / (wireShape w).2) elems),
        restGroups w (elems.length + 1) (want / (wireShape w).2) elems)
  if off ≤ len ∧ off % segmentLen = 0 ∧ got.1.length = want ∧ got.2 = [] then some got.1 else none

/-- A segment of the sender of a rank joins its contribution, which is complete once all its segments are here, in
whatever order they came. -/
def Job.joinSegment (j : Job) (len rank off : Nat) (bs : List Byte) : Job :=
  let segs := j.segs.set (rank * 2 ^ 32 + off) bs
  let parts := (List.range (len / segmentLen + 1)).map fun i => segs.get? (rank * 2 ^ 32 + i * segmentLen)
  { j with segs := segs,
           got := if parts.all Option.isSome then j.got.set rank (parts.flatMap fun p => p.getD []) else j.got }

/-- The engine ends a job with a fault: it is raised at a later word of its wave, or as its block retires (R167). -/
def State.failJob (s : State) (core : Nat) (j : Job) (cause : Nat) (addr : DWord) : State :=
  (s.dropJob core j.id).addDeferred j.wave ⟨0, j.id, cause, addr, 0, j.batch, true⟩

/-- What the segment of the sender of a rank comes to at a job: in a `bc` a member other than the root has no elements to
send and says so at offset b; none where the pair disagrees in kind, in fn, or in the bytes it transfers (R306). -/
def Job.heard (j : Job) (k : CollKind) (n rank : Nat) (m : CollMsg) : Option Job :=
  let len := transferLen k (dw j.desc 4) n
  if ((collBits k).extractLsb' 4 3).setWidth 8 ≠ m.kind ∨ ((collBits k).extractLsb' 0 4).setWidth 8 ≠ m.fn then none
  else if k = .bc ∧ rank ≠ dw j.desc 6 then
    if m.offset.toNat = dw j.desc 4 ∧ m.elems = [] then some { j with got := j.got.set rank [] } else none
  else (segmentOf k len m.offset.toNat m.elems).map fun bs => j.joinSegment len rank m.offset.toNat bs

/-- A segment of a collective arrives (R306): a pair that disagrees ends the job with a copy-descriptor fault; a member
that has sent nothing yet then tells the others what it was to do, so that each of them finds the difference. A segment
from a device outside the group, or of a collective that this device has ended, is for no job. -/
def State.takeSegment (s : State) (m : CollMsg) : State :=
  match s.collJob m with
  | none => if m.seq.toNat ≤ s.colls.getD (16 * m.tag.toNat + m.group.toNat) 0 then s else { s with early := s.early ++ [m] }
  | some (core, j, l) =>
    match j.kind, l.groupAt m.group.toNat with
    | .coll k, some g =>
      if !g.list.contains m.src.toNat then s
      else match j.heard k g.list.length (g.rankOf m.src.toNat) m with
        | some q => s.modJob core j.id fun _ => q
        | none => (if j.moved = 0 then s.announce l j k g else s).failJob core j 0x18 0
    | _, _ => s

/-- `COLLECTIVE_DATA` (R306); with every port down no message arrives (R400). -/
def execCollectiveData (msg : CollMsg) (s : State) : Host.Outcome State Fault Refusal :=
  .next (s.hear msg.src true fun s => s.takeSegment msg)

/-- Segments that arrived before their job. -/
def State.takeEarly (s : State) : State :=
  let waiting := s.early
  waiting.foldl (fun s m => s.takeSegment m) { s with early := [] }

/-! ## Running jobs -/

/-- The first step of a collective: the source is read, and its parts leave for the other members. -/
def State.contribute (s : State) (core : Nat) (j : Job) (c : Ctx) (k : CollKind) (g : Group) : Moved Unit :=
  let n := g.list.length
  let rank := g.rankOf ownDev
  let z := collSizes k (dw j.desc 4) n rank (dw j.desc 6)
  match s.jobRead core j c (wordAddrs (descSrc j.desc) z.1) with
  | .pending s => .pending s
  | .pause a => .pause a
  | .fault q a => .fault q a
  | .ok bs s =>
    if z.1 = 0 then .ok () (((s.announce c.l j k g).modJob core j.id fun j => { j with got := j.got.set rank [] }).takeEarly)
    else
      let s := g.others.foldl (fun s d => s.sendColl c.l j k d (contribution k bs n (g.rankOf d))) s
      .ok () ((s.modJob core j.id fun j => { j with got := j.got.set rank (contribution k bs n rank) }).takeEarly)

/-- The second step: once every contribution is here, the destination is written (R307). -/
def State.collect (s : State) (core : Nat) (j : Job) (c : Ctx) (k : CollKind) (g : Group) : Moved Unit :=
  let n := g.list.length
  let len := transferLen k (dw j.desc 4) n
  let need := if k = .bc then [dw j.desc 6] else List.range n
  if ((List.range n).all fun i => (j.got.get? i).isSome) && need.all fun i => decide ((j.got.getD i []).length = len) then
    let bs := collResult k n (g.rankOf ownDev) (j.got.filter fun e => need.contains e.1)
    s.jobWrite core j c (wordAddrs (descDst j.desc) bs.length) bs
  else .pending s

/-- Move one unit of a job (R165, R166): none while an earlier job of the core, or an earlier store of the block,
holds it. Jobs of one DQM launch that wait for the boundary are ordered by it, and by no edge (R278). -/
def State.moveUnit (s : State) (core : Nat) (j : Job) : Moved Unit :=
  match s.jobCtx j with
  | none => .pending s
  | some c =>
    let held := s.jobHeld core j
    let edge := ((s.core core).jobs.takeWhile fun k => decide (k.id ≠ j.id)).any fun k =>
      !(k.queued && c.l.dqm && decide (k.launch = j.launch)) && (anyMeet j.reads k.writes || anyMeet j.writes k.reads || anyMeet j.writes k.writes)
    if held || edge || j.queued || j.paused || decide (j.walking ≠ []) then .pending s
    else match j.kind with
      | .coll k =>
        match c.l.groupAt (dw j.desc 5) with
        | none => .fault 0x18 0
        | some g => if j.moved = 0 then s.contribute core j c k g else s.collect core j c k g
      | _ => s.copyUnit core j c

/-- A page of a job is absent: it pauses, and a record names the page (R167). -/
def State.pauseJob (s : State) (core : Nat) (j : Job) (addr : DWord) : State :=
  let s := s.modJob core j.id fun j => { j with paused := true, pauseAddr := addr, walkOut := [] }
  match s.jobCtx j with
  | none => s
  | some c => s.post { waveRec c.l j.wave c.w c.b 0x13 addr 0 0 with park := true, job := true, batch := j.batch,
                                                                     pc := 0, count := 0 }

/-- Move up to `n` units of a job; a fault ends it, an absent page pauses it (R167). The number tells how it ended: 0 as
asked, 1 waiting, 2 paused or ended by a fault. -/
def State.moveUnits : Nat → State → Nat → Nat → State × Nat
  | 0, s, _, _ => (s, 0)
  | n + 1, s, core, id =>
    match s.job core id with
    | none => (s, 1)
    | some j =>
      if jobUnits j.kind j.desc ≤ j.moved then (s, 0)
      else match s.moveUnit core j with
        | .pending s => (s, 1)
        | .pause a => (s.pauseJob core j a, 2)
        | .fault k a => (s.failJob core j k a, 2)
        | .ok _ s => State.moveUnits n (s.modJob core id fun j => { j with moved := j.moved + 1, started := true, walkOut := [] }) core id

/-- A job whose bytes have all completed at device scope is complete (R167). -/
def State.finishJob (s : State) (core id : Nat) : State :=
  match s.job core id with
  | none => s
  | some j =>
    if jobUnits j.kind j.desc ≤ j.moved then
      match s.answers j.acks with
      | none => s
      | some got =>
        match got.find? fun r => decide (r.status ≠ some 0) with
        | some r => (s.forget j.acks).failJob core j 0x17 r.addr
        | none =>
          if j.vtime ≤ s.now then (s.forget j.acks).dropJob core id else s
    else s

/-- Run a job as far as it goes. -/
def State.runJob (s : State) (core id : Nat) : State :=
  match s.job core id with
  | none => s
  | some j => ((s.moveUnits (jobUnits j.kind j.desc + 1) core id).1).finishJob core id

/-- `COPY_JOB_START` (R165); subject a: core, b: job, c: units moved now. -/
def execCopyJobStart (s : State) : Host.Outcome State Fault Refusal :=
  .next (s.moveUnits s.subj.c s.subj.a s.subj.b).1

/-- `COPY_JOB_FAULT` (R167); subject a: core, b: job. It comes about when the job's next units meet a fault. -/
def execCopyJobFault (s : State) : Host.Outcome State Fault Refusal :=
  match s.job s.subj.a s.subj.b with
  | none => .next s
  | some j =>
    let x := s.moveUnits (jobUnits j.kind j.desc + 1) s.subj.a s.subj.b
    if x.2 = 2 then .next x.1 else .next s

/-- `COPY_JOB_COMPLETION` (R167); subject a: core, b: job. -/
def execCopyJobCompletion (s : State) : Host.Outcome State Fault Refusal := .next (s.runJob s.subj.a s.subj.b)

end Sys2Proof.Machine
end

