-- ==== Sys2Proof/Machine/Acc.lean ====
section
/-! DEFINITION. The arithmetic of the matrix engine: exact values with infinities and NaN, accumulator units with their
checksum pairs and kinds, rows of products, tenure rows, residues (R109, R316, R322 to R332, R341 to R345). -/

namespace Sys2Proof.Machine

open Sys2Proof

/-! ## Exact values (R109, R313) -/

/-- An exact value, an infinity, or NaN. -/
inductive Ext where
  | nan
  | inf (neg : Bool)
  | fin (d : Dy)
  deriving DecidableEq, Repr

/-- An exact value, and whether an invalid form arose. -/
abbrev ExtF := Ext × Bool

/-- The value of a float pattern. -/
def FVal.ext : FVal → Ext
  | .nan _ => .nan
  | .inf s => .inf s
  | .fin s m e => .fin ⟨if s then -(m : Int) else (m : Int), e⟩

/-- The value of a float operand: a signalling NaN is invalid (R95). -/
def FVal.extF (x : FVal) : ExtF := (x.ext, x.isSnan)

/-- Exact product: 0 times infinity is invalid. -/
def Ext.mul (x y : Ext) : ExtF :=
  match x, y with
  | .nan, _ => (.nan, false)
  | _, .nan => (.nan, false)
  | .inf a, .inf b => (.inf (a != b), false)
  | .inf a, .fin d => if d.m = 0 then (.nan, true) else (.inf (a != decide (d.m < 0)), false)
  | .fin d, .inf a => if d.m = 0 then (.nan, true) else (.inf (a != decide (d.m < 0)), false)
  | .fin c, .fin d => (.fin (c.mul d), false)

/-- The opposite. -/
def Ext.neg : Ext → Ext
  | .nan => .nan
  | .inf s => .inf (!s)
  | .fin d => .fin d.neg

/-- The magnitude. -/
def Ext.abs : Ext → Ext
  | .nan => .nan
  | .inf _ => .inf false
  | .fin d => .fin d.abs

/-- The value is NaN. -/
def Ext.isNan : Ext → Bool
  | .nan => true
  | .inf _ => false
  | .fin _ => false

/-- The value is finite. -/
def Ext.isFin : Ext → Bool
  | .nan => false
  | .inf _ => false
  | .fin _ => true

/-- The value is the infinity of a sign. -/
def Ext.isInf (neg : Bool) : Ext → Bool
  | .nan => false
  | .inf s => s == neg
  | .fin _ => false

/-- The dyadic value of a finite one. -/
def Ext.dy : Ext → Dy
  | .nan => ⟨0, 0⟩
  | .inf _ => ⟨0, 0⟩
  | .fin d => d

/-- Exact product of operands. -/
def timesF (x y : ExtF) : ExtF := ((x.1.mul y.1).1, (x.1.mul y.1).2 || x.2 || y.2)

/-- Exact sum with the special cases of R109, in its order. -/
def sumExt (xs : List ExtF) : ExtF :=
  let nv := xs.any fun x => x.2
  if xs.any fun x => x.1.isNan then (.nan, nv)
  else
    let pos := xs.any fun x => x.1.isInf false
    let neg := xs.any fun x => x.1.isInf true
    if pos && neg then (.nan, true)
    else if pos then (.inf false, nv)
    else if neg then (.inf true, nv)
    else (.fin (xs.foldl (fun d x => d.add x.1.dy) ⟨0, 0⟩), nv)

/-- ROUND of an exact value to FP32; an exact zero is +0, or -0 under RDN (R89). -/
def roundExt (r : RCtx) (x : ExtF) : Nat × Flags :=
  let nv := flagIf x.2 flagNV
  match x.1 with
  | .nan => (fp32.nan, nv)
  | .inf s => (fp32.infOf s, nv)
  | .fin d =>
    let y := fp32.roundInt r d.m d.e (r.mode == .rdn)
    (y.1, y.2 ||| nv)

/-- Round up, nothing flushed. -/
def rupKeep : RCtx := ⟨.rup, 0, false⟩

/-- The value of an FP32 pattern. -/
def extOf (x : Nat) : Ext := (fp32.read x).ext

/-- An FP32 pattern as an operand. -/
def operandOf (x : Nat) : ExtF := (fp32.read x).extF

/-- Products of two lists of operands. -/
def dotTermsF (xs ys : List ExtF) : List ExtF := (xs.zip ys).map fun p => timesF p.1 p.2

/-- Products of two lists. -/
def dotTerms (xs ys : List Ext) : List ExtF := (xs.zip ys).map fun p => p.1.mul p.2

/-! ## Residues (R341 to R345) -/

/-- The moduli (R341). -/
def moduli : List Nat := [255, 253, 251, 247, 241, 239, 233, 229]

/-- The modulus of a channel. -/
def modulus (p : Nat) : Nat := moduli.getD p 229

/-- The balanced residue of an integer (R342). -/
def balanced (x : Int) (m : Nat) : Int :=
  let r := x % (m : Int)
  if r ≤ ((m : Int) - 1) / 2 then r else r - m

/-- A signed byte of an element. -/
def chan (e p : Nat) : Int := (BitVec.ofNat 8 (e / 256 ^ p)).toInt

/-- An element from its eight residues. -/
def joinChans (f : Nat → Int) : Nat :=
  (List.range 8).foldl (fun x p => x + (BitVec.ofInt 8 (f p)).toNat * 256 ^ p) 0

/-- Forward conversion; a failed channel holds 0 (R343, R347). -/
def forward (failed : Byte) (x : Int) : Nat :=
  joinChans fun p => if failed.getLsbD p then 0 else balanced x (modulus p)

/-- Reduce the bytes of an element to balanced form (R357). -/
def rebalance (e : Nat) : Nat := joinChans fun p => balanced (chan e p) (modulus p)

/-- The number below m that times a gives 1 modulo m. -/
def inverseMod (a m : Nat) : Nat := ((List.range m).find? fun x => decide (a * x % m = 1)).getD 0

/-- The integer of least magnitude with given residues for the channels listed. -/
def reconstruct (ps : List Nat) (e : Nat) : Int :=
  let m := ps.foldl (fun m p => m * modulus p) 1
  let x := ps.foldl (fun x p =>
    let q := m / modulus p
    x + chan e p * (q : Int) * (inverseMod (q % modulus p) (modulus p) : Int)) 0
  balanced x m

/-- L of R341. -/
def rangeL : Int := 115190410035772

/-- What reverse conversion gives (R345, R347, R367). -/
inductive Reversed where
  /-- value, KIND and CHAN -/
  | value (x : Int) (kind chan : Nat)
  /-- residue-mismatch: the disagreeing check channels and the candidates, as bits -/
  | mismatch (checks candidates : Nat)
  deriving DecidableEq, Repr

/-- The channels a byte marks. -/
def marked (b : Byte) : List Nat := (List.range 8).filter fun p => b.getLsbD p

/-- Channels as bits. -/
def chanBits (ps : List Nat) : Nat := ps.foldl (fun x p => x + 2 ^ p) 0

/-- Reverse conversion (R345), or with one failed channel (R347). -/
def reverse (failed : Byte) (e : Nat) : Reversed :=
  match marked failed with
  | [] =>
    let x := reconstruct [0, 1, 2, 3, 4, 5] e
    let bad := [6, 7].filter fun p => balanced x (modulus p) != chan e p
    if bad = [] then .value x 0 0
    else
      let ys := (List.range 8).map fun c => (c, reconstruct ((List.range 8).filter fun p => p != c) e)
      let cands := ys.filter fun y => decide (y.2.natAbs ≤ rangeL.natAbs)
      match cands with
      | [] => .value x 2 0
      | [y] => .value y.2 1 y.1
      | _ => .mismatch (chanBits bad) (chanBits (cands.map (·.1)))
  | [f] =>
    let work := if f < 6 then ((List.range 6).filter fun p => p != f) ++ [6] else List.range 6
    let check := if f = 7 then 6 else 7
    let x := reconstruct work e
    if balanced x (modulus check) = chan e check then .value x 0 0 else .mismatch (2 ^ check) 0
  | fs => .mismatch (chanBits fs) 0

/-! ## Accumulator memory of a block (R329 to R332, R351) -/

/-- Kinds of a unit: 0 empty, 1 float, 2 integer, 3 rns (R351, R386). -/
def kindEmpty : Nat := 0

/-- Units of an allocation: DEDUCED, it is taken in whole granules (R36, log entry 11). -/
def Block.accUnits (b : Block) : Nat := b.accGran * 64

/-- The kind of a unit. -/
def Block.kindAt (b : Block) (u : Nat) : Nat := b.kinds.getD u 0

/-- A byte of the allocation: an empty unit reads as zeros (R351). -/
def Block.accByte (b : Block) (off : Nat) : Byte := if b.kindAt (off / 256) = kindEmpty then 0 else b.acc.getD off 0

/-- A number of `n` bytes in the allocation. -/
def Block.accNat (b : Block) (off n : Nat) : Nat := leNat ((List.range n).map fun i => b.accByte (off + i))

/-- Write a number of `n` bytes in the allocation. -/
def Block.setAcc (b : Block) (off n x : Nat) : Block := { b with acc := putBytes b.acc off (natLe n x) }

/-- Write elements of `n` bytes from an offset on. -/
def Block.setAccs (b : Block) (off n : Nat) (xs : List Nat) : Block :=
  { b with acc := putBytes b.acc off (xs.flatMap fun x => natLe n x) }

/-- The 64 words of a unit. -/
def Block.unitWords (b : Block) (u : Nat) : List Nat := (List.range 64).map fun i => b.accNat (256 * u + 4 * i) 4

/-- The 32 elements of an rns unit. -/
def Block.unitElems (b : Block) (u : Nat) : List Nat := (List.range 32).map fun i => b.accNat (256 * u + 8 * i) 8

/-- The checksum pair of a unit (R330): (0, 0) for an empty one (R351). -/
def Block.pair (b : Block) (u : Nat) : DWord := if b.kindAt u = kindEmpty then 0 else b.sums.getD u 0

/-- Set a unit's pair and kind. -/
def Block.setSide (b : Block) (u : Nat) (p : DWord) (kind : Nat) : Block :=
  { b with sums := b.sums.put 0 u p, kinds := b.kinds.put 0 u kind }

/-- |c - sum| is at most 2^-16 m + t, over FP32 patterns; anything not finite passes (R316, R331). -/
def closeTo (xs : List Nat) (c m : Nat) (t : Dy) : Bool :=
  let es := xs.map extOf
  if es.all Ext.isFin && (extOf c).isFin && (extOf m).isFin then
    let d := (extOf c).dy.add (sumExt (es.map fun x => (x, false))).1.dy.neg
    d.abs.le (((extOf m).dy.mul ⟨1, -16⟩).add t)
  else true

/-- Channels in which an rns unit's sums disagree with its pair (R331). -/
def rnsWrong (es : List Nat) (p : DWord) : List Nat :=
  (List.range 8).filter fun c =>
    balanced (es.foldl (fun s e => s + chan e c) 0) (modulus c) != balanced (chan p.toNat c) (modulus c)

/-- A unit passes verification (R331): an rns unit when every byte agrees. -/
def Block.unitPasses (b : Block) (u : Nat) : Bool :=
  match b.kindAt u with
  | 1 => closeTo (b.unitWords u) ((b.pair u).extractLsb' 0 32).toNat ((b.pair u).extractLsb' 32 32).toNat ⟨1, -133⟩
  | 2 => decide (((b.pair u).extractLsb' 0 32).toNat = (b.unitWords u).foldl (· + ·) 0 % 2 ^ 32)
  | 3 => decide (rnsWrong (b.unitElems u) (b.pair u) = [])
  | _ => true

/-- A unit fails verification with a fault: an rns unit that does not pass in one channel alone raises nothing (R331). -/
def Block.unitFaults (b : Block) (u : Nat) : Bool :=
  if b.kindAt u = 3 then decide (2 ≤ (rnsWrong (b.unitElems u) (b.pair u)).length) else !b.unitPasses u

/-- Sums of FP32 patterns: c under RNE, m of the magnitudes under RUP (R332). -/
def sealOf (xs : List Nat) : Nat × Nat :=
  ((roundExt rneKeep (sumExt (xs.map fun x => (extOf x, false)))).1,
    (roundExt rupKeep (sumExt (xs.map fun x => ((extOf x).abs, false)))).1)

/-- Reseal a unit (R332). -/
def Block.reseal (b : Block) (u : Nat) : Block :=
  match b.kindAt u with
  | 1 =>
    let s := sealOf (b.unitWords u)
    { b with sums := b.sums.put 0 u (BitVec.ofNat 64 (s.1 + s.2 * 2 ^ 32)) }
  | 2 => { b with sums := b.sums.put 0 u (BitVec.ofNat 64 ((b.unitWords u).foldl (· + ·) 0 % 2 ^ 32)) }
  | 3 =>
    { b with sums := b.sums.put 0 u (BitVec.ofNat 64 (joinChans fun c =>
        balanced ((b.unitElems u).foldl (fun s e => s + chan e c) 0) (modulus c))) }
  | _ => b

/-- Reseal a unit that passes (R332, R364). -/
def Block.resealSound (b : Block) (u : Nat) : Block := if b.unitPasses u then b.reseal u else b

/-! ## Rows of products (R326, R330, R354) -/

/-- The operand that an element code of a float type stands for (R326); a b4 code carries its scale byte above bit 4. -/
def elemExt (t : MmaType) (x : Nat) : ExtF :=
  match t with
  | .bf16 => (bf16.readFlush true x).extF
  | .fp16 => (fp16.read x).extF
  | .e4m3 => (e4m3.read x).extF
  | .e5m2 => (e5m2.read x).extF
  | .b4 => (b4Value (x / 16) (x % 16)).extF
  | .i8 => (.nan, false)
  | .rns => (.nan, false)

/-- The kind that a type leaves its units in (R351). -/
def mmaKind : MmaType → Nat
  | .i8 => 2
  | .rns => 3
  | .bf16 => 1
  | .fp16 => 1
  | .e4m3 => 1
  | .e5m2 => 1
  | .b4 => 1

/-- Bytes of an accumulator element (R329). -/
def accElem : MmaType → Nat
  | .rns => 8
  | .bf16 => 4
  | .fp16 => 4
  | .e4m3 => 4
  | .e5m2 => 4
  | .i8 => 4
  | .b4 => 4

/-- An INT8 code. -/
def i8Of (x : Nat) : Int := (BitVec.ofNat 8 x).toInt

/-- Exact integer sum of products. -/
def dotInt (xs ys : List Int) : Int := (xs.zip ys).foldl (fun s p => s + p.1 * p.2) 0

/-- One chunk applied to one element (R354): the new element, and flags. -/
def cellStep (t : MmaType) (failed : Byte) (acc : Nat) (as bs : List Nat) : Nat × Flags :=
  match t with
  | .i8 => (((acc : Int) + dotInt (as.map i8Of) (bs.map i8Of)) % 2 ^ 32 |>.toNat, 0)
  | .rns => (joinChans fun p =>
      if failed.getLsbD p then chan acc p
      else balanced (chan acc p + dotInt (as.map fun x => chan x p) (bs.map fun x => chan x p)) (modulus p), 0)
  | t => roundExt rneKeep (sumExt (operandOf acc :: dotTermsF (as.map (elemExt t)) (bs.map (elemExt t))))

/-- One chunk applied to the pair of one unit (R330): `bs` holds the columns of the unit. -/
def pairStep (t : MmaType) (failed : Byte) (p : DWord) (as : List Nat) (bs : List (List Nat)) : DWord :=
  match t with
  | .i8 =>
    let sig := (List.range as.length).map fun k => bs.foldl (fun s col => s + i8Of (col.getD k 0)) 0
    BitVec.ofInt 64 ((((p.extractLsb' 0 32).toNat : Int) + dotInt (as.map i8Of) sig) % 2 ^ 32)
  | .rns => BitVec.ofNat 64 (joinChans fun c =>
      if failed.getLsbD c then chan p.toNat c
      else
        let sig := (List.range as.length).map fun k => bs.foldl (fun s col => s + chan (col.getD k 0) c) 0
        balanced (chan p.toNat c + dotInt (as.map fun x => chan x c) sig) (modulus c))
  | t =>
    let cols := bs.map fun col => col.map fun x => (elemExt t x).1
    let avals := as.map fun x => (elemExt t x).1
    let sig := (List.range as.length).map fun k => (sumExt (cols.map fun col => (col.getD k .nan, false))).1
    let tau := (List.range as.length).map fun k => (sumExt (cols.map fun col => ((col.getD k .nan).abs, false))).1
    let c := (roundExt rneKeep (sumExt ((extOf (p.extractLsb' 0 32).toNat, false) :: dotTerms avals sig))).1
    let prods := dotTerms (avals.map Ext.abs) tau
    let m := if prods.all fun x => x.1.isFin then
        (roundExt rupKeep (sumExt ((extOf (p.extractLsb' 32 32).toNat, false) :: prods))).1
      else fp32.infOf false
    BitVec.ofNat 64 (c + m * 2 ^ 32)

/-- Columns of a unit (R330). -/
def unitCols (t : MmaType) : Nat := if accElem t = 8 then 32 else 64

/-- A row of C, its pairs and the flags, after every chunk (R354). `as` holds the row's chunks, `bs` each chunk's
columns. -/
def rowSteps (t : MmaType) (failed : Byte) :
    List (List Nat) → List (List (List Nat)) → List Nat → List DWord → Flags → List Nat × List DWord × Flags
  | a :: as, b :: bs, row, ps, fl =>
    let cells := (row.zip b).map fun x => cellStep t failed x.1 a x.2
    let groups := pieces (unitCols t) (b.length + 1) b
    rowSteps t failed as bs (cells.map (·.1)) ((ps.zip groups).map fun x => pairStep t failed x.1 a x.2)
      (cells.foldl (fun f x => f ||| x.2) fl)
  | _, _, row, ps, fl => (row, ps, fl)

/-! ## Tenure rows (R313, R314, R316) -/

/-- d_k of a shape (R311). -/
def shapeK (s : BitVec 4) : Nat := 64 * ((s.extractLsb' 0 2).toNat + 1)

/-- d_v of a shape. -/
def shapeV (s : BitVec 4) : Nat := 64 * ((s.extractLsb' 2 2).toNat + 1)

/-- Granules of a tenure (R311). -/
def shapeGran (s : BitVec 4) : Nat := (16 * shapeV s * shapeK s + 65535) / 65536

/-- Row i of a tenure. -/
def Tenure.row (t : Tenure) (i : Nat) : List Nat :=
  (List.range (shapeK t.shape)).map fun j => (t.elems.getD (i * shapeK t.shape + j) 0).toNat

/-- A row passes verification (R316). -/
def Tenure.rowPasses (t : Tenure) (i : Nat) : Bool :=
  closeTo (t.row i) (t.csum.getD i 0).toNat (t.msum.getD i 0).toNat ⟨0, 0⟩

/-- The first row from `i` on that fails. -/
def Tenure.firstBad (t : Tenure) : Option Nat :=
  (List.range (shapeV t.shape)).find? fun i => !t.rowPasses i

/-- Write a row of elements. -/
def Tenure.setRow (t : Tenure) (i : Nat) (xs : List Nat) : Tenure :=
  let new := (xs.zipIdx).foldl (fun m x => m.put 0 (i * shapeK t.shape + x.2) (BitVec.ofNat 32 x.1)) t.elems
  { t with elems := new }

/-- Set the sums of a row. -/
def Tenure.setSums (t : Tenure) (i c m : Nat) : Tenure :=
  { t with csum := t.csum.put 0 i (BitVec.ofNat 32 c), msum := t.msum.put 0 i (BitVec.ofNat 32 m) }

/-- Reseal a row (R332). -/
def Tenure.resealRow (t : Tenure) (i : Nat) : Tenure := t.setSums i (sealOf (t.row i)).1 (sealOf (t.row i)).2

/-- `fwupd` on one row (R313): α, β, the row's v, the vector k. -/
def Tenure.updateRow (t : Tenure) (mode : Rnd) (seed : DWord) (alpha beta v : Nat) (k : List Nat) (i : Nat) :
    Tenure × Flags :=
  let ks := k.map operandOf
  let row := (t.row i).map operandOf
  let al := operandOf alpha
  let au := timesF al (sumExt (dotTermsF row ks))
  let e := roundExt rneKeep (timesF (operandOf beta) (sumExt [operandOf v, (au.1.neg, au.2)]))
  let ee := operandOf e.1
  let cells := ((row.zip ks).zipIdx).map fun x =>
    let r : RCtx := ⟨mode, drawBits (matrixCounter (t.handle.toNat % 2 ^ 15) i x.2 t.writes) seed, false⟩
    roundExt r (sumExt [timesF al x.1.1, timesF ee x.1.2])
  let sumK := sumExt ks
  let sumA := sumExt (ks.map fun x => (x.1.abs, false))
  let c := roundExt rneKeep (sumExt [al.1.mul (extOf (t.csum.getD i 0).toNat), ee.1.mul sumK.1])
  let m := roundExt rupKeep (sumExt [al.1.abs.mul (extOf (t.msum.getD i 0).toNat), ee.1.abs.mul sumA.1])
  ((t.setRow i (cells.map (·.1))).setSums i c.1 m.1, cells.foldl (fun f x => f ||| x.2) e.2)

/-- `fwupd` on a tenure. -/
def Tenure.update (t : Tenure) (mode : Rnd) (seed : DWord) (alpha beta : Nat) (v k : List Nat) : Tenure × Flags :=
  let x := (List.range (shapeV t.shape)).foldl (fun (x : Tenure × Flags) i =>
    let y := x.1.updateRow mode seed alpha beta (v.getD i 0) k i
    (y.1, x.2 ||| y.2)) (t, 0)
  ({ x.1 with writes := t.writes + 1 }, x.2)

/-- `fwrd` on a tenure (R314): the outputs by row, and flags. DESIGN CHOICE: FZ32 flushes nothing here, as R313 says of
`fwupd`; R314, which takes its special cases from R313, does not say (log entry 62). -/
def Tenure.readOut (t : Tenure) (q : List Nat) : List (Nat × Flags) :=
  (List.range (shapeV t.shape)).map fun i =>
    roundExt rneKeep (sumExt (dotTermsF ((t.row i).map operandOf) (q.map operandOf)))

/-- A tenure in the format of R319. -/
def Tenure.bytes (t : Tenure) : List Byte :=
  let bad := (List.range (shapeV t.shape)).filter fun i => !t.rowPasses i
  natLe 4 t.handle.toNat ++ natLe 2 (shapeV t.shape) ++ natLe 2 (shapeK t.shape) ++ natLe 8 t.writes ++
    natLe 4 bad.length ++ natLe 4 (bad.headD (2 ^ 32 - 1)) ++ natLe 40 0 ++
    ((List.range (shapeV t.shape)).flatMap fun i => (t.row i).flatMap (natLe 4)) ++
    ((List.range (shapeV t.shape)).flatMap fun i =>
      natLe 4 (t.csum.getD i 0).toNat ++ natLe 4 (t.msum.getD i 0).toNat)

/-- A tenure read back from the format of R319 (R320): failed when the record says so or a row fails again. -/
def Tenure.ofBytes (old : Tenure) (rd : Nat → Byte) (base : Nat) : Tenure :=
  let num (off n : Nat) : Nat := leNat (bytesFrom rd (base + off) n)
  let v := shapeV old.shape
  let k := shapeK old.shape
  let t := (List.range v).foldl (fun t i =>
    (t.setRow i ((List.range k).map fun j => num (0x40 + 4 * (i * k + j)) 4)).setSums i
      (num (0x40 + 4 * v * k + 8 * i) 4) (num (0x44 + 4 * v * k + 8 * i) 4)) ({ old with elems := [], csum := [], msum := [], writes := num 8 8 } : Tenure)
  { t with failed := decide (num 0x10 4 ≠ 0) || t.firstBad.isSome }

end Sys2Proof.Machine
end

