-- ==== Sys2Proof/Machine/Integer.lean ====
section
/-! DEFINITION. Integer, logical, address and move instructions (R75 to R83). -/

namespace Sys2Proof.Machine

open Sys2Proof

/-- A three-register form (R76). -/
def issueABC (d a b : Reg) (g : Guard) (u : Bool) (f : Word → Word → Word) (s : State) :
    Host.Outcome State Fault Refusal :=
  issueAlu g u 1 d [(a, 1), (b, 1)] (fun _ ops i => f (opLane ops 0 i) (opLane ops 1 i)) s

/-- An immediate form (R77), of one word or of a pair. -/
def issueImm (d a : Reg) (k : Word) (g : Guard) (u : Bool) (size : Nat) (f : Word → Word → Word) (s : State) :
    Host.Outcome State Fault Refusal :=
  issueAlu g u size d [(a, 1)] (fun _ ops i => f (opLane ops 0 i) k) s

/-- A two-address form that reads its destination (R78). -/
def issueDA (d a : Reg) (g : Guard) (u : Bool) (f : Word → Word → Word) (s : State) :
    Host.Outcome State Fault Refusal :=
  issueAlu g u 1 d [(d, 1), (a, 1)] (fun _ ops i => f (opLane ops 0 i) (opLane ops 1 i)) s

/-- A one-operand form (R81). -/
def issueUnary (d a : Reg) (g : Guard) (u : Bool) (f : Word → Word) (s : State) :
    Host.Outcome State Fault Refusal :=
  issueAlu g u 1 d [(a, 1)] (fun _ ops i => f (opLane ops 0 i)) s

/-- 1 or 0 (R76). -/
def boolWord (c : Bool) : Word := if c then 1 else 0

/-- Bits [63:32] of the signed product (R76). -/
def mulHigh (x y : Word) : Word := (x.signExtend 64 * y.signExtend 64).extractLsb' 32 32

/-- Bits [63:32] of the unsigned product (R76). -/
def mulHighU (x y : Word) : Word := (x.setWidth 64 * y.setWidth 64).extractLsb' 32 32

/-- `shl` (R76): the count is y[7:0], and 32 or more gives 0. -/
def shiftLeft (x y : Word) : Word := x <<< (y.toNat % 256)

/-- `shr` (R76). -/
def shiftRight (x y : Word) : Word := x >>> (y.toNat % 256)

/-- `sra` (R76): a count of 32 or more acts as 31. -/
def shiftArith (x y : Word) : Word := x.sshiftRight (min (y.toNat % 256) 31)

/-- The mask of a bit field (R79): position c[4:0], width c[13:8] held below 32 - p. -/
def fieldPos (c : Word) : Nat := c.toNat % 32

/-- The width a bit field uses (R79). -/
def fieldWidth (c : Word) : Nat := min (min (c.toNat / 256 % 64) 32) (32 - fieldPos c)

/-- `bfx` (R79). -/
def bitExtract (x c : Word) : Word := (x >>> fieldPos c) &&& BitVec.ofNat 32 (2 ^ fieldWidth c - 1)

/-- `bfi` (R79). -/
def bitInsert (x v c : Word) : Word :=
  let m : Word := BitVec.ofNat 32 (2 ^ fieldWidth c - 1) <<< fieldPos c
  (x &&& ~~~m) ||| ((v <<< fieldPos c) &&& m)

/-- Number of 1 bits (R81). -/
def popCount (x : Word) : Word := BitVec.ofNat 32 ((List.range 32).countP fun i => x.getLsbD i)

/-- Number of 0 bits above the highest 1 bit (R81). -/
def leadZeros (x : Word) : Word := BitVec.ofNat 32 (if x = 0 then 32 else 31 - Nat.log2 x.toNat)

/-- Number of 0 bits below the lowest 1 bit (R81). -/
def trailZeros (x : Word) : Word := BitVec.ofNat 32 (((List.range 32).find? fun i => x.getLsbD i).getD 32)

/-- Bit i moves to bit 31 - i (R81). -/
def bitReverse (x : Word) : Word :=
  (List.range 32).foldl (fun r i => if x.getLsbD i then r ||| ((1 : Word) <<< (31 - i)) else r) 0

/-- Byte i moves to byte 3 - i (R81). -/
def byteSwap (x : Word) : Word :=
  x.extractLsb' 0 8 ++ x.extractLsb' 8 8 ++ x.extractLsb' 16 8 ++ x.extractLsb' 24 8

/-- `add` (R76). -/
def execAdd (d a b : Reg) (g : Guard) (u : Bool) (s : State) : Host.Outcome State Fault Refusal :=
  issueABC d a b g u (· + ·) s

/-- `sub` (R76). -/
def execSub (d a b : Reg) (g : Guard) (u : Bool) (s : State) : Host.Outcome State Fault Refusal :=
  issueABC d a b g u (· - ·) s

/-- `mul` (R76). -/
def execMul (d a b : Reg) (g : Guard) (u : Bool) (s : State) : Host.Outcome State Fault Refusal :=
  issueABC d a b g u (· * ·) s

/-- `mulh` (R76). -/
def execMulh (d a b : Reg) (g : Guard) (u : Bool) (s : State) : Host.Outcome State Fault Refusal :=
  issueABC d a b g u mulHigh s

/-- `mulhu` (R76). -/
def execMulhu (d a b : Reg) (g : Guard) (u : Bool) (s : State) : Host.Outcome State Fault Refusal :=
  issueABC d a b g u mulHighU s

/-- `and` (R76). -/
def execAnd (d a b : Reg) (g : Guard) (u : Bool) (s : State) : Host.Outcome State Fault Refusal :=
  issueABC d a b g u (· &&& ·) s

/-- `or` (R76). -/
def execOr (d a b : Reg) (g : Guard) (u : Bool) (s : State) : Host.Outcome State Fault Refusal :=
  issueABC d a b g u (· ||| ·) s

/-- `xor` (R76). -/
def execXor (d a b : Reg) (g : Guard) (u : Bool) (s : State) : Host.Outcome State Fault Refusal :=
  issueABC d a b g u (· ^^^ ·) s

/-- `shl` (R76). -/
def execShl (d a b : Reg) (g : Guard) (u : Bool) (s : State) : Host.Outcome State Fault Refusal :=
  issueABC d a b g u shiftLeft s

/-- `shr` (R76). -/
def execShr (d a b : Reg) (g : Guard) (u : Bool) (s : State) : Host.Outcome State Fault Refusal :=
  issueABC d a b g u shiftRight s

/-- `sra` (R76). -/
def execSra (d a b : Reg) (g : Guard) (u : Bool) (s : State) : Host.Outcome State Fault Refusal :=
  issueABC d a b g u shiftArith s

/-- `seteq` (R76). -/
def execSeteq (d a b : Reg) (g : Guard) (u : Bool) (s : State) : Host.Outcome State Fault Refusal :=
  issueABC d a b g u (fun x y => boolWord (x == y)) s

/-- `setlt` (R76). -/
def execSetlt (d a b : Reg) (g : Guard) (u : Bool) (s : State) : Host.Outcome State Fault Refusal :=
  issueABC d a b g u (fun x y => boolWord (x.slt y)) s

/-- `setltu` (R76). -/
def execSetltu (d a b : Reg) (g : Guard) (u : Bool) (s : State) : Host.Outcome State Fault Refusal :=
  issueABC d a b g u (fun x y => boolWord (x.ult y)) s

/-- `sel` (R76). -/
def execSel (d a b : Reg) (g : Guard) (u : Bool) (s : State) : Host.Outcome State Fault Refusal :=
  issueAlu g u 1 d [(d, 1), (a, 1), (b, 1)]
    (fun _ ops i => if (opLane ops 0 i).getLsbD 0 then opLane ops 1 i else opLane ops 2 i) s

/-- `addi` (R77). -/
def execAddi (d a : Reg) (imm : BitVec 7) (g : Guard) (u : Bool) (s : State) : Host.Outcome State Fault Refusal :=
  issueImm d a (imm.signExtend 32) g u 1 (· + ·) s

/-- `addi` (R77, R53: the immediate of a literal pair). -/
def execAddiP (d a : Reg) (imm : BitVec 32) (g : Guard) (u : Bool) (s : State) : Host.Outcome State Fault Refusal :=
  issueImm d a imm g u 2 (· + ·) s

/-- `andi` (R77). -/
def execAndi (d a : Reg) (imm : BitVec 7) (g : Guard) (u : Bool) (s : State) : Host.Outcome State Fault Refusal :=
  issueImm d a (imm.signExtend 32) g u 1 (· &&& ·) s

/-- `andi` (R77, R53: the immediate of a literal pair). -/
def execAndiP (d a : Reg) (imm : BitVec 32) (g : Guard) (u : Bool) (s : State) : Host.Outcome State Fault Refusal :=
  issueImm d a imm g u 2 (· &&& ·) s

/-- `ori` (R77). -/
def execOri (d a : Reg) (imm : BitVec 7) (g : Guard) (u : Bool) (s : State) : Host.Outcome State Fault Refusal :=
  issueImm d a (imm.signExtend 32) g u 1 (· ||| ·) s

/-- `ori` (R77, R53: the immediate of a literal pair). -/
def execOriP (d a : Reg) (imm : BitVec 32) (g : Guard) (u : Bool) (s : State) : Host.Outcome State Fault Refusal :=
  issueImm d a imm g u 2 (· ||| ·) s

/-- `xori` (R77). -/
def execXori (d a : Reg) (imm : BitVec 7) (g : Guard) (u : Bool) (s : State) : Host.Outcome State Fault Refusal :=
  issueImm d a (imm.signExtend 32) g u 1 (· ^^^ ·) s

/-- `xori` (R77, R53: the immediate of a literal pair). -/
def execXoriP (d a : Reg) (imm : BitVec 32) (g : Guard) (u : Bool) (s : State) : Host.Outcome State Fault Refusal :=
  issueImm d a imm g u 2 (· ^^^ ·) s

/-- `shli` (R77). -/
def execShli (d a : Reg) (sh : BitVec 5) (g : Guard) (u : Bool) (s : State) : Host.Outcome State Fault Refusal :=
  issueImm d a (sh.setWidth 32) g u 1 (fun x k => x <<< k.toNat) s

/-- `shri` (R77). -/
def execShri (d a : Reg) (sh : BitVec 5) (g : Guard) (u : Bool) (s : State) : Host.Outcome State Fault Refusal :=
  issueImm d a (sh.setWidth 32) g u 1 (fun x k => x >>> k.toNat) s

/-- `srai` (R77). -/
def execSrai (d a : Reg) (sh : BitVec 5) (g : Guard) (u : Bool) (s : State) : Host.Outcome State Fault Refusal :=
  issueImm d a (sh.setWidth 32) g u 1 (fun x k => x.sshiftRight k.toNat) s

/-- `min` (R78). -/
def execMin (d a : Reg) (g : Guard) (u : Bool) (s : State) : Host.Outcome State Fault Refusal :=
  issueDA d a g u (fun x y => if x.sle y then x else y) s

/-- `max` (R78). -/
def execMax (d a : Reg) (g : Guard) (u : Bool) (s : State) : Host.Outcome State Fault Refusal :=
  issueDA d a g u (fun x y => if x.sle y then y else x) s

/-- `minu` (R78). -/
def execMinu (d a : Reg) (g : Guard) (u : Bool) (s : State) : Host.Outcome State Fault Refusal :=
  issueDA d a g u (fun x y => if x.ule y then x else y) s

/-- `maxu` (R78). -/
def execMaxu (d a : Reg) (g : Guard) (u : Bool) (s : State) : Host.Outcome State Fault Refusal :=
  issueDA d a g u (fun x y => if x.ule y then y else x) s

/-- `rol` (R78). -/
def execRol (d a : Reg) (g : Guard) (u : Bool) (s : State) : Host.Outcome State Fault Refusal :=
  issueDA d a g u (fun x y => x.rotateLeft (y.toNat % 32)) s

/-- `ror` (R78). -/
def execRor (d a : Reg) (g : Guard) (u : Bool) (s : State) : Host.Outcome State Fault Refusal :=
  issueDA d a g u (fun x y => x.rotateRight (y.toNat % 32)) s

/-- `add.d` (R80). -/
def execAddD (d a : Reg) (g : Guard) (u : Bool) (s : State) : Host.Outcome State Fault Refusal :=
  issueAluPair g u d [(d, 2), (a, 2)] (fun _ ops i => opPair ops 0 i + opPair ops 1 i) s

/-- `sub.d` (R80). -/
def execSubD (d a : Reg) (g : Guard) (u : Bool) (s : State) : Host.Outcome State Fault Refusal :=
  issueAluPair g u d [(d, 2), (a, 2)] (fun _ ops i => opPair ops 0 i - opPair ops 1 i) s

/-- `adda` (R80: the space nibble stays). -/
def execAdda (d a : Reg) (g : Guard) (u : Bool) (s : State) : Host.Outcome State Fault Refusal :=
  issueAluPair g u d [(d, 2), (a, 1)]
    (fun _ ops i => stepAddr (opPair ops 0 i) (opLane ops 1 i).toInt) s

/-- `bfx` (R79: d is both source and destination). -/
def execBfx (d a : Reg) (g : Guard) (u : Bool) (s : State) : Host.Outcome State Fault Refusal :=
  issueDA d a g u bitExtract s

/-- `bfi` (R79). -/
def execBfi (d a : Reg) (g : Guard) (u : Bool) (s : State) : Host.Outcome State Fault Refusal :=
  issueAlu g u 1 d [(d, 1), (a, 2)]
    (fun _ ops i => bitInsert (opLane ops 0 i) (laneOf (opRun ops 1 0) i) (laneOf (opRun ops 1 1) i)) s

/-- `popc` (R81). -/
def execPopc (d a : Reg) (g : Guard) (u : Bool) (s : State) : Host.Outcome State Fault Refusal :=
  issueUnary d a g u popCount s

/-- `clz` (R81). -/
def execClz (d a : Reg) (g : Guard) (u : Bool) (s : State) : Host.Outcome State Fault Refusal :=
  issueUnary d a g u leadZeros s

/-- `ctz` (R81). -/
def execCtz (d a : Reg) (g : Guard) (u : Bool) (s : State) : Host.Outcome State Fault Refusal :=
  issueUnary d a g u trailZeros s

/-- `brev` (R81). -/
def execBrev (d a : Reg) (g : Guard) (u : Bool) (s : State) : Host.Outcome State Fault Refusal :=
  issueUnary d a g u bitReverse s

/-- `bswap` (R81). -/
def execBswap (d a : Reg) (g : Guard) (u : Bool) (s : State) : Host.Outcome State Fault Refusal :=
  issueUnary d a g u byteSwap s

/-- `neg` (R81). -/
def execNeg (d a : Reg) (g : Guard) (u : Bool) (s : State) : Host.Outcome State Fault Refusal :=
  issueUnary d a g u (fun x => -x) s

/-- `not` (R81). -/
def execNot (d a : Reg) (g : Guard) (u : Bool) (s : State) : Host.Outcome State Fault Refusal :=
  issueUnary d a g u (fun x => ~~~x) s

/-- `abs` (R81). -/
def execAbs (d a : Reg) (g : Guard) (u : Bool) (s : State) : Host.Outcome State Fault Refusal :=
  issueUnary d a g u (fun x => if x.msb then -x else x) s

/-- `sext.b` (R81). -/
def execSextB (d a : Reg) (g : Guard) (u : Bool) (s : State) : Host.Outcome State Fault Refusal :=
  issueUnary d a g u (fun x => (x.setWidth 8).signExtend 32) s

/-- `sext.h` (R81). -/
def execSextH (d a : Reg) (g : Guard) (u : Bool) (s : State) : Host.Outcome State Fault Refusal :=
  issueUnary d a g u (fun x => (x.setWidth 16).signExtend 32) s

/-- `movi` (R82). -/
def execMovi (d : Reg) (imm : BitVec 14) (g : Guard) (u : Bool) (s : State) : Host.Outcome State Fault Refusal :=
  issueAlu g u 1 d [] (fun _ _ _ => imm.signExtend 32) s

/-- `movi` (R82, R16: a literal pair). -/
def execMoviP (d : Reg) (imm : BitVec 32) (g : Guard) (u : Bool) (s : State) : Host.Outcome State Fault Refusal :=
  issueAlu g u 2 d [] (fun _ _ _ => imm) s

/-- `mov` (R83). -/
def execMov (d a : Reg) (g : Guard) (u : Bool) (s : State) : Host.Outcome State Fault Refusal :=
  issueUnary d a g u (fun x => x) s

/-- `mov.d` (R83). -/
def execMovD (d a : Reg) (g : Guard) (u : Bool) (s : State) : Host.Outcome State Fault Refusal :=
  issueAluPair g u d [(a, 2)] (fun _ ops i => opPair ops 0 i) s

end Sys2Proof.Machine
end

