-- ==== Sys2Proof/Machine/Float.lean ====
section
/-! DEFINITION. Floating-point, conversion and packing instructions (R117 to R134). -/

namespace Sys2Proof.Machine

open Sys2Proof

/-- The mode `%fpmode`.RM names (R103). -/
def modeOf (fpmode : Word) : Rnd :=
  match fpmode.toNat % 8 with
  | 2 => .rtz
  | 3 => .rup
  | 4 => .rdn
  | 5 => .sr
  | _ => .rne

/-- A rounding field: `mode` takes `%fpmode`.RM (R66, R117). -/
def pickMode (fpmode : Word) (r : Rnd) : Rnd :=
  match r with
  | .mode => modeOf fpmode
  | .rne => .rne
  | .rtz => .rtz
  | .rup => .rup
  | .rdn => .rdn
  | .sr => .sr

/-- FZ32 (R103). -/
def Ctx.fz32 (c : Ctx) : Bool := c.w.fpmode.getLsbD 3
/-- FZ16 (R103). -/
def Ctx.fz16 (c : Ctx) : Bool := c.w.fpmode.getLsbD 4

/-- The bits stochastic rounding draws for an element of a lane (R101, R107, R117). -/
def Ctx.draw (c : Ctx) (e lane : Nat) : Nat := drawBits (vectorCounter c.w.retired e lane) c.w.seed

/-- The rounding of an FP32 arithmetic form in a lane. -/
def Ctx.round32 (c : Ctx) (lane : Nat) : RCtx := ⟨modeOf c.w.fpmode, c.draw 0 lane, c.fz32⟩

/-- A pattern and flags as a register and flags. -/
def asWord (x : Nat × Flags) : Word × Flags := (BitVec.ofNat 32 x.1, x.2)

/-- An FP32 operand with its flush (R102, R117). -/
def Ctx.f32 (c : Ctx) (x : Word) : FVal := fp32.readFlush c.fz32 x.toNat

/-- A scalar form over two operands (R119, R120). -/
def issueF2 (d a b : Reg) (g : Guard) (u : Bool) (f : Ctx → Nat → Word → Word → Word × Flags) (s : State) :
    Host.Outcome State Fault Refusal :=
  issueFloat g u d [(a, 1), (b, 1)] (fun c ops i => f c i (opLane ops 0 i) (opLane ops 1 i)) s

/-- A form over one operand (R121, R128). -/
def issueF1 (d a : Reg) (g : Guard) (u : Bool) (f : Ctx → Nat → Word → Word × Flags) (s : State) :
    Host.Outcome State Fault Refusal :=
  issueFloat g u d [(a, 1)] (fun c ops i => f c i (opLane ops 0 i)) s

/-- A form over the old destination and one operand (R127, R131). -/
def issueFda (d a : Reg) (g : Guard) (u : Bool) (f : Ctx → Nat → Word → Word → Word × Flags) (s : State) :
    Host.Outcome State Fault Refusal :=
  issueFloat g u d [(d, 1), (a, 1)] (fun c ops i => f c i (opLane ops 0 i) (opLane ops 1 i)) s

/-- A form over the old destination and two operands (R119, R126). -/
def issueF3 (d a b : Reg) (g : Guard) (u : Bool) (f : Ctx → Nat → Word → Word → Word → Word × Flags) (s : State) :
    Host.Outcome State Fault Refusal :=
  issueFloat g u d [(d, 1), (a, 1), (b, 1)]
    (fun c ops i => f c i (opLane ops 0 i) (opLane ops 1 i) (opLane ops 2 i)) s

/-- `min.f32` and `max.f32` (R119). -/
def minmax32 (max : Bool) (c : Ctx) (x y : Word) : Word × Flags :=
  asWord (fp32.minmax max (fp32.flushIn c.fz32 x.toNat) (fp32.flushIn c.fz32 y.toNat))

/-- A compare (R120): NV only for a signalling NaN. -/
def compare32 (c : Ctx) (x y : Word) (p : FVal → FVal → Bool) : Word × Flags :=
  (boolWord (p (c.f32 x) (c.f32 y)), flagIf ((c.f32 x).isSnan || (c.f32 y).isSnan) flagNV)

/-- 1 / x (R122, R123). -/
def rcpF (x : FVal) : Nat × Flags :=
  match x with
  | .nan s => fp32.nanOut s
  | .inf s => (fp32.zero s, 0)
  | .fin s m e =>
    if m = 0 then (fp32.infOf s, flagDZ)
    else let r := rcpMag m e; fp32.round .rne false 0 s r.1 r.2.1 r.2.2

/-- 1 / sqrt x (R122, R123). -/
def rsqrtF (x : FVal) : Nat × Flags :=
  match x with
  | .nan s => fp32.nanOut s
  | .inf s => if s then fp32.nanOut true else (0, 0)
  | .fin s m e =>
    if m = 0 then (fp32.infOf s, flagDZ)
    else if s then fp32.nanOut true
    else let r := rsqrtMag m e; fp32.round .rne false 0 false r.1 r.2.1 r.2.2

/-- sqrt x (R122, R123). -/
def sqrtF (r : RCtx) (x : FVal) : Nat × Flags :=
  match x with
  | .nan s => fp32.nanOut s
  | .inf s => if s then fp32.nanOut true else (fp32.infOf false, 0)
  | .fin s m e =>
    if m = 0 then (fp32.zero s, 0)
    else if s then fp32.nanOut true
    else let q := sqrtMag m e; fp32.round r.mode r.flush r.u false q.1 q.2.1 q.2.2

/-- Round to an integral value (R124); `quiet` forms raise no NX. -/
def integralF (mode : Rnd) (u : Nat) (quiet : Bool) (x : FVal) : Nat × Flags :=
  match x with
  | .nan s => fp32.nanOut s
  | .inf s => (fp32.infOf s, 0)
  | .fin s m e =>
    let r := roundToInt mode u s m e
    ((fp32.roundInt rneKeep (if s then -(r.1 : Int) else (r.1 : Int)) 0 s).1, flagIf (r.2 && !quiet) flagNX)

/-- The class mask (R125). -/
def classF (x : Word) : Word :=
  match fp32.read x.toNat with
  | .nan s => if s then 1 else 2
  | .inf s => if s then 4 else 512
  | .fin s m _ =>
    if m = 0 then (if s then 32 else 64)
    else if fp32.subnormal x.toNat then (if s then 16 else 128)
    else if s then 8 else 256

/-- Element `e` of a packed register (R117). -/
def half (x : Word) (e : Nat) : Nat := x.toNat / 65536 ^ e % 65536

/-- Two elements as a register, with the OR of their flags (R117). -/
def joinHalves (lo hi : Nat × Flags) : Word × Flags := (BitVec.ofNat 32 (hi.1 * 65536 + lo.1), lo.2 ||| hi.2)

/-- The rounding of an element of a packed form: BF16 always flushes, FP16 under FZ16 (R126). -/
def Ctx.round16 (c : Ctx) (bf : Bool) (e lane : Nat) : RCtx :=
  ⟨modeOf c.w.fpmode, c.draw e lane, bf || c.fz16⟩

/-- A packed two-operand form (R126). -/
def packed2 (bf : Bool) (f : Fmt → RCtx → FVal → FVal → Nat × Flags) (c : Ctx) (i : Nat) (x y : Word) :
    Word × Flags :=
  let fmt := if bf then bf16 else fp16
  let go := fun e =>
    let r := c.round16 bf e i
    f fmt r (fmt.readFlush r.flush (half x e)) (fmt.readFlush r.flush (half y e))
  joinHalves (go 0) (go 1)

/-- A packed fused form (R126). -/
def packedFma (bf : Bool) (c : Ctx) (i : Nat) (z x y : Word) : Word × Flags :=
  let fmt := if bf then bf16 else fp16
  let go := fun e =>
    let r := c.round16 bf e i
    let rd := fun v => fmt.readFlush r.flush (half v e)
    fmt.fma r (rd x) (rd y) (rd z)
  joinHalves (go 0) (go 1)

/-- A packed minimum or maximum (R127): nothing is flushed. -/
def packedMinmax (fmt : Fmt) (max : Bool) (x y : Word) : Word × Flags :=
  joinHalves (fmt.minmax max (half x 0) (half y 0)) (fmt.minmax max (half x 1) (half y 1))

/-- The rounding of a conversion (R66, R117): nothing is flushed. -/
def Ctx.roundCvt (c : Ctx) (r : Rnd) (lane : Nat) : RCtx := ⟨pickMode c.w.fpmode r, c.draw 0 lane, false⟩

/-- An integer as a register with flags. -/
def intWord (x : Int × Flags) : Word × Flags := (BitVec.ofInt 32 x.1, x.2)

/-- R128 to R130. -/
def convert (k : CvtKind) (r : RCtx) (x : Word) : Word × Flags :=
  match k with
  | .f32i32 => asWord (intToF32 r x.toInt)
  | .i32f32 => intWord (toIntRange r.mode r.u (-2 ^ 31) (2 ^ 31 - 1) (fp32.read x.toNat))
  | .f32n32 => asWord (intToF32 r (x.toNat : Int))
  | .n32f32 => intWord (toIntRange r.mode r.u 0 (2 ^ 32 - 1) (fp32.read x.toNat))
  | .bf16f32 => asWord (bf16.convert r (fp32.read x.toNat))
  | .f16f32 => asWord (fp16.convert r (fp32.read x.toNat))
  | .e4m3f32 => asWord (e4m3.convert r (fp32.read x.toNat))
  | .e5m2f32 => asWord (e5m2.convert r (fp32.read x.toNat))
  | .f32bf16 => asWord (fp32.convert rneKeep (bf16.read (x.toNat % 65536)))
  | .f32f16 => asWord (fp32.convert rneKeep (fp16.read (x.toNat % 65536)))
  | .f32e4m3 => asWord (fp32.convert rneKeep (e4m3.read (x.toNat % 256)))
  | .f32e5m2 => asWord (fp32.convert rneKeep (e5m2.read (x.toNat % 256)))
  | .i8i32 => intWord (sat (-128) 127 x.toInt)
  | .i16i32 => intWord (sat (-32768) 32767 x.toInt)

/-- R131. -/
def packElem (k : PackKind) (r : RCtx) (old x : Word) : Word × Flags :=
  let e := match k with
    | .bf16 => bf16.convert r (fp32.read x.toNat)
    | .f16 => fp16.convert r (fp32.read x.toNat)
    | .e4m3 => e4m3.convert r (fp32.read x.toNat)
    | .e5m2 => e5m2.convert r (fp32.read x.toNat)
    | .i8 => let v := sat (-128) 127 x.toInt; ((BitVec.ofInt 8 v.1).toNat, v.2)
  let wide := match k with
    | .bf16 => true
    | .f16 => true
    | .e4m3 => false
    | .e5m2 => false
    | .i8 => false
  (if wide then BitVec.ofNat 32 (e.1 * 65536 + old.toNat / 65536)
   else BitVec.ofNat 32 (e.1 * 16777216 + old.toNat / 256), e.2)

/-- R132; `sc` is the scale byte's register, for b4. -/
def unpackElem (k : UnpackKind) (e : Nat) (x sc : Word) : Word × Flags :=
  match k with
  | .bf16 => asWord (fp32.convert rneKeep (bf16.read (half x e)))
  | .f16 => asWord (fp32.convert rneKeep (fp16.read (half x e)))
  | .e4m3 => asWord (fp32.convert rneKeep (e4m3.read (x.toNat / 256 ^ e % 256)))
  | .e5m2 => asWord (fp32.convert rneKeep (e5m2.read (x.toNat / 256 ^ e % 256)))
  | .i8 => ((BitVec.ofNat 8 (x.toNat / 256 ^ e)).signExtend 32, 0)
  | .b4 => (BitVec.ofNat 32 (b4F32 (sc.toNat % 256) (x.toNat / 16 ^ e % 16)), 0)

/-- Replace nibble `e` of a register. -/
def setNibble (x : Word) (e v : Nat) : Word :=
  (x &&& ~~~((0xF : Word) <<< (4 * e))) ||| ((BitVec.ofNat 32 v) <<< (4 * e))

/-- `add.f32` (R119). -/
def execAddF32 (d a b : Reg) (g : Guard) (u : Bool) (s : State) : Host.Outcome State Fault Refusal :=
  issueF2 d a b g u (fun c i x y => asWord (fp32.addF (c.round32 i) (c.f32 x) (c.f32 y))) s

/-- `sub.f32` (R119). -/
def execSubF32 (d a b : Reg) (g : Guard) (u : Bool) (s : State) : Host.Outcome State Fault Refusal :=
  issueF2 d a b g u (fun c i x y => asWord (fp32.addF (c.round32 i) (c.f32 x) (c.f32 y).negate)) s

/-- `mul.f32` (R119). -/
def execMulF32 (d a b : Reg) (g : Guard) (u : Bool) (s : State) : Host.Outcome State Fault Refusal :=
  issueF2 d a b g u (fun c i x y => asWord (fp32.mulF (c.round32 i) (c.f32 x) (c.f32 y))) s

/-- `min.f32` (R119). -/
def execMinF32 (d a b : Reg) (g : Guard) (u : Bool) (s : State) : Host.Outcome State Fault Refusal :=
  issueF2 d a b g u (fun c _ x y => minmax32 false c x y) s

/-- `max.f32` (R119). -/
def execMaxF32 (d a b : Reg) (g : Guard) (u : Bool) (s : State) : Host.Outcome State Fault Refusal :=
  issueF2 d a b g u (fun c _ x y => minmax32 true c x y) s

/-- `fma.f32` (R119). -/
def execFmaF32 (d a b : Reg) (g : Guard) (u : Bool) (s : State) : Host.Outcome State Fault Refusal :=
  issueF3 d a b g u (fun c i z x y => asWord (fp32.fma (c.round32 i) (c.f32 x) (c.f32 y) (c.f32 z))) s

/-- `seteq.f32` (R120). -/
def execSeteqF32 (d a b : Reg) (g : Guard) (u : Bool) (s : State) : Host.Outcome State Fault Refusal :=
  issueF2 d a b g u (fun c _ x y => compare32 c x y FVal.eq) s

/-- `setlt.f32` (R120). -/
def execSetltF32 (d a b : Reg) (g : Guard) (u : Bool) (s : State) : Host.Outcome State Fault Refusal :=
  issueF2 d a b g u (fun c _ x y => compare32 c x y FVal.lt) s

/-- `setle.f32` (R120). -/
def execSetleF32 (d a b : Reg) (g : Guard) (u : Bool) (s : State) : Host.Outcome State Fault Refusal :=
  issueF2 d a b g u (fun c _ x y => compare32 c x y (fun p q => p.lt q || p.eq q)) s

/-- `setun.f32` (R120). -/
def execSetunF32 (d a b : Reg) (g : Guard) (u : Bool) (s : State) : Host.Outcome State Fault Refusal :=
  issueF2 d a b g u (fun c _ x y => compare32 c x y (fun p q => p.isNan || q.isNan)) s

/-- `rcp.f32` (R122). -/
def execRcpF32 (d a : Reg) (g : Guard) (u : Bool) (s : State) : Host.Outcome State Fault Refusal :=
  issueF1 d a g u (fun _ _ x => asWord (rcpF (fp32.read x.toNat))) s

/-- `rsqrt.f32` (R122). -/
def execRsqrtF32 (d a : Reg) (g : Guard) (u : Bool) (s : State) : Host.Outcome State Fault Refusal :=
  issueF1 d a g u (fun _ _ x => asWord (rsqrtF (fp32.read x.toNat))) s

/-- `sqrt.f32` (R121). -/
def execSqrtF32 (d a : Reg) (g : Guard) (u : Bool) (s : State) : Host.Outcome State Fault Refusal :=
  issueF1 d a g u (fun c i x => asWord (sqrtF (c.round32 i) (c.f32 x))) s

/-- `exp2.f32` (R122). -/
def execExp2F32 (d a : Reg) (g : Guard) (u : Bool) (s : State) : Host.Outcome State Fault Refusal :=
  issueF1 d a g u (fun _ _ x => asWord (exp2F (fp32.read x.toNat))) s

/-- `log2.f32` (R122). -/
def execLog2F32 (d a : Reg) (g : Guard) (u : Bool) (s : State) : Host.Outcome State Fault Refusal :=
  issueF1 d a g u (fun _ _ x => asWord (log2F (fp32.read x.toNat))) s

/-- `sin.f32` (R122). -/
def execSinF32 (d a : Reg) (g : Guard) (u : Bool) (s : State) : Host.Outcome State Fault Refusal :=
  issueF1 d a g u (fun _ _ x => asWord (trigF false (fp32.read x.toNat))) s

/-- `cos.f32` (R122). -/
def execCosF32 (d a : Reg) (g : Guard) (u : Bool) (s : State) : Host.Outcome State Fault Refusal :=
  issueF1 d a g u (fun _ _ x => asWord (trigF true (fp32.read x.toNat))) s

/-- `rint.f32` (R124). -/
def execRintF32 (d a : Reg) (g : Guard) (u : Bool) (s : State) : Host.Outcome State Fault Refusal :=
  issueF1 d a g u (fun c i x => asWord (integralF (c.round32 i).mode (c.round32 i).u false (c.f32 x))) s

/-- `floor.f32` (R124). -/
def execFloorF32 (d a : Reg) (g : Guard) (u : Bool) (s : State) : Host.Outcome State Fault Refusal :=
  issueF1 d a g u (fun c _ x => asWord (integralF .rdn 0 true (c.f32 x))) s

/-- `ceil.f32` (R124). -/
def execCeilF32 (d a : Reg) (g : Guard) (u : Bool) (s : State) : Host.Outcome State Fault Refusal :=
  issueF1 d a g u (fun c _ x => asWord (integralF .rup 0 true (c.f32 x))) s

/-- `trunc.f32` (R124). -/
def execTruncF32 (d a : Reg) (g : Guard) (u : Bool) (s : State) : Host.Outcome State Fault Refusal :=
  issueF1 d a g u (fun c _ x => asWord (integralF .rtz 0 true (c.f32 x))) s

/-- `class.f32` (R125). -/
def execClassF32 (d a : Reg) (g : Guard) (u : Bool) (s : State) : Host.Outcome State Fault Refusal :=
  issueF1 d a g u (fun _ _ x => (classF x, 0)) s

/-- `fabs.f32` (R121). -/
def execFabsF32 (d a : Reg) (g : Guard) (u : Bool) (s : State) : Host.Outcome State Fault Refusal :=
  issueF1 d a g u (fun _ _ x => (x &&& 0x7FFFFFFF, 0)) s

/-- `fneg.f32` (R89). -/
def execFnegF32 (d a : Reg) (g : Guard) (u : Bool) (s : State) : Host.Outcome State Fault Refusal :=
  issueF1 d a g u (fun _ _ x => (x ^^^ 0x80000000, 0)) s

/-- `add.bf16x2` (R126). -/
def execAddBf16x2 (d a b : Reg) (g : Guard) (u : Bool) (s : State) : Host.Outcome State Fault Refusal :=
  issueF2 d a b g u (packed2 true Fmt.addF) s

/-- `mul.bf16x2` (R126). -/
def execMulBf16x2 (d a b : Reg) (g : Guard) (u : Bool) (s : State) : Host.Outcome State Fault Refusal :=
  issueF2 d a b g u (packed2 true Fmt.mulF) s

/-- `add.f16x2` (R126). -/
def execAddF16x2 (d a b : Reg) (g : Guard) (u : Bool) (s : State) : Host.Outcome State Fault Refusal :=
  issueF2 d a b g u (packed2 false Fmt.addF) s

/-- `mul.f16x2` (R126). -/
def execMulF16x2 (d a b : Reg) (g : Guard) (u : Bool) (s : State) : Host.Outcome State Fault Refusal :=
  issueF2 d a b g u (packed2 false Fmt.mulF) s

/-- `fma.bf16x2` (R126). -/
def execFmaBf16x2 (d a b : Reg) (g : Guard) (u : Bool) (s : State) : Host.Outcome State Fault Refusal :=
  issueF3 d a b g u (packedFma true) s

/-- `fma.f16x2` (R126). -/
def execFmaF16x2 (d a b : Reg) (g : Guard) (u : Bool) (s : State) : Host.Outcome State Fault Refusal :=
  issueF3 d a b g u (packedFma false) s

/-- `min.bf16x2` (R127). -/
def execMinBf16x2 (d a : Reg) (g : Guard) (u : Bool) (s : State) : Host.Outcome State Fault Refusal :=
  issueFda d a g u (fun _ _ x y => packedMinmax bf16 false x y) s

/-- `max.bf16x2` (R127). -/
def execMaxBf16x2 (d a : Reg) (g : Guard) (u : Bool) (s : State) : Host.Outcome State Fault Refusal :=
  issueFda d a g u (fun _ _ x y => packedMinmax bf16 true x y) s

/-- `min.f16x2` (R127). -/
def execMinF16x2 (d a : Reg) (g : Guard) (u : Bool) (s : State) : Host.Outcome State Fault Refusal :=
  issueFda d a g u (fun _ _ x y => packedMinmax fp16 false x y) s

/-- `max.f16x2` (R127). -/
def execMaxF16x2 (d a : Reg) (g : Guard) (u : Bool) (s : State) : Host.Outcome State Fault Refusal :=
  issueFda d a g u (fun _ _ x y => packedMinmax fp16 true x y) s

/-- `cvt` (R128). -/
def execCvt (k : CvtKind) (r : Rnd) (d a : Reg) (g : Guard) (u : Bool) (s : State) : Host.Outcome State Fault Refusal :=
  issueF1 d a g u (fun c i x => convert k (c.roundCvt r i) x) s

/-- `pack` (R131). -/
def execPack (k : PackKind) (r : Rnd) (d a : Reg) (g : Guard) (u : Bool) (s : State) : Host.Outcome State Fault Refusal :=
  issueFda d a g u (fun c i old x => packElem k (c.roundCvt r i) old x) s

/-- `unpack` (R132). -/
def execUnpack (k : UnpackKind) (e : BitVec 3) (d a : Reg) (g : Guard) (u : Bool) (s : State) : Host.Outcome State Fault Refusal :=
  issueFloat g u d [(a, if k = .b4 then 2 else 1)]
    (fun _ ops i => unpackElem k e.toNat (laneOf (opRun ops 0 0) i) (laneOf (opRun ops 0 1) i)) s

/-- `pack.b4` (R133). -/
def execPackB4 (t : B4Type) (e : BitVec 3) (sr : Bool) (d a : Reg) (g : Guard) (u : Bool) (s : State) : Host.Outcome State Fault Refusal :=
  issueFloat g u d [(d, 1), (a, 2)]
    (fun c ops i =>
      let r := packB4Code t sr (c.draw 0 i) (laneOf (opRun ops 1 0) i).toNat ((laneOf (opRun ops 1 1) i).toNat % 256)
      (setNibble (opLane ops 0 i) e.toNat r.1, r.2)) s

end Sys2Proof.Machine
end

