-- ==== Sys2Proof/Machine/Tile.lean ====
section
/-! DEFINITION. The issue of the matrix family: what each form of majors 0x70 to 0x73 checks and reads, and the tile
operation it hands to the engine (R311 to R318, R322 to R328, R335, R348 to R368). -/

namespace Sys2Proof.Machine

open Sys2Proof

/-! ## Runs of registers -/

/-- A run of registers lies in v0 to v111 and in the allocation of the wave (R59, R349 step 2). -/
def Wave.runOk (w : Wave) (r n : Nat) : Bool := n == 0 || (decide (r + n ≤ 112) && decide (w.wb + r + n ≤ w.regCount))

/-- The slots of a run. -/
def Wave.runSlots (w : Wave) (r n : Nat) : List Nat := (List.range n).map fun i => w.wb + r + i

/-- A run of registers of a wave: the wave's key, first register, length. -/
abbrev RegRun := Nat × Nat × Nat

/-- Every run is in range in the wave that holds it (R323). -/
def State.runsOk (s : State) (rs : List RegRun) : Bool :=
  rs.all fun r => match s.waves.get? r.1 with
    | some w => w.runOk r.2.1 r.2.2
    | none => r.2.2 == 0

/-- An instruction that reads or writes runs waits for their outstanding writes (R26, R348). -/
def State.runsPending (s : State) (rs : List RegRun) : Bool :=
  rs.any fun r => match s.waves.get? r.1 with
    | some w => (w.runSlots r.2.1 r.2.2).any fun k => (s.pendingSlots r.1 w).contains k
    | none => false

/-- A run that is read: which lanes of its register at each offset enter a result; none for a register that is not read. -/
abbrev RunRead := RegRun × (Nat → Option Mask)

/-- A run read in all 64 lanes (R312, R363). -/
def wholeRun (r : RegRun) : RunRead := (r, fun _ => some (BitVec.allOnes 64))

/-- The registers that runs read: wave, slot, lanes that enter a result. -/
def State.slotsRead (s : State) (rs : List RunRead) : List (Nat × Nat × Mask) :=
  rs.flatMap fun r => match s.waves.get? r.1.1 with
    | some w => if w.struck = [] && w.poison = [] then [] else
        (List.range r.1.2.2).filterMap fun i => (r.2 i).map fun m => (r.1.1, w.wb + r.1.2.1 + i, m)
    | none => []

/-- Lanes of a register of a wave that hold an uncorrectable error: known poisoned ones among them, or struck alone. -/
def State.badLanes (s : State) (key k : Nat) (known : Bool) : Mask :=
  match s.waves.get? key with
  | some w => w.struck.getD k 0 ||| if known then w.poison.getD k 0 else 0
  | none => 0

/-- A run holds an uncorrectable error that enters a result (R395). -/
def State.runsStruck (s : State) (rs : List RunRead) : Bool :=
  (s.slotsRead rs).any fun x => decide (s.badLanes x.1 x.2.1 true &&& x.2.2 ≠ 0)

/-- Errors in registers that are read, in lanes that enter no result, are poisoned and logged with record 0x42 (R395). -/
def State.runsLatent (s : State) (c : Ctx) (rs : List RunRead) : State :=
  (s.slotsRead rs).foldl (fun s x =>
    let bad := s.badLanes x.1 x.2.1 false &&& ~~~x.2.2
    if bad = 0 then s
    else (s.modWave x.1 fun w =>
      { w with poison := w.poison.put 0 x.2.1 (w.poison.getD x.2.1 0 ||| bad)
               struck := w.struck.put 0 x.2.1 (w.struck.getD x.2.1 0 &&& ~~~bad) }).post
      (waveRec c.l c.key c.w c.b 0x42 0 c.t 0)) s

/-- The lanes of a register of a run's wave. -/
def State.runVec (s : State) (key r : Nat) : LaneVec :=
  match s.waves.get? key with
  | some w => w.slotVec (w.wb + r)
  | none => zeroVec

/-- The waits that stand between a form and its runs, and the errors it consumes. -/
def State.runStop (s : State) (c : Ctx) (reads : List RunRead) (writes : List RegRun) : Option Res :=
  if s.runsPending (reads.map (·.1) ++ writes) then some (.wait s)
  else if s.runsStruck reads then some (.left (s.consumeError c 0x41))
  else none

/-! ## Tile operations -/

/-- A form of majors 0x70 to 0x73 (R348). -/
def tileForm (g : Guard) (reads writes : List (Reg × Nat)) : Form := ⟨g, true, 1, reads, writes, false, false, id⟩

/-- A tile operation of the issuing wave, with nothing read yet. -/
def Ctx.tileOp (c : Ctx) (id : Nat) (kind : TileKind) : TileOp :=
  { id := id, launch := c.b.launch, block := c.w.block, wave := c.key, lane := c.src, lanes := c.w.active,
    pc := c.w.pc, sup := c.w.sup, fpmode := c.w.fpmode, seed := c.w.seed, seqNo := c.w.tiles + 1, kind := kind,
    a := [], b := [], rows := [], gran := 1, tags := [], held := false, spans := [], out := none, dest := [],
    units := [], okind := none, tenure := none, follower := none, started := true, replayed := false, flags := 0,
    src := [], walking := [], walkOut := [] }

/-- Hand a tile operation to the engine: the wave moves on. -/
def State.addOp (s : State) (c : Ctx) (o : TileOp) : Res :=
  .done .plain ((s.modCore c.w.core fun k => { k with ops := k.ops ++ [o] }).modWave c.key fun w =>
    { w with tiles := w.tiles + 1 }).nextSeq

/-- Every tile operation in flight. -/
def State.allOps (s : State) : List TileOp := s.cores.flatMap fun e => e.2.ops

/-- The kind that a unit will have when the operations in flight have retired (R351). -/
def State.kindNow (s : State) (b u : Nat) : Nat :=
  let last := s.allOps.foldl (fun (best : Option TileOp) o =>
    if o.units.contains (b, u) && o.okind.isSome &&
        (match best with | some q => decide (q.id < o.id) | none => true) then some o else best) none
  match last with
  | some o => o.okind.getD 0
  | none => match s.blocks.get? b with
    | some blk => blk.kindAt u
    | none => 0

/-- Units of a tile: offset and pitch in units, rows, units a row. -/
def tileUnits (b coff cpitch rows perRow : Nat) : List (Nat × Nat) :=
  (List.range rows).flatMap fun i => (List.range perRow).map fun u => (b, coff + i * cpitch + u)

/-- A unit is empty or of a kind. -/
def State.kindFits (s : State) (kind : Nat) (us : List (Nat × Nat)) : Bool :=
  us.all fun u => s.kindNow u.1 u.2 == 0 || s.kindNow u.1 u.2 == kind

/-- Every unit lies in the allocation of its block (R329). -/
def State.unitsIn (s : State) (us : List (Nat × Nat)) : Bool :=
  us.all fun u => match s.blocks.get? u.1 with
    | some b => decide (u.2 < b.accUnits)
    | none => false

/-- Channels of a core that are marked failed (R347). -/
def State.failedOn (s : State) (core : Nat) : Byte := (s.core core).rnsFail

/-- Two or more channels have failed: every rns form faults (R347, R349). -/
def State.rnsDead (s : State) (core : Nat) : Bool := decide (2 ≤ (marked (s.failedOn core)).length)

/-- The residue-mismatch fault at issue names the failed channels. -/
def State.rnsFault (s : State) (core : Nat) : Res := .halt 0x36 0 ((s.failedOn core).setWidth 32)

/-- A pair operation under way holds the matrix issues of its follower's core (R328). -/
def State.pairHolds (s : State) (core : Nat) : Bool :=
  core % 2 == 1 && (s.core (core - 1)).ops.any fun o => match o.follower with
    | none => false
    | some f => (match s.blocks.get? f with
        | some b => decide (b.core = core) && b.halt.isNone
        | none => false) && (match s.blocks.get? o.block with
        | some b => b.halt.isNone
        | none => false)

/-- The budget of a core's window is spent (R335). -/
def State.govSpent (s : State) (core : Nat) : Bool := decide (s.govBudget core ≤ ((s.core core).atWindow s.now).govIssues)

/-- Count a stalled issue once for its word (R335). DESIGN CHOICE: the stall of an `mma.pair` counts on the issuing core
alone; R335 says where its issue counts, and not its stall (log entry 78). -/
def State.countStall (s : State) (c : Ctx) : State :=
  if c.w.governed then s
  else (s.modCore c.w.core fun k => { k with govStalls := k.govStalls + 1 }).modWave c.key fun w =>
    { w with governed := true }

/-- Count an issue against the budget of a core. -/
def State.countIssue (s : State) (core : Nat) : State :=
  s.modCore core fun k => { k.atWindow s.now with govIssues := (k.atWindow s.now).govIssues + 1 }

/-- Cores that a form issues on (R327, R335). -/
def issueCores (core : Nat) (pair : Bool) : List Nat := if pair then [core, core + 1] else [core]

/-- Count an issue on cores once its operation has been created (R335, R349): none that waits spends anything. -/
def Res.counted (cores : List Nat) : Res → Res
  | .done x s => .done x (cores.foldl State.countIssue s)
  | r => r

/-! ## Packed operands (R322 to R324) -/

/-- Bits of an element in registers. -/
def elemBits : MmaType → Nat
  | .bf16 => 16
  | .fp16 => 16
  | .e4m3 => 8
  | .e5m2 => 8
  | .i8 => 8
  | .b4 => 4
  | .rns => 8

/-- Registers of a chunk for 64 outer indices, n_w. -/
def chunkRegs : MmaType → Nat
  | .bf16 => 16
  | .fp16 => 16
  | .e4m3 => 8
  | .e5m2 => 8
  | .i8 => 8
  | .b4 => 5
  | .rns => 64

/-- Element (x, kk) of a chunk block, read by register offset and lane. -/
def packedElem (t : MmaType) (rd : Nat → Nat → Nat) (x kk : Nat) : Nat :=
  let h := x / 64
  let lane := x % 64
  match t with
  | .rns => joinChans fun p => (BitVec.ofNat 8 (rd (h * 64 + 8 * p + kk / 4) lane / 256 ^ (kk % 4))).toInt
  | .b4 => rd (h * 5 + 4) lane % 256 * 16 + rd (h * 5 + kk / 8) lane / 2 ^ (4 * (kk % 8)) % 16
  | t =>
    let w := elemBits t
    rd (h * chunkRegs t + kk * w / 32) lane / 2 ^ (kk * w % 32) % 2 ^ w

/-- The runs of B: wave, first register, registers, for each quarter (R323). -/
def quarterRuns (c : Ctx) (base gb chunks nw : Nat) : List RegRun :=
  let group := c.w.index / 4
  let size := min 4 (c.b.waves - 4 * group)
  let big := (chunks + 3) / 4 * gb * nw
  (List.range 4).map fun q =>
    (waveKey c.w.block (4 * group + q % size) false, base + q / size * big, (chunks + 3 - q) / 4 * gb * nw)

/-- The codes of B by column (R322, R323). -/
def State.readB (s : State) (c : Ctx) (t : MmaType) (base n k : Nat) : List (List Nat) :=
  let gb := (n + 63) / 64
  let runs := quarterRuns c base gb ((k + 31) / 32) (chunkRegs t)
  (List.range n).map fun j => (List.range k).map fun kk =>
    let ch := kk / 32
    let run := runs.getD (ch % 4) (0, 0, 0)
    packedElem t (fun off lane =>
      (laneOf (s.runVec run.1 (run.2.1 + ch / 4 * gb * chunkRegs t + off)) lane).toNat) j (kk % 32)

/-- The lanes of a register of a packed run that hold elements read (R322, R353): slots for k beyond the last are not read,
and lanes beyond the extent hold none. -/
def packedRead (t : MmaType) (extent k ch r : Nat) : Option Mask :=
  let o := r % chunkRegs t
  let first := match t with
    | .b4 => if o = 4 then 0 else 8 * o
    | .rns => 4 * (o % 8)
    | t => o * 32 / elemBits t
  if 32 * ch + first < k then some (maskOf fun i => decide (64 * (r / chunkRegs t) + i < extent)) else none

/-- The registers of the quarters of B that are read. -/
def quarterReads (t : MmaType) (n k : Nat) (runs : List RegRun) : List RunRead :=
  let block := (n + 63) / 64 * chunkRegs t
  runs.zipIdx.map fun x => (x.1, fun r => packedRead t n k (4 * (r / block) + x.2) (r % block))

/-- The registers of A that are read. -/
def rowsRead (t : MmaType) (m k : Nat) (run : RegRun) : RunRead :=
  let block := (m + 63) / 64 * chunkRegs t
  (run, fun r => packedRead t m k (r / block) (r % block))

/-- The codes of A by row, from registers of the issuing wave (R322). -/
def State.readA (s : State) (c : Ctx) (t : MmaType) (base m k : Nat) : List (List Nat) :=
  let ga := (m + 63) / 64
  (List.range m).map fun i => (List.range k).map fun kk =>
    packedElem t (fun off lane =>
      (laneOf (s.runVec c.key (base + kk / 32 * ga * chunkRegs t + off)) lane).toNat) i (kk % 32)

/-- Bytes of a row of A in memory (R324). -/
def rowBytes (t : MmaType) (k : Nat) : Nat :=
  match t with
  | .bf16 => 2 * k
  | .fp16 => 2 * k
  | .e4m3 => k
  | .e5m2 => k
  | .i8 => k
  | .b4 => (k + 1) / 2
  | .rns => 8 * k

/-- The width of an access that fetches A. -/
def rowGran : MmaType → Nat
  | .bf16 => 2
  | .fp16 => 2
  | .e4m3 => 1
  | .e5m2 => 1
  | .i8 => 1
  | .b4 => 1
  | .rns => 8

/-- The codes of a row of A from its bytes in memory (R324); `scales` are the row's scale bytes. -/
def rowCodes (t : MmaType) (k : Nat) (bs scales : List Byte) : List Nat :=
  match t with
  | .b4 => (List.range k).map fun i =>
      (scales.getD (i / 32) 0).toNat * 16 + (bs.getD (i / 2) 0).toNat / (if i % 2 = 1 then 16 else 1) % 16
  | t => (pieces (rowGran t) (bs.length + 1) bs).map leNat

/-! ## Descriptors (R353, R356) -/

/-- A field of a word. -/
def bitsAt (x lo n : Nat) : Nat := x / 2 ^ lo % 2 ^ n

/-- Bits of a word that must be 0. -/
def clear (x mask : Nat) : Bool := x &&& mask == 0

/-- The descriptor of an `mma` (R353). -/
structure MmaDesc where
  fmbr : Nat
  cpitch : Nat
  coff : Nat
  n : Nat
  m : Nat
  areg : Nat
  asrc : Nat
  k : Nat
  aaddr : DWord
  astride : Nat
  soff : Int
  sstride : Nat
  deriving DecidableEq, Repr

/-- Read a descriptor. -/
def mmaDesc (d : List Word) : MmaDesc where
  fmbr := bitsAt (dw d 0) 24 3
  cpitch := bitsAt (dw d 0) 16 5
  coff := bitsAt (dw d 0) 0 11
  n := bitsAt (dw d 1) 16 9
  m := bitsAt (dw d 1) 0 9
  areg := bitsAt (dw d 2) 16 7
  asrc := bitsAt (dw d 2) 12 2
  k := bitsAt (dw d 2) 0 12
  aaddr := pairOf (d.getD 3 0) (d.getD 4 0)
  astride := dw d 5
  soff := descInt d 6
  sstride := bitsAt (dw d 7) 0 16

/-- Columns that R329 and R353 allow for an element of 4 or 8 bytes. -/
def columnsOk (elem n : Nat) : Bool :=
  if elem = 8 then decide (n % 32 = 0) && decide (32 ≤ n) && decide (n ≤ 256)
  else decide (n % 64 = 0) && decide (64 ≤ n) && decide (n ≤ 256)

/-- Every field of an `mma` descriptor lies in its limits (R353). -/
def mmaDescOk (t : MmaType) (pair : Bool) (d : List Word) : Bool :=
  let x := mmaDesc d
  clear (dw d 0) 0xF8E0F800 && clear (dw d 1) 0xFE00FE00 && clear (dw d 2) 0xFF80C000 && clear (dw d 7) 0xFFFF0000 &&
  (pair || x.fmbr == 0) && decide (1 ≤ x.cpitch) && decide (x.cpitch ≤ 16) && columnsOk (accElem t) x.n &&
  decide (1 ≤ x.m) && decide (x.m ≤ if pair then 256 else 128) && decide (1 ≤ x.k) && decide (x.k ≤ 2048) &&
  decide (x.n * accElem t ≤ x.cpitch * 256) &&
  (if x.asrc = 0 then decide (x.areg ≤ 111) && x.aaddr == 0 && x.astride == 0 && x.soff == 0 && x.sstride == 0
   else x.asrc == 1 && x.areg == 0 && decide (x.aaddr.toNat % 16 = 0) && decide (x.astride % 16 = 0) &&
     decide (spaceOf x.aaddr ≠ 0xF) && (t == .b4 || (x.soff == 0 && x.sstride == 0)))

/-- The rows of A in memory: for `b4` each row's codes, then its scale bytes (R324). -/
def MmaDesc.rows (x : MmaDesc) (t : MmaType) : List (DWord × Nat) :=
  (List.range x.m).flatMap fun (i : Nat) =>
    (stepAddr x.aaddr (x.astride * (i : Int)), rowBytes t x.k) ::
      (if t = .b4 then [(stepAddr x.aaddr (x.soff + (i : Int) * x.sstride), (x.k + 31) / 32)] else [])

/-- The descriptor of a `tld` or `tst` (R356). -/
structure TileDesc where
  coff : Nat
  cpitch : Nat
  cols : Nat
  rows : Nat
  tid : Nat
  rnd : BitVec 3
  fmt : Nat
  addr : DWord
  stride : Int
  wcnt : Nat
  deriving DecidableEq, Repr

/-- Read a descriptor. -/
def tileDesc (d : List Word) : TileDesc where
  coff := bitsAt (dw d 0) 0 11
  cpitch := bitsAt (dw d 0) 16 5
  cols := bitsAt (dw d 1) 16 9
  rows := bitsAt (dw d 1) 0 9
  tid := bitsAt (dw d 2) 16 15
  rnd := (d.getD 2 0).extractLsb' 4 3
  fmt := bitsAt (dw d 2) 0 4
  addr := pairOf (d.getD 3 0) (d.getD 4 0)
  stride := descInt d 5
  wcnt := dw d 6

/-- Bytes of an element in memory (R356). -/
def memElem (fmt : Nat) : Nat :=
  match fmt with
  | 2 => 8
  | 3 => 2
  | _ => 4

/-- Bytes of an element in the accumulator. -/
def tileElem (fmt : Nat) : Nat := if fmt = 2 then 8 else 4

/-- The kind of a tile of a format (R351, R358). -/
def fmtKind (fmt : Nat) : Nat :=
  match fmt with
  | 1 => 2
  | 2 => 3
  | _ => 1

/-- Every field of a tile descriptor lies in its limits (R356). -/
def tileDescOk (store : Bool) (d : List Word) : Bool :=
  let x := tileDesc d
  clear (dw d 0) 0xFFE0F800 && clear (dw d 1) 0xFE00FE00 && clear (dw d 2) 0x8000FF80 && dw d 7 == 0 &&
  decide (1 ≤ x.cpitch) && decide (x.cpitch ≤ 16) && decide (x.fmt ≤ 3) && columnsOk (tileElem x.fmt) x.cols &&
  decide (1 ≤ x.rows) && decide (x.rows ≤ 128) && decide (x.cols * tileElem x.fmt ≤ x.cpitch * 256) &&
  (if store && x.fmt == 3 then (rndOf x.rnd).isSome else x.rnd == 0) && decide (spaceOf x.addr ≠ 0xF) &&
  decide (x.addr.toNat % memElem x.fmt = 0) && decide (dw d 5 % memElem x.fmt = 0)

/-- The rows of a tile in memory. -/
def TileDesc.runs (x : TileDesc) : List (DWord × Nat) :=
  (List.range x.rows).map fun (i : Nat) => (stepAddr x.addr (x.stride * (i : Int)), x.cols * memElem x.fmt)

/-- Units of the tile. -/
def TileDesc.units (x : TileDesc) (b : Nat) : List (Nat × Nat) :=
  tileUnits b x.coff x.cpitch x.rows ((x.cols * tileElem x.fmt + 255) / 256)

/-! ## Memory operands -/

/-- The accesses of a run. -/
def runAddrs (gran : Nat) (r : DWord × Nat) : List DWord :=
  (List.range ((r.2 + gran - 1) / gran)).map fun (i : Nat) => stepAddr r.1 (gran * (i : Int))

/-- Answers of memory and of peers laid end to end. -/
def State.gather (s : State) (c : Ctx) (gran : Nat) : List Reach → List RemoteReq → List Byte × State
  | [], _ => ([], s)
  | r :: rs, got =>
    if r.remote then
      let y := State.gather s c gran rs (got.drop 1)
      ((match got with | q :: _ => q.data.take gran | [] => []) ++ y.1, y.2)
    else
      let x := s.readFor c.l c.w s.seq r.tgt gran []
      let y := State.gather x.2 c gran rs got
      (x.1 ++ y.1, y.2)

/-- How far a fetch has come. -/
inductive Fetched where
  | ok (bs : List Byte) (s : State)
  | asked (tags : List Nat) (s : State)
  | pending (s : State)
  /-- it waits for walks (R159) -/
  | walk (keys : List Nat) (s : State)
  | absent (addr : DWord)
  | bad (cause : Nat) (addr : DWord)
  deriving Repr

/-- Fetch runs of bytes as loads of the issuing wave, with the checks of R202 (R324, R357). -/
def State.fetchRuns (s : State) (c : Ctx) (gran : Nat) (tags : List Nat) (rows : List (DWord × Nat)) : Fetched :=
  match State.check { s with later := false } c ((rows.flatMap (runAddrs gran)).map fun a => (0, a)) gran .read .copy with
  | .fault k _ a => .bad k a
  | .park _ a => .absent a
  | .wait _ => .pending s
  | .walk ks t => .walk ks { t with later := s.later }
  | .endQuantum => .pending s
  | .ok rs t =>
    let t := { t with later := s.later }
    let far := rs.filter Reach.remote
    if far = [] then
      let x := t.gather c gran rs []
      .ok x.1 x.2
    else if tags = [] then
      let x := t.askAll c.key t.seq (askReads far gran)
      .asked x.1 x.2
    else match t.answers tags with
      | none => .pending t
      | some got =>
        match got.find? fun r => decide (r.status ≠ some 0) with
        | some r => .bad 0x17 r.addr
        | none =>
          let x := t.gather c gran rs got
          .ok x.1 (x.2.forget tags)

/-- Cut bytes at the lengths of their runs. -/
def cutRuns : List (DWord × Nat) → List Byte → List (List Byte)
  | [], _ => []
  | r :: rs, bs => bs.take r.2 :: cutRuns rs (bs.drop r.2)

/-- Elements of a tile row from its bytes, and flags (R357): a BF16 element is converted to FP32, which makes a NaN the
canonical one (R95). -/
def tileRow (fmt : Nat) (bs : List Byte) : List (Nat × Flags) :=
  (pieces (memElem fmt) (bs.length + 1) bs).map fun x =>
    match fmt with
    | 2 => (rebalance (leNat x), 0)
    | 3 => fp32.convert rneKeep (bf16.read (leNat x))
    | _ => (leNat x, 0)

/-- The flags of rows of elements together (R105). -/
def rowFlags (rows : List (List (Nat × Flags))) : Flags := rows.foldl (fun f r => r.foldl (fun f x => f ||| x.2) f) 0

/-- Rows of codes and scales, two runs a row. -/
def pairRows (k : Nat) : List (List Byte) → List (List Nat)
  | bs :: sc :: rest => rowCodes .b4 k bs sc :: pairRows k rest
  | _ => []

/-- The operation once its bytes are here. -/
def TileOp.loaded (o : TileOp) (bs : List Byte) : TileOp :=
  let parts := cutRuns o.rows bs
  let rows : List (List Nat) := match o.kind with
    | .mma .b4 _ _ _ _ k => pairRows k parts
    | .mma t _ _ _ _ k => parts.map fun p => rowCodes t k p []
    | .tld _ _ _ _ fmt => parts.map fun p => (tileRow fmt p).map (·.1)
    | _ => []
  let flags := match o.kind with
    | .tld _ _ _ _ fmt => rowFlags (parts.map (tileRow fmt))
    | _ => 0
  { o with a := rows, rows := [], tags := [], held := false, flags := flags }

/-- The record of a fetch or store that met an absent page (R334). -/
def State.recordHeld (s : State) (o : TileOp) (addr : DWord) : State :=
  match s.waves.get? o.wave, s.blocks.get? o.block, s.launches.get? o.launch with
  | some w, some b, some l => s.post { waveRec l o.wave w b 0x13 addr 0 0 with park := true, pc := o.pc }
  | _, _, _ => s

/-- An operation that a rollback does not issue again once it has retired: it acts on a tenure, which no rollback restores
(R394). -/
def TileOp.once (o : TileOp) : Bool :=
  match o.kind with
  | .upd _ _ => true
  | .unpin _ => true
  | .chkTen => true
  | _ => false

/-- A deferred fault of a tile operation (R229, R334, R407). -/
def State.deferTile (s : State) (o : TileOp) (cause : Nat) (addr : DWord) (detail : Word) : State :=
  let d : Deferred := ⟨o.seqNo, o.id, cause, addr, detail, 0, false⟩
  if o.once then s.addDeferred o.wave d else s.modWave o.wave fun w => { w with deferred := w.deferred ++ [d] }

/-- Outstanding accesses of the wave, older than number `id`, that overlap ranges (R175): stores, or, for a store, any. -/
def State.outMeets (s : State) (c : Ctx) (id : Nat) (store : Bool) (ranges : List (DWord × Nat)) : Bool :=
  c.w.outst.any fun a => decide (a.id < id) && (a.store || store) &&
    ((a.parts.any fun p => ranges.any fun r => rangesMeet (p.ga, a.width) (c.footprintAddr r.1, r.2)) ||
      placesMeet (a.parts.map fun p => (p.tgt, a.width)) (s.placesOf c ranges))

/-- Issue an operation whose operand lies in memory: its loads are issued with it. -/
def State.addLoading (s : State) (c : Ctx) (o : TileOp) : Res :=
  let as := (o.rows.flatMap (runAddrs o.gran)).map fun a => (0, a)
  if s.heldByJob c as o.gran false then (if c.l.dqm then .endFirst s else .wait s)
  else if s.heldByTile c o.rows [] false || s.outMeets c o.id false o.rows then .wait s
  else if as.all (fun x => s.spaceOk c x.2) && as.any fun x => s.unstarted c x.2 then
    (if c.l.dqm then .endFirst s else .wait s)
  else if s.later && !c.l.dqm then s.addOp c o
  else match s.fetchRuns c o.gran [] o.rows with
    | .ok bs s => s.addOp c (o.loaded bs)
    | .asked tags s => s.addOp c { o with tags := tags }
    | .pending s => s.addOp c o
    | .walk ks s => s.addOp c { o with walking := ks }
    | .absent a => (s.recordHeld o a).addOp c { o with held := true }
    | .bad k a =>
      let s := s.deferTile o k a 0
      .done .plain (s.modWave c.key fun w => { w with tiles := w.tiles + 1 })

/-! ## `mma`, `mma.pair` -/

/-- What naming the follower comes to (R327). -/
inductive Follows where
  | block (b : Nat)
  | unstarted
  | bad
  deriving DecidableEq, Repr

/-- The follower's block of a pair operation (R327). -/
def State.followerOf (s : State) (c : Ctx) (m : Nat) : Follows :=
  if c.w.core % 2 = 1 then .bad
  else if c.l.standing.isSome || decide (c.l.clusterSize ≤ m) then .bad
  else match s.blocks.get? (c.member m) with
    | some b => if b.core = c.w.core + 1 then .block (c.member m) else .bad
    | none => if (c.l.retiredRanks.get? (c.b.cpos * c.l.clusterSize + m)).isSome then .bad else .unstarted

/-- Issue an `mma` or `mma.pair` (R349 to R355). -/
def issueMma (t : MmaType) (pair : Bool) (d a : Reg) (g : Guard) (s : State) : Host.Outcome State Fault Refusal :=
  issue (tileForm g [(a, 8)] []) (fun c ops s =>
    let desc := (List.range 8).map fun k => laneOf (opRun ops 0 k) c.src
    let x := mmaDesc desc
    let chunks := (x.k + 31) / 32
    let cores := if pair && c.w.core % 2 = 1 then [c.w.core] else issueCores c.w.core pair
    let bruns := quarterRuns c d.toNat ((x.n + 63) / 64) chunks (chunkRegs t)
    let aruns : List RegRun := if x.asrc = 0 then [(c.key, x.areg, chunks * ((x.m + 63) / 64) * chunkRegs t)] else []
    let per := (x.n * accElem t + 255) / 256
    let here := tileUnits c.w.block x.coff x.cpitch (min x.m 128) per
    let there (f : Nat) := tileUnits f x.coff x.cpitch (x.m - 128) per
    let fol : Follows := if pair then s.followerOf c x.fmbr else .bad
    let us := here ++ (match fol with | .block f => there f | .unstarted => [] | .bad => [])
    if !s.runsOk (bruns ++ aruns) then .halt 0x02 0 0
    else if c.w.shadow || !mmaDescOk t pair desc then .halt 0x31 0 0
    else if t == .rns && cores.any s.rnsDead then s.rnsFault ((cores.find? s.rnsDead).getD c.w.core)
    else if !s.kindFits (mmaKind t) us then .halt 0x32 0 0
    else if pair && fol == .bad then .halt 0x30 0 0
    else if pair && fol == .unstarted then (if c.l.dqm then .endFirst s else .wait s)
    else if !s.unitsIn us then .halt 0x33 0 0
    else
      let reads := quarterReads t x.n x.k bruns ++ aruns.map (rowsRead t x.m x.k)
      match s.runStop c reads [] with
      | some r => r
      | none =>
        if s.pairHolds c.w.core then .wait s
        else if (issueCores c.w.core pair).any s.govSpent then .wait (s.countStall c)
        else
          let s := s.runsLatent c reads
          let o : TileOp := { c.tileOp s.seq (.mma t x.coff x.cpitch x.n x.m x.k) with
            a := if x.asrc = 0 then s.readA c t x.areg x.m x.k else [],
            b := s.readB c t d.toNat x.n x.k,
            rows := if x.asrc = 0 then [] else x.rows t,
            src := if x.asrc = 0 then [] else x.rows t,
            gran := rowGran t,
            units := us,
            okind := some (mmaKind t),
            follower := (match fol with | .block f => if pair then some f else none | _ => none),
            started := !pair }
          (if x.asrc = 0 then s.addOp c o else s.addLoading c o).counted (issueCores c.w.core pair)) s

/-- `mma` (R352 to R354). -/
def execMma (t : MmaType) (d a : Reg) (g : Guard) (s : State) : Host.Outcome State Fault Refusal :=
  issueMma t false d a g s

/-- `mma.pair` (R327, R355). -/
def execMmaPair (t : MmaType) (d a : Reg) (g : Guard) (s : State) : Host.Outcome State Fault Refusal :=
  issueMma t true d a g s

/-! ## `tld`, `tst` -/

/-- `tld` (R356, R357). -/
def execTld (a : Reg) (g : Guard) (s : State) : Host.Outcome State Fault Refusal :=
  issue (tileForm g [(a, 8)] []) (fun c ops s =>
    let desc := (List.range 8).map fun k => laneOf (opRun ops 0 k) c.src
    let x := tileDesc desc
    let us := x.units c.w.block
    if c.w.shadow || !tileDescOk false desc then .halt 0x31 0 0
    else if x.fmt == 2 && s.rnsDead c.w.core then s.rnsFault c.w.core
    else if !s.unitsIn us then .halt 0x33 0 0
    else if s.pairHolds c.w.core then .wait s
    else s.addLoading c { c.tileOp s.seq (.tld x.coff x.cpitch x.cols x.rows x.fmt) with
      rows := x.runs, src := x.runs, gran := memElem x.fmt, units := us, okind := some (fmtKind x.fmt) }) s

/-- `tst` (R356, R358, R359): to a member that has not started it waits as R43 says. -/
def execTst (a : Reg) (g : Guard) (s : State) : Host.Outcome State Fault Refusal :=
  issue (tileForm g [(a, 8)] []) (fun c ops s =>
    let desc := (List.range 8).map fun k => laneOf (opRun ops 0 k) c.src
    let x := tileDesc desc
    let us := x.units c.w.block
    let as := (x.runs.flatMap (runAddrs (memElem x.fmt))).map fun a => (0, a)
    if c.w.shadow || !tileDescOk true desc then .halt 0x31 0 0
    else if x.fmt == 2 && s.rnsDead c.w.core then s.rnsFault c.w.core
    else if !s.kindFits (fmtKind x.fmt) us then .halt 0x32 0 0
    else if !s.unitsIn us then .halt 0x33 0 0
    else if s.pairHolds c.w.core then .wait s
    else if s.heldByJob c as (memElem x.fmt) true then (if c.l.dqm then .endFirst s else .wait s)
    else if s.heldByTile c x.runs [] true then .wait s
    else if as.all (fun y => s.spaceOk c y.2) && as.any fun y => s.unstarted c y.2 then
      (if c.l.dqm then .endFirst s else .wait s)
    else
      let o : TileOp := { c.tileOp s.seq (.tst x.coff x.cpitch x.cols x.rows x.fmt
          (pickMode c.w.fpmode ((rndOf x.rnd).getD .mode)) x.tid x.wcnt) with
        spans := x.runs, gran := memElem x.fmt, units := us }
      let s := if c.l.dqm then s.buffer c.key [.tile o.id] 0 else s
      s.addOp c o) s

/-! ## Unit words (R360 to R364) -/

/-- A unit word. -/
structure UnitWord where
  kind : Nat
  step : Nat
  count : Nat
  unit : Nat
  ok : Bool
  deriving DecidableEq, Repr

/-- Read a unit word (R360). -/
def unitWord (w : Word) : UnitWord :=
  let x := w.toNat
  let step := bitsAt x 25 5
  let count := if bitsAt x 11 11 = 0 then 2048 else bitsAt x 11 11
  ⟨bitsAt x 30 2, step, count, bitsAt x 0 11, decide (1 ≤ step) && decide (step ≤ 16) && bitsAt x 22 3 == 0⟩

/-- The kind a KIND field names. -/
def UnitWord.kindOf (u : UnitWord) : Nat :=
  match u.kind with
  | 0 => 1
  | 1 => 2
  | 2 => 3
  | _ => 0

/-- The units it names. -/
def UnitWord.units (u : UnitWord) (b : Nat) : List (Nat × Nat) :=
  (List.range u.count).map fun r => (b, u.unit + r * u.step)

/-- Issue a form with a unit word: its limits, then its bounds, then the operation. -/
def issueUnits (a : Reg) (g : Guard) (runs : UnitWord → Ctx → List RegRun × List RegRun) (okWord : UnitWord → Bool)
    (rns : UnitWord → Bool) (need : Option Nat) (mk : Ctx → State → UnitWord → TileOp → TileOp) (s : State) :
    Host.Outcome State Fault Refusal :=
  issue (tileForm g [(a, 1)] []) (fun c ops s =>
    let u := unitWord (opLane ops 0 c.src)
    let us := u.units c.w.block
    let rw := runs u c
    if !s.runsOk (rw.1 ++ rw.2) then .halt 0x02 0 0
    else if c.w.shadow || !u.ok || !okWord u then .halt 0x31 0 0
    else if rns u && s.rnsDead c.w.core then s.rnsFault c.w.core
    else if (match need with | some k => !s.kindFits k us | none => false) then .halt 0x32 0 0
    else if !s.unitsIn us then .halt 0x33 0 0
    else match s.runStop c (rw.1.map wholeRun) rw.2 with
      | some r => r
      | none =>
        if s.pairHolds c.w.core then .wait s
        else s.addOp c (mk c s u { c.tileOp s.seq .chkTile with units := us })) s

/-- `acc.zero` (R361). -/
def execAccZero (a : Reg) (g : Guard) (s : State) : Host.Outcome State Fault Refusal :=
  issueUnits a g (fun _ _ => ([], [])) (fun _ => true) (fun u => u.kind == 2) none
    (fun _ _ u o => { o with kind := .zero u.kindOf, okind := some u.kindOf }) s

/-- `acc.rd` (R362). -/
def execAccRd (d a : Reg) (g : Guard) (s : State) : Host.Outcome State Fault Refusal :=
  issueUnits a g (fun u c => ([], [(c.key, d.toNat, u.count)])) (fun u => decide (u.count ≤ 16)) (fun _ => false) none
    (fun c _ u o => { o with kind := .rd, dest := c.w.runSlots d.toNat u.count }) s

/-- `acc.wr` (R363). -/
def execAccWr (d a : Reg) (g : Guard) (s : State) : Host.Outcome State Fault Refusal :=
  issueUnits a g (fun u c => ([(c.key, d.toNat, u.count)], [])) (fun u => decide (u.count ≤ 16) && u.kind != 3)
    (fun u => u.kind == 2) none
    (fun c s u o => { o with
      kind := .wr u.kindOf, okind := some u.kindOf,
      a := (List.range u.count).map fun r => (s.runVec c.key (d.toNat + r)).map BitVec.toNat }) s

/-- `acc.chk.tile` (R364). -/
def execAccChkTile (a : Reg) (g : Guard) (s : State) : Host.Outcome State Fault Refusal :=
  issueUnits a g (fun _ _ => ([], [])) (fun _ => true) (fun _ => false) none (fun _ _ _ o => o) s

/-- `rnsr` (R367). -/
def execRnsr (d a : Reg) (g : Guard) (s : State) : Host.Outcome State Fault Refusal :=
  issueUnits a g (fun _ c => ([], [(c.key, d.toNat, 4)])) (fun u => decide (u.count ≤ 2)) (fun _ => true) (some 3)
    (fun c _ _ o => { o with kind := .rnsr, dest := c.w.runSlots d.toNat 4 }) s

/-! ## Residue conversion and check (R366, R368) -/

/-- Convert four integers a lane (R366): the values of lane `i` are `xs i`. -/
def State.writeResidues (s : State) (c : Ctx) (d : Reg) (xs : Nat → List Int) : State :=
  (List.range 8).foldl (fun s p =>
    s.modWave c.key fun w => w.writeSlot (w.wb + d.toNat + 8 * p) c.w.active fun i =>
      if (s.failedOn c.w.core).getLsbD p then 0
      else (List.range 4).foldl (fun acc n =>
        acc ||| (((BitVec.ofInt 8 (balanced ((xs i).getD n 0) (modulus p))).setWidth 32 : Word) <<< (8 * n))) 0) s

/-- Issue an `rnsf` (R366): `n` source registers. -/
def issueRnsf (n : Nat) (xs : List Word → List Int) (d a : Reg) (g : Guard) (s : State) :
    Host.Outcome State Fault Refusal :=
  issue (tileForm g [] []) (fun c _ s =>
    let dests : List RegRun := (List.range 8).map fun p => (c.key, d.toNat + 8 * p, 1)
    let srcs : List RegRun := [(c.key, a.toNat, n)]
    if !s.runsOk (dests ++ srcs) then .halt 0x02 0 0
    else if c.w.shadow then .halt 0x31 0 0
    else if s.rnsDead c.w.core then s.rnsFault c.w.core
    else match s.runStop c (srcs.map fun r => (r, fun _ => some c.w.active)) dests with
      | some r => r
      | none => .done .plain ((s.runsLatent c (srcs.map fun r => (r, fun _ => some c.w.active))).writeResidues c d fun i =>
          xs ((List.range n).map fun k => laneOf (s.runVec c.key (a.toNat + k)) i))) s

/-- `rnsf.i16` (R366). -/
def execRnsfI16 (d a : Reg) (g : Guard) (s : State) : Host.Outcome State Fault Refusal :=
  issueRnsf 2 (fun ws => ws.flatMap fun w => [(w.extractLsb' 0 16).toInt, (w.extractLsb' 16 16).toInt]) d a g s

/-- `rnsf.i32` (R366). -/
def execRnsfI32 (d a : Reg) (g : Guard) (s : State) : Host.Outcome State Fault Refusal :=
  issueRnsf 4 (fun ws => ws.map BitVec.toInt) d a g s

/-- `rns.chk` (R368). -/
def execRnsChk (d a : Reg) (g : Guard) (s : State) : Host.Outcome State Fault Refusal :=
  issue (tileForm g [(a, 1)] []) (fun c ops s =>
    if !s.runsOk [(c.key, d.toNat, 1)] then .halt 0x02 0 0
    else if c.w.shadow then .halt 0x31 0 0
    else if s.rnsDead c.w.core then s.rnsFault c.w.core
    else match s.runStop c [] [(c.key, d.toNat, 1)] with
      | some r => r
      | none =>
        if s.pairHolds c.w.core then .wait s
        else s.addOp c { c.tileOp s.seq (.rnsChk (opLane ops 0 c.src)) with dest := c.w.runSlots d.toNat 1 }) s

end Sys2Proof.Machine
end

