-- ==== Sys2Proof/Machine/Tenure.lean ====
section
/-! DEFINITION. Tenures: room in accumulator memory, the ownership table, the spill pool, room on a core and what has
freed, and the issue of `pin`, `unpin`, `fwupd`, `fwrd` and `acc.chk.ten` (R18, R20, R36 to R38, R44, R311 to R320, R337 to
R340, R364, R365). -/

namespace Sys2Proof.Machine

open Sys2Proof

/-! ## Room (R36, R38, R44) -/

/-- The lowest free run of `n` granules among `total`, given the runs in use (first granule, granules). -/
def freeRun (used : List (Nat × Nat)) (n total : Nat) : Option Nat :=
  (List.range (total + 1 - n)).find? fun b => used.all fun u =>
    u.2 == 0 || decide (b + n ≤ u.1) || decide (u.1 + u.2 ≤ b)

/-- Accumulator granules of a core (R36). -/
def accTotal : Nat := 32

/-- Runs of accumulator granules in use on a core. -/
def State.accUsed (s : State) (core : Nat) : List (Nat × Nat) :=
  ((s.blocks.filter fun e => decide (e.2.core = core)).map fun e => (e.2.accBase, e.2.accGran)) ++
    ((s.core core).tenures.map fun e => (e.2.gbase, e.2.gcnt))

/-- Runs in use on the imagined core of a launch (R44): its own blocks, saved and decided ones too, and its own
tenures. -/
def State.imAccUsed (s : State) (launch core : Nat) : List (Nat × Nat) :=
  ((s.blocks.filter fun e => decide (e.2.launch = launch) && decide (e.2.imCore = core)).map fun e =>
      (e.2.imAcc, e.2.accGran)) ++
    ((s.saved.filter fun e => decide (e.2.block.launch = launch) && decide (e.2.block.imCore = core)).map fun e =>
      (e.2.block.imAcc, e.2.block.accGran)) ++
    (match s.launches.get? launch with
      | none => []
      | some l => (l.plans.filter fun p => decide (p.core = core)).map fun p => p.acc) ++
    (s.cores.flatMap fun k => (k.2.tenures.filter fun e => decide (e.2.launch = launch) && decide (e.2.imCore = core)).map fun e =>
      (e.2.imBase, e.2.gcnt)) ++
    (s.saved.flatMap fun e => (e.2.tenures.filter fun t => decide (t.launch = launch) && decide (t.imCore = core)).map fun t =>
      (t.imBase, t.gcnt)) ++
    ((s.pool.filter fun p => p.live && decide (p.launch = launch) && decide (p.imCore = some core)).map fun p =>
      (p.imBase, shapeGran p.shape))

/-- Whether a run of granules fits. -/
inductive Room where
  /-- physical base and imagined base -/
  | at_ (base im : Nat)
  /-- it fits on the imagined core; other launches hold the physical room (R340) -/
  | taken
  | full
  deriving DecidableEq, Repr

/-- Room for `n` granules on a core, and for a DQM launch on its imagined core `imCore`; `keep` is an imagined place
already held there, `stay` a place held on the core itself. -/
def State.accRoom (s : State) (launch : Nat) (dqm : Bool) (core imCore n : Nat) (keep stay : Option Nat) : Room :=
  let phys := match stay with
    | some b => some b
    | none => if (s.core core).tenures.length < 32 then freeRun (s.accUsed core) n accTotal else none
  if dqm then
    match (match keep with | some b => some b | none => freeRun (s.imAccUsed launch imCore) n accTotal), phys with
    | none, _ => .full
    | some _, none => .taken
    | some im, some b => .at_ b im
  else match phys with
    | some b => .at_ b b
    | none => .full

/-! ## Room on a core (R18, R36 to R38) -/

/-- What a core holds: waves by section, register run and granules; scratchpad and accumulator runs. -/
structure Occ where
  waves : List (Nat × Nat × Nat)
  scr : List (Nat × Nat)
  acc : List (Nat × Nat)
  deriving DecidableEq, Repr

/-- What a block needs (R36). -/
structure Need where
  waves : Nat
  gran : Nat
  shadow : Bool
  scr : Nat
  acc : Nat
  deriving DecidableEq, Repr

/-- Where a block lies on a core: scratchpad and accumulator runs, and section and register run of each wave, a compute
wave before its shadow. -/
structure Spot where
  scr : Nat
  acc : Nat
  waves : List (Nat × Nat)
  deriving DecidableEq, Repr

/-- The needs of a block of a launch (R36). -/
def LaunchRec.need (r : LaunchRec) : Need where
  waves := r.waves
  gran := (r.regCount + 7) / 8
  shadow := r.options.getLsbD 1
  scr := (r.shared + 4095) / 4096 + (64 * r.waves * r.slice + 4095) / 4096
  acc := (r.acc + 16383) / 16384

/-- A run of `n` granules among `total`; `loose` takes the free granules as though they were contiguous (R39, R45). -/
def runIn (loose : Bool) (used : List (Nat × Nat)) (n total : Nat) : Option Nat :=
  if loose then (if (used.map (·.2)).sum + n ≤ total then some 0 else none) else freeRun used n total

/-- The register runs in use in a section. -/
def Occ.inSect (o : Occ) (k : Nat) : List (Nat × Nat) := (o.waves.filter fun w => decide (w.1 = k)).map (·.2)

/-- The sections by free wave slots, most first, ties by number (R37). -/
def Occ.sects (o : Occ) : List Nat :=
  (List.range 17).flatMap fun n => [0, 1, 2, 3].filter fun k => decide ((o.inSect k).length = n)

/-- Put a wave, and its shadow, into a section (R36 to R38): 16 wave slots, and runs in the section's 128 granules. -/
def Occ.addPair (loose : Bool) (o : Occ) (need : Need) (k : Nat) : Option (Occ × List (Nat × Nat)) :=
  let used := o.inSect k
  if 16 < used.length + (if need.shadow then 2 else 1) then none
  else match runIn loose used need.gran 128 with
    | none => none
    | some r =>
      if need.shadow then
        match runIn loose ((r, need.gran) :: used) (need.gran + 4) 128 with
        | none => none
        | some q =>
          some ({ o with waves := o.waves ++ [(k, r, need.gran), (k, q, need.gran + 4)] }, [(k, r), (k, q)])
      else some ({ o with waves := o.waves ++ [(k, r, need.gran)] }, [(k, r)])

/-- Put `n` waves on a core, in ascending order; `sects` are sections already decided (R44). -/
def Occ.addWaves (loose : Bool) (need : Need) (sects : Option (List Nat)) :
    Nat → Nat → Occ → Option (Occ × List (Nat × Nat))
  | 0, _, o => some (o, [])
  | n + 1, i, o =>
    let order := match sects with
      | none => o.sects
      | some ks => [ks.getD (i * if need.shadow then 2 else 1) 0]
    match order.findSome? fun k => Occ.addPair loose o need k with
    | none => none
    | some (o, ps) => (Occ.addWaves loose need sects n (i + 1) o).map fun x => (x.1, ps ++ x.2)

/-- Room for a block on a core (R18, R37, R38). -/
def Occ.fit (loose : Bool) (need : Need) (sects : Option (List Nat)) (o : Occ) : Option (Occ × Spot) :=
  match Occ.addWaves loose need sects need.waves 0 o, runIn loose o.scr need.scr 64, runIn loose o.acc need.acc 32 with
  | some (p, ws), some a, some b =>
    some ({ p with scr := o.scr ++ [(a, need.scr)], acc := o.acc ++ [(b, need.acc)] }, ⟨a, b, ws⟩)
  | _, _, _ => none

/-- An empty core. -/
def Occ.empty : Occ := ⟨[], [], []⟩

/-- Granules of a wave's run: its registers, and a shadow wave's queue storage. -/
def Wave.runGran (w : Wave) : Nat := w.regCount / 8 + if w.shadow then 4 else 0

/-- What a core holds in fact. -/
def State.physOcc (s : State) (core : Nat) : Occ where
  waves := (s.waves.filter fun e => decide (e.2.core = core)).map fun e => (e.2.sect, e.2.runBase, e.2.runGran)
  scr := (s.blocks.filter fun e => decide (e.2.core = core)).map fun e => (e.2.scrBase, e.2.scrGran)
  acc := s.accUsed core

/-- What the imagined core of a launch holds (R44): its blocks, saved and decided ones too, and its tenures. -/
def State.imOcc (s : State) (launch : Nat) (l : Launch) (core : Nat) : Occ :=
  let mine := (s.blocks.filter fun e => decide (e.2.launch = launch) && decide (e.2.imCore = core))
  let kept := s.saved.filter fun e => decide (e.2.block.launch = launch) && decide (e.2.block.imCore = core)
  let plans := l.plans.filter fun p => decide (p.core = core)
  let run (w : Wave) : Nat × Nat × Nat := (w.imRun / 128, w.imRun % 128, w.runGran)
  { waves := (s.waves.filter fun e => mine.any fun b => decide (b.1 = e.2.block)).map (fun e => run e.2) ++
      kept.flatMap (fun e => e.2.waves.map fun w => run w.2) ++ plans.flatMap fun p => p.waves
    scr := mine.map (fun e => (e.2.imScr, e.2.scrGran)) ++
      kept.map (fun e => (e.2.block.imScr, e.2.block.scrGran)) ++ plans.map fun p => p.scr
    acc := s.imAccUsed launch core }

/-! ## What has freed (R20, R42, R44) -/

/-- Cores on which a launch's next cluster would find no room for member 0 have had their turn: only a later freeing
counts for them (R20, R42). -/
def State.pruneFreed (s : State) : State :=
  { s with launches := s.launches.map fun e =>
      if e.2.freed = [] then e
      else (e.1, { e.2 with freed := e.2.freed.filter fun x =>
        (Occ.fit false e.2.record.need none (if e.2.dqm then s.imOcc e.1 e.2 x.2 else s.physOcc x.2)).isSome }) }

/-- Enter a core among those that have freed: when, then by number. A core that has stood there with room since keeps its
place. -/
def Launch.enterFreed (l : Launch) (at_ core : Nat) : Launch :=
  if l.freed.any fun x => decide (x.2 = core) then l
  else
    let before (x : Nat × Nat) : Bool := decide (x.1 < at_ ∨ (x.1 = at_ ∧ x.2 < core))
    { l with freed := l.freed.filter before ++ [(at_, core)] ++ l.freed.filter fun x => !before x }

/-- Resources of a core have become free (R20): for free-mode launches all, and, on the imagined core, for the DQM launch
that held them (R44), whose cores free one after another. -/
def State.noteFreed (s : State) (launch core im : Nat) : State :=
  State.pruneFreed { s with seq := s.seq + 1, launches := s.launches.map fun e =>
    if e.2.dqm then (if e.1 = launch then (e.1, e.2.enterFreed s.seq im) else e) else (e.1, e.2.enterFreed s.now core) }

/-- Room on an imagined core of a DQM launch alone has become free (R20, R44). -/
def State.noteImFreed (s : State) (launch im : Nat) : State :=
  State.pruneFreed { s with seq := s.seq + 1, launches := s.launches.map fun e =>
    if e.1 = launch && e.2.dqm then (e.1, e.2.enterFreed s.seq im) else e }

/-! ## The table and the pool (R337, R338) -/

/-- Enter a tenure in a core's ownership table: the lowest-numbered free entry. -/
def State.enterTenure (s : State) (core : Nat) (t : Tenure) : State :=
  s.modCore core fun k => { k with tenures := k.tenures.set ((k.tenures.firstFree 32 0).getD 0) t }

/-- Strike an entry from the table. -/
def State.strikeTenure (s : State) (core entry : Nat) : State :=
  s.modCore core fun k => { k with tenures := k.tenures.erase entry }

/-- Change an entry. -/
def State.modTenure (s : State) (core entry : Nat) (f : Tenure → Tenure) : State :=
  s.modCore core fun k => { k with tenures := k.tenures.modify entry f }

/-- A tenure is unpinned: its granules are free and its handle names nothing (R317). -/
def State.freeTenure (s : State) (core entry : Nat) : State :=
  match (s.core core).tenures.get? entry with
  | none => s
  | some t => (s.strikeTenure core entry).noteFreed t.launch core t.imCore

/-- Where a handle of a launch is. -/
inductive Named where
  | nowhere
  /-- in a saved image of its block (R320) -/
  | imaged (t : Tenure)
  | on (core entry : Nat) (t : Tenure)
  | pooled (p : Spilled)
  deriving Repr

/-- The entry of a core's table that holds a tenure of a launch, struck in the open quantum or not. -/
def State.entryOf (s : State) (launch : Nat) (h : Word) : Option (Nat × Nat × Tenure) :=
  s.cores.findSome? fun e => (e.2.tenures.find? fun t => decide (t.2.launch = launch) && decide (t.2.handle = h)).map
    fun t => (e.1, t.1, t.2)

/-- Strike a tenure of a launch wherever it is, on a core or in the pool: its handle names nothing any longer (R317). -/
def State.strikeHandle (s : State) (launch : Nat) (h : Word) : State :=
  match s.entryOf launch h with
  | some (k, i, _) => s.freeTenure k i
  | none =>
    match s.pool.find? fun p => p.live && decide (p.launch = launch) && decide (p.handle = h) with
    | none => s
    | some p =>
      let off (q : Spilled) : Spilled := if q.launch = launch ∧ q.handle = h then { q with live := false } else q
      let s : State := { s with pool := s.pool.map off }
      match p.imCore with
      | some c => s.noteImFreed launch c
      | none => s

/-- Resolve a handle (R311, R317, R320, R338). -/
def State.named (s : State) (launch : Nat) (h : Word) : Named :=
  match (s.entryOf launch h).bind fun x => if x.2.2.gone then none else some x with
  | some (k, i, t) => .on k i t
  | none =>
    match s.pool.find? fun p => p.live && decide (p.launch = launch) && decide (p.handle = h) with
    | some p => .pooled p
    | none =>
      match s.saved.findSome? fun e => if e.2.block.launch = launch then
          e.2.tenures.find? fun t => decide (t.handle = h) else none with
      | some t => .imaged t
      | none => .nowhere

/-- The shape of a named tenure. -/
def Named.shape : Named → BitVec 4
  | .nowhere => 0
  | .imaged t => t.shape
  | .on _ _ t => t.shape
  | .pooled p => p.shape

/-- 4 KiB units of a spill record (R338). -/
def spillUnits (s : BitVec 4) : Nat := (0x40 + 4 * shapeV s * shapeK s + 8 * shapeV s + 4095) / 4096

/-- The pool's units in use. -/
def State.poolUsed (s : State) : List (Nat × Nat) := (s.pool.filter fun p => p.live).map fun p => (p.offset, p.units)

/-- The first free run of the pool (R338): first fit in whole units. -/
def State.poolFit (s : State) (n : Nat) : Option Nat :=
  let total := (s.ctl.tspSize.extractLsb' 12 20).toNat
  let used := s.poolUsed
  let starts := 0 :: used.map fun u => u.1 + u.2
  let fits := starts.filter fun b => decide (b + n ≤ total) &&
    used.all fun u => decide (b + n ≤ u.1) || decide (u.1 + u.2 ≤ b)
  fits.foldl (fun m b => match m with | none => some b | some x => some (min x b)) none

/-- A tenure as it stands after a spill and a restore: failed when a row fails verification (R319, R320). -/
def Tenure.respilled (t : Tenure) : Tenure := { t with failed := t.failed || t.firstBad.isSome }

/-- Spill a resident tenure to the pool (R338, R339); none when the pool is full or disabled. `forOwn`: the spill is
made for the launch's own waiting pin, which frees its imagined room (R44). -/
def State.spill (s : State) (core entry : Nat) (forOwn : Bool) : Option State :=
  match (s.core core).tenures.get? entry with
  | none => none
  | some t =>
    match s.poolFit (spillUnits t.shape) with
    | none => none
    | some off =>
      let old := s.pool.find? fun p => decide (p.launch = t.launch) && decide (p.handle = t.handle)
      if 4096 ≤ (s.pool.filter fun p => p.live).length then none
      else
        let rec_ : Spilled :=
          { handle := t.handle, launch := t.launch, tag := t.tag, offset := off, units := spillUnits t.shape,
            gen := (match old with | some p => p.gen + 1 | none => 1), live := true, pinOrder := t.pinOrder,
            pinBlock := t.pinBlock, shape := t.shape, failed := t.failed,
            imCore := if forOwn then none else some t.imCore, imBase := t.imBase }
        let s := s.poke none (s.ctl.tspBase.toNat + 4096 * off) t.bytes
        some <| State.noteFreed (launch := if forOwn then t.launch else s.takes) (core := core) (im := t.imCore) { s.strikeTenure core entry with
          pool := (s.pool.filter fun p => !(decide (p.launch = t.launch) && decide (p.handle = t.handle))) ++ [rec_] }

/-- What naming a tenure on a core comes to. -/
inductive Brought where
  | here (entry : Nat) (t : Tenure) (s : State)
  /-- no room on the issuing core -/
  | full
  /-- the room is held by other launches (DQM) -/
  | taken
  | imaged
  deriving Repr

/-- Restore a tenure from the pool to a core at given places. -/
def State.unspill (s : State) (core imCore : Nat) (p : Spilled) (base im : Nat) : Tenure × State :=
  let old : Tenure :=
    { handle := p.handle, launch := p.launch, tag := p.tag, shape := p.shape, gbase := base, gcnt := shapeGran p.shape,
      imCore := imCore, imBase := im, elems := [], csum := [], msum := [], writes := 0, failed := false, pinOrder := p.pinOrder,
      pinBlock := p.pinBlock, gone := false }
  let t := old.ofBytes s.rawByte (s.ctl.tspBase.toNat + 4096 * p.offset)
  let t := { t with failed := t.failed || p.failed }
  let s := { s with pool := s.pool.map fun (q : Spilled) =>
    if q.launch = p.launch ∧ q.handle = p.handle then { q with live := false } else q }
  (t, s.enterTenure core t)

/-- Bring a named tenure to the issuing core (R318, R338). -/
def State.bring (s : State) (c : Ctx) (n : Named) : Brought :=
  match n with
  | .nowhere => .imaged
  | .imaged _ => .imaged
  | .on k i t =>
    if k = c.w.core ∧ (c.l.dqm = false ∨ t.imCore = c.b.imCore) then .here i t s
    else match (s.strikeTenure k i).accRoom c.b.launch c.l.dqm c.w.core c.b.imCore t.gcnt
        (if t.imCore = c.b.imCore then some t.imBase else none) (if k = c.w.core then some t.gbase else none) with
      | .full => .full
      | .taken => .taken
      | .at_ base im =>
        let new := { t.respilled with gbase := base, imCore := c.b.imCore, imBase := im }
        let s := s.strikeTenure k i
        let entry := ((s.core c.w.core).tenures.firstFree 32 0).getD 0
        .here entry new ((s.enterTenure c.w.core new).noteFreed t.launch k t.imCore)
  | .pooled p =>
    match s.accRoom c.b.launch c.l.dqm c.w.core c.b.imCore (shapeGran p.shape)
        (if p.imCore = some c.b.imCore then some p.imBase else none) none with
    | .full => .full
    | .taken => .taken
    | .at_ base im =>
      let x := s.unspill c.w.core c.b.imCore p base im
      .here (((s.core c.w.core).tenures.firstFree 32 0).getD 0) x.1 x.2

/-- An operation that names the tenure is in flight (R315, R333). -/
def State.tenureBusy (s : State) (launch : Nat) (h : Word) : Bool :=
  s.allOps.any fun o => decide (o.launch = launch) && decide (o.tenure = some h)

/-- A named tenure is marked failed (R320). -/
def Named.failed : Named → Bool
  | .nowhere => false
  | .imaged t => t.failed
  | .on _ _ t => t.failed
  | .pooled p => p.failed

/-- ADDR of a tenure's row. -/
def rowAddr (h : Word) (row : Nat) : DWord := h ++ (BitVec.ofNat 32 row : Word)

/-- The fault of a tenure's row: ADDR names handle and row, bit 31 of DETAIL marks a tenure. -/
def rowFault (h : Word) (row : Nat) : Res := .halt 0x34 (rowAddr h row) 0x80000000

/-- The same fault met once the tenure has been moved to the issuing core: the move, and a mark it has left on the tenure,
stand (R318, R320). -/
def State.rowFaultAt (s : State) (c : Ctx) (h : Word) (row : Nat) : Res :=
  .left ((s.unpop c).haltWord c 0x34 (rowAddr h row) 0x80000000)

/-- Wait for a tenure, then for its ops, and bring it here; `k` goes on with its entry. A wave that names a tenure held in a
saved image stays Blocked until the image is restored (R320). -/
def State.withTenure (s : State) (c : Ctx) (h : Word) (budget : Bool) (k : Nat → Tenure → State → Res) : Res :=
  let n := s.named c.b.launch h
  if s.tenureBusy c.b.launch h || s.pairHolds c.w.core then .wait s
  else if budget && s.govSpent c.w.core then .wait (s.countStall c)
  else match s.bring c n with
    | .imaged => .block .handle s
    | .full => if c.l.dqm then .endFirst s else .block .handle s
    | .taken => .block .handle s
    | .here e t s => (k e t s).counted (if budget then [c.w.core] else [])

/-! ## `pin` (R311, R340) -/

/-- The rank of R311: placement rank, or equation-block id. Pins made so far of the block. -/
def State.pinsOf (s : State) (b : Block) (l : Launch) : Nat :=
  match l.standing with
  | none => b.pins
  | some p => match (s.programs.get? p).bind fun q => q.eqs.get? b.rank with
    | some e => e.pins
    | none => 0

/-- Count a pin. -/
def State.countPin (s : State) (c : Ctx) : State :=
  match c.l.standing with
  | none => s.modBlock c.w.block fun b => { b with pins := b.pins + 1 }
  | some p => s.modProgram p fun q => { q with eqs := q.eqs.modify c.b.rank fun e => { e with pins := e.pins + 1 } }

/-- Allocate a tenure at a place: every element, sum and count is 0; the operation writes the handle. -/
def State.grantPin (s : State) (c : Ctx) (d : Nat) (shape : BitVec 4) (base im : Nat) : Res :=
  let h : Word := BitVec.ofNat 32 (c.b.rank * 256 + s.pinsOf c.b c.l + 1)
  let t : Tenure :=
    { handle := h, launch := c.b.launch, tag := c.l.tag, shape := shape, gbase := base, gcnt := shapeGran shape,
      imCore := c.b.imCore, imBase := im, elems := [], csum := [], msum := [], writes := 0, failed := false, pinOrder := s.seq,
      pinBlock := c.w.block, gone := false }
  ((s.enterTenure c.w.core t).countPin c).addOp c { c.tileOp s.seq (.pin shape) with
    dest := c.w.runSlots d 1, tenure := some h }

/-- `pin` (R311, R318). -/
def execPin (d a : Reg) (g : Guard) (s : State) : Host.Outcome State Fault Refusal :=
  closing g true (issue (tileForm g [(a, 1)] []) (fun c ops s =>
    let shape := opLane ops 0 c.src
    if !s.runsOk [(c.key, d.toNat, 1)] then .halt 0x02 0 0
    else if c.w.shadow then .halt 0x31 0 0
    else if shape.extractLsb' 4 28 != 0 || decide (2 ^ 24 ≤ c.b.rank) || decide (255 ≤ s.pinsOf c.b c.l) then
      .halt 0x35 0 0
    else match s.runStop c [] [(c.key, d.toNat, 1)] with
      | some r => r
      | none =>
        if s.pairHolds c.w.core then .wait s
        else match s.accRoom c.b.launch c.l.dqm c.w.core c.b.imCore (shapeGran (shape.setWidth 4)) none none with
          | .at_ base im => s.grantPin c d.toNat (shape.setWidth 4) base im
          | .taken => .block (.pin d.toNat (shape.toNat % 16)) s
          | .full => if c.l.dqm then .blockEnd (.pin d.toNat (shape.toNat % 16)) s
              else .block (.pin d.toNat (shape.toNat % 16)) s)) s

/-! ## `unpin`, `fwupd`, `fwrd`, `acc.chk.ten` -/

/-- Bytes of a tenure's record (R319). -/
def dumpSize (s : BitVec 4) : Nat := 0x40 + 4 * shapeV s * shapeK s + 8 * shapeV s

/-- The dump of a tenure as stores of the wave, 64 bytes apart (R317). -/
def dumpStores (a : DWord) (bs : List Byte) : List (DWord × List Byte) :=
  (pieces 64 (bs.length + 1) bs).zipIdx.map fun x => (stepAddr a (64 * x.2), x.1)

/-- `unpin` (R317, R318). -/
def execUnpin (d a : Reg) (g : Guard) (s : State) : Host.Outcome State Fault Refusal :=
  closing g true (issue (tileForm g [(a, 1), (d, 2)] []) (fun c ops s =>
    let h := opLane ops 0 c.src
    let addr := opPair ops 1 c.src
    let n := s.named c.b.launch h
    if c.w.shadow then .halt 0x31 0 0
    else match n with
    | .nowhere => .halt 0x35 0 0
    | _ =>
      if addr ≠ 0 ∧ (spaceOf addr ≠ 0 ∨ s.spaceOk c addr = false) then .halt 0x10 addr 0
      else if addr ≠ 0 ∧ addr.toNat % 64 ≠ 0 then .halt 0x11 addr 0
      else if addr ≠ 0 ∧ n.failed then rowFault h 0
      else
        let dump := if addr = 0 then [] else [(0, addr)]
        let size := dumpSize n.shape
        if s.heldByJob c dump size true then (if c.l.dqm then .endFirst s else .wait s)
        else if s.heldByTile c (dump.map fun x => (x.2, size)) [] true then .wait s
        else s.withTenure c h false fun _ t s =>
          if addr = 0 then
            let o : TileOp := { c.tileOp s.seq (.unpin 0) with tenure := some h }
            (if c.l.dqm then s.buffer c.key [.tile o.id] 0 else s).addOp c o
          else if t.failed then s.rowFaultAt c h 0
          else match t.firstBad with
            | some i => s.rowFaultAt c h i
            | none =>
              let o : TileOp := { c.tileOp s.seq (.unpin addr) with
                tenure := some h, gran := 4, spans := [(addr, size)] }
              (if c.l.dqm then s.buffer c.key [.tile o.id] 0 else s).addOp c o)) s

/-- A vector operand of the tenure forms (R312): `n` registers of 64 elements. -/
def State.vectorAt (s : State) (key r n : Nat) : List Nat :=
  (List.range n).flatMap fun i => (s.runVec key (r + i)).map BitVec.toNat

/-- `fwupd` (R312, R313). -/
def execFwupd (d a : Reg) (g : Guard) (s : State) : Host.Outcome State Fault Refusal :=
  closing g true (issue (tileForm g [(a, 1)] []) (fun c ops s =>
    let h := opLane ops 0 c.src
    let n := s.named c.b.launch h
    let kk := shapeK n.shape / 64
    let vv := shapeV n.shape / 64
    let runs : List RegRun := [(c.key, a.toNat, 1 + kk + vv), (c.key, d.toNat, 2)]
    match n with
    | .nowhere => .halt 0x35 0 0
    | _ =>
      if !s.runsOk runs then .halt 0x02 0 0
      else if c.w.shadow then .halt 0x31 0 0
      else if n.failed then rowFault h 0
      else match s.runStop c (runs.map wholeRun) [] with
        | some r => r
        | none => s.withTenure c h true fun _ t s =>
          if t.failed then s.rowFaultAt c h 0
          else s.addOp c { c.tileOp s.seq
              (.upd (laneOf (s.runVec c.key d.toNat) c.src) (laneOf (s.runVec c.key (d.toNat + 1)) c.src)) with
            a := [s.vectorAt c.key (a.toNat + 1 + kk) vv],
            b := [s.vectorAt c.key (a.toNat + 1) kk],
            tenure := some h })) s

/-- `fwrd` (R312, R314, R316). -/
def execFwrd (d a : Reg) (g : Guard) (s : State) : Host.Outcome State Fault Refusal :=
  issue (tileForm g [(a, 1)] []) (fun c ops s =>
    let h := opLane ops 0 c.src
    let n := s.named c.b.launch h
    let kk := shapeK n.shape / 64
    let vv := shapeV n.shape / 64
    let reads : List RegRun := [(c.key, a.toNat, 1 + kk)]
    let writes : List RegRun := [(c.key, d.toNat, vv)]
    match n with
    | .nowhere => .halt 0x35 0 0
    | _ =>
      if !s.runsOk (reads ++ writes) then .halt 0x02 0 0
      else if c.w.shadow then .halt 0x31 0 0
      else if n.failed then rowFault h 0
      else match s.runStop c (reads.map wholeRun) writes with
        | some r => r
        | none => s.withTenure c h true fun _ t s =>
          if t.failed then s.rowFaultAt c h 0
          else match t.firstBad with
            | some i => s.rowFaultAt c h i
            | none =>
              s.addOp c { c.tileOp s.seq .frd with
                a := [s.vectorAt c.key (a.toNat + 1) kk],
                dest := c.w.runSlots d.toNat vv,
                tenure := some h }) s

/-- `acc.chk.ten` (R364). -/
def execAccChkTen (a : Reg) (g : Guard) (s : State) : Host.Outcome State Fault Refusal :=
  issue (tileForm g [(a, 1)] []) (fun c ops s =>
    let h := opLane ops 0 c.src
    let n := s.named c.b.launch h
    if c.w.shadow then .halt 0x31 0 0
    else match n with
    | .nowhere => .halt 0x35 0 0
    | _ =>
      if n.failed then rowFault h 0
      else s.withTenure c h false fun _ t s =>
        if t.failed then s.rowFaultAt c h 0
        else s.addOp c { c.tileOp s.seq .chkTen with tenure := some h }) s

end Sys2Proof.Machine
end

