-- ==== Sys2Proof/Machine/Retire.lean ====
section
/-! DEFINITION. How tile operations retire: results, checksums, replays, deferred faults, stores; pairs, waiting pins,
the governor's window and failed residue channels (R316, R317, R328 to R335, R344 to R347, R354 to R369). -/

namespace Sys2Proof.Machine

open Sys2Proof

/-! ## Operations of a core -/

/-- An operation by its number. -/
def State.tileOp (s : State) (core id : Nat) : Option TileOp := (s.core core).ops.find? fun o => decide (o.id = id)

/-- Change an operation. -/
def State.modOp (s : State) (core id : Nat) (f : TileOp → TileOp) : State :=
  s.modCore core fun k => { k with ops := k.ops.map fun o => if o.id = id then f o else o }

/-- The operation leaves the engine; its flags wait for a `wait.c` (R105). -/
def State.endOp (s : State) (core : Nat) (o : TileOp) (fl : Flags) : State :=
  let ends (w : Wave) : Wave :=
    { w with mxflags := if fl = 0 || w.exited then w.mxflags else w.mxflags ++ [(o.seqNo, o.lane, fl)],
             share := w.share.filter fun e => decide (e ≠ .tile o.id) }
  let s := (s.modCore core fun k => { k with ops := k.ops.filter fun p => decide (p.id ≠ o.id) }).modWave o.wave ends
  if o.once then s.snapWave o.wave o.id ends else s

/-- The context of an operation. -/
def State.opCtx (s : State) (o : TileOp) : Option Ctx :=
  match s.waves.get? o.wave, s.blocks.get? o.block, s.launches.get? o.launch with
  | some w, some b, some l => some ⟨o.wave, { w with sup := o.sup, walkOut := o.walkOut }, b, l, maskOf fun i => i == o.lane, 0, true⟩
  | _, _, _ => none

/-- An rns operation (R347, R368). -/
def TileOp.isRns (o : TileOp) : Bool :=
  match o.kind with
  | .mma .rns _ _ _ _ _ => true
  | .tld _ _ _ _ 2 => true
  | .tst _ _ _ _ 2 _ _ _ => true
  | .rnsr => true
  | .rnsChk _ => true
  | .zero 3 => true
  | .wr 3 => true
  | _ => false

/-- The rns operations in flight on a core: those of its own engine, and those of a pair whose follower it is (R347,
R368). -/
def State.rnsOn (s : State) (core : Nat) : List TileOp :=
  (s.core core).ops.filter TileOp.isRns ++
    if core % 2 = 1 then (s.core (core - 1)).ops.filter fun o => o.isRns && o.follower.isSome else []

/-- An earlier operation must retire first (R333, R368). -/
def State.opHeld (s : State) (core : Nat) (o : TileOp) : Bool :=
  (match o.tenure with
    | some h => (match s.named o.launch h with
      | .imaged _ => true
      | _ => false)
    | none => false) ||
  s.allOps.any fun p => decide (p.id < o.id) &&
    (p.units.any (fun u => o.units.contains u) ||
     (decide (p.launch = o.launch) && o.tenure.isSome && decide (p.tenure = o.tenure)) ||
     (match o.kind with
      | .rnsChk _ => (s.rnsOn core).contains p
      | _ => false))

/-- A block whose operations may retire: resident and not halted. -/
def State.runs (s : State) (b : Nat) : Bool :=
  match s.blocks.get? b with
  | some k => k.halt.isNone
  | none => false

/-- The engine gives an operation up: a deferred fault for its wave (R334). -/
def State.failOp (s : State) (core : Nat) (o : TileOp) (cause : Nat) (addr : DWord) (detail : Word) : State :=
  (s.endOp core o 0).deferTile o cause addr detail

/-- A failed verification: the shadow stands and the operation is replayed once, then given up (R334). -/
def State.replayOrFail (s : State) (core : Nat) (o : TileOp) (addr : DWord) (detail : Word) : State :=
  if o.replayed then s.failOp core o 0x34 addr detail
  else s.modOp core o.id fun o => { o with replayed := true }

/-- ADDR of a unit. -/
def unitAddr (u : Nat) : DWord := BitVec.ofNat 64 (256 * u)

/-- The first unit that fails verification. -/
def State.badUnit (s : State) (us : List (Nat × Nat)) : Option (Nat × Nat) :=
  us.find? fun u => match s.blocks.get? u.1 with
    | some b => b.unitFaults u.2
    | none => true

/-- Reseal the units that pass (R332). -/
def State.resealSound (s : State) (us : List (Nat × Nat)) : State :=
  us.foldl (fun s u => s.modBlock u.1 fun b => b.resealSound u.2) s

/-- Reseal units. -/
def State.resealAll (s : State) (us : List (Nat × Nat)) : State :=
  us.foldl (fun s u => s.modBlock u.1 fun b => b.reseal u.2) s

/-- DETAIL of a unit fault: bit 30 marks a unit of the follower. -/
def TileOp.unitDetail (o : TileOp) (b : Nat) : Word := if b = o.block then 0 else 0x40000000

/-- An operation that has written its units: verified, it reseals those that pass and leaves (R331, R332); else `s`
stands. -/
def State.settleUnits (s t : State) (core : Nat) (o : TileOp) (fl : Flags) : State :=
  match t.badUnit o.units with
  | some u => s.replayOrFail core o (unitAddr u.2) (o.unitDetail u.1)
  | none => (t.resealSound o.units).endOp core o fl

/-! ## Products -/

/-- One row of C (R354). -/
def Block.mmaRow (b : Block) (t : MmaType) (failed : Byte) (base n : Nat) (as : List (List Nat))
    (bs : List (List (List Nat))) : Block × Flags :=
  let es := accElem t
  let per := (n * es + 255) / 256
  let row := (List.range n).map fun j => b.accNat (256 * base + es * j) es
  let r := rowSteps t failed as bs row ((List.range per).map fun u => b.pair (base + u)) 0
  let b := b.setAccs (256 * base) es r.1
  (r.2.1.zipIdx.foldl (fun b x => b.setSide (base + x.2) x.1 (mmaKind t)) b, r.2.2)

/-- Rows of C in one block's allocation. -/
def Block.mmaRows (t : MmaType) (failed : Byte) (coff cpitch n : Nat) (bs : List (List (List Nat))) :
    Block → Nat → List (List Nat) → Flags → Block × Flags
  | b, _, [], fl => (b, fl)
  | b, i, row :: rows, fl =>
    let x := b.mmaRow t failed (coff + i * cpitch) n (pieces 32 (row.length + 1) row) bs
    Block.mmaRows t failed coff cpitch n bs x.1 (i + 1) rows (fl ||| x.2)

/-- The columns of B cut into chunks. -/
def chunkCols (k : Nat) (b : List (List Nat)) : List (List (List Nat)) :=
  (List.range ((k + 31) / 32)).map fun ch => b.map fun col => (col.drop (32 * ch)).take 32

/-- The products of an operation, on its block and its follower's. -/
def State.applyMma (s : State) (core : Nat) (o : TileOp) (t : MmaType) (coff cpitch n k : Nat) : State × Flags :=
  let bs := chunkCols k o.b
  let part (s : State) (b : Nat) (failed : Byte) (rows : List (List Nat)) : State × Flags :=
    match s.blocks.get? b with
    | none => (s, 0)
    | some blk =>
      let x := Block.mmaRows t failed coff cpitch n bs blk 0 rows 0
      (s.modBlock b fun _ => x.1, x.2)
  let x := part s o.block (s.failedOn core) (o.a.take 128)
  match o.follower with
  | none => x
  | some f =>
    let y := part x.1 f (s.failedOn (core + 1)) (o.a.drop 128)
    (y.1, x.2 ||| y.2)

/-! ## Units written whole -/

/-- Write words into a unit in the layout of R362; rns bytes are reduced (R363). -/
def Block.writeUnit (b : Block) (u kind : Nat) (ws : List Nat) : Block :=
  let b := (b.setSide u 0 kind).setAccs (256 * u) 4 ws
  if kind = 3 then b.setAccs (256 * u) 8 ((b.unitElems u).map rebalance) else b

/-- Write rows of elements and set the kinds (R357). -/
def Block.loadTile (b : Block) (coff cpitch fmt : Nat) (rows : List (List Nat)) : Block :=
  rows.zipIdx.foldl (fun b x =>
    let base := coff + x.2 * cpitch
    let b := b.setAccs (256 * base) (tileElem fmt) x.1
    (List.range ((x.1.length * tileElem fmt + 255) / 256)).foldl (fun b u => b.setSide (base + u) 0 (fmtKind fmt)) b) b

/-! ## Destination registers -/

/-- Write destination registers all together, in the lanes of S (R348). -/
def State.writeDest (s : State) (o : TileOp) (lanes : Mask) (v : Nat → Nat → Word) : State :=
  s.modWave o.wave fun w => o.dest.zipIdx.foldl (fun w x => w.writeSlot x.1 (o.lanes &&& lanes) fun i => v x.2 i) w

/-! ## Stores (R317, R358, R359) -/

/-- The bytes of a row of a tile as `tst` stores it, element by element, with flags (R358). -/
def Block.tileBytes (b : Block) (o : TileOp) (coff cpitch cols fmt : Nat) (rnd : Rnd) (tid wcnt i : Nat) :
    List (List Byte) × Flags :=
  let base := 256 * (coff + i * cpitch)
  (List.range cols).foldl (fun (x : List (List Byte) × Flags) j =>
    if fmt = 2 then (x.1 ++ [natLe 8 (b.accNat (base + 8 * j) 8)], x.2)
    else
      let e := b.accNat (base + 4 * j) 4
      if fmt = 3 then
        let y := bf16.convert ⟨rnd, drawBits (matrixCounter tid i j wcnt) o.seed, false⟩ (fp32.read e)
        (x.1 ++ [natLe 2 y.1], x.2 ||| y.2)
      else (x.1 ++ [natLe 4 e], x.2)) ([], 0)

/-- The operation is a `tst`. -/
def TileOp.isTst (o : TileOp) : Bool :=
  match o.kind with
  | .tst _ _ _ _ _ _ _ _ => true
  | _ => false

/-- An operation restored from its shadow, to be issued again whole (R328, R334, R369): its memory operand is fetched again,
its flags are discarded, and a pair operation must begin again. A `tst` is drained instead. -/
def TileOp.whole (o : TileOp) : TileOp :=
  if o.isTst then o
  else { o with
    a := if o.src = [] then o.a else []
    rows := o.src
    tags := if o.out.isSome then o.tags else []
    flags := 0
    started := o.follower.isNone
    walking := []
    walkOut := [] }

/-- Change the share of an operation's wave, and in a snapshot that does not issue the operation again (R394). -/
def State.opShare (s : State) (o : TileOp) (f : List Buffered → List Buffered) : State :=
  let g (w : Wave) : Wave := { w with share := f w.share }
  if o.once then (s.modWave o.wave g).snapWave o.wave o.id g else s.modWave o.wave g

/-- Put stores at the place of an operation in its wave's commit share (R359). -/
def intoShare (id : Nat) (es : List Buffered) (share : List Buffered) : List Buffered :=
  share.flatMap fun e => if e = .tile id then es ++ [e] else [e]

/-- Perform one run of stores, whole or not at all; a peer's acknowledgement is awaited by the operation (R161, R359). -/
def State.storeRun (s : State) (c : Ctx) (o : TileOp) (a : DWord) (bs : List Byte) : Moved Unit :=
  let as := (runAddrs o.gran (a, bs.length)).map fun x => (0, x)
  match State.check { s with later := false } c as o.gran .write .nothing with
  | .fault k _ a => .fault k a
  | .park _ a => .pause a
  | .wait _ => .pending s
  | .walk ks t => .pending (({ t with later := s.later } : State).modOp c.w.core o.id fun o => { o with walking := ks })
  | .endQuantum => .pending s
  | .ok rs t =>
    let s := { t with later := s.later }
    let parts := rs.zip (pieces o.gran (bs.length + 1) bs)
    if c.l.dqm then
      .ok () (s.opShare o (intoShare o.id (parts.map fun p => .store p.1.tgt o.gran (leNat p.2) o.lane p.1.addr)))
    else
      .ok () (parts.foldl (fun s p =>
        if p.1.remote then
          let x := s.askAll o.wave o.id (writeAsks [p.1] o.gran fun _ => leNat p.2)
          x.2.modOp c.w.core o.id fun o => { o with tags := o.tags ++ x.1 }
        else (s.storeAll o.wave c.w.core o.gran (fun _ => leNat p.2) [p.1] 0).2) s)

/-- What came of the stores of an operation. -/
inductive Stored where
  | all (s : State)
  /-- some remain: an absent page or a wait -/
  | held (s : State)
  | failed (s : State)
  deriving Repr

/-- Every store has been sent: the operation waits for the answers of peers; a failed one faults it (R161, R305). -/
def State.storesAcked (s : State) (core : Nat) (o : TileOp) : Stored :=
  match s.tileOp core o.id with
  | none => .all s
  | some q =>
    match s.answers q.tags with
    | none => .held s
    | some got => match got.find? fun r => decide (r.status ≠ some 0) with
      | some r => .failed ((s.forget q.tags).failOp core o 0x17 r.addr 0)
      | none => .all (s.forget q.tags)

/-- Perform the stores that remain; a fault on one is the wave's at a later `wait.c`, an absent page holds the rest
(R167, R359). -/
def State.storeOut (core : Nat) (o : TileOp) : List (DWord × List Byte) → State → Stored
  | [], s => (s.modOp core o.id fun o => { o with out := some [] }).storesAcked core o
  | x :: rest, s =>
    match s.opCtx o with
    | none => .held s
    | some c =>
      match s.storeRun c o x.1 x.2 with
      | .ok _ s => State.storeOut core o rest s
      | .pending s => .held (s.modOp core o.id fun o => { o with out := some (x :: rest) })
      | .pause a =>
        .held ((s.recordHeld o a).modOp core o.id fun o => { o with out := some (x :: rest), held := true, walkOut := [] })
      | .fault k a => .failed (s.failOp core o k a 0)

/-! ## Retirement -/

/-- Reseal units that pass, up to the first that fails (R364). -/
def State.chkUnits (s : State) (core : Nat) (o : TileOp) : List (Nat × Nat) → State
  | [] => s.endOp core o 0
  | u :: us =>
    match s.badUnit [u] with
    | some _ => s.failOp core o 0x34 (unitAddr u.2) 0
    | none => State.chkUnits (s.modBlock u.1 fun b => b.resealSound u.2) core o us

/-- Reseal rows that pass, up to the first that fails: that row, if any, and the tenure after (R364). -/
def Tenure.chkRows (t : Tenure) : List Nat → Option Nat × Tenure
  | [] => (none, t)
  | i :: is => if t.rowPasses i then (t.resealRow i).chkRows is else (some i, t)

/-- Answers of `rnsr` by lane (R367). -/
def State.rnsLanes (s : State) (core : Nat) (o : TileOp) (b : Block) : List (Nat × Reversed) :=
  (lanesOf o.lanes).filterMap fun i =>
    match o.units[i / 32]? with
    | none => none
    | some u => some (i, reverse (s.failedOn core) ((b.unitElems u.2).getD (i % 32) 0))

/-- `rnsr` at retirement: values and statuses, RNSLOG, or a residue-mismatch fault (R346, R367). -/
def State.retireRnsr (s : State) (core : Nat) (o : TileOp) (b : Block) : State :=
  let xs := s.rnsLanes core o b
  match xs.findSome? fun x => match x.2 with
    | .mismatch k cands => some (BitVec.ofNat 32 (k + 256 * cands))
    | .value _ _ _ => none with
  | some d => s.failOp core o 0x36 0 d
  | none =>
    let at_ (i : Nat) : Int × Nat × Nat := match xs.find? fun x => decide (x.1 = i) with
      | some (_, .value v k ch) => (v, k, ch)
      | _ => (0, 0, 0)
    let located := xs.filterMap fun x => match x.2 with
      | .value _ 1 ch => some ch
      | _ => none
    let s := s.modCore core fun k => { k with
      rnsCount := BitVec.ofNat 32 (min (2 ^ 32 - 1) (k.rnsCount.toNat + located.length))
      rnsLast := match located.getLast? with | some ch => BitVec.ofNat 3 ch | none => k.rnsLast }
    (s.writeDest o (maskOf fun i => xs.any fun x => decide (x.1 = i)) fun r i =>
      match r with
      | 0 => (BitVec.ofInt 64 (at_ i).1 : DWord).extractLsb' 0 32
      | 1 => (BitVec.ofInt 64 (at_ i).1 : DWord).extractLsb' 32 32
      | 2 => BitVec.ofNat 32 ((at_ i).2.1 + if (at_ i).2.1 = 1 then 16 * (at_ i).2.2 else 0)
      | _ => 0).endOp core o 0

/-- A channel's test (R368): the sum of 32 squares through the channel's multipliers differs from the exact sum modulo
its modulus. What the multipliers give is open (log entry 24). -/
def channelFails (core test : Nat) (x : Int) (p : Nat) : Bool :=
  let rs := (List.range 32).map fun (n : Nat) => balanced (x + (n : Int)) (modulus p)
  decide ((rs.foldl (fun a r => a + Config.channelProduct test core p r r) 0) % (modulus p : Int) ≠
    (rs.foldl (fun a r => a + r * r) 0) % (modulus p : Int))

/-- The word that `rns.chk` writes: bit p is 1 for a channel p that fails (R368). -/
def channelTest (core test : Nat) (x : Int) : Word :=
  BitVec.ofNat 32 (chanBits ((List.range 8).filter (channelFails core test x)))

/-- Where the tenure of an operation stands. -/
inductive OpTenure where
  | at_ (core entry : Nat) (t : Tenure) (s : State)
  /-- it waits for room, or for the image that holds it (R318, R320) -/
  | away
  | gone
  deriving Repr

/-- The tenure of an operation that retires: one that was spilled while the operation was saved comes back to the core it
is issued on (R315, R318). -/
def State.opTenure (s : State) (core : Nat) (o : TileOp) (c : Ctx) : OpTenure :=
  match o.tenure with
  | none => .gone
  | some h => match s.named o.launch h with
    | .nowhere => .gone
    | .imaged _ => .away
    | .on k i t => if k = core then .at_ k i t s else match s.bring c (.on k i t) with
      | .here i t s => .at_ core i t s
      | _ => .away
    | .pooled p => match s.bring c (.pooled p) with
      | .here i t s => .at_ core i t s
      | _ => .away

/-- An operation on a tenure, issued again whole where it was in flight: `k` does its work once the tenure is here; the
launch's end leaves no tenure, and a failed one is no longer used (R315, R320). -/
def State.onTenure (s : State) (core : Nat) (o : TileOp) (c : Ctx) (k : Nat → Nat → Tenure → State → State) : State :=
  match s.opTenure core o c with
  | .away => s
  | .gone => s.failOp core o 0x35 0 0
  | .at_ n i t s => if t.failed then s.failOp core o 0x34 (rowAddr t.handle 0) 0x80000000 else k n i t s

/-- The stores of an `unpin` or a `tst`, as far as they go; `done` is what follows once all have completed. -/
def State.putStores (s : State) (core : Nat) (o : TileOp) (xs : List (DWord × List Byte)) (done : State → State) : State :=
  match State.storeOut core o xs s with
  | .all s => done s
  | .held s => s
  | .failed s => s

/-- An `unpin` ends: its tenure is struck. In DQM its granules are free at the boundary (R20), and one with a dump is struck
there, as the dump lands (R317). A tenure that cannot be reached now is waited for; the launch's end leaves none (R315,
R320). -/
def State.unpinned (s : State) (core : Nat) (o : TileOp) (c : Ctx) : State :=
  match o.tenure with
  | none => s.endOp core o 0
  | some h =>
    if c.l.dqm ∧ o.spans ≠ [] then
      (s.opShare o (intoShare o.id [.strike h ((o.spans.map fun r => r.2 / o.gran).sum)])).endOp core o 0
    else match s.opTenure core o c with
      | .at_ k i _ s =>
        if c.l.dqm then
          ((s.modTenure k i fun t => { t with gone := true }).opShare o (intoShare o.id [.strike h 0])).endOp core o 0
        else (s.freeTenure k i).endOp core o 0
      | .away => s
      | .gone => s.failOp core o 0x35 0 0

/-- What an operation of each kind does as it retires. -/
def State.retireKind (s : State) (core : Nat) (o : TileOp) (c : Ctx) : State :=
  match o.kind with
  | .mma t coff cpitch n _ k =>
    let x := s.applyMma core o t coff cpitch n k
    s.settleUnits x.1 core o x.2
  | .tld coff cpitch _ _ fmt =>
    let t := (s.modBlock o.block fun b => b.loadTile coff cpitch fmt o.a).resealAll o.units
    s.settleUnits t core o o.flags
  | .tst coff cpitch cols rows fmt rnd tid wcnt =>
    match o.out with
    | some xs => s.putStores core o xs fun s => s.endOp core o o.flags
    | none => match s.badUnit o.units with
      | some u => s.failOp core o 0x34 (unitAddr u.2) 0
      | none =>
        let parts := (List.range rows).map fun i => c.b.tileBytes o coff cpitch cols fmt rnd tid wcnt i
        let fl := parts.foldl (fun f x => f ||| x.2) (0 : Flags)
        let xs := ((o.spans.map (·.1)).zip parts).map fun x => (x.1, x.2.1.flatten)
        (s.modOp core o.id fun o => { o with out := some xs, flags := fl }).putStores core o xs fun s =>
          s.endOp core o fl
  | .zero kind =>
    (s.modBlock o.block fun b => o.units.foldl (fun b u =>
      (b.setAccs (256 * u.2) 4 (List.replicate 64 0)).setSide u.2 0 kind) b).endOp core o 0
  | .rd =>
    match s.badUnit o.units with
    | some u => s.failOp core o 0x34 (unitAddr u.2) 0
    | none => (s.writeDest o (BitVec.allOnes 64) fun r i =>
        BitVec.ofNat 32 ((c.b.unitWords ((o.units.getD r (0, 0)).2)).getD i 0)).endOp core o 0
  | .wr kind =>
    let t := (s.modBlock o.block fun b => (o.units.zip o.a).foldl (fun b x => b.writeUnit x.1.2 kind x.2) b).resealAll
      o.units
    s.settleUnits t core o 0
  | .chkTile => s.chkUnits core o o.units
  | .chkTen => s.onTenure core o c fun k i t s =>
      let x := t.chkRows (List.range (shapeV t.shape))
      let s := s.modTenure k i fun _ => x.2
      match x.1 with
      | none => s.endOp core o 0
      | some row => s.failOp core o 0x34 (rowAddr t.handle row) 0x80000000
  | .pin _ => (s.writeDest o (BitVec.allOnes 64) fun _ _ => o.tenure.getD 0).endOp core o 0
  | .unpin addr =>
    if addr = 0 then s.unpinned core o c
    else match o.out with
      | some xs => s.putStores core o xs fun s => s.unpinned core o c
      | none => s.onTenure core o c fun _ _ t s =>
          match t.firstBad with
          | some row => s.failOp core o 0x34 (rowAddr t.handle row) 0x80000000
          | none =>
            let xs := dumpStores addr t.bytes
            (s.modOp core o.id fun o => { o with out := some xs }).putStores core o xs fun s => s.unpinned core o c
  | .upd alpha beta => s.onTenure core o c fun k i t s =>
      let x := t.update (modeOf o.fpmode) o.seed alpha.toNat beta.toNat (o.a.getD 0 []) (o.b.getD 0 [])
      (s.modTenure k i fun _ => x.1).endOp core o x.2
  | .frd => s.onTenure core o c fun _ _ t s =>
      match t.firstBad with
      | some row => s.failOp core o 0x34 (rowAddr t.handle row) 0x80000000
      | none =>
        let out := t.readOut (o.a.getD 0 [])
        (s.writeDest o (BitVec.allOnes 64) fun r i => BitVec.ofNat 32 (out.getD (64 * r + i) (0, 0)).1).endOp core o
          (out.foldl (fun f x => f ||| x.2) 0)
  | .rnsr =>
    match s.badUnit o.units with
    | some u => s.failOp core o 0x34 (unitAddr u.2) 0
    | none => s.retireRnsr core o c.b
  | .rnsChk x => (s.writeDest o (BitVec.allOnes 64) fun _ _ => channelTest core o.id x.toInt).endOp core o 0

/-- Retire an operation if nothing holds it: earlier operations, its pair, its memory operands. -/
def State.retireOp (s : State) (core id : Nat) : State :=
  match s.tileOp core id with
  | none => s
  | some o =>
    match s.opCtx o with
    | none => s
    | some c =>
      if s.opHeld core o || o.held || !o.started || decide (o.walking ≠ []) then s
      else if s.outMeets c o.id (decide (o.spans ≠ [])) (o.rows ++ o.spans) then s
      else if o.rows = [] then s.retireKind core o c
      else match s.fetchRuns c o.gran o.tags o.rows with
        | .ok bs t =>
          let o := o.loaded bs
          (t.modOp core id fun _ => o).retireKind core o c
        | .asked tags t => t.modOp core id fun o => { o with tags := tags }
        | .pending t => t
        | .walk ks t => t.modOp core id fun o => { o with walking := ks }
        | .absent a => (s.recordHeld o a).modOp core id fun o => { o with held := true, tags := [], walkOut := [] }
        | .bad k a => s.failOp core o k a 0

/-- The follower of a pair operation has retired, or runs, or its leader does, where no pair of cores holds both (R327,
R369). DEDUCED: the operation is then given up with the pair fault that naming it there raises (log entry 63). -/
def State.pairLost (s : State) (core : Nat) (o : TileOp) : Bool :=
  match o.follower with
  | none => false
  | some f =>
    match s.blocks.get? f with
    | none => !s.saved.any fun e => decide (blockKey e.2.block.launch e.2.block.rank = f)
    | some b => !o.started && (decide (core % 2 = 1) || decide (b.core ≠ core + 1))

/-- Retire an operation whose blocks run; the operations of a halted block stay as they are until it resumes (R369). -/
def State.tryRetire (s : State) (core id : Nat) : State :=
  match s.tileOp core id with
  | none => s
  | some o =>
    if s.pairLost core o then s.failOp core o 0x30 0 0
    else if s.runs o.block && (match o.follower with | some f => s.runs f | none => true) then s.retireOp core id
    else s

/-- `MATRIX_OPERATION_RETIREMENT` (R331 to R334, R354); subject a: core, b: operation. -/
def execMatrixOperationRetirement (s : State) : Host.Outcome State Fault Refusal :=
  .next (s.tryRetire s.subj.a s.subj.b)

/-- End the operations that name a tenure, in their order, as far as they can end (R315, R339). -/
def State.finishTenure (s : State) (launch : Nat) (h : Word) : State :=
  let ends (o : TileOp) : Bool := decide (o.launch = launch) && decide (o.tenure = some h)
  let xs := s.cores.flatMap fun e =>
    let last := (e.2.ops.filter ends).foldl (fun m o => max m (o.id + 1)) 0
    (e.2.ops.filter fun o => decide (o.id < last)).map fun o => (e.1, o.id)
  (xs ++ xs).foldl (fun s x => s.tryRetire x.1 x.2) s

/-- The pair operation may begin on its follower (R328). -/
def State.mayStartPair (s : State) (core : Nat) (o : TileOp) : Bool :=
  match o.follower with
  | none => false
  | some f => !o.started && s.runs f && s.runs o.block &&
      (match s.blocks.get? f with | some b => decide (b.core = core + 1) | none => false) &&
      !(s.core (core + 1)).ops.any fun p => decide (p.id < o.id)

/-- `PAIR_OPERATION_FOLLOWER_START` (R328); subject a: core, b: operation. -/
def execPairOperationFollowerStart (s : State) : Host.Outcome State Fault Refusal :=
  match s.tileOp s.subj.a s.subj.b with
  | none => .next s
  | some o => .next (if s.mayStartPair s.subj.a o then s.modOp s.subj.a s.subj.b fun o => { o with started := true } else s)

/-- The context in which a wave's word acts once for the wave. -/
def State.waveCtx (s : State) (key : Nat) : Option Ctx :=
  match s.waves.get? key with
  | none => none
  | some w => match s.blocks.get? w.block with
    | none => none
    | some b => (s.launches.get? b.launch).map fun l => ⟨key, w, b, l, w.executing .always true, 0, true⟩

/-- Room for a waiting pin. -/
def State.pinRoom (s : State) (c : Ctx) : Option Room :=
  match c.w.blocked with
  | some (.pin _ shape) =>
    some (s.accRoom c.b.launch c.l.dqm c.w.core c.b.imCore (shapeGran (BitVec.ofNat 4 shape)) none none)
  | _ => none

/-- The place a waiting pin may have. -/
def State.pinPlace (s : State) (c : Ctx) : Option (Nat × BitVec 4 × Nat × Nat) :=
  match c.w.blocked, s.pinRoom c with
  | some (.pin d shape), some (.at_ base im) => some (d, BitVec.ofNat 4 shape, base, im)
  | _, _ => none

/-- `PIN_ALLOCATION` (R311); subject a: wave. A waiting pin whose run is free gets it, and its block's rollback interval
closes (R393); a block's 256th pin faults (R318). -/
def execPinAllocation (s : State) : Host.Outcome State Fault Refusal :=
  match s.waveCtx s.subj.a with
  | none => .next s
  | some c =>
    if c.w.qend || c.w.halted || (c.l.dqm && !c.l.quantumOpen) then .next s
    else match s.pinPlace c with
      | none => .next s
      | some (d, shape, base, im) =>
        if 255 ≤ s.pinsOf c.b c.l then .next ((s.modWave c.key fun w => { w with blocked := none }).settle c 1 (.halt 0x35 0 0))
        else .next ((s.settle c 1 (s.grantPin c d shape base im)).snapshot c.w.block)

/-! ## The governor and failed channels -/

/-- `GOVERNOR_WINDOW` (R335); subject a: core. The window that the clock has left closes. -/
def execGovernorWindow (s : State) : Host.Outcome State Fault Refusal :=
  .next (s.modCore s.subj.a fun k => k.atWindow s.now)

/-- `RNSFAIL_WRITE` (R347): a write of 1 sets a bit, a write of 0 leaves it. -/
def execRnsfailWrite (core : Nat) (bits : BitVec 8) (s : State) : Host.Outcome State Fault Refusal :=
  .next (if s.ctl.ready && decide (core < 192) then s.modCore core fun k => { k with rnsWant := k.rnsWant ||| bits } else s)

/-- `RNSFAIL_EFFECT` (R347); subject a: core. Every rns operation in flight on the core has retired, one of a pair whose
follower it is among them. -/
def execRnsfailEffect (s : State) : Host.Outcome State Fault Refusal :=
  .next (if s.rnsOn s.subj.a ≠ [] then s
    else s.modCore s.subj.a fun k => { k with rnsFail := k.rnsFail ||| k.rnsWant })

end Sys2Proof.Machine
end

