-- ==== Sys2Proof/Machine/StandWords.lean ====
section
/-! DEFINITION. The words a relaxation talks to the Thresher with, and the Millet draw (R254, R286 to R291). -/

namespace Sys2Proof.Machine

open Sys2Proof

/-- A recorded magnitude (R254, R286): bit 31 cleared, a NaN as +∞. -/
def magnitude (v : Word) : Word :=
  let m := v &&& 0x7FFFFFFF
  if 0x7F800000 < m.toNat then 0x7F800000 else m

/-- `rset` (R286). -/
def execRset (a : Reg) (g : Guard) (s : State) : Host.Outcome State Fault Refusal :=
  issue (controlForm g true [(a, 1)]) (fun c ops s =>
    .done .plain (if c.l.standing.isSome then
      s.modWave c.key fun w => { w with set := some (magnitude (opLane ops 0 c.src)) } else s)) s

/-- `rpost` (R286). -/
def execRpost (a : Reg) (g : Guard) (s : State) : Host.Outcome State Fault Refusal :=
  issue (controlForm g true [(a, 1)]) (fun c ops s =>
    .done .plain (if c.l.standing.isSome then
      s.modWave c.key fun w => { w with delta := some (magnitude (opLane ops 0 c.src)) } else s)) s

/-- An entry of the residual table (R264); one of no program reads 0. -/
def State.resEntry (s : State) (i : Nat) : ResEntry :=
  s.residuals.getD i ⟨0, 0, 0, 0, false, false, 0, false, 0⟩

/-- The RES field that `rget` reads, or the canonical NaN (R288). -/
def State.rgetWord (s : State) (l : Launch) (x : Word) : Word :=
  match l.standing.bind fun p => s.programs.get? p with
  | none => 0x7FC00000
  | some p =>
    if x.extractLsb' 20 12 != 0 || decide (p.n ≤ x.toNat) then 0x7FC00000
    else (s.resEntry (p.base + x.toNat)).res

/-- `rget` (R288). -/
def execRget (d a : Reg) (g : Guard) (s : State) : Host.Outcome State Fault Refusal :=
  issue ⟨g, true, 1, [(a, 1)], [(d, 1)], false, false, id⟩ (fun c ops s =>
    .done .plain (s.writeReg c d.toNat fun _ => s.rgetWord c.l (opLane ops 0 c.src))) s

/-- `qend` (R289). -/
def execQend (g : Guard) (s : State) : Host.Outcome State Fault Refusal :=
  issue (controlForm g true []) (fun _ _ s => .doneEnd .plain s) s

/-- `rand` (R290). -/
def execRand (d : Reg) (g : Guard) (u : Bool) (s : State) : Host.Outcome State Fault Refusal :=
  issueAlu g u 1 d [] (fun c _ i =>
    (millet (vectorCounter c.w.retired 0 (if c.u then c.src else i)) c.w.seed).extractLsb' 32 32) s

/-- `eq.id` (R291). -/
def execEqId (d : Reg) (g : Guard) (u : Bool) (s : State) : Host.Outcome State Fault Refusal :=
  issueAlu g u 1 d [] (fun c _ _ => if c.l.standing.isSome then BitVec.ofNat 32 c.b.rank else 0xFFFFFFFF) s

/-- `eq.gen` (R291). -/
def execEqGen (d : Reg) (g : Guard) (u : Bool) (s : State) : Host.Outcome State Fault Refusal :=
  issueAluPair g u d [] (fun c _ _ => if c.l.standing.isSome then c.b.gen else 0) s

/-- θ of the issuing block, as copied at load (R263). -/
def State.thetaOf (s : State) (l : Launch) (b : Block) : Word :=
  match (l.standing.bind fun p => s.programs.get? p).bind fun p => p.eqs.get? b.rank with
  | none => 0x7FC00000
  | some e => e.theta

/-- `eq.theta` (R291). -/
def execEqTheta (d : Reg) (g : Guard) (u : Bool) (s : State) : Host.Outcome State Fault Refusal :=
  issueAlu g u 1 d [] (fun c _ _ => s.thetaOf c.l c.b) s

end Sys2Proof.Machine
end

