-- ==== Sys2Proof/Machine/Arrive.lean ====
section
/-! DEFINITION. Events about waves and their accesses: accesses that complete, copies whose lease ends, page walks,
back-off, starvation, timer traps, and the answers of peers (R28, R29, R159, R173 to R175, R305, R380). -/

namespace Sys2Proof.Machine

open Sys2Proof

/-! ## Which waves may issue (R26, R277, R371) -/

/-- The launch of a wave has an open quantum, or runs in free mode (R277). -/
def Launch.quantumOn (l : Launch) : Bool := !l.dqm || l.quantumOpen

/-- What blocks a wave but is tried again at each of its turns: a barrier too, whose last participant may have exited,
been discarded, or ended its release hold since (R218, R310). -/
def retried : Option Blocked → Bool
  | none => true
  | some (.queue _) => true
  | some (.ticket _) => true
  | some .handle => true
  | some .barB => true
  | some .barC => true
  | some .barDev => true
  | some .barDom => true
  | some (.pin _ _) => false

/-- A checkpoint of the launch is under way (R389). -/
def State.checkpointing (s : State) (l : Launch) : Bool :=
  match s.ctl.peJob with
  | none => false
  | some j => decide (j.op = 5) && decide (j.tag = l.tag)

/-- The waves of a block stop for an image under way (R384 step 1); in DQM a checkpoint waits for the boundary (R389). -/
def State.imaging (s : State) (l : Launch) (b : Block) : Bool :=
  (s.checkpointing l && !l.dqm) || match s.ctl.peJob with
    | none => false
    | some j => decide (j.op = 1) && decide (j.tag = l.tag) && decide (j.blk = blockField l b)

/-- A wave is Ready but for the clock (R26): resident, not stopped, not waiting for an event. Its block is not halted,
or it is within its skid of a halt that is being broadcast (R371). A wave with a word under way goes on to the end of that
word, where a rollback or an image stops it (R384, R394). -/
def State.ready (s : State) (w : Wave) : Bool :=
  !w.exited && !w.halted && w.parked.isNone && decide (w.walking = []) && w.backoff.isNone && retried w.blocked && !w.qend &&
  (match s.blocks.get? w.block with
    | none => false
    | some b =>
      (match b.halt with
        | none => true
        | some h => !h.done && !h.atExit && decide (h.cause ≠ 0x43 ∨ w.underWay = true) && decide (w.skid < 4)) &&
      b.kill.isNone &&
      (match s.launches.get? b.launch with
        | none => false
        | some l => l.quantumOn && (!s.imaging l b || w.underWay)))

/-- A wave whose word may issue now: one held before waits until something has changed. -/
def State.mayIssue (s : State) (w : Wave) : Bool := s.ready w && decide (w.stalled ≠ some s.ver)

/-! ## Accesses -/

/-- A list of lanes as a mask. -/
def maskOfNat (n : Nat) : Mask := BitVec.ofNat 64 n

/-- `LOAD_DATA_RETURN` (R174, R175); subject a: wave, b: access, c: lanes. -/
def execLoadDataReturn (s : State) : Host.Outcome State Fault Refusal :=
  .next (match (s.waves.get? s.subj.a).bind fun w => w.outst.find? fun a => decide (a.id = s.subj.b) with
    | some a => if a.store then s else s.perform s.subj.a s.subj.b (maskOfNat s.subj.c)
    | none => s)

/-- `STORE_ACKNOWLEDGEMENT` (R173); subject a: wave, b: access, c: lanes. -/
def execStoreAcknowledgement (s : State) : Host.Outcome State Fault Refusal :=
  .next (match (s.waves.get? s.subj.a).bind fun w => w.outst.find? fun a => decide (a.id = s.subj.b) with
    | some a => if a.store then s.perform s.subj.a s.subj.b (maskOfNat s.subj.c) else s
    | none => s)

/-- `L1_LEASE_END` (R174); subject a: core, b: line. A copy whose lease has ended is dropped. -/
def execL1LeaseEnd (s : State) : Host.Outcome State Fault Refusal :=
  .next (match (s.core s.subj.a).l1.get? s.subj.b with
    | some k => if k.lease ≤ s.now then s.modCore s.subj.a fun c => { c with l1 := c.l1.erase s.subj.b } else s
    | none => s)

/-! ## Walks (R159) -/

/-- The keys that stay once a walk has ended, and the faults it has handed out so far. -/
def walkEnds (key : Nat) (out : Option Nat) (walking : List Nat) (outs : List (Nat × Nat)) : List Nat × List (Nat × Nat) :=
  (walking.filter fun k => decide (k ≠ key),
    if walking.contains key then outs ++ (out.map fun c => (key, c)).toList else outs)

/-- Hand a walk's outcome to the waves, jobs and tile operations that joined it (R159). -/
def State.wake (s : State) (key : Nat) (out : Option Nat) : State :=
  { s with
    waves := s.waves.map fun e =>
      let x := walkEnds key out e.2.walking e.2.walkOut
      (e.1, { e.2 with walking := x.1, walkOut := x.2 })
    cores := s.cores.map fun e => (e.1, { e.2 with
      jobs := e.2.jobs.map fun j =>
        let x := walkEnds key out j.walking j.walkOut
        { j with walking := x.1, walkOut := x.2 }
      ops := e.2.ops.map fun o =>
        let x := walkEnds key out o.walking o.walkOut
        { o with walking := x.1, walkOut := x.2 } }) }

/-- A walk in flight of a page. -/
def Walk.at_ (k : Walk) (asid page : Nat) : Bool := decide (k.asid = asid) && decide (k.page = page)

/-- `PAGE_WALK` (R157 to R159); subject a: ASID, b: VA[56:13]. The 32 walks that have waited longest have a unit; one that
finds a leaf fills the cache of the die and the TLB of each core that waits. -/
def execPageWalk (s : State) : Host.Outcome State Fault Refusal :=
  let asid := s.subj.a
  let va := s.subj.b * 2 ^ 13
  .next (match (s.walks.take 32).find? fun k => k.at_ asid s.subj.b with
    | none => s
    | some k =>
      let t : State := { s with walks := s.walks.filter fun x => !x.at_ asid s.subj.b }
      match s.walk asid (s.asids.getD asid 0) va with
      | .absent => t.wake (walkKey asid va) (some 0x13)
      | .malformed => t.wake (walkKey asid va) (some 0x14)
      | .leaf x => (k.cores.foldl (fun t c => t.fillTlb c x) t).wake (walkKey asid va) none)

/-! ## Turns of a wave -/

/-- `BACKOFF_EXPIRY` (R28); subject a: wave. -/
def execBackoffExpiry (s : State) : Host.Outcome State Fault Refusal :=
  .next (match (s.waves.get? s.subj.a).bind fun w => w.backoff with
    | some t => if t ≤ s.now then s.modWave s.subj.a fun w => { w with backoff := none, readyFrom := s.now } else s
    | none => s)

/-- `STARVATION` (R29); subject a: wave. -/
def execStarvation (s : State) : Host.Outcome State Fault Refusal :=
  .next (match s.waves.get? s.subj.a with
    | some w => if s.mayIssue w && w.stalled.isNone && decide (w.readyFrom + 112 ≤ s.now) && !w.starving then
        s.modWave s.subj.a fun w => { w with starving := true } else s
    | none => s)

/-- A wave has arrived at a barrier that has not released (R218). -/
def Wave.atBarrier (w : Wave) : Bool :=
  match w.blocked with
  | some .barB => true
  | some .barC => true
  | some .barDev => true
  | some .barDom => true
  | some (.queue _) => false
  | some (.ticket _) => false
  | some (.pin _ _) => false
  | some .handle => false
  | none => false

/-- A wave stands at an instruction boundary: no part of its next word has come about. -/
def Wave.atBoundary (w : Wave) : Bool :=
  !w.atBarrier && !w.midWord && decide (w.walkOut = [])

/-- A timer trap comes before the next word of the wave (R380), if there is one: at 2^57 the branch-target fault of R231
comes. -/
def State.trapsNow (s : State) (w : Wave) : Bool :=
  w.atBoundary && decide (w.pc.toNat < 2 ^ 57) && match (s.blocks.get? w.block).bind fun b => s.launches.get? b.launch with
    | none => false
    | some l => s.timerDue l w

/-- `TIMER_TRAP` (R380); subject a: wave. -/
def execTimerTrap (s : State) : Host.Outcome State Fault Refusal :=
  .next (match s.waves.get? s.subj.a with
    | some w => if s.ready w && s.trapsNow w then s.takeTimer s.subj.a else s
    | none => s)

/-! ## Answers of peers (R161, R305); with every port down none arrives (R400) -/

/-- An access of a wave's lane has failed after its word retired (0x17): its wave faults, or its block as it retires
(R407); a free-mode relaxation is killed at once (R271). -/
def State.lateError (s : State) (key acc lane : Nat) (addr : DWord) : State :=
  match s.waves.get? key with
  | none => s
  | some w =>
    if w.exited then
      if ((s.blocks.get? w.block).bind fun b => s.launches.get? b.launch).any fun l => l.standing.isSome && !l.dqm then
        s.modBlock w.block fun b => { b with kill := some (b.kill.getD 0x17) }
      else s.addDeferred key ⟨0, acc, 0x17, addr, BitVec.ofNat 32 lane, 0, false⟩
    else s.takeHalt key 0x17 addr (maskOf fun i => i == lane) (BitVec.ofNat 32 lane)

/-- The answer to a store of a wave whose word has retired is taken in (R305). -/
def State.lateAnswer (s : State) (tag : Nat) : State :=
  match s.remote.get? tag with
  | none => s
  | some r =>
    if r.status.isNone then s
    else
      let t := ({ s with remote := s.remote.erase tag } : State).modWave r.wave fun w =>
        { w with peerOut := w.peerOut.filter fun x => decide (x ≠ tag) }
      if r.status = some 0 then t else t.lateError r.wave r.acc r.lane r.addr

/-- Take in the answers that have come to a wave's retired stores: a fault waits for the end of a word under way. -/
def State.lateChecks (s : State) (key : Nat) : State :=
  match s.waves.get? key with
  | none => s
  | some w => if w.underWay then s else w.peerOut.foldl State.lateAnswer s

/-- The status of an answer: one that comes later than 1 ms after its request acts as status 1 (R305). -/
def RemoteReq.heard (r : RemoteReq) (now : Nat) (status : Byte) : Byte := if r.deadline < now then 1 else status

/-- The answer to a request comes: to the word, job or operation that awaits it, or to a store that has retired. -/
def State.answer (s : State) (tag : Nat) (status : Byte) (data : List Byte) : State :=
  match s.remote.get? tag with
  | none => s
  | some r =>
    if r.status.isSome then s
    else
      let t : State := { s with
        remote := s.remote.set tag { r with status := some (r.heard s.now status), data := data.take r.size } }
      match s.waves.get? r.wave with
      | some w => if w.peerOut.contains tag then t.lateChecks r.wave else t
      | none => t

/-- The data of an answer is as long as its request makes it, with or without its padding (R298, R305). -/
def State.answerFits (s : State) (tag : Nat) (status : Byte) (data : List Byte) : Bool :=
  match s.remote.get? tag with
  | none => true
  | some r => decide (data.length = r.size) || decide (data.length = roundUpTo r.size 16) || (decide (status ≠ 0) && decide (data = []))

/-- An answer arrives at a port, subject a, from an endpoint, subject b (R298). -/
def State.hearAnswer (s : State) (tag : Nat) (status : Byte) (data : List Byte) (agree : Bool) : State :=
  s.hear (BitVec.ofNat 16 s.subj.b) agree fun s => s.answer tag status data

/-- `READ_RESPONSE` (R305). -/
def execReadResponse (tag : BitVec 32) (status : BitVec 8) (data : List Byte) (s : State) :
    Host.Outcome State Fault Refusal :=
  .next (s.hearAnswer tag.toNat status data (s.answerFits tag.toNat status data))

/-- `WRITE_RESPONSE` (R305). -/
def execWriteResponse (tag : BitVec 32) (status : BitVec 8) (s : State) : Host.Outcome State Fault Refusal :=
  .next (s.hearAnswer tag.toNat status [] true)

/-- `ATOMIC_RESPONSE` (R305). -/
def execAtomicResponse (tag : BitVec 32) (status : BitVec 8) (old : List Byte) (s : State) :
    Host.Outcome State Fault Refusal :=
  .next (s.hearAnswer tag.toNat status old (s.answerFits tag.toNat status old))

/-- `REMOTE_REQUEST_TIMEOUT` (R305); subject a: tag. No answer within 1 ms acts as status 1. -/
def execRemoteRequestTimeout (s : State) : Host.Outcome State Fault Refusal :=
  .next (match s.remote.get? s.subj.a with
    | some r => if r.deadline ≤ s.now then s.answer s.subj.a 1 [] else s
    | none => s)

/-! ## Requests of peers (R161, R305) -/

/-- A range of physical addresses that this device has: bytes of HBM or of an enabled view (R1, R116). -/
def State.inRange (s : State) (a n : Nat) : Bool := decide (a + n ≤ 2 ^ 48) && (List.range n).all fun i => s.hasByte (a + i)

/-- Reply to a peer. -/
def State.reply (s : State) (kind src : BitVec 16) (tag : Word) (pa : Nat) (status : Byte) (data : List Byte) : State :=
  s.emit (memPlane pa) ⟨kind, src, tag, status :: natLe 15 0 ++ pad16 data⟩

/-- Reply to a write that came over the fabric, once it has been performed (R305). -/
def State.replyWrite (s : State) : Option WriteReply → State
  | none => s
  | some w => s.reply 0x0013 w.src w.tag w.addr 0 []

/-- A write that covers every poisoned line it touches (R154). -/
def State.healsAll (s : State) (a n : Nat) : Bool :=
  s.poison.all fun e => !(decide (e.1 * 64 < a + n) && decide (a < (e.1 + 1) * 64)) ||
    (decide (a ≤ e.1 * 64) && decide ((e.1 + 1) * 64 ≤ a + n))

/-- The read-modify-write a remote atomic names (R211 to R213, R305). -/
def remoteRmw (o : RemoteOp) : Option (Rmw × DWord × DWord) :=
  let num (off n : Nat) : DWord := BitVec.ofNat 64 (leNat ((o.operands.drop off).take n))
  let op : Option AtomOp := match o.fn.toNat with
    | 0 => some .add | 1 => some .and | 2 => some .or | 3 => some .xor | 4 => some .min | 5 => some .max
    | 6 => some .minu | 7 => some .maxu | 8 => some .xchg | _ => none
  match o.major.toNat with
  | 0x60 => op.map fun x => (.int x 4, num 0 4, 0)
  | 0x61 => op.map fun x => (.int x 8, num 0 8, 0)
  | 0x62 => match o.fn.toNat with
    | 0 => some (.f32 .add, num 0 4, 0)
    | 1 => some (.f32 .min, num 0 4, 0)
    | 2 => some (.f32 .max, num 0 4, 0)
    | _ => none
  | 0x63 => match o.fn.toNat with
    | 0 => some (.cas 4, num 0 4, num 4 4)
    | 1 => some (.cas 8, num 0 8, num 8 8)
    | _ => none
  | _ => none

/-- The operands of a remote atomic are as long as its operation takes them, with or without their padding: 4 to 16 bytes
(R298, R305). -/
def remoteFits (o : RemoteOp) : Bool :=
  decide (4 ≤ o.operands.length) && decide (o.operands.length ≤ 16) && match remoteRmw o with
    | none => true
    | some x => decide (o.operands.length = 16) || decide (o.operands.length = x.1.width * match x.1 with
        | .cas _ => 2
        | .int _ _ => 1
        | .f32 _ => 1)

/-! ## Ports (R298, R304, R305) -/

/-- `RESERVED_MESSAGE` (R298); subject a: port. It is dropped and counted. -/
def execReservedMessage (s : State) : Host.Outcome State Fault Refusal :=
  .next (s.dropAt s.subj.a)

/-- Remove the first request of a port and class. -/
def takeGrant (port cls : Nat) : List GrantReq → Option (OutMsg × List GrantReq)
  | [] => none
  | g :: gs =>
    if g.port = port ∧ g.cls = cls then some (g.msg, gs)
    else (takeGrant port cls gs).map fun x => (x.1, g :: x.2)

/-- `PORT_DOWN` (R305); subject a: port. Its traffic moves to the next working plane (R304). -/
def execPortDown (s : State) : Host.Outcome State Fault Refusal :=
  .next (if s.powered ∧ s.subj.a < 16 then
      let t := s.modCtl fun k => { k with portDown := k.portDown ||| ((1 : BitVec 16) <<< s.subj.a) }
      { t with grants := t.grants.map fun g => if g.port = s.subj.a then { g with port := t.portFor g.port } else g }
    else s)

/-- `BARRIER_ARRIVE` (R310): counted by the root. -/
def execBarrierArrive (src : BitVec 16) (msg : BarMsg) (s : State) : Host.Outcome State Fault Refusal :=
  .next (s.hear src true fun s =>
    let t : State := { s with doms := s.doms ++ [(src, msg)] }
    if msg.gen ≠ 0xFFFFFFFF then t.domCount msg.group msg.tag msg.gen
    else
      let gens := ((t.doms.filter fun x => decide (x.2.group = msg.group) && decide (x.2.tag = msg.tag) &&
        decide (x.2.gen ≠ 0xFFFFFFFF)).map fun x => x.2.gen)
      (gens.foldl (fun t g => t.domCount msg.group msg.tag g) t).domSweep msg.group msg.tag)

/-- `BARRIER_RELEASE` (R310), from an endpoint, subject b (R298). -/
def execBarrierRelease (msg : BarMsg) (s : State) : Host.Outcome State Fault Refusal :=
  .next (s.hear (BitVec.ofNat 16 s.subj.b) true fun s => s.domRelease msg)

end Sys2Proof.Machine
end

