-- ==== Sys2Proof/Machine/Traps.lean ====
section
/-! DEFINITION. The halt of a block, the trap ring, rollback, resume and discard (R371 to R378, R383, R393, R394,
R407). -/

namespace Sys2Proof.Machine

open Sys2Proof

/-! ## Stopping a block (R371, R384) -/

/-- Numbers and cores of the operations that must retire before the stores of the block's `tst` are made (R369): the
operations on its accumulator and its own, up to its last `tst`. -/
def State.drainList (s : State) (b : Nat) : List (Nat × Nat) :=
  let all := s.cores.flatMap fun e => e.2.ops.map fun o => (e.1, o)
  let last : Nat := all.foldl (fun (m : Nat) x => if decide (x.2.block = b) && x.2.isTst && !x.2.held then max m x.2.id
    else m) 0
  (all.filter fun x => decide (x.2.id ≤ last) && (decide (x.2.block = b) || x.2.units.any fun u => u.1 == b)).map
    fun x => (x.1, x.2.id)

/-- Complete the stores of the block's `tst` in flight (R359, R369). -/
def State.drainTiles (s : State) (b : Nat) : State :=
  let xs := s.drainList b
  (xs ++ xs).foldl (fun s x => s.retireOp x.1 x.2) s

/-- The operation is of a block, or acts on it as the follower of a pair. -/
def TileOp.touches (o : TileOp) (b : Nat) : Bool := decide (o.block = b) || decide (o.follower = some b)

/-- Restore the block's other operations, to be issued again whole (R328, R369). -/
def State.restoreOps (s : State) (b : Nat) : State :=
  let again (o : TileOp) : TileOp := if o.touches b then o.whole else o
  { s with cores := s.cores.map fun e => (e.1, { e.2 with ops := e.2.ops.map again }) }

/-- Every wave of a block stands at an instruction boundary. -/
def State.blockAtBoundary (s : State) (b : Nat) : Bool :=
  (s.wavesOf b).all fun e => e.2.exited || e.2.halted || !e.2.underWay

/-- Perform what the waves of a block have issued (R371, R384). -/
def State.performIssued (s : State) (b : Nat) : State :=
  (((s.wavesOf b).foldl (fun s e => (s.drain e.1).lateChecks e.1) s).drainTiles b).restoreOps b

/-- Every access that the block has issued is complete at device scope, peers have acknowledged its writes, and no `tst` of
it is storing (R223, R371, R376). -/
def State.issuedDone (s : State) (b : Nat) : Bool :=
  ((s.wavesOf b).all fun e => decide (e.2.outst = []) && decide (e.2.horizon ≤ s.now) && decide (e.2.peerOut = [])) &&
    !s.allOps.any fun o => decide (o.block = b) && o.isTst && o.out.isSome && !o.held

/-- A block's halt becomes complete: its waves have stopped, their accesses are complete, and its ticket is taken
(R223, R371). -/
def State.finishHalt (s : State) (b : Nat) : State :=
  match (s.blocks.get? b).bind fun k => k.halt with
  | none => s
  | some h =>
    if h.done || h.cause == 0x43 || !s.blockAtBoundary b then s
    else
      let s := (s.performIssued b).modWavesOf b fun w =>
        { w with halted := w.halted || !w.exited, walking := [], walkOut := [] }
      if s.issuedDone b then
        let s := s.modBlock b fun k => { k with halt := k.halt.map fun h => { h with done := true } }
        if h.cause = 0x08 ∨ h.cause = 0x09 then s else s.abandonTicket b
      else s

/-- `BLOCK_HALT` (R371); subject a: block. -/
def execBlockHalt (s : State) : Host.Outcome State Fault Refusal := .next (s.finishHalt s.subj.a)

/-! ## The trap ring (R374 to R377) -/

/-- FLAGS of a record. -/
def recFlags (r : TrapRec) (again : Bool) : Byte :=
  BitVec.ofNat 8 ((if r.park then 1 else 0) + (if r.halt then 2 else 0) + (if r.job then 4 else 0) +
    (if again then 8 else 0) + (if r.sv then 16 else 0) + if r.shadow then 32 else 0)

/-- The 64 bytes of a record (R375). -/
def recBytes (r : TrapRec) (seqNo : Word) (again : Bool) : List Byte :=
  natLe 2 r.cause ++ [recFlags r again] ++ natLe 1 r.sect ++ natLe 1 r.core ++ natLe 1 r.wave ++ natLe 2 r.asid ++
    natLe 4 r.tag.toNat ++ natLe 4 r.block.toNat ++ natLe 8 r.pc.toNat ++ natLe 8 r.addr.toNat ++
    natLe 8 r.mask.toNat ++ natLe 8 r.count ++ natLe 4 r.detail.toNat ++ natLe 4 seqNo.toNat ++ natLe 8 r.batch

/-- The trap ring has room (R374). -/
def Ctl.ringRoom (k : Ctl) : Bool := k.trOn && decide ((k.trWr - k.trRd).toNat < 2 ^ k.trSize)

/-- Post a record: it lands, or is lost and, when a block or a wave waits for it, is posted again later (R376, R377). -/
def State.postRecord (s : State) (r : TrapRec) (again : Bool) : State :=
  let seqNo := s.ctl.trSeq + 1
  if s.ctl.ringRoom then
    (s.poke none (s.ctl.trBase.toNat + 64 * (s.ctl.trWr.toNat % 2 ^ s.ctl.trSize)) (recBytes r seqNo again)).modCtl
      fun k => { k with trWr := k.trWr + 1, trSeq := seqNo }
  else
    let s := s.modCtl fun k =>
      { k with trSeq := seqNo, trOvf := true, trLost := BitVec.ofNat 32 (min (2 ^ 32 - 1) (k.trLost.toNat + 1)) }
    if r.park || r.halt then { s with lost := s.lost ++ [⟨r, s.now + 12000⟩] } else s

/-- A halting record waits until every access that its block issued has been performed (R376). -/
def State.mayPost (s : State) (r : TrapRec) : Bool :=
  !r.halt || match (s.blocks.get? r.ofBlock).bind fun b => b.halt with
    | none => true
    | some h => h.done

/-- The first record that may be posted, and the others. -/
def State.nextRecord (s : State) : List TrapRec → Option (TrapRec × List TrapRec)
  | [] => none
  | r :: rs => if s.mayPost r then some (r, rs) else (State.nextRecord s rs).map fun x => (x.1, r :: x.2)

/-- `TRAP_RECORD_POSTING` (R376). -/
def execTrapRecordPosting (s : State) : Host.Outcome State Fault Refusal :=
  .next (match s.nextRecord s.traps with
    | none => s
    | some (r, rest) => State.postRecord { s with traps := rest } r false)

/-- The first lost record that is due, and the others. -/
def State.dueRecord (s : State) : List LostRec → Option (TrapRec × List LostRec)
  | [] => none
  | x :: xs => if x.due ≤ s.now then some (x.trap, xs) else (State.dueRecord s xs).map fun y => (y.1, x :: y.2)

/-- `REPOST` (R377). -/
def execRepost (s : State) : Host.Outcome State Fault Refusal :=
  .next (match s.dueRecord s.lost with
    | none => s
    | some (r, rest) => State.postRecord { s with lost := rest } r true)

/-- A block that is resumed, discarded or pre-empted has no lost record posted again (R377). -/
def State.dropLost (s : State) (b : Nat) : State :=
  { s with lost := s.lost.filter fun x => decide (x.trap.ofBlock ≠ b) }

/-! ## Rollback (R394) -/

/-- The block's jobs that are under way. -/
def State.jobsOf (s : State) (b : Nat) : List (Nat × Job) :=
  s.cores.flatMap fun e => (e.2.jobs.filter fun j => decide (j.block = b)).map fun j => (e.1, j)

/-- Jobs that the waves of a snapshot had buffered. -/
def Snapshot.buffered (n : Snapshot) : List Nat :=
  n.waves.flatMap fun e => e.2.share.filterMap fun x => match x with
    | .job _ id => some id
    | _ => none

/-- Operations that a rollback puts back: those on the accumulator again, those on tenures only while in flight, but
an output or a handle is written again. -/
def Snapshot.opsAgain (n : Snapshot) (live : List TileOp) : List TileOp :=
  n.ops.filter fun o => (live.any fun p => decide (p.id = o.id)) || match o.kind with
    | .upd _ _ => false
    | .unpin _ => false
    | .chkTen => false
    | _ => true

/-- A wave of the snapshot as it runs on (R394): a word that was under way in it goes on, with what it has received since. A
page fault that has been resumed since is not taken for granted again. -/
def rolledBack (now : Nat) (old new : Wave) : Wave :=
  { old with
    horizon := new.horizon
    acq := new.acq
    peerOut := new.peerOut
    walking := []
    walkOut := []
    parked := if old.parked = new.parked ∧ old.retired = new.retired then new.parked else none
    stalled := none
    readyFrom := now
    starving := false
    skid := 0
    halted := false }

/-- Return a block to its snapshot (R394 points 1 to 4). -/
def State.rollBack (s : State) (b : Nat) : State :=
  match s.blocks.get? b with
  | none => s
  | some blk =>
    match blk.halt, blk.snap, s.launches.get? blk.launch with
    | some h, some n, some l =>
      let s := match s.waves.get? h.wave with
        | some w => s.post { waveRec l h.wave w blk 0x43 0 0 0 with halt := false }
        | none => s
      let live := (s.core blk.core).ops
      let s := s.modCore blk.core fun k => { k with
        ops := (k.ops.filter fun o => decide (o.block ≠ b)) ++ (n.opsAgain live).map TileOp.whole
        jobs := k.jobs.filter fun j => decide (j.block ≠ b) || !j.queued || n.buffered.contains j.id }
      let s := s.modBlock b fun k => { k with
        scr := n.scr, scrPoison := [], acc := n.acc, sums := n.sums, kinds := n.kinds, queues := n.queues,
        dirs := n.dirs, consumed := k.consumed + 1, halt := none }
      { s with
        remote := n.answers.foldl (fun m e => m.set e.1 e.2) s.remote
        waves := s.waves.map fun e => if e.2.block = b then
          (match n.waves.find? fun x => decide (x.1 = e.1) with
            | some x => (e.1, rolledBack s.now x.2 e.2)
            | none => e) else e }
    | _, _, _ => s

/-- Jobs that the block has issued since its snapshot, and that no boundary has still to start (R394 point 2). -/
def State.jobsSince (s : State) (b : Nat) : List (Nat × Job) :=
  match (s.blocks.get? b).bind fun k => k.snap with
  | none => []
  | some n => (s.jobsOf b).filter fun j => !j.2.queued && decide (n.seq ≤ j.2.id)

/-- `ROLLBACK` (R394); subject a: block. Its accesses are performed and the jobs it issued since the snapshot complete
first. -/
def execRollback (s : State) : Host.Outcome State Fault Refusal :=
  match (s.blocks.get? s.subj.a).bind fun b => b.halt with
  | none => .next s
  | some h =>
    if h.cause ≠ 0x43 || !s.blockAtBoundary s.subj.a then .next s
    else
      let t := (s.wavesOf s.subj.a).foldl (fun s e => s.drain e.1) s
      let t := (t.jobsSince s.subj.a).foldl (fun s j => s.runJob j.1 j.2.id) t
      if t.jobsSince s.subj.a = [] then .next (t.rollBack s.subj.a) else .next t

/-! ## Resume and discard (R373, R378, R383) -/

/-- The launch with a command tag, and its block that a BLOCK field names. -/
def State.findBlock (s : State) (tag block : Word) : Option Nat :=
  s.launches.findSome? fun e =>
    if e.2.tag = tag ∧ e.2.standing.isSome = block.getLsbD 31 then
      let k := blockKey e.1 (block.extractLsb' 0 31).toNat
      if (s.blocks.get? k).isSome then some k else none
    else none

/-- End an operation of the pre-emption controls with a result. -/
def State.peResult (s : State) (res : Byte) : State := s.modCtl fun k => { k with peRes := res, peJob := none }

/-- An operation of the controls goes on. -/
def State.peWait (s : State) (j : PeOp) : State := s.modCtl fun k => { k with peJob := some j }

/-- An operation of the controls with the registers as they stand. -/
def Ctl.peOp (k : Ctl) (op : Nat) (core : BitVec 8) : PeOp := ⟨op, core, k.peTag, k.peBlk, k.peAddr, k.peLen⟩

/-- An operation of the pre-emption controls (R383). With subject a = 0, PECMD is written: the operation begins, or waits
while another runs. Otherwise the operation under way goes on, or the first that waits begins. -/
def State.peRun (s : State) (op : Nat) (core : BitVec 8) (f : PeOp → State → State) : State :=
  if !s.ctl.ready then s
  else if s.subj.a = 0 then
    if s.ctl.peJob.isNone && s.ctl.peWaits = [] then f (s.ctl.peOp op core) s
    else s.modCtl fun k => { k with peWaits := k.peWaits ++ [⟨op, core, none⟩] }
  else match s.ctl.peJob, s.ctl.peWaits with
    | some j, _ => if j.op = op ∧ j.core = core then f j s else s
    | none, x :: rest =>
      if x.op = op ∧ x.core = core then
        (f (s.ctl.peOp op core) (s.modCtl fun k => { k with peWaits := rest })).replyWrite x.reply
      else s
    | none, [] => s

/-- A block is halted, or has a parked wave, a paused job or a held operation (R378). -/
def State.stopped (s : State) (b : Nat) : Bool :=
  (match (s.blocks.get? b).bind fun k => k.halt with | some h => decide (h.cause ≠ 0x43) | none => false) ||
  ((s.wavesOf b).any fun e => e.2.parked.isSome) || ((s.jobsOf b).any fun j => j.2.paused) ||
  s.allOps.any fun o => decide (o.block = b) && o.held

/-- A block whose halt is not complete: an operation of the controls waits for it. -/
def State.halting (s : State) (b : Nat) : Bool :=
  match (s.blocks.get? b).bind fun k => k.halt with
  | some h => !h.done && decide (h.cause ≠ 0x43)
  | none => false

/-- A wave goes on from a halt or a park: its instruction is issued again whole; a software trap retires (R247, R373,
R378). -/
def Wave.goOn (w : Wave) (l : Launch) (now : Nat) : Wave :=
  let w := { w with halted := false, parked := none, skid := 0, stalled := none, readyFrom := now }
  if w.trapped then { (w.retire l now .plain) with pc := w.pc + 4, trapped := false } else w

/-- Resume a block: its halt, its parked waves, its paused jobs, its held operations. A block that stops for a rollback
goes on with its jobs only (R394). -/
def State.resumeBlock (s : State) (b : Nat) : State :=
  match (s.blocks.get? b).bind fun k => s.launches.get? k.launch with
  | none => s
  | some l =>
    let rolls := match (s.blocks.get? b).bind fun k => k.halt with
      | some h => decide (h.cause = 0x43)
      | none => false
    let s := (s.dropLost b).modWavesOf b fun w => if w.exited || rolls then w else w.goOn l s.now
    let s := s.modBlock b fun k => if rolls then k else { k with halt := none }
    let again (k : Core) : Core := { k with
        jobs := k.jobs.map fun j => if j.block = b then { j with paused := false } else j
        ops := k.ops.map fun o => if o.block = b then { o with held := false, walkOut := [] } else o }
    State.afterExit { s with cores := s.cores.map fun e => (e.1, again e.2) } b

/-- `RESUME` (R373, R378, R383). -/
def execResume (s : State) : Host.Outcome State Fault Refusal :=
  .next (s.peRun 3 0 fun j s => match s.findBlock j.tag j.blk with
    | none => s.peResult 1
    | some b =>
      let t := s.finishHalt b
      if !s.stopped b then s.peResult 5
      else if t.halting b then s.peWait j
      else (t.resumeBlock b).peResult 0)

/-- Discard a block: it retires with its performed writes as they stand (R373); in DQM the buffered writes of its
quantum are dropped (R277), and barriers wait for it no longer (R218). A relaxation is killed instead (R271). -/
def State.discardBlock (s : State) (b : Nat) : State :=
  match s.blocks.get? b with
  | none => s
  | some blk =>
    match s.launches.get? blk.launch with
    | none => s
    | some l =>
      let s := (s.performIssued b).dropLost b
      if l.standing.isSome then
        (s.modBlock b fun k => { k with kill := some (k.kill.getD (match k.halt with | some h => h.cause | none => 0x13)),
                                        halt := none }).modWavesOf b fun w =>
          { w with halted := !w.exited, qend := true, parked := none }
      else
        let s := s.modWavesOf b fun w => { w with
          exited := true, live := 0, active := 0, stack := [], halted := false, parked := none, blocked := none,
          walking := [], backoff := none, share := [], shareUsed := 0, deferred := [], mxflags := [], qend := true }
        let s : State := { s with cores := s.cores.map fun e => (e.1, { e.2 with
          jobs := e.2.jobs.filter fun j => decide (j.block ≠ b) || !(j.paused || j.queued)
          ops := e.2.ops.filter fun o => decide (o.block ≠ b) }) }
        ((s.modBlock b fun k => { k with halt := none }).modLaunch blk.launch fun l =>
          { l with outcome := l.outcome ||| 1 }).afterExit b

/-- `DISCARD` (R373, R383). -/
def execDiscard (s : State) : Host.Outcome State Fault Refusal :=
  .next (s.peRun 4 0 fun j s => match s.findBlock j.tag j.blk with
    | none => s.peResult 1
    | some b =>
      let t := s.finishHalt b
      if !s.stopped b then s.peResult 5
      else if t.halting b then s.peWait j
      else (t.discardBlock b).peResult 0)

/-! ## Faults of waves that have exited (R407) -/

/-- The first deferred fault of the block's exited waves, in issue order. -/
def State.exitFault (s : State) (b : Nat) : Option (Nat × Deferred) :=
  ((s.wavesOf b).flatMap fun e => e.2.deferred.map fun d => (e.1, d)).foldl
    (fun best x => match best with
      | none => some x
      | some y => if x.2.ord < y.2.ord then some x else some y) none

/-- The block halts instead of retiring: MASK 0, PC the `exit` that ended the wave (R407); its ticket is taken (R223). An
error consumed in the block's own memory leads to rollback, at a third consumption to cause 0x41 (R394). A relaxation is
killed instead, in free mode by an uncorrectable error (R271). -/
def State.haltAtExit (s : State) (b : Nat) (key : Nat) (d : Deferred) : State :=
  match s.waves.get? key, s.blocks.get? b with
  | some w, some blk =>
    match s.launches.get? blk.launch with
    | none => s
    | some l =>
      let s := s.modWave key fun w => { w with deferred := w.deferred.filter fun x => decide (x ≠ d) }
      if l.standing.isSome && (l.dqm || d.cause == 0x17 || d.cause == 0x41) then
        s.modBlock b fun k => { k with kill := some (k.kill.getD d.cause) }
      else
      let own := blk.snap.isSome && blk.consumedBy d.cause d.addr d.detail
      let cause := if own then 0x41 else d.cause
      if own && blk.rolls then s.beginRollback key b
      else ((s.modBlock b fun k => { k with halt := some ⟨cause, key, true, true⟩ }).post
        { waveRec l key w blk cause d.addr 0 d.detail with halt := true, job := d.job, batch := d.batch }).abandonTicket b
  | _, _ => s

end Sys2Proof.Machine
end

