-- ==== Sys2Proof/Machine/Place.lean ====
section
/-! DEFINITION. Where blocks go: room on cores, curve order, the placement of clusters and their members, the placement
log, draining, and the start of waves (R18 to R20, R25, R30, R36 to R50, R150, R297). -/

namespace Sys2Proof.Machine

open Sys2Proof

/-! ## Curve order (R40, R41) -/

/-- The clusters of a grid along each dimension. -/
def LaunchRec.cells (r : LaunchRec) : Nat × Nat × Nat := (r.gx / r.kx, r.gy / r.ky, r.gz / r.kz)

/-- The least power of two not less than a number. -/
def powUp : Nat → Nat → Nat → Nat
  | 0, p, _ => p
  | fuel + 1, p, n => if n ≤ p then p else powUp fuel (2 * p) n

/-- `hindex` of R40, from the side s of the present square on. -/
def hindexFrom (side : Nat) : Nat → Nat → Nat → Nat → Nat → Nat
  | 0, _, _, _, d => d
  | fuel + 1, t, x, y, d =>
    if t = 0 then d
    else
      let rx := if x / t % 2 = 1 then 1 else 0
      let ry := if y / t % 2 = 1 then 1 else 0
      let d := d + t * t * ((3 * rx) ^^^ ry)
      if ry = 0 then
        let p := if rx = 1 then (side - 1 - x, side - 1 - y) else (x, y)
        hindexFrom side fuel (t / 2) p.2 p.1 d
      else hindexFrom side fuel (t / 2) x y d

/-- `hindex(x, y)` for a square of side N (R40). -/
def hindex (side x y : Nat) : Nat := hindexFrom side 33 (side / 2) x y 0

/-- The point of the square with a given index: the inverse of `hindex`, built up from the smallest square. -/
def curvePointFrom : Nat → Nat → Nat → Nat → Nat → Nat → Nat × Nat
  | 0, _, _, x, y, _ => (x, y)
  | fuel + 1, side, t, x, y, d =>
    if side ≤ t then (x, y)
    else
      let rx := d / 2 % 2
      let ry := (d % 2) ^^^ rx
      let p := if ry = 0 then (let q := if rx = 1 then (t - 1 - x, t - 1 - y) else (x, y); (q.2, q.1)) else (x, y)
      curvePointFrom fuel side (2 * t) (p.1 + t * rx) (p.2 + t * ry) (d / 4)

/-- The point with index d. -/
def curvePoint (side d : Nat) : Nat × Nat := curvePointFrom 33 side 1 0 0 d

/-- The cluster at a place of the curve that counts the skipped points too; none for a skipped point (R40). -/
def LaunchRec.curveAt (r : LaunchRec) (code : Nat) : Option (Nat × Nat × Nat) :=
  let (cx, cy, cz) := r.cells
  let side (a b : Nat) : Nat := powUp 33 1 (max a b)
  let two (a b : Nat) (d : Nat) : Option (Nat × Nat) :=
    let p := curvePoint (side a b) d
    if p.1 < a ∧ p.2 < b then some p else none
  if 1 < cx ∧ 1 < cy ∧ 1 < cz then
    let n := side cx cy * side cx cy
    (two cx cy (code % n)).map fun p => (p.1, p.2, code / n)
  else if 1 < cx ∧ 1 < cy then (two cx cy code).map fun p => (p.1, p.2, 0)
  else if 1 < cx ∧ 1 < cz then (two cx cz code).map fun p => (p.1, 0, p.2)
  else if 1 < cy ∧ 1 < cz then (two cy cz code).map fun p => (0, p.1, p.2)
  else if 1 < cx then some (code, 0, 0)
  else if 1 < cy then some (0, code, 0)
  else some (0, 0, code)

/-- The cluster `n` places further along the curve. -/
def LaunchRec.curveFrom (r : LaunchRec) : Nat → Nat → Nat → Nat × Nat × Nat
  | 0, _, _ => (0, 0, 0)
  | fuel + 1, code, n =>
    match r.curveAt code with
    | none => LaunchRec.curveFrom r fuel (code + 1) n
    | some p => match n with
      | 0 => p
      | m + 1 => LaunchRec.curveFrom r fuel (code + 1) m

/-- The cluster at position `p` of curve order. -/
def LaunchRec.clusterPos (r : LaunchRec) (p : Nat) : Nat × Nat × Nat := r.curveFrom (2 ^ 64) 0 p

/-- Blocks of a cluster. -/
def LaunchRec.members (r : LaunchRec) : Nat := r.kx * r.ky * r.kz

/-- Clusters of a grid. -/
def LaunchRec.clusters (r : LaunchRec) : Nat := r.gx * r.gy * r.gz / r.members

/-! ## Placing clusters (R19, R20, R42) -/

/-- Cores and blocks during a placement: what each core holds, what has found its place, and members that wait on
their cell. -/
structure Placing where
  occ : Nat → Occ
  spots : List (Nat × Nat × Spot)
  waiting : List (Nat × Nat)

/-- Change what one core holds. -/
def Placing.put (x : Placing) (core rank : Nat) (o : Occ) (p : Spot) : Placing :=
  { x with occ := fun c => if c = core then o else x.occ c, spots := x.spots ++ [(rank, core, p)] }

/-- The first core of a list with room. -/
def Placing.first (x : Placing) (loose : Bool) (need : Need) (cores : List Nat) : Option (Nat × Occ × Spot) :=
  cores.findSome? fun c => ((x.occ c).fit loose need none).map fun y => (c, y.1, y.2)

/-- The cores of a cell that a block may use. -/
def cellCores (ok : Nat → Bool) (cell : Nat) : List Nat := ((List.range 8).map fun i => 8 * cell + i).filter ok

/-- Place the other members of a cluster on its cell, those without room waiting (R42). -/
def Placing.members (loose : Bool) (need : Need) (ok : Nat → Nat → Bool) (cell : Nat) : List Nat → Placing → Placing
  | [], x => x
  | r :: rs, x =>
    match x.first loose need (cellCores (ok r) cell) with
    | some (c, o, p) => Placing.members loose need ok cell rs (x.put c r o p)
    | none => Placing.members loose need ok cell rs { x with waiting := x.waiting ++ [(r, cell)] }

/-- The ranks of a cluster but member 0. -/
def othersOf (k p : Nat) : List Nat := (List.range (k - 1)).map fun m => p * k + m + 1

/-- Place a cluster at launch: on the lowest-numbered cell with room for member 0 (R19, R42). -/
def Placing.atLaunch (x : Placing) (loose : Bool) (need : Need) (ok : Nat → Nat → Bool) (k p : Nat) : Option Placing :=
  (List.range 24).findSome? fun cell =>
    if x.waiting.any fun w => decide (w.2 = cell) then none
    else (x.first loose need (cellCores (ok (p * k)) cell)).map fun y =>
      Placing.members loose need ok cell (othersOf k p) (x.put y.1 (p * k) y.2.1 y.2.2)

/-- Place clusters at launch from position `p` on, up to the first that fits on no core. -/
def Placing.allAtLaunch (loose : Bool) (need : Need) (ok : Nat → Nat → Bool) (k : Nat) : Nat → Nat → Placing → Placing × Nat
  | 0, p, x => (x, p)
  | n + 1, p, x => match x.atLaunch loose need ok k p with
    | none => (x, p)
    | some y => Placing.allAtLaunch loose need ok k n (p + 1) y

/-- Place a cluster at a refill: member 0 on the first of the cores, in the order given, with room (R20, R42). -/
def Placing.refill (x : Placing) (need : Need) (ok : Nat → Nat → Bool) (cores : List Nat) (k p : Nat) : Option Placing :=
  (x.first false need (cores.filter fun c => ok (p * k) c && !x.waiting.any fun w => decide (w.2 = c / 8))).map fun y =>
    Placing.members false need ok (y.1 / 8) (othersOf k p) (x.put y.1 (p * k) y.2.1 y.2.2)

/-- Give waiting members room on their cells, in ascending rank (R42). -/
def Placing.settle (need : Need) (ok : Nat → Nat → Bool) : List (Nat × Nat) → Placing → Placing
  | [], x => x
  | w :: ws, x =>
    match x.first false need (cellCores (ok w.1) w.2) with
    | some (c, o, p) => Placing.settle need ok ws (x.put c w.1 o p)
    | none => Placing.settle need ok ws { x with waiting := x.waiting ++ [w] }

/-! ## Starting a block (R25, R30, R36 to R38, R49, R150) -/

/-- A wave as it starts (R25, R30): an acquire at system scope stands behind it (R183). -/
def freshWave (l : Launch) (block index : Nat) (shadow : Bool) (core sect slot run im now seqNo : Nat) : Wave where
  block := block
  index := index
  shadow := shadow
  core := core
  sect := sect
  slot := slot
  runBase := run
  imRun := im
  order := now
  regCount := (l.record.regCount + 7) / 8 * 8
  pc := l.record.entry + if shadow then 4 else 0
  active := BitVec.allOnes 64
  live := BitVec.allOnes 64
  stack := []
  rets := []
  regs := []
  poison := []
  struck := []
  wb := 0
  level := 7
  polls := 0
  backoff := none
  readyFrom := now
  starving := false
  governed := false
  stalled := none
  retired := 0
  qcount := 0
  qend := false
  wtime := if l.dqm then 0 else 0 - BitVec.ofNat 32 now
  wtcmp := 0
  latch := none
  fpmode := 1
  seed := l.record.seed
  fpflags := List.replicate 64 0
  mxflags := []
  tiles := 0
  sup := false
  tepc := 0
  tcause := 0
  tdepth := 0
  tlevel := 0
  tscr0 := 0
  tscr1 := 0
  tscr2 := 0
  tscr3 := 0
  set := none
  delta := none
  outst := []
  horizon := 0
  hold := none
  holdOn := none
  acq := seqNo
  remote := []
  reach := []
  reachHelp := []
  heldT := none
  peerOut := []
  share := []
  shareUsed := 0
  partDone := 0
  batch := 0
  deferred := []
  parked := none
  walking := []
  walkOut := []
  blocked := none
  halted := false
  trapped := false
  skid := 0
  exited := false
  mismatch := false

/-- The lowest slot index of a section that no resident wave holds (R372). -/
def State.freeSlot (s : State) (core sect : Nat) : Nat :=
  ((List.range 16).find? fun i => !s.waves.any fun e => !e.2.exited &&
    decide (e.2.core = core) && decide (e.2.sect = sect) && decide (e.2.slot = i)).getD 0

/-- Put the waves of a block on their sections, a compute wave before its shadow. -/
def State.putWaves (s : State) (l : Launch) (block core : Nat) : Nat → List ((Nat × Nat) × (Nat × Nat)) → State
  | _, [] => s
  | i, (w, im) :: rest =>
    let shadow := l.record.options.getLsbD 1 && decide (i % 2 = 1)
    let index := if l.record.options.getLsbD 1 then i / 2 else i
    let v := freshWave l block index shadow core w.1 (s.freeSlot core w.1) w.2 (128 * im.1 + im.2) s.now s.seq
    State.putWaves { s with waves := s.waves.set (waveKey block index shadow) v } l block core (i + 1) rest

/-- `%block`, `%clus` and `%mbr` of a block (R15, R40, R41): for a relaxation, its block id and member 0 (R268). -/
def Launch.identity (l : Launch) (rank : Nat) : Nat × Nat × Nat :=
  if l.standing.isSome then (rank, rank, 0)
  else
    let r := l.record
    let (cx, cy, _) := r.cells
    let m := rank % r.members
    let c := r.clusterPos (rank / r.members)
    let x := c.1 * r.kx + m % r.kx
    let y := c.2.1 * r.ky + m / r.kx % r.ky
    let z := c.2.2 * r.kz + m / r.kx / r.ky
    (x + r.gx * (y + r.gy * z), c.1 + cx * (c.2.1 + cy * c.2.2), m)

/-- A block as it starts: its scratchpad and accumulator read 0 (R36, R150). -/
def freshBlock (launch : Nat) (l : Launch) (rank core : Nat) (p im : Spot) (gen : DWord) : Block :=
  let r := l.record
  let i := l.identity rank
  { launch := launch, rank := rank, linear := i.1, clus := i.2.1, mbr := i.2.2,
    cpos := if l.standing.isSome then rank else rank / r.members, core := core, waves := r.waves,
    granules := (r.regCount + 7) / 8, shared := r.shared, slice := r.slice, scrBase := p.scr, scrGran := r.need.scr,
    scr := [], scrPoison := [], accBase := p.acc, accGran := r.need.acc, acc := [], sums := [], kinds := [],
    halt := none, kill := none, ticket := if l.standing.isSome then none else some rank, tktAband := false, pins := 0,
    queues := [], dirs := [], snap := none, consumed := 0, gen := gen, imCore := core, imScr := im.scr,
    imAcc := im.acc }

/-- Bytes of an address space as the Thresher reads them: none when a page is absent, malformed, a supervisor's or a
peer's, or the bytes are poisoned. -/
def State.sysPiece (s : State) (asid root va n : Nat) : Option (List Byte) :=
  match s.walk asid root va with
  | .leaf x =>
    match s.route (x.target va) with
    | .here (.mem a) => if x.permits .read false && !s.poisoned (.mem a) n then some (bytesFrom s.homeByte a n) else none
    | _ => none
  | _ => none

/-- Read bytes, line by line. -/
def State.sysRead (s : State) (asid root : Nat) : Nat → Nat → Nat → Option (List Byte)
  | 0, _, _ => some []
  | fuel + 1, va, n =>
    if n = 0 then some []
    else
      let k := min n (64 - va % 64)
      match s.sysPiece asid root va k, State.sysRead s asid root fuel (va + k) (n - k) with
      | some a, some b => some (a ++ b)
      | _, _ => none

/-- Read `n` bytes of an address space. -/
def State.sysBytes (s : State) (asid root va n : Nat) : Option (List Byte) := s.sysRead asid root (n / 64 + 2) va n

/-- Write bytes within one line of an address space, as the Thresher writes them: none when a byte has no writable
leaf of this device, or lies in a view. -/
def State.sysWrite (s : State) (asid root va : Nat) (bs : List Byte) : Option State :=
  match s.walk asid root va with
  | .leaf x =>
    match s.route (x.target va) with
    | .here (.mem a) =>
      if x.permits .write false && !s.inView (.here (.mem a)) then
        some ((s.poke none a bs).noteWrite a (s.completion a))
      else none
    | _ => none
  | _ => none

/-- Write bytes, line by line. -/
def State.sysStore (s : State) (asid root : Nat) : Nat → Nat → List Byte → Option State
  | 0, _, _ => some s
  | fuel + 1, va, bs =>
    if bs = [] then some s
    else
      let k := 64 - va % 64
      match s.sysWrite asid root va (bs.take k) with
      | none => none
      | some t => State.sysStore t asid root fuel (va + k) (bs.drop k)

/-- The placement log's entry of a block (R49); a write that faults leaves it out and marks the run's outcome (R300). -/
def State.logEntry (s : State) (launch : Nat) (l : Launch) (rank core sect start : Nat) : State :=
  if l.flags.getLsbD 1 then
    match s.sysStore l.asid l.root 2 ((l.log.toNat + 8 * rank) % 2 ^ 57)
        (natLe 8 (start * 2 ^ 32 + sect * 2 ^ 16 + core)) with
    | some t => t
    | none => s.modLaunch launch fun l => { l with outcome := l.outcome ||| 2 }
  else s

/-- The dispatch of a relaxation that is running. -/
def State.dispatched (s : State) (l : Launch) (id : Nat) : Option Dispatched :=
  (l.standing.bind fun p => s.programs.get? p).bind fun p => p.running.get? id

/-- The launch record that governs a block: a relaxation's carries what its dispatch read (R263). -/
def State.launchFor (s : State) (l : Launch) (rank : Nat) : Launch :=
  match s.dispatched l rank with
  | none => l
  | some d => { l with record := { l.record with
      entry := d.entry, waves := d.waves, regCount := d.regCount, shared := d.shared } }

/-- The needs of a block. -/
def State.needOf (s : State) (l : Launch) (rank : Nat) : Need := (s.launchFor l rank).record.need

/-- Start a block on a core: at a place, and at a place on the imagined core (R44). -/
def State.startBlock (s : State) (launch rank core : Nat) (p im : Spot) : State :=
  match s.launches.get? launch with
  | none => s
  | some l0 =>
    let l := s.launchFor l0 rank
    let gen := match s.dispatched l0 rank with
      | some d => d.gen
      | none => 0
    let s := if l.standing.isSome then s
      else s.logEntry launch l rank core ((p.waves.headD (0, 0)).1) (if l.dqm then l.bounds + 1 else l.starts)
    let key := blockKey launch rank
    let s := { s with blocks := s.blocks.set key (freshBlock launch l rank core p im gen) }
    let s := s.putWaves l key core 0 (p.waves.zip im.waves)
    let s := if l.standing.isSome then s else s.modLaunch launch fun l =>
      { l with starts := l.starts + 1, startedRanks := l.startedRanks.set rank () }
    s.snapshot key

/-! ## Placement of a launch -/

/-- A core that a block of a launch may be placed on: in its mask, and not being drained but for its own cluster, or for the
run that is placed whole (R39, R45). -/
def State.mayUse (s : State) (launch : Nat) (l : Launch) (rank core : Nat) : Bool :=
  decide (core < 192) && l.record.mask.getLsbD core &&
  match (s.core core).drains with
  | none => true
  | some d => decide (d.1 = launch) && (l.flags.getLsbD 0 || decide (d.2 / l.clusterSize = rank / l.clusterSize))

/-- A core of the imagined machine (R44): one of the mask. -/
def Launch.inMask (l : Launch) (core : Nat) : Bool := decide (core < 192) && l.record.mask.getLsbD core

/-- The launch no longer drains a core. -/
def State.endDrain (s : State) (launch : Nat) : State :=
  { s with cores := s.cores.map fun e => if e.2.drains.any fun d => decide (d.1 = launch) then (e.1, { e.2 with drains := none }) else e }

/-- The cores for a refill, in the order in which they freed (R20, R42). -/
def Launch.refillCores (l : Launch) : List Nat := l.freed.map (·.2)

/-- The placement as it stands: the launch's own view of its cores. -/
def State.placing (s : State) (launch : Nat) (l : Launch) : Placing where
  occ := if l.dqm then s.imOcc launch l else s.physOcc
  spots := []
  waiting := []

/-- Cores that a block of the launch may use in its own view. -/
def State.usable (s : State) (launch : Nat) (l : Launch) (rank : Nat) : Nat → Bool :=
  if l.dqm then l.inMask else s.mayUse launch l rank

/-- Adopt what a placement has found: in free mode the blocks start; in DQM the places are decided (R44). -/
def State.adopt (s : State) (launch : Nat) (l : Launch) (x : Placing) : State :=
  if l.dqm then
    let plan (y : Nat × Nat × Spot) : Plan :=
      let n := s.needOf l y.1
      ⟨y.1, y.2.1, (y.2.2.scr, n.scr), (y.2.2.acc, n.acc), y.2.2.waves.zipIdx.map fun w =>
        (w.1.1, w.1.2, n.gran + if n.shadow && decide (w.2 % 2 = 1) then 4 else 0)⟩
    s.modLaunch launch fun l => { l with plans := l.plans ++ x.spots.map plan }
  else
    x.spots.foldl (fun s y => s.startBlock launch y.1 y.2.1 y.2.2 y.2.2) s

/-- Place clusters as a launch is taken (R19): all that fit, up to the first that fits on no core. -/
def State.placeAtLaunch (s : State) (launch : Nat) : State :=
  match s.launches.get? launch with
  | none => s
  | some l =>
    let x := Placing.allAtLaunch false l.record.need (s.usable launch l) l.record.members
      (l.record.clusters - l.cpos) l.cpos (s.placing launch l)
    (s.adopt launch l x.1).modLaunch launch fun l => { l with cpos := x.2, waiting := x.1.waiting, offered := true }

/-- What one refill finds (R20, R42): first a waiting member, else the next cluster. -/
def State.refillOne (s : State) (launch : Nat) (l : Launch) : Option (Placing × Nat) :=
  let need := l.record.need
  let ok := s.usable launch l
  let x := Placing.settle need ok l.waiting (s.placing launch l)
  if x.spots ≠ [] then some (x, l.cpos)
  else if l.record.clusters ≤ l.cpos then none
  else (x.refill need ok l.refillCores l.record.members l.cpos).map fun y => (y, l.cpos + 1)

/-- The entry of an earlier run's placement log: core and START (R49, R50). -/
def State.loggedAt (s : State) (l : Launch) (rank : Nat) : Option (Nat × Nat) :=
  (s.sysBytes l.asid l.root ((l.log.toNat + 8 * rank) % 2 ^ 57) 8).map fun bs =>
    (leNat bs % 256, leNat bs / 2 ^ 32)

/-- The unplaced block with the least recorded START (R50). -/
def State.replayNext (s : State) (l : Launch) : Option (Nat × Nat) :=
  ((List.range l.record.total).filter fun r => (l.startedRanks.get? r).isNone).foldl (fun best r =>
    match s.loggedAt l r with
    | none => best
    | some (c, k) => match best with
      | none => some (r, c, k)
      | some b => if k < b.2.2 then some (r, c, k) else best) (none : Option (Nat × Nat × Nat))
    |>.map fun b => (b.1, b.2.1)

/-- A replayed run places its next block on its recorded core, once that core has room (R50). -/
def State.replayOne (s : State) (launch : Nat) (l : Launch) : Option Placing :=
  match s.replayNext l with
  | none => none
  | some (r, c) =>
    if s.mayUse launch l r c then
      ((s.physOcc c).fit false l.record.need none).map fun y => (s.placing launch l).put c r y.1 y.2
    else none

/-- A run that replays a log. -/
def Launch.replays (l : Launch) : Bool := l.flags.getLsbD 2

/-- A run placed whole (R45). -/
def Launch.whole (l : Launch) : Bool := l.flags.getLsbD 0

/-- Place every block of a replayed run at once, in ascending START (R45, R50). -/
def State.replayAll (s : State) (launch : Nat) : Nat → Launch → Placing → Option Placing
  | 0, _, x => some x
  | n + 1, l, x =>
    match s.replayNext l with
    | none => none
    | some (r, c) =>
      if s.mayUse launch l r c then
        match (x.occ c).fit false l.record.need none with
        | none => none
        | some y => State.replayAll s launch n { l with startedRanks := l.startedRanks.set r () } (x.put c r y.1 y.2)
      else none

/-- The plan of a run placed whole, on cores as they stand (R45). DESIGN CHOICE: clusters go to cells as R42 places them at
launch, in the check of full residency too, so that a run is rejected when a member would wait on its cell though another
cell could hold the cluster; R45 names R18 and R37 only (log entry 64). -/
def LaunchRec.wholePlan (r : LaunchRec) (loose : Bool) (ok : Nat → Nat → Bool) (occ : Nat → Occ) : Option Placing :=
  let x := Placing.allAtLaunch loose r.need ok r.members r.clusters 0 { occ := occ, spots := [], waiting := [] }
  if x.2 = r.clusters ∧ x.1.waiting = [] then some x.1 else none

/-- Where the decided blocks of a DQM launch go in fact: each in its decided sections, or none yet. -/
def realSpots (loose : Bool) (need : Nat → Need) (ok : Nat → Nat → Bool) :
    List Plan → (Nat → Occ) → List (Plan × Option Spot)
  | [], _ => []
  | p :: ps, f =>
    match (if ok p.rank p.core then (f p.core).fit loose (need p.rank) (some (p.waves.map (·.1))) else none) with
    | some (o, q) => (p, some q) :: realSpots loose need ok ps fun c => if c = p.core then o else f c
    | none => (p, none) :: realSpots loose need ok ps f

/-- Start the decided blocks that find their physical room (R44); a run placed whole waits for all (R45). -/
def State.realise (s : State) (launch : Nat) : State :=
  match s.launches.get? launch with
  | none => s
  | some l =>
    let xs := realSpots false (s.needOf l) (s.mayUse launch l) l.plans s.physOcc
    if l.whole && xs.any fun x => x.2.isNone then s
    else
      let s := xs.foldl (fun (s : State) x => match x.2 with
        | none => s
        | some p => s.startBlock launch x.1.rank x.1.core p
          ⟨x.1.scr.1, x.1.acc.1, x.1.waves.map fun w => (w.1, w.2.1)⟩) s
      s.modLaunch launch fun l => { l with plans := (xs.filter fun x => x.2.isNone).map (·.1) }

/-- A `pin` of the launch that fits at the boundary finds its physical room in the hands of other launches (R340). -/
def State.pinTaken (s : State) (launch : Nat) : Bool :=
  s.waves.any fun e => match s.waveCtx e.1 with
    | none => false
    | some c => decide (c.b.launch = launch) && s.pinRoom c == some .taken

/-- What a launch reads at the start of a quantum in place of what memory holds (R198): the old value of a byte that a write
from outside the launch has changed and not completed. -/
def State.firstView (s : State) (launch : Nat) : KMap Byte :=
  (s.unripe.filter fun u => decide (u.by_ ≠ some launch) && decide (s.now < u.until_)).foldl
    (fun v u => if (v.get? u.addr).isSome then v else v.set u.addr u.old) []

/-- Open the next quantum of a launch, once every decided block is placed (R44, R267, R278 step 7) and every waiting `pin`
that fits can be granted (R340); a waiting `pin` is tried again first in it (R205). -/
def State.tryOpen (s : State) (launch : Nat) : State :=
  match s.launches.get? launch with
  | none => s
  | some l =>
    let busy := match l.standing with
      | none => decide (s.blocksOf launch ≠ [])
      | some p => match s.programs.get? p with
        | none => false
        | some q => decide (q.running ≠ [])
    if l.dqm && !l.quantumOpen && !l.commitSent && !l.committed && l.plans = [] && busy && !s.checkpointing l &&
        !s.pinTaken launch then
      let again (w : Wave) : Wave := { w with
        readyFrom := s.now
        blocked := match w.blocked with
          | some (.pin _ _) => none
          | b => b }
      let mine := (s.blocksOf launch).map (·.1)
      State.modLaunch { s with waves := s.waves.map fun e => if mine.contains e.2.block then (e.1, again e.2) else e } launch
        fun l => { l with quantumOpen := true, view := s.firstView launch }
    else s

/-- Refill a DQM launch as far as its imagined cores allow (R20, R44). -/
def State.refillAll (launch : Nat) : Nat → State → State
  | 0, s => s
  | n + 1, s =>
    match s.launches.get? launch with
    | none => s
    | some l => match s.refillOne launch l with
      | none => s
      | some (x, p) => State.refillAll launch n
          ((s.adopt launch l x).modLaunch launch fun l => { l with cpos := p, waiting := x.waiting })

/-! ## Waiting for contiguous room (R39, R45, R339) -/

/-- Tenures on a core whose pinning block is not resident. -/
def State.orphanTenures (s : State) (core : Nat) : List (Nat × Tenure) :=
  (s.core core).tenures.filter fun t => (s.blocks.get? t.2.pinBlock).isNone

/-- What a core would hold without those tenures. -/
def State.occSansOrphans (s : State) (core : Nat) : Occ :=
  { s.physOcc core with
    acc := ((s.blocks.filter fun e => decide (e.2.core = core)).map fun e => (e.2.accBase, e.2.accGran)) ++
      (((s.core core).tenures.filter fun t => (s.blocks.get? t.2.pinBlock).isSome).map fun t => (t.2.gbase, t.2.gcnt)) }

/-- Blocks that are to go to one core: what each needs, and its sections if they are decided. -/
abbrev Blocks := List (Need × Option (List Nat))

/-- A core has room for all of some blocks. -/
def Occ.fitAll (loose : Bool) : Blocks → Occ → Bool
  | [], _ => true
  | x :: xs, o => match o.fit loose x.1 x.2 with
    | none => false
    | some y => Occ.fitAll loose xs y.1

/-- What waits to be placed on a core: its rank, the core, the blocks. -/
structure Want where
  rank : Nat
  core : Nat
  blocks : Blocks
  deriving DecidableEq, Repr

/-- The next cluster of a run, or the next block of a replay: its rank, and the cores it may go to (R42, R50). -/
def State.nextWant (s : State) (l : Launch) : List (Nat × Nat) :=
  if l.replays then (s.replayNext l).toList
  else if l.cpos < l.record.clusters then
    ((List.range 192).filter fun c => l.inMask c && !l.waiting.any fun w => decide (w.2 = c / 8)).map fun c =>
      (l.cpos * l.record.members, c)
  else []

/-- What a launch waits to place, on each core it may go to: decided blocks (R44), the first waiting relaxation (R267), members
on their cells, and the next cluster (R42). -/
def State.waiters (s : State) (l : Launch) : List Want :=
  if l.dqm then l.plans.map fun p => ⟨p.rank, p.core, [(s.needOf l p.rank, some (p.waves.map (·.1)))]⟩
  else
    let places : List (Nat × Nat) := match l.standing with
      | some p => (((s.programs.get? p).bind fun q => q.waiting.head?).toList).flatMap fun id =>
          ((List.range 192).filter l.inMask).map fun c => (id, c)
      | none => (l.waiting.flatMap fun w => (cellCores l.inMask w.2).map fun c => (w.1, c)) ++ s.nextWant l
    places.map fun x => ⟨x.1, x.2, [(s.needOf l x.1, none)]⟩

/-- What waits to be placed, on each core it may go to: for a run placed whole, all that its plan puts on a core, if the plan
fits its cores as `occ` gives them, with free granules taken as contiguous when `loose` (R45). -/
def State.wants (s : State) (l : Launch) (loose : Bool) (occ : Nat → Occ) : List Want :=
  let onCores (xs : List (Nat × Need × Option (List Nat))) : List Want :=
    ((List.range 192).filter fun c => xs.any fun x => decide (x.1 = c)).map fun c =>
      ⟨0, c, (xs.filter fun x => decide (x.1 = c)).map (·.2)⟩
  if !l.whole then s.waiters l
  else if l.dqm then
    let ws := onCores (l.plans.map fun p => (p.core, s.needOf l p.rank, some (p.waves.map (·.1))))
    if ws.all fun w => (occ w.core).fitAll loose w.blocks then ws else []
  else if l.begun then []
  else match l.record.wholePlan loose (fun _ => l.inMask) occ with
    | none => []
    | some x => onCores (x.spots.map fun y => (y.2.1, l.record.need, none))

/-- What fails to fit on a core only for want of contiguous runs (R39, R45). -/
def State.torn (s : State) (l : Launch) : List Want :=
  (s.wants l true s.physOcc).filter fun x =>
    !(s.physOcc x.core).fitAll false x.blocks && (s.physOcc x.core).fitAll true x.blocks

/-- What fails to fit on a core only because tenures of absent blocks hold accumulator granules (R339). -/
def State.heldBack (s : State) (l : Launch) : List Want :=
  (s.wants l false s.occSansOrphans).filter fun x =>
    !(s.physOcc x.core).fitAll false x.blocks && (s.occSansOrphans x.core).fitAll false x.blocks

/-- Since when what waits waits, by rank: what has waited before keeps its time. -/
def State.waitTimes (s : State) (l : Launch) : KMap Nat :=
  (s.torn l ++ s.heldBack l).foldl (fun m x => m.set x.rank (l.waitFrom.getD x.rank s.now)) []

/-- A drain goes on until what waits has been placed, or, for a run placed whole, until the core fits its plan (R39, R45). -/
def State.drainsOn (s : State) (core : Nat) (d : Nat × Nat) : Bool :=
  match s.launches.get? d.1 with
  | none => false
  | some l => if l.whole then (s.torn l).any fun x => decide (x.core = core)
      else (s.waiters l).any fun x => decide (x.rank = d.2) && decide (x.core = core)

/-- Note since when each launch waits (R39), which drains go on, and which freed cores still have room; called wherever room
changes. -/
def State.noteWaits (s : State) : State :=
  State.pruneFreed { s with
    launches := s.launches.map fun e => (e.1, { e.2 with waitFrom := s.waitTimes e.2 })
    cores := s.cores.map fun e => (e.1, { e.2 with drains := e.2.drains.filter (s.drainsOn e.1) }) }

/-- What waits with a rank has waited for 4,096 cycles (R39). -/
def Launch.waited (l : Launch) (now rank : Nat) : Bool := (l.waitFrom.get? rank).any fun t => decide (t + 4096 ≤ now)

/-- What a launch begins to drain for: the lowest-numbered core on which something has waited long enough (R39). -/
def State.toDrain (s : State) (l : Launch) : Option Want :=
  ((s.torn l).filter fun x => l.waited s.now x.rank).foldl (fun best x => match best with
    | none => some x
    | some b => if x.core < b.core then some x else some b) none

/-- The launch drains a core. -/
def State.draining (s : State) (launch : Nat) : Bool := s.cores.any fun e => e.2.drains.any fun d => decide (d.1 = launch)

/-- `DRAIN` (R39, R45); subject a: launch. One core at a time: it stays with a core until the cluster, or what a run placed
whole plans there, fits. -/
def execDrain (s : State) : Host.Outcome State Fault Refusal :=
  .next (match (s.launches.get? s.subj.a).bind s.toDrain with
    | none => s
    | some x => if !s.draining s.subj.a && (s.core x.core).drains.isNone then
        s.modCore x.core fun k => { k with drains := some (s.subj.a, x.rank) }
      else s)

/-! ## Refills as events (R20, R42, R44, R297) -/

/-- A free-mode program places the first of its waiting relaxations (R267). -/
def State.relaxOne (s : State) (launch p : Nat) (l : Launch) : Option State :=
  match (s.programs.get? p).bind fun q => q.waiting.head? with
  | none => none
  | some id =>
    let x := s.placing launch l
    (x.first false (s.needOf l id) ((List.range 192).filter (s.usable launch l id))).map fun y =>
      (s.adopt launch l (x.put y.1 id y.2.1 y.2.2)).modProgram p fun q => { q with waiting := q.waiting.drop 1 }

/-- One step of placement for a launch, if there is one: a run that an earlier launch kept from being offered the cores as it
was taken is offered them as R19 says at its first turn. -/
def State.placeOne (s : State) (launch : Nat) (l : Launch) : Option State :=
  if l.dqm then
    let t := (s.realise launch).tryOpen launch
    if t.launches.get? launch = some l then none else some t
  else match l.standing with
  | some p => s.relaxOne launch p l
  | none =>
  if l.whole then
    if l.begun then none
    else (if l.replays then s.replayAll launch l.record.total l (s.placing launch l)
        else l.record.wholePlan false (s.mayUse launch l) s.physOcc).map fun x =>
      (s.adopt launch l x).modLaunch launch fun l => { l with begun := true, cpos := l.record.clusters }
  else if l.replays then
    if l.record.total ≤ l.startedRanks.length then none
    else (s.replayOne launch l).map fun x => s.adopt launch l x
  else if l.offered then (s.refillOne launch l).map fun x =>
    (s.adopt launch l x.1).modLaunch launch fun l => { l with cpos := x.2, waiting := x.1.waiting }
  else some (s.placeAtLaunch launch)

/-- No launch taken before takes what has freed (R297). -/
def State.firstOffer (s : State) (launch : Nat) : Bool :=
  s.launches.all fun e => decide (launch ≤ e.1) || e.2.dqm || (s.placeOne e.1 e.2).isNone

/-- `CLUSTER_PLACEMENT` (R42); subject a: launch. -/
def execClusterPlacement (s : State) : Host.Outcome State Fault Refusal :=
  .next (match s.launches.get? s.subj.a with
    | none => s
    | some l => if l.dqm || s.firstOffer s.subj.a then (match s.placeOne s.subj.a l with
        | none => s
        | some t => t.noteWaits) else s)

/-! ## Retirement of blocks (R32, R183, R223, R407) -/

/-- The operations and jobs that touch a block. -/
def State.blockBusy (s : State) (b : Nat) : Bool :=
  (s.jobsOf b).length ≠ 0 || s.allOps.any fun o => decide (o.block = b) || decide (o.follower = some b)

/-- Every wave of the block has exited and nothing halts or holds it. -/
def State.allExited (s : State) (b : Nat) : Bool := (s.wavesOf b).all fun e => e.2.exited

/-- What a block issued is complete at device scope; peers have acknowledged its writes. -/
def State.blockDone (s : State) (b : Nat) : Bool :=
  !s.blockBusy b && s.blockReleased b && (s.wavesOf b).all fun e => decide (e.2.peerOut = [])

/-- Free a block's resources: its ticket is taken by the hardware if it still holds it (R223). -/
def State.retireBlock (s : State) (b : Nat) : State :=
  match s.blocks.get? b with
  | none => s
  | some blk =>
    let s := s.modLaunch blk.launch fun l =>
      let l := match blk.ticket with
        | some r => if l.standing.isSome then l else l.take r true
        | none => l
      { l with retiredRanks := if l.standing.isSome then l.retiredRanks else l.retiredRanks.set blk.rank () }
    let s : State := { s with
      waves := s.waves.filter fun e => decide (e.2.block ≠ b)
      blocks := s.blocks.erase b
      scrStamps := s.scrStamps.erase b
      lost := s.lost.filter fun x => decide (x.trap.ofBlock ≠ b) }
    s.noteFreed blk.launch blk.core blk.imCore

/-- `BLOCK_RETIREMENT` (R32) in free mode; subject a: block. A block with a deferred fault of an exited wave halts
instead (R407). -/
def execBlockRetirement (s : State) : Host.Outcome State Fault Refusal :=
  match s.blocks.get? s.subj.a with
  | none => .next s
  | some blk =>
    match s.launches.get? blk.launch with
    | none => .next s
    | some l =>
      if l.standing.isSome || l.dqm || blk.halt.isSome || !s.allExited s.subj.a || !s.blockDone s.subj.a then .next s
      else match s.exitFault s.subj.a with
        | some (k, d) => .next (s.haltAtExit s.subj.a k d)
        | none => .next (s.retireBlock s.subj.a).noteWaits

/-! ## The end of a run (R183, R300) -/

/-- A completion message (R300). -/
def State.complete (s : State) (ep : BitVec 16) (tag : Word) (status kindStatus slot : Nat) (outcome : Byte)
    (block : Word) (bounds : Nat) : State :=
  s.send 0x0002 ep tag (natLe 1 status ++ natLe 1 kindStatus ++ natLe 1 slot ++ [outcome] ++ natLe 4 block.toNat ++
    natLe 8 bounds)

/-- Drop a launch's tenures, resident and spilled (R338), and what the device kept for its collectives. -/
def State.dropLaunch (s : State) (launch : Nat) (l : Launch) : State :=
  let hit := s.cores.filter fun e => e.2.tenures.any fun t => decide (t.2.launch = launch)
  let s : State := { s with
    cores := s.cores.map fun e => (e.1, { e.2 with tenures := e.2.tenures.filter fun t => decide (t.2.launch ≠ launch) })
    pool := s.pool.filter fun p => decide (p.launch ≠ launch)
    colls := s.colls.filter fun e => decide (e.1 / 16 ≠ l.tag.toNat)
    early := s.early.filter fun m => decide (m.tag ≠ l.tag)
    launches := s.launches.erase launch }
  hit.foldl (fun s e => s.noteFreed launch e.1 e.1) (s.endDrain launch)

/-- Every block of the run has retired. -/
def State.runOver (s : State) (launch : Nat) (l : Launch) : Bool :=
  l.standing.isNone && decide (l.retiredRanks.length = l.record.total) && decide (s.blocksOf launch = []) &&
    !l.commitSent && !l.committed

/-- `RUN_COMPLETION` (R183, R300, R310 point 2); subject a: launch. -/
def execRunCompletion (s : State) : Host.Outcome State Fault Refusal :=
  match s.launches.get? s.subj.a with
  | none => .next s
  | some l =>
    if s.runOver s.subj.a l then
      let s := if l.domain.isSome then s.domArrive l 0xFFFFFFFF else s
      .next ((s.complete l.endpoint l.tag 0 0 0xFF l.outcome 0 (if l.dqm then l.bounds else 0)).dropLaunch s.subj.a
        l).noteWaits
    else .next s

end Sys2Proof.Machine
end

