-- ==== Sys2Proof/Machine/Boundary.lean ====
section
/-! DEFINITION. The boundary of a DQM launch: its close, the commit, the jobs of the quantum, barriers and tickets,
retirement and placement, and spills under pressure (R162, R168, R170, R197, R198, R205, R224, R277, R278, R339,
R340). -/

namespace Sys2Proof.Machine

open Sys2Proof

/-! ## The close (R21, R277, R359) -/

/-- The waves of a launch. -/
def State.wavesIn (s : State) (launch : Nat) : List (Nat × Wave) :=
  s.waves.filter fun e => match s.blocks.get? e.2.block with
    | some b => decide (b.launch = launch)
    | none => false

/-- The relaxation of a wave has been killed (R271). -/
def State.killedWave (s : State) (w : Wave) : Bool :=
  match s.blocks.get? w.block with
  | some b => b.kill.isSome
  | none => false

/-- A wave has ended its quantum, or counts as having done so (R205). -/
def Wave.endedQuantum (w : Wave) : Bool := w.exited || (w.parked.isNone && !w.halted && (w.qend || w.blocked == some .barB))

/-- A tile operation that must retire before the quantum closes: it reads or writes memory, or a block it touches has
exited whole (R324, R357, R359). -/
def State.holdsClose (s : State) (launch : Nat) (o : TileOp) : Bool :=
  decide (o.launch = launch) && (decide (o.rows ≠ []) || decide (o.spans ≠ []) || s.allExited o.block ||
    match o.follower with
    | some f => s.allExited f
    | none => false) && match s.blocks.get? o.block with
      | some b => b.kill.isNone
      | none => false

/-- The close of R277 is reached: no parked wave, halted block or saved block holds it. -/
def State.mayClose (s : State) (launch : Nat) (l : Launch) : Bool :=
  l.quantumOpen && ((s.wavesIn launch).all fun e => s.killedWave e.2 || e.2.endedQuantum) &&
    ((s.blocksOf launch).all fun e => e.2.halt.isNone || e.2.kill.isSome) &&
    (s.saved.all fun e => decide (e.2.block.launch ≠ launch)) && !s.allOps.any (s.holdsClose launch)

/-! ## The commit (R198, R162, R224) -/

/-- The entries of a launch's buffers in commit order: wave-id order, each in program order. -/
def State.commitList (s : State) (launch : Nat) : List (Nat × Nat × Buffered) :=
  (s.wavesIn launch).flatMap fun e => e.2.share.map fun b => (e.1, e.2.core, b)

/-- An entry that goes to a peer asks it (R162, R305). -/
def State.commitAsk (s : State) (key : Nat) : Buffered → Option (Nat × State)
  | .store (.peer d pa) n data lane addr =>
    some (s.ask key 0 ⟨lane, addr, d, 0x0012, writePayload pa (natLe n data), n⟩)
  | .rmw op (.peer d pa) v w _ _ lane addr =>
    some (s.ask key 0 ⟨lane, addr, d, 0x0014, rmwPayload pa op v w, op.width⟩)
  | .store (.here _) _ _ _ _ => none
  | .rmw _ (.here _) _ _ _ _ _ _ => none
  | .take => none
  | .job _ _ => none
  | .tile _ => none
  | .strike _ _ => none

/-- The old value of a committed atomic reaches d. -/
def State.commitOld (s : State) (key : Nat) (dest : List Nat) (lanes : Mask) (old : Nat) : State :=
  s.modWave key fun w => dest.zipIdx.foldl (fun w d => w.writeSlot d.1 lanes fun _ => BitVec.ofNat 32 (old / 2 ^ (32 * d.2))) w

/-- Instruction caches drop a line that the commit wrote (R233). -/
def State.dropCode (s : State) (a n : Nat) : State :=
  let keep (x : Nat × Word × Nat) : Bool := decide (x.1 / 64 < a / 64) || decide ((a + n - 1) / 64 < x.1 / 64)
  { s with cores := s.cores.map fun e => (e.1, { e.2 with icache := e.2.icache.filter keep }) }

/-- Drop the lines of a location. -/
def State.dropLoc (s : State) (l : Loc) (n : Nat) : State :=
  match l with
  | .mem a => s.dropCode a n
  | .scr _ _ => s

/-- An entry of the commit has failed (0x17): it is noted by its place (R154, R305). -/
def State.commitFails (s : State) (launch key lane : Nat) (addr : DWord) : State :=
  (s.modLaunch launch fun l => { l with commitBad := l.commitBad ++ [l.commitPos] }).lateError key 0 lane addr

/-- A write of the commit is complete at device scope at v (R173, R183). -/
def State.commitBy (s : State) (launch v : Nat) : State :=
  s.modLaunch launch fun l => { l with commitEnd := max l.commitEnd v }

/-- Apply an entry of this device at its place. -/
def State.commitHere (s : State) (launch key core : Nat) : Buffered → State
  | .store (.here l) n data _ _ =>
    let y := s.applyStore (some launch) core l (natLe n data)
    (y.2.dropLoc l n).commitBy launch y.1
  | .store (.peer _ _) _ _ _ _ => s
  | .rmw op (.here l) v w dest lanes lane addr =>
    if s.poisoned l op.width then s.commitFails launch key lane addr
    else
      let y := s.applyRmw (some launch) core op l v w
      ((y.2.2.commitOld key dest lanes y.1).dropLoc l op.width).commitBy launch y.2.1
  | .rmw _ (.peer _ _) _ _ _ _ _ _ => s
  | .take =>
    match (s.waves.get? key).bind fun w => (s.blocks.get? w.block).map fun b => (w.block, b) with
    | some (k, b) => match b.ticket with
      | some r => (s.modBlock k fun b => { b with ticket := none }).modLaunch launch fun l => l.take r false
      | none => s
    | none => s
  | .job _ _ => s
  | .tile _ => s
  | .strike h dump =>
    match s.launches.get? launch with
    | none => s
    | some l =>
      if l.commitBad.any fun x => decide (x < l.commitPos) && decide (l.commitPos ≤ x + dump) then s else s.strikeHandle launch h

/-- An entry's answer from a peer: a failed one faults its lane (R305); the old value of an atomic reaches d. -/
def State.commitAnswer (s : State) (launch key : Nat) (r : RemoteReq) : Buffered → State
  | .rmw op (.peer _ _) _ _ dest lanes _ _ =>
    if r.status = some 0 then s.commitOld key dest lanes (leNat (r.data.take op.width))
    else s.commitFails launch key r.lane r.addr
  | _ => if r.status = some 0 then s else s.commitFails launch key r.lane r.addr

/-- The entries commit one after another (R198): one that goes to a peer is performed there before the next begins
(R162). An entry of a killed relaxation is discarded (R271). True once all have been performed. -/
def State.commitOn (launch : Nat) : List (Nat × Nat × Buffered) → State → State × Bool
  | [], s => (s, true)
  | (key, core, e) :: es, s =>
    let next (s : State) : State := s.modLaunch launch fun l => { l with commitPos := l.commitPos + 1, commitReqs := [] }
    match ((s.launches.get? launch).map (·.commitReqs)).getD [] with
    | tag :: _ =>
      match s.remote.get? tag with
      | none => State.commitOn launch es (next s)
      | some r =>
        if r.status.isNone then (s, false)
        else State.commitOn launch es (next ((s.commitAnswer launch key r e).forget [tag]))
    | [] =>
      if (match s.waves.get? key with | some w => s.killedWave w | none => true) then State.commitOn launch es (next s)
      else match s.commitAsk key e with
        | some x => (x.2.modLaunch launch fun l => { l with commitReqs := [x.1] }, false)
        | none => State.commitOn launch es (next (s.commitHere launch key core e))

/-- Commit the buffers as far as they go, then apply the takes of halted blocks (R198, R223, R224). -/
def State.commit (s : State) (launch : Nat) (l : Launch) : State :=
  let x := State.commitOn launch ((s.commitList launch).drop l.commitPos) s
  if x.2 then
    x.1.modLaunch launch fun l =>
      let m := l.pendingTakes.foldl (fun (l : Launch) t => l.take t.1 t.2) l
      { m with pendingTakes := [], commitPos := 0, commitBad := [], commitSent := false, committed := true }
  else x.1

/-! ## Jobs (R168, R170, R278 step 3) -/

/-- The jobs buffered in the quantum, in commit order. -/
def State.quantumJobs (s : State) (launch : Nat) : List (Nat × Nat) :=
  (s.commitList launch).filterMap fun e => match e.2.2, s.waves.get? e.1 with
    | .job core id, some w => if s.killedWave w then none else some (core, id)
    | _, _ => none

/-- A job enters its engine; a collective takes its number (R306). -/
def State.enterJob (s : State) (core : Nat) (j : Job) (tag : Word) : State :=
  if j.queued then
    match j.kind with
    | .coll _ =>
      let y := s.numberColl tag (dw j.desc 5)
      y.2.modJob core j.id fun j => { j with queued := false, seq := y.1 }
    | _ => s.modJob core j.id fun j => { j with queued := false }
  else s

/-- Run the jobs one after another, up to the first that cannot end yet. -/
def State.runJobs (tag : Word) : List (Nat × Nat) → State → State × Bool
  | [], s => (s, true)
  | (core, id) :: rest, s =>
    match s.job core id with
    | none => State.runJobs tag rest s
    | some j =>
      let s := (s.enterJob core j tag).runJob core id
      if (s.job core id).isNone then State.runJobs tag rest s else (s, false)

/-! ## Barriers and tickets (R205, R218, R224, R278 step 4) -/

/-- Release the generation of a barrier whose last arrival fell in the quantum. -/
def State.boundaryBar (s : State) (k : Blocked) (key : Nat) : State :=
  match s.blocks.get? key with
  | none => s
  | some b =>
    match s.launches.get? b.launch with
    | none => s
    | some l =>
      if ((s.wavesOf key).any fun e => decide (e.2.blocked = some k)) && s.allArrived k b.launch l key b none then
        s.releaseBar k (s.barBlocks k b.launch l key b)
      else s

/-- A `tkt.wait` whose ticket is ready completes (R221, R224). -/
def State.boundaryTicket (s : State) (key : Nat) : State :=
  match s.waveCtx key with
  | none => s
  | some c =>
    match c.w.blocked with
    | some (.ticket d) =>
      let answer (s : State) (x : Word) : State := s.settle c 1 (.done .plain (s.writeReg c d fun _ => x))
      match c.b.ticket with
      | none => answer s c.b.tktWord
      | some r =>
        if r ≤ c.l.tickets then
          let a := decide (0 < r) && (c.l.abandoned.get? (r - 1)).isSome
          answer (s.modBlock c.w.block fun b => { b with tktAband := a })
            (BitVec.ofNat 32 ((if a then 2 ^ 31 else 0) + r))
        else s
    | _ => s

/-- Barriers, then tickets. -/
def State.boundaryWaits (s : State) (launch : Nat) : State :=
  let bs := (s.blocksOf launch).map (·.1)
  let s := bs.foldl (fun s k => s.boundaryBar .barC k) s
  let s := bs.foldl (fun s k => s.boundaryBar .barDev k) s
  ((s.wavesIn launch).map (·.1)).foldl State.boundaryTicket s

/-! ## Kills at the close (R271, R280) -/

/-- The blocks of a launch that have come to be killed, with the cause: by a fault of a wave, or, once their waves have all
exited, by a deferred one (R271, R407). -/
def State.doomed (s : State) (launch : Nat) : List (Nat × Nat) :=
  (s.blocksOf launch).filterMap fun e =>
    match e.2.kill, s.exitFault e.1 with
    | some k, _ => some (e.1, k)
    | none, some (_, d) => if s.allExited e.1 then some (e.1, d.cause) else none
    | none, none => none

/-- A block that is doomed in `t` and was not in `s`. -/
def State.newlyDoomed (s t : State) (launch : Nat) : Option (Nat × Nat) :=
  (t.doomed launch).find? fun x => !(s.doomed launch).any fun y => decide (y.1 = x.1)

/-- The first block that an entry of the commit would kill, and the state after the entries, if all can be performed now. -/
def State.commitFailure (launch : Nat) : List (Nat × Nat × Buffered) → State → Option (Nat × Nat) × Option State
  | [], s => (none, some s)
  | e :: es, s =>
    let x := State.commitOn launch [e] s
    match s.newlyDoomed x.1 launch with
    | some b => (some b, none)
    | none => if x.2 then State.commitFailure launch es x.1 else (none, none)

/-- The first block that a job of the quantum would kill. -/
def State.jobsFailure (launch : Nat) (tag : Word) : List (Nat × Nat) → State → Option (Nat × Nat)
  | [], _ => none
  | j :: js, s =>
    let x := State.runJobs tag [j] s
    match s.newlyDoomed x.1 launch with
    | some b => some b
    | none => if x.2 then State.jobsFailure launch tag js x.1 else none

/-- The first block of a relaxation that the commit, or a job after it, would kill. -/
def State.firstFailure (s : State) (launch : Nat) (tag : Word) : Option (Nat × Nat) :=
  match State.commitFailure launch (s.commitList launch) s with
  | (some b, _) => some b
  | (none, some t) => t.jobsFailure launch tag (t.quantumJobs launch)
  | (none, none) => none

/-- Kill the relaxations that the commit and the jobs of the quantum would kill, one after another, so that nothing that they
stored in the quantum commits and a replay of the kill repeats the run (R271, R280, R285). DESIGN CHOICE: R271 says that the
buffered writes of the quantum are discarded, and not what becomes of those that stand before the failing one: none commits;
where a peer's answer or an absent page stands before the failure, what has been performed stays (log entry 70). -/
def State.killFailing (launch : Nat) (tag : Word) : Nat → State → State
  | 0, s => s
  | n + 1, s => match s.firstFailure launch tag with
    | none => s
    | some x => State.killFailing launch tag n (s.modBlock x.1 fun b => { b with kill := some x.2 })

/-- Kill the relaxations whose exited waves hold a deferred fault (R271, R407). -/
def State.killDoomed (s : State) (launch : Nat) : State :=
  (s.doomed launch).foldl (fun s x => s.modBlock x.1 fun b => { b with kill := some (b.kill.getD x.2) }) s

/-- The quantum closes: what the waves issued is performed, and the commit begins. The relaxations that a fault kills are
killed first, so that nothing of them commits (R271, R407). -/
def State.close (s : State) (launch : Nat) : State :=
  let s := ((s.wavesIn launch).map (·.1)).foldl State.drain s
  let begin_ (s : State) : State := s.modLaunch launch fun l =>
    { l with commitSent := true, commitPos := 0, commitReqs := [], commitBad := [] }
  match s.launches.get? launch with
  | none => s
  | some l =>
    if l.standing.isNone then begin_ s
    else State.killFailing launch l.tag (s.blocksOf launch).length (begin_ (s.killDoomed launch))

/-- What a block that retires at the boundary issued is complete at device scope (R183). -/
def State.closedBlocksDone (s : State) (launch : Nat) : Bool :=
  (s.blocksOf launch).all fun e => e.2.kill.isSome || e.2.halt.isSome || !s.allExited e.1 || s.blockDone e.1

/-- Steps 1 to 4 of a boundary (R278), as far as they go: true once they are done and what was written is complete at
device scope (R183). Answers of peers and pages that are absent may hold them. -/
def State.boundaryFront (s : State) (launch : Nat) : State × Bool :=
  match s.launches.get? launch with
  | none => (s, false)
  | some l =>
    let s := if l.committed || l.commitSent then s else if s.mayClose launch l then s.close launch else s
    match s.launches.get? launch with
    | none => (s, false)
    | some l =>
      let s := if l.commitSent then s.commit launch l else s
      match s.launches.get? launch with
      | none => (s, false)
      | some l =>
        if !l.committed || (s.saved.any fun e => decide (e.2.block.launch = launch)) then (s, false)
        else
          let x := State.runJobs l.tag (s.quantumJobs launch) s
          if x.2 && decide (l.commitEnd ≤ s.now) && x.1.closedBlocksDone launch then (x.1.boundaryWaits launch, true)
          else (x.1, false)

/-! ## Spills for waiting pins (R339, R340) -/

/-- Blocks on a core that wait on a `pin`, lowest identifier first: block, wave, shape. -/
def State.pinWaiters (s : State) (core : Nat) (mine : Launch → Nat → Bool) (ended : Bool) : List (Nat × Nat × BitVec 4) :=
  (s.blocks.filter fun e => decide ((if ended then e.2.imCore else e.2.core) = core) && match s.launches.get? e.2.launch with
      | some l => mine l e.2.launch
      | none => false).filterMap fun e =>
    (s.wavesOf e.1).findSome? fun w =>
      if w.2.qend = ended ∧ !w.2.halted then
        match w.2.blocked with
        | some (.pin _ shape) => some (e.1, w.1, BitVec.ofNat 4 shape)
        | _ => none
      else none

/-- The most recently pinned resident tenure of a core among those wanted. -/
def State.lastTenure (s : State) (core : Nat) (p : Tenure → Bool) : Option (Nat × Tenure) :=
  ((s.core core).tenures.filter fun t => p t.2).foldl (fun best t =>
    match best with
    | none => some t
    | some b => if b.2.pinOrder < t.2.pinOrder then some t else some b) none

/-- Free a spilled tenure's place on its imagined core (R44). -/
def State.freeImagined (s : State) (launch : Nat) (h : Word) : State :=
  { s with pool := s.pool.map fun (p : Spilled) =>
      if p.launch = launch ∧ p.handle = h ∧ p.live then { p with imCore := none } else p }

/-- The most recently pinned resident tenure of a block that the launch's imagined core holds: its core, entry and
tenure. -/
def State.lastImagined (s : State) (imCore block : Nat) : Option (Nat × Nat × Tenure) :=
  ((s.cores.flatMap fun k => k.2.tenures.map fun t => (k.1, t)).filter fun t => decide (t.2.2.pinBlock = block) &&
      decide (t.2.2.imCore = imCore)).foldl (fun best t =>
    match best with
    | none => some t
    | some b => if b.2.2.pinOrder < t.2.2.pinOrder then some t else some b) none

/-- The tenure that a round of R339 spills: that of the waiting block with the highest identifier that has one. On the
imagined core a tenure spilled for others still counts. -/
def State.spillChoice (s : State) (core : Nat) (own : Option Nat) : List (Nat × Nat × BitVec 4) →
    Option (Option (Nat × Nat × Tenure) × Option Spilled)
  | [] => none
  | w :: ws =>
    match State.spillChoice s core own ws with
    | some x => some x
    | none =>
      let here := match own with
        | none => (s.lastTenure core fun t => decide (t.pinBlock = w.1)).map fun t => (core, t)
        | some _ => s.lastImagined core w.1
      let away := match own with
        | none => none
        | some _ => (s.pool.filter fun (p : Spilled) => p.live && decide (p.pinBlock = w.1) && decide (p.imCore = some core)).foldl
            (fun (best : Option Spilled) p => match best with
              | none => some p
              | some b => if b.pinOrder < p.pinOrder then some p else some b) none
      match here, away with
      | none, none => none
      | some t, some p => if t.2.2.pinOrder < p.pinOrder then some (none, some p) else some (some t, none)
      | h, a => some (h, a)

/-- A waiting block's pin fits: on the core, or on the launch's imagined core. -/
def State.pinFits (s : State) (core : Nat) (own : Option Nat) (shape : BitVec 4) : Bool :=
  match own with
  | none => match s.accRoom 0 false core core (shapeGran shape) none none with
    | .at_ _ _ => true
    | _ => false
  | some launch => (freeRun (s.imAccUsed launch core) (shapeGran shape) accTotal).isSome

/-- Spill until the lowest waiting block's pin fits; a full pool faults the pin of the highest (R339). The operations that
name a tenure chosen end first; while one cannot, the spill waits. -/
def State.spillRounds (core : Nat) (own : Option Nat) (ws : List (Nat × Nat × BitVec 4)) : Nat → State → State
  | 0, s => s
  | n + 1, s =>
    match ws with
    | [] => s
    | w :: _ =>
      if s.pinFits core own w.2.2 then s
      else match s.spillChoice core own ws with
        | none => s
        | some (some t, _) =>
          if s.tenureBusy t.2.2.launch t.2.2.handle then
            let u := s.finishTenure t.2.2.launch t.2.2.handle
            if u.tenureBusy t.2.2.launch t.2.2.handle then u else State.spillRounds core own ws n u
          else match s.spill t.1 t.2.1 own.isSome with
          | some t => State.spillRounds core own ws n t
          | none => match ws.getLast? with
            | some z => (s.modWave z.2.1 fun w => { w with blocked := none }).takeHalt z.2.1 0x35 0
                (match s.waves.get? z.2.1 with | some w => w.executing .always true | none => 0) 0
            | none => s
        | some (none, some p) => State.spillRounds core own ws n (s.freeImagined p.launch p.handle)
        | some (none, none) => s

/-- Case 1 of R339: two or more blocks wait, and the free granules satisfy none. -/
def State.relievePins (s : State) (core : Nat) (own : Option Nat) (ws : List (Nat × Nat × BitVec 4)) : State :=
  if 2 ≤ ws.length ∧ (ws.all fun w => !s.pinFits core own w.2.2) = true then State.spillRounds core own ws 65 s else s

/-- Spills of a launch's own waiting pins at its boundary (R340). -/
def State.boundarySpills (s : State) (launch : Nat) : State :=
  (List.range 192).foldl (fun s c =>
    s.relievePins c (some launch) (s.pinWaiters c (fun l k => l.dqm && decide (k = launch)) true)) s

/-! ## The end of a boundary (R278 steps 5 to 7) -/

/-- Retire the blocks whose waves have all exited, in placement rank, and place after each (R20, R44, R407). DESIGN CHOICE:
placement follows a retirement: at a boundary that frees imagined room by an `unpin` or a spill alone, no cluster is placed
before the next retirement; R20 speaks of blocks that retire, and R278 only says that placement proceeds (log entry 77). -/
def State.boundaryRetire (launch : Nat) : List Nat → State → State
  | [], s => s
  | b :: bs, s =>
    let s := match s.blocks.get? b with
      | none => s
      | some blk =>
        if blk.halt.isSome || !s.allExited b then s
        else match s.exitFault b with
          | some (k, d) => s.haltAtExit b k d
          | none => State.refillAll launch 256 (s.retireBlock b)
    State.boundaryRetire launch bs s

/-- A wave still waits for a later boundary: it counts as having ended the next quantum too. -/
def waitsOver : Option Blocked → Bool
  | some .barC => true
  | some .barDev => true
  | some (.ticket _) => true
  | _ => false

/-- A blocked wave tries its word again in the next quantum (R205); a `pin` as it opens. -/
def nextQuantum (w : Wave) : Option Blocked :=
  match w.blocked with
  | some .handle => none
  | b => b

/-- A wave at the start of a quantum: its count and its share are empty (R204, R277). -/
def Wave.freshQuantum (w : Wave) : Wave :=
  { w with qcount := 0, share := [], shareUsed := 0, qend := waitsOver w.blocked, blocked := nextQuantum w, stalled := none }

/-- A snapshot once the quantum's writes have committed: a rollback to it commits them no second time (R394). -/
def Snapshot.freshQuantum (n : Snapshot) : Snapshot :=
  { n with waves := n.waves.map fun x => (x.1, x.2.freshQuantum) }

/-- Step 7: counts return to 0, and `%qtm` rises (R278). -/
def State.nextQuanta (s : State) (launch : Nat) : State :=
  let keys := (s.wavesIn launch).map (·.1)
  let s : State := { s with
    waves := s.waves.map fun e => if keys.contains e.1 then (e.1, e.2.freshQuantum) else e
    blocks := s.blocks.map fun e =>
      if e.2.launch = launch then (e.1, { e.2 with snap := e.2.snap.map Snapshot.freshQuantum }) else e }
  s.modLaunch launch fun l => { l with bounds := l.bounds + 1, quantumOpen := false, committed := false, commitSent := false }

/-- `QUANTUM_BOUNDARY` (R278) of a run; subject a: launch. -/
def execQuantumBoundary (s : State) : Host.Outcome State Fault Refusal :=
  match s.launches.get? s.subj.a with
  | none => .next s
  | some l =>
    if !l.dqm || l.standing.isSome then .next s
    else
      let x := s.boundaryFront s.subj.a
      if x.2 then
        let t := State.boundaryRetire s.subj.a ((x.1.blocksOf s.subj.a).map (·.1)) x.1
        let t := (t.boundarySpills s.subj.a).nextQuanta s.subj.a
        .next ((t.realise s.subj.a).tryOpen s.subj.a).noteWaits
      else .next x.1

/-! ## `PRESSURE_SPILL` (R339, R340) -/

/-- Spill tenures of a core, most recently pinned first, until a condition holds; the operations that name one end
first. -/
def State.spillUntil (core : Nat) (p : Tenure → Bool) (ok : State → Bool) : Nat → State → State
  | 0, s => s
  | n + 1, s =>
    if ok s then s
    else match s.lastTenure core p with
      | none => s
      | some t =>
        if s.tenureBusy t.2.launch t.2.handle then
          let u := s.finishTenure t.2.launch t.2.handle
          if u.tenureBusy t.2.launch t.2.handle then u else State.spillUntil core p ok n u
        else match s.spill core t.1 false with
        | none => s
        | some u => State.spillUntil core p ok n u

/-- What has waited long to be placed on a core for granules that tenures of absent blocks hold there (R339). -/
def State.starvedFor (s : State) (core : Nat) : Option Blocks :=
  s.launches.findSome? fun e =>
    ((s.heldBack e.2).find? fun x => decide (x.core = core) && e.2.waited s.now x.rank).map (·.blocks)

/-- A wave of a DQM launch waits, within its quantum or for the next to open, for room that other launches hold: launch and
granules (R318, R340). -/
def State.roomTaken (s : State) (core : Nat) : Option (Nat × Nat) :=
  (s.wavesOn core).findSome? fun e =>
    match s.waveCtx e.1 with
    | none => none
    | some c =>
      if !c.l.dqm || c.w.qend then none
      else match c.w.blocked with
        | some (.pin _ k) => if s.pinRoom c == some .taken then some (c.b.launch, shapeGran (BitVec.ofNat 4 k)) else none
        | some .handle =>
          match s.pool.find? fun p => p.live && decide (p.launch = c.b.launch) with
          | some p => some (c.b.launch, shapeGran p.shape)
          | none => s.cores.findSome? fun k => if k.1 = core then none
              else (k.2.tenures.find? fun t => decide (t.2.launch = c.b.launch)).map fun t => (c.b.launch, t.2.gcnt)
        | _ => none

/-- `PRESSURE_SPILL` (R339, R340); subject a: core. -/
def execPressureSpill (s : State) : Host.Outcome State Fault Refusal :=
  let core := s.subj.a
  let s1 := s.relievePins core none (s.pinWaiters core (fun l _ => !l.dqm) false)
  let s2 := match s1.starvedFor core with
    | none => s1
    | some bs => State.spillUntil core (fun t => (s1.blocks.get? t.pinBlock).isNone)
        (fun t => (t.physOcc core).fitAll false bs) 32 s1
  let s3 := match s2.roomTaken core with
    | none => s2
    | some (launch, n) => State.spillUntil core (fun t => decide (t.launch ≠ launch))
        (fun t => decide ((t.core core).tenures.length < 32) && (freeRun (t.accUsed core) n accTotal).isSome) 32 s2
  .next (if s3 = s then s else s3.noteWaits)

end Sys2Proof.Machine
end

