-- ==== Sys2Proof/Machine/Thresher.lean ====
section
/-! DEFINITION. The Thresher: the residual table, decisions, postings, kills, inputs, notices, snapshots, the journal and
the boundaries of standing programs (R251 to R276, R281 to R285, R301 to R303, R396). -/

namespace Sys2Proof.Machine

open Sys2Proof

/-! ## The residual table (R254, R264) -/

/-- +∞ as FP32. -/
def infWord : Word := 0x7F800000

/-- ROUND(x + y, FP32, RUP) of residuals; it saturates at +∞ (R254). -/
def addUp (x y : Word) : Word := BitVec.ofNat 32 (fp32.addF rupKeep (fp32.read x.toNat) (fp32.read y.toNat)).1

/-- The bump of a coupling item (R254 step 2). -/
def bumpOf (w d : Word) : Word :=
  if w = 0 then 0
  else if d = infWord then infWord
  else BitVec.ofNat 32 (fp32.mulF rupKeep (fp32.read w.toNat) (fp32.read d.toNat)).1

/-- The larger of two residuals: their patterns order as their values do. -/
def maxRes (x y : Word) : Word := if x.toNat ≤ y.toNat then y else x

/-- STATE: 00 idle, 01 eligible, 10 running, 11 forced (R264). -/
def stIdle : BitVec 2 := 0b00
/-- Eligible. -/
def stElig : BitVec 2 := 0b01
/-- Running. -/
def stRun : BitVec 2 := 0b10
/-- Forced. -/
def stForced : BitVec 2 := 0b11

/-- STATE of a block neither forced nor running. -/
def ResEntry.settle (e : ResEntry) (theta : Word) : ResEntry :=
  { e with state := if theta.toNat < e.res.toNat then stElig else stIdle }

/-- A forced block (R273). -/
def ResEntry.force (e : ResEntry) : ResEntry := { e with res := infWord, state := stForced }

/-- Change the entry of a block of a program. -/
def State.modRes (s : State) (q : Program) (id : Nat) (f : ResEntry → ResEntry) : State :=
  { s with residuals := s.residuals.set (q.base + id) (f (s.resEntry (q.base + id))) }

/-- The entry of a block of a program. -/
def State.resOf (s : State) (q : Program) (id : Nat) : ResEntry := s.resEntry (q.base + id)

/-- θ of a block, as copied at load. -/
def Program.theta (q : Program) (id : Nat) : Word := match q.eqs.get? id with | some e => e.theta | none => 0

/-! ## The equation table as re-read (R252, R253, R262, R263) -/

/-- A number of `n` bytes at an offset. -/
def leAt (bs : List Byte) (off n : Nat) : Nat := leNat ((bs.drop off).take n)

/-- The fields that every dispatch reads again break no limit of R262. -/
def dispatchOk (bs : List Byte) : Bool :=
  leAt bs 0 8 % 4 == 0 && decide (leAt bs 0 8 < 2 ^ 57) && decide (1 ≤ leAt bs 8 1) && decide (leAt bs 8 1 ≤ 16) &&
    decide (1 ≤ leAt bs 0xA 2) && decide (leAt bs 0xA 2 ≤ 256) && decide (leAt bs 0xC 4 ≤ 262144)

/-- What a relaxation needs (R262: no lane memory and no accumulator memory). -/
def relaxNeed (bs : List Byte) : Need := ⟨leAt bs 8 1, (leAt bs 0xA 2 + 7) / 8, false, (leAt bs 0xC 4 + 4095) / 4096, 0⟩

/-- A legal weight: sign bit 0, finite. -/
def weightOk (w : Nat) : Bool := decide (w < 0x7F800000)

/-- A coupling item breaks no limit (R253, R262). -/
def couplingOk (n id target w : Nat) : Bool :=
  decide (target < 2 ^ 20) && decide (target < n) && decide (target ≠ id) && weightOk w

/-- Post the record of a bad entry or item (R263). -/
def State.badEquation (s : State) (l : Launch) (id : Nat) (addr : Nat) : State :=
  s.post (bareRec l (BitVec.ofNat 32 (2 ^ 31 + id)) 0x50 (BitVec.ofNat 64 addr) 0)

/-- The address of a block's entry. -/
def Program.entryAddr (q : Program) (id : Nat) : Nat := q.table.toNat + 64 * id

/-- Apply one bump (R254 step 2). -/
def State.applyBump (s : State) (q : Program) (j : Nat) (b : Word) : State :=
  s.modRes q j fun e =>
    if e.state = stForced then e
    else if e.state = stRun then { e with bump := addUp e.bump b, rearm := e.rearm || decide (b ≠ 0) }
    else { e with res := addUp e.res b }.settle (q.theta j)

/-- Post δ over the coupling list, in list order; a bad item is skipped with a record (R254, R263). -/
def State.postItems (s : State) (l : Launch) (q : Program) (id : Nat) (d : Word) (list : Nat) : Nat → Nat → State
  | 0, _ => s
  | n + 1, k =>
    let a := list + 8 * k
    let t := match s.sysBytes l.asid l.root a 8 with
      | none => s.badEquation l id a
      | some bs =>
        if couplingOk q.n id (leAt bs 0 4) (leAt bs 4 4) then
          s.applyBump q (leAt bs 0 4) (bumpOf (BitVec.ofNat 32 (leAt bs 4 4)) d)
        else s.badEquation l id a
    State.postItems t l q id d list n (k + 1)

/-- The postings of a retirement: the count and the list address are read again (R263). -/
def State.postAll (s : State) (l : Launch) (q : Program) (id : Nat) (d : Word) : State :=
  match s.sysBytes l.asid l.root (q.entryAddr id) 64 with
  | none => s.badEquation l id (q.entryAddr id)
  | some bs =>
    let n := leAt bs 0x14 4
    if n ≤ 4096 ∧ (n = 0 ∨ leAt bs 0x20 8 % 8 = 0) then s.postItems l q id d (leAt bs 0x20 8) n 0
    else s.badEquation l id (q.entryAddr id)

/-! ## Retirement and kills (R269, R271, R275, R287) -/

/-- The largest of the values that waves recorded; +0 when none did (R269, R287). -/
def largest (xs : List (Option Word)) : Word := xs.foldl (fun m x => match x with | some v => maxRes m v | none => m) 0

/-- A range of addresses meets the unknowns of a block (R270). -/
def EqBlock.overlaps (e : EqBlock) (start len : Nat) : Bool :=
  decide (e.home.toNat + e.uoff < start + len) && decide (start < e.home.toNat + e.uoff + e.ulen)

/-- Blocks whose unknowns overlap a region (R275). -/
def Program.overlapping (q : Program) (m : SnapMsg) : List Nat :=
  (q.eqs.filter fun e => e.2.overlaps m.start.toNat m.len.toNat).map (·.1)

/-- A pending request of a free-mode program overlaps the block. -/
def Program.wanted (q : Program) (id : Nat) : Bool := q.snaps.any fun x => (q.overlapping x.msg).contains id

/-- The slot of a running block becomes free; what it held goes. In free mode a block that a pending request overlaps
takes HOLD (R275). -/
def State.leave (s : State) (p : Nat) (q : Program) (id : Nat) : State :=
  let key := blockKey q.launch id
  let s := match s.blocks.get? key with
    | none => s
    | some _ =>
      let clear (k : Core) : Core :=
        { k with jobs := k.jobs.filter fun j => decide (j.block ≠ key), ops := k.ops.filter fun o => decide (o.block ≠ key) }
      let s : State := { s with cores := s.cores.map fun (e : Nat × Core) => (e.1, clear e.2) }
      s.retireBlock key
  let s := s.modLaunch q.launch fun l => { l with plans := l.plans.filter fun x => decide (x.rank ≠ id) }
  let s := s.modProgram p fun q =>
    { q with running := q.running.erase id, waiting := q.waiting.filter fun x => decide (x ≠ id) }
  if !q.dqm && q.wanted id then s.modRes q id fun e => { e with hold := true } else s

/-- An input that landed while the block ran forces it (R269 step 3). -/
def ResEntry.takePend (e : ResEntry) : ResEntry := if e.fpend then { e.force with fpend := false } else e

/-- The entry of a block whose relaxation ends; one that an uncorrectable error has struck stays at +∞ and 11 (R396). -/
def State.endEntry (s : State) (q : Program) (id : Nat) (f : ResEntry → ResEntry) : State :=
  s.modRes q id fun e => if e.state = stForced then { e with kills := (f e).kills, rearm := false, fpend := false } else f e

/-- A relaxation retires (R254, R269). -/
def State.retireRelax (s : State) (p : Nat) (l : Launch) (q : Program) (id : Nat) : State :=
  let ws := s.wavesOf (blockKey q.launch id)
  let own := largest (ws.map fun w => w.2.set)
  let d := largest (ws.map fun w => w.2.delta)
  let s := s.leave p q id
  let s := s.endEntry q id fun e =>
    { e with res := if e.rearm then maxRes own e.bump else own, rearm := false }.settle (q.theta id)
  let s := s.postAll l q id d
  s.modRes q id fun e => { e.takePend with kills := 0 }

/-- A relaxation is killed (R271): it posts nothing. -/
def State.killRelax (s : State) (p : Nat) (l : Launch) (q : Program) (id : Nat) (d : Dispatched) : State :=
  let s := s.leave p q id
  let s := s.endEntry q id fun e =>
    let f := { e with kills := if e.kills = 7 then 7 else e.kills + 1, rearm := false }
    (if d.forced then f.force else { f with res := maxRes d.res e.bump }.settle (q.theta id)).takePend
  s.post (bareRec l (BitVec.ofNat 32 (2 ^ 31 + id)) 0x51 0 (BitVec.ofNat 32 id))

/-! ## The journal (R281 to R285) -/

/-- The header of an entry (R282). -/
def JournalEntry.header (e : JournalEntry) (size : Nat) : List Byte :=
  natLe 8 e.boundary.toNat ++ natLe 8 e.gen.toNat ++ natLe 4 e.kind.toNat ++ natLe 4 e.len.toNat ++
    natLe 8 e.addr.toNat ++ natLe 4 e.index.toNat ++ natLe 4 size ++ natLe 4 e.block.toNat ++ natLe 20 0

/-- Bytes of an entry: its header, and its data padded to 64. -/
def JournalEntry.size (e : JournalEntry) : Nat := 64 + roundUpTo e.data.length 64

/-- Free bytes of the ring before JRD. -/
def Program.journalFree (q : Program) : Nat := q.jsize - (q.jwr + q.jsize - q.jrd % q.jsize) % q.jsize

/-- Padding that an entry needs before the ring's end (R281). -/
def Program.journalPad (q : Program) (n : Nat) : Nat := if q.jsize - q.jwr < n then q.jsize - q.jwr else 0

/-- An entry fits: at least 64 free bytes remain before JRD (R281). -/
def Program.journalFits (q : Program) (n : Nat) : Bool := decide (q.journalPad n + n + 64 ≤ q.journalFree)

/-- Write bytes of the journal; a write that faults leaves its bytes as they were. -/
def State.journalBytes (s : State) (l : Launch) (q : Program) (off : Nat) (bs : List Byte) : State :=
  (s.sysStore l.asid l.root (bs.length / 64 + 1) (q.jbase.toNat + off) bs).getD s

/-- Write an entry at JWR and advance JWR, with a padding entry before it where the ring's end is near. -/
def State.journalWrite (s : State) (p : Nat) (l : Launch) (q : Program) (e : JournalEntry) : State :=
  let n := e.size
  let pad := q.journalPad n
  let s := if pad = 0 then s
    else s.journalBytes l q q.jwr (({ e with kind := 0, len := 0, addr := 0, index := 0, block := 0 }).header pad)
  let at_ := if pad = 0 then q.jwr else 0
  let s := s.journalBytes l q at_ (e.header n ++ e.data ++ List.replicate (n - 64 - e.data.length) 0)
  s.modProgram p fun q => { q with jwr := (at_ + n) % q.jsize }

/-- Write the first entry that waits, if there is room (R284). -/
def State.journalOne (s : State) (p : Nat) (l : Launch) (q : Program) : Option State :=
  match q.late with
  | [] => none
  | e :: rest => if q.journalFits e.size then
      some ((s.journalWrite p l q e).modProgram p fun q => { q with late := rest }) else none

/-- Write waiting entries as far as there is room. -/
def State.journalLate (p : Nat) (l : Launch) : Nat → State → State
  | 0, s => s
  | n + 1, s => match (s.programs.get? p).bind fun q => s.journalOne p l q with
    | none => s
    | some t => State.journalLate p l n t

/-- Journal a hold or a kill: when its entry does not fit it waits, ahead of every later one (R284). -/
def State.journal (s : State) (p : Nat) (l : Launch) (e : JournalEntry) : State :=
  match s.programs.get? p with
  | none => s
  | some q =>
    if !q.dqm || q.replay.isSome then s
    else
      let s := s.modProgram p fun q => { q with late := q.late ++ [{ e with index := BitVec.ofNat 32 q.jindex }], jindex := q.jindex + 1 }
      State.journalLate p l (q.late.length + 1) s

/-- Room for an input's entry, judged when it would be written (R284). -/
def State.inputFits (s : State) (p : Nat) (n : Nat) : Bool :=
  match s.programs.get? p with
  | none => false
  | some q => !q.dqm || q.replay.isSome || (q.late = [] && q.journalFits n)

/-- The next entry of a journal that is replayed (R285): its header and where it lies; padding is skipped. -/
def State.replayNextEntry (s : State) (l : Launch) (src : DWord) (len : Nat) : Nat → Nat → Option (List Byte × Nat)
  | 0, _ => none
  | fuel + 1, off =>
    if len < off + 64 then none
    else match s.sysBytes l.asid l.root (src.toNat + off) 64 with
      | none => none
      | some h =>
        if leAt h 0x24 4 < 64 ∨ leAt h 0x24 4 % 64 ≠ 0 then none
        else if leAt h 0x10 4 = 0 then State.replayNextEntry s l src len fuel (off + leAt h 0x24 4)
        else some (h, off)

/-- The next entry to replay of a program. -/
def State.replayHead (s : State) (l : Launch) (q : Program) : Option (List Byte × Nat) :=
  match q.replay with
  | none => none
  | some (src, len, off) => s.replayNextEntry l src len (len / 64 + 1) off

/-- Take the entries of a kind recorded for a boundary, in index order. -/
def State.replayTake (p : Nat) (l : Launch) (bound kind : Nat) (f : List Byte → List Byte → State → State) :
    Nat → State → State
  | 0, s => s
  | n + 1, s =>
    match (s.programs.get? p).bind fun q => (s.replayHead l q).map fun x => (q, x) with
    | none => s
    | some (q, h, off) =>
      if leAt h 0 8 = bound ∧ leAt h 0x10 4 = kind then
        let data := match q.replay with
          | some (src, _, _) => (s.sysBytes l.asid l.root (src.toNat + off + 64) (if kind = 1 then leAt h 0x14 4 else 0)).getD []
          | none => []
        let s := s.modProgram p fun q =>
          { q with replay := q.replay.map fun r => (r.1, r.2.1, off + leAt h 0x24 4) }
        State.replayTake p l bound kind f n (f h data s)
      else s

/-- A journal that is exhausted ends the replay: the program journals again (R285). -/
def State.replayEnd (s : State) (p : Nat) (l : Launch) : State :=
  match s.programs.get? p with
  | none => s
  | some q => if q.replay.isSome && (s.replayHead l q).isNone then s.modProgram p fun q => { q with replay := none } else s

/-! ## Notices and the state (R259, R274, R303) -/

/-- The boundary number that a message carries: 0 in free mode. -/
def Program.boundary (q : Program) : Nat := if q.dqm then q.bound else 0

/-- The payload of a notice (R303). -/
def noticeBytes (p : Nat) (state : Nat) (g : DWord) (bound : Nat) (num : Nat) : List Byte :=
  natLe 1 p ++ natLe 1 state ++ natLe 6 0 ++ natLe 8 g.toNat ++ natLe 8 bound ++ natLe 8 num

/-- Send a notice of a change to every subscriber; it takes the next notice number. -/
def State.notice (s : State) (p : Nat) : State :=
  match s.programs.get? p with
  | none => s
  | some q =>
    let n := q.noticeNo + 1
    (q.readers.foldl (fun s r => s.send 0x0007 r 0 (noticeBytes p q.state.toNat q.gen q.boundary n.toNat)) s).modProgram p
      fun q => { q with noticeNo := n }

/-- The condition of R259. -/
def State.converges (s : State) (q : Program) : Bool :=
  q.running = [] && q.inputs = [] && (List.range q.n).all fun i =>
    decide ((s.resOf q i).state ≠ stElig) && decide ((s.resOf q i).state ≠ stForced)

/-- Evaluate the state (R274). -/
def State.evaluate (s : State) (p : Nat) : State :=
  match s.programs.get? p with
  | none => s
  | some q =>
    let set (x : BitVec 2) : State := (s.modProgram p fun q => { q with state := x }).notice p
    if q.state = 0b01 ∧ s.converges q then set 0b10
    else if q.state = 0b10 ∧ !s.converges q then set 0b01
    else s

/-! ## Decisions (R257, R267) -/

/-- The best id of a list by a measure, ties to the lower id. -/
def bestBy (f : Nat → Nat) (ids : List Nat) : Option Nat :=
  ids.foldl (fun best i => match best with
    | none => some i
    | some b => if f b < f i then some i else some b) none

/-- The fairness bound: 0 selects 64 (R251). -/
def Program.bound64 (q : Program) : Nat := if q.fair = 0 then 64 else q.fair

/-- The next dispatch sequence number: it wraps from 2^48 − 1 to 1 (R264). -/
def nextSeqNo (x : BitVec 48) : BitVec 48 := if x = BitVec.allOnes 48 then 1 else x + 1

/-- The block that a decision takes (R257). -/
def State.decide257 (s : State) (q : Program) : Option Nat :=
  let free := (List.range q.n).filter fun i => !(s.resOf q i).hold
  let elig := free.filter fun i => decide ((s.resOf q i).state = stElig)
  match free.find? fun i => decide ((s.resOf q i).state = stForced) with
  | some i => some i
  | none =>
    match bestBy (fun i => (nextSeqNo q.seqNo - (s.resOf q i).seq).toNat)
        (elig.filter fun i => decide (q.bound64 ≤ (s.resOf q i).wait.toNat)) with
    | some i => some i
    | none => bestBy (fun i => (s.resOf q i).res.toNat) elig

/-- Dispatch a block into a slot (R257, R263, R267): what the dispatch reads of a bad entry kills it at once. -/
def State.dispatch (s : State) (p : Nat) (l : Launch) (q : Program) (slot id : Nat) : State :=
  let e := s.resOf q id
  let n := nextSeqNo q.seqNo
  let s := (List.range q.n).foldl (fun s i =>
    if i ≠ id ∧ (s.resOf q i).state = stElig ∧ !(s.resOf q i).hold then
      s.modRes q i fun x => { x with wait := if x.wait = 255 then 255 else x.wait + 1 }
    else s) s
  let s := s.modRes q id fun x => { x with state := stRun, seq := n, wait := 0, bump := 0 }
  let bs := (s.sysBytes l.asid l.root (q.entryAddr id) 64).getD []
  let ok := bs ≠ [] && dispatchOk bs && (Occ.empty.fit false (relaxNeed bs) none).isSome
  let d : Dispatched := ⟨BitVec.ofNat 64 (leAt bs 0 8), leAt bs 8 1, leAt bs 0xA 2, leAt bs 0xC 4, q.gen, e.res,
    decide (e.state = stForced), slot, q.bound, !ok⟩
  let s := s.modProgram p fun q => { q with
    seqNo := n, running := q.running.set id d, waiting := if ok then q.waiting ++ [id] else q.waiting }
  if ok then s else s.badEquation l id (q.entryAddr id)

/-- Fill free slots, in ascending slot number. -/
def State.fillSlots (p : Nat) (l : Launch) : Nat → Nat → State → State
  | 0, _, s => s
  | n + 1, slot, s =>
    match s.programs.get? p with
    | none => s
    | some q =>
      if q.stopped || (!l.dqm && s.checkpointing l) || decide (q.state = 0b11) || q.running.any fun e => decide (e.2.slot = slot) then
        State.fillSlots p l n (slot + 1) s
      else match s.decide257 q with
        | none => s
        | some id => State.fillSlots p l n (slot + 1) (s.dispatch p l q slot id)

/-- Place waiting relaxations of a DQM program on its imagined cores, in order of decision (R267). -/
def State.relaxAll (launch p : Nat) : Nat → State → State
  | 0, s => s
  | n + 1, s =>
    match s.launches.get? launch with
    | none => s
    | some l => match s.relaxOne launch p l with
      | none => s
      | some t => State.relaxAll launch p n t

/-- Decisions and their placement. -/
def State.decisions (s : State) (p : Nat) : State :=
  match s.programs.get? p with
  | none => s
  | some q => match s.launches.get? q.launch with
    | none => s
    | some l =>
      let s := State.fillSlots p l q.slots 0 s
      if q.dqm then State.relaxAll q.launch p q.slots s else s

/-! ## Snapshots (R258, R275, R302) -/

/-- What a block reports to a bound (R258): RES serves for all three kinds of block (R264). -/
def State.boundOf (s : State) (q : Program) (ids : List Nat) : Word :=
  ids.foldl (fun m i => maxRes m (s.resOf q i).res) 0

/-- The payload of a reply (R302). -/
def snapBytes (p status state : Nat) (b : Word) (g : DWord) (num bound : Nat) (data : List Byte) : List Byte :=
  natLe 1 p ++ natLe 1 status ++ natLe 1 state ++ natLe 1 0 ++ natLe 4 b.toNat ++ natLe 8 g.toNat ++ natLe 8 num ++
    natLe 8 bound ++ natLe 4 data.length ++ natLe 12 0 ++ pad16 data

/-- Serve a request: the reply, and HOLD clears on blocks that no other pending request overlaps (R275). A replayed hold
serves no reader (R285). -/
def State.serve (s : State) (p : Nat) (l : Launch) (q : Program) (x : PendSnap) (others : List PendSnap) : State :=
  let ids := q.overlapping x.msg
  let s := if x.replayed then s
    else
      let n := q.snapNo + 1
      let data := s.sysBytes l.asid l.root x.msg.start.toNat x.msg.len.toNat
      let b := s.boundOf q ids
      (s.send 0x0006 x.msg.src x.msg.tag (snapBytes p (if data.isSome then 0 else 3) q.state.toNat b q.gen n.toNat
        q.boundary (data.getD []))).modProgram p fun q => { q with snapNo := n }
  ids.foldl (fun s i => if others.any fun y => (q.overlapping y.msg).contains i then s
    else s.modRes q i fun e => { e with hold := false }) s

/-- No overlapping block runs a relaxation dispatched before boundary `since`. -/
def Program.clear (q : Program) (m : SnapMsg) (since : Nat) : Bool :=
  (q.overlapping m).all fun i => match q.running.get? i with
    | none => true
    | some d => q.dqm && decide (since ≤ d.born)

/-- Consider the pending requests of a DQM program at step 6, in order of acceptance (R275). -/
def State.serveAll (p : Nat) (l : Launch) : List PendSnap → List PendSnap → State → State
  | _, [], s => s
  | done, x :: rest, s =>
    match s.programs.get? p with
    | none => s
    | some q =>
      if q.clear x.msg q.bound then
        State.serveAll p l done rest ((s.serve p l q x (done ++ rest)).modProgram p fun q => { q with snaps := done ++ rest })
      else
        let s := (q.overlapping x.msg).foldl (fun s i => s.modRes q i fun e => { e with hold := true }) s
        let s := if x.held then s
          else s.journal p l ⟨BitVec.ofNat 64 q.bound, q.gen, 2, x.msg.len, x.msg.start, 0, 0, []⟩
        State.serveAll p l (done ++ [{ x with held := true }]) rest
          (s.modProgram p fun q => { q with snaps := done ++ { x with held := true } :: rest })

/-! ## Inputs (R273, R284, R301) -/

/-- An acknowledgement (R301). -/
def State.ackInput (s : State) (m : InputMsg) (status : Nat) (g : DWord) (bound : Nat) : State :=
  s.send 0x0004 m.src m.tag (natLe 1 status ++ natLe 7 0 ++ natLe 8 g.toNat ++ natLe 8 bound ++ natLe 8 0)

/-- A byte of the target of an input takes a write: it has a leaf with V = 1 and W = 1 on this device, no view covers
it (R114, R301). -/
def State.landAt (s : State) (l : Launch) (va : Nat) : Option Nat :=
  match s.walk l.asid l.root va with
  | .leaf x => match s.route (x.target va) with
    | .here (.mem a) => if x.writable && !s.inView (.here (.mem a)) then some a else none
    | _ => none
  | _ => none

/-- The pieces of an input by line: physical address and bytes; none when a byte has no place. -/
def State.landPieces (s : State) (l : Launch) : Nat → Nat → List Byte → Option (List (Nat × List Byte))
  | 0, _, _ => some []
  | fuel + 1, va, bs =>
    if bs = [] then some []
    else
      let k := 64 - va % 64
      match s.landAt l va, State.landPieces s l fuel (va + k) (bs.drop k) with
      | some a, some r => if s.healsAll a (bs.take k).length then some ((a, bs.take k) :: r) else none
      | _, _ => none

/-- Land the subscribers of an input (R273). -/
def State.forceSubs (s : State) (q : Program) (start len : Nat) : State :=
  (q.eqs.filter fun e => e.2.subs.any fun u => decide (u.1.toNat < start + len) && decide (start < u.1.toNat + u.2)).foldl
    (fun s e => s.modRes q e.1 fun r =>
      if r.state = stRun then { r with fpend := true, rearm := true } else r.force) s

/-- An input lands or is refused (R273, R284, R301); a replayed one is acknowledged to nobody. -/
def State.land (s : State) (p : Nat) (l : Launch) (m : InputMsg) (replayed : Bool) : State :=
  match s.programs.get? p with
  | none => s
  | some q =>
    let ack (s : State) (status : Nat) (g : DWord) (bound : Nat) : State :=
      if replayed then s else s.ackInput m status g bound
    match s.landPieces l (m.data.length / 64 + 2) m.target.toNat m.data with
    | none => (ack s 5 0 0).post (bareRec l 0 0x52 m.target 0)
    | some ps =>
      let size := 64 + roundUpTo m.data.length 64
      let s := State.journalLate p l (q.late.length + 1) s
      if !s.inputFits p size then
        (ack s 2 0 0).modProgram p fun q => { q with jref := if q.jref = BitVec.allOnes 32 then q.jref else q.jref + 1 }
      else
        let s := ps.foldl (fun (s : State) x => (s.poke none x.1 x.2).noteWrite x.1 (s.completion x.1)) s
        let g := q.gen + 1
        let s := s.modProgram p fun q => { q with gen := g }
        let s := s.journal p l ⟨BitVec.ofNat 64 q.bound, g, 1, m.len, m.target, 0, 0, m.data⟩
        ack (s.forceSubs q m.target.toNat m.data.length) 0 g q.boundary

/-! ## Events of a free-mode program (R272) -/

/-- After an event: decisions, then the evaluation. -/
def State.afterEvent (s : State) (p : Nat) : State := (s.decisions p).evaluate p

/-- Serve the first request of a free-mode program that may be served, if there is one (R275). Inputs that have arrived
land first (R272, R273). -/
def State.serveFree (s : State) (p : Nat) (l : Launch) (q : Program) : Option State :=
  if q.inputs ≠ [] then none
  else match q.snaps.find? fun y => q.clear y.msg 0 with
    | none => none
    | some y =>
      let others := q.snaps.erase y
      some (((s.serve p l q y others).modProgram p fun q => { q with snaps := others }).afterEvent p)

/-! ## Boundaries (R256, R278, R285) -/

/-- Something makes a boundary that closes an empty quantum (R256, R275, R276, R285). -/
def State.emptyBoundary (s : State) (l : Launch) (q : Program) : Bool :=
  !l.quantumOpen && !l.commitSent && !l.committed && q.running = [] &&
    (decide (q.inputs ≠ []) || decide (q.snaps ≠ []) || (s.replayHead l q).isSome ||
      (!q.stopped && decide (q.state ≠ 0b11) && (List.range q.n).any fun i =>
        !(s.resOf q i).hold && (decide ((s.resOf q i).state = stElig) || decide ((s.resOf q i).state = stForced))))

/-- Mark the relaxations that the replayed journal kills at a boundary (R285): what they stored in the quantum is discarded, as
in the run that was recorded (R271, R280; log entry 70). -/
def State.replayKills (s : State) (p : Nat) (l : Launch) (bound : Nat) : State :=
  match s.programs.get? p with
  | none => s
  | some q => State.replayTake p l bound 3 (fun h _ s =>
      let id := leAt h 0x28 4
      let key := blockKey q.launch id
      (s.modBlock key fun b => { b with kill := some (b.kill.getD 0x51) }).modProgram p fun q =>
        { q with running := q.running.modify id fun d => { d with killed := true } }) (q.n + 1) s

/-- Step 2: running blocks retire or are killed, in ascending id (R256, R271, R407). -/
def State.boundaryRelax (p : Nat) (l : Launch) : List Nat → State → State
  | [], s => s
  | id :: ids, s =>
    let s := match (s.programs.get? p).bind fun q => (q.running.get? id).map fun d => (q, d) with
      | none => s
      | some (q, d) =>
        let key := blockKey q.launch id
        let dead := d.killed || match s.blocks.get? key with
          | some b => b.kill.isSome || (s.allExited key && (s.exitFault key).isSome)
          | none => false
        if dead then
          (s.killRelax p l q id d).journal p l
            ⟨BitVec.ofNat 64 q.bound, q.gen, 3, 0, 0, 0, BitVec.ofNat 32 id, []⟩
        else if (s.blocks.get? key).isSome && s.allExited key then s.retireRelax p l q id
        else s
    State.boundaryRelax p l ids s

/-- Steps 2 to 6 of R256, and the start of the next quantum. A journal that this boundary has exhausted holds no entry of
its step 6 back: the program journals again (R285). -/
def State.boundaryRest (s : State) (p launch : Nat) (l : Launch) : State :=
  let ids := match s.programs.get? p with
    | some q => q.running.keys
    | none => []
  let s := State.boundaryRelax p l ids s
  let s := match s.programs.get? p with
    | none => s
    | some q =>
      let s := s.modProgram p fun q => { q with inputs := [] }
      let s := State.replayTake p l q.bound 1 (fun h data s =>
        s.land p l ⟨0, 0, 0, true, BitVec.ofNat 32 (leAt h 0x14 4), BitVec.ofNat 64 (leAt h 0x18 8), data⟩ true) (2 ^ 32) s
      q.inputs.foldl (fun s m => s.land p l m false) s
  let s := (s.decisions p).evaluate p
  let s := match s.programs.get? p with
    | none => s
    | some q =>
      let s := State.replayTake p l q.bound 2 (fun h _ s =>
        let x : PendSnap := ⟨⟨0, 0, 0, true, BitVec.ofNat 32 (leAt h 0x14 4), BitVec.ofNat 64 (leAt h 0x18 8)⟩, true, true⟩
        s.modProgram p fun q => { q with snaps := q.snaps ++ [x] }) (2 ^ 32) s
      let s := s.replayEnd p l
      match s.programs.get? p with
      | none => s
      | some q => State.serveAll p l [] q.snaps s
  let s := s.nextQuanta launch
  ((s.realise launch).tryOpen launch).noteWaits

/-- `STANDING_BOUNDARY` (R256); subject a: program slot. It closes an open quantum, or an empty one that an event makes. -/
def execStandingBoundary (s : State) : Host.Outcome State Fault Refusal :=
  let p := s.subj.a
  match s.programs.get? p with
  | none => .next s
  | some q =>
    match s.launches.get? q.launch with
    | none => .next s
    | some l =>
      if !q.dqm then .next s
      else
        let open_ (s : State) : State :=
          (s.modProgram p fun q => { q with bound := q.bound + 1, jindex := 0 })
        if l.commitSent || l.committed then
          let x := s.boundaryFront q.launch
          if x.2 then .next ((open_ x.1).boundaryRest p q.launch l) else .next x.1
        else if s.mayClose q.launch l then
          let x := (s.replayKills p l (q.bound + 1)).boundaryFront q.launch
          if x.2 then .next ((open_ x.1).boundaryRest p q.launch l) else .next x.1
        else if s.emptyBoundary l q then .next ((open_ s).boundaryRest p q.launch l)
        else .next s

/-- `DEFERRED_JOURNAL_ENTRY` (R284); subject a: program slot. -/
def execDeferredJournalEntry (s : State) : Host.Outcome State Fault Refusal :=
  .next (match (s.programs.get? s.subj.a).bind fun q => (s.launches.get? q.launch).map fun l => (q, l) with
    | none => s
    | some (q, l) => (s.journalOne s.subj.a l q).getD s)

/-! ## Relaxations as events (R267, R269, R271) -/

/-- `RELAXATION_PLACEMENT` (R267); subject a: program slot. In DQM it is the physical placement of what was decided. -/
def execRelaxationPlacement (s : State) : Host.Outcome State Fault Refusal :=
  .next (match s.programs.get? s.subj.a with
    | none => s
    | some q => match s.launches.get? q.launch with
      | none => s
      | some l => if q.dqm || s.firstOffer q.launch then (match s.placeOne q.launch l with
          | none => s
          | some t => t.noteWaits) else s)

/-- `RELAXATION_RETIREMENT` (R269) in free mode; subject a: program slot, b: block id. A deferred fault halts the block
instead (R407). -/
def execRelaxationRetirement (s : State) : Host.Outcome State Fault Refusal :=
  let p := s.subj.a
  let id := s.subj.b
  match s.programs.get? p with
  | none => .next s
  | some q =>
    match s.launches.get? q.launch with
    | none => .next s
    | some l =>
      let key := blockKey q.launch id
      match s.blocks.get? key with
      | none => .next s
      | some b =>
        if q.dqm || b.halt.isSome || b.kill.isSome || !s.allExited key || !s.blockDone key then .next s
        else match s.exitFault key with
          | some (k, d) => .next (s.haltAtExit key k d)
          | none => .next ((s.retireRelax p l q id).afterEvent p).noteWaits

/-- `RELAXATION_KILL` (R271) in free mode; subject a: program slot, b: block id. The writes its waves have issued are
performed; its jobs run on to their end. -/
def execRelaxationKill (s : State) : Host.Outcome State Fault Refusal :=
  let p := s.subj.a
  let id := s.subj.b
  match (s.programs.get? p).bind fun q => (q.running.get? id).map fun d => (q, d) with
  | none => .next s
  | some (q, d) =>
    match s.launches.get? q.launch with
    | none => .next s
    | some l =>
      let key := blockKey q.launch id
      let dead := d.killed || match s.blocks.get? key with
        | some b => b.kill.isSome
        | none => false
      if q.dqm || !dead then .next s
      else
        let t := s.performIssued key
        if (t.jobsOf key).any fun j => !j.2.paused then .next t
        else .next ((t.killRelax p l q id d).afterEvent p).noteWaits

/-! ## Messages to a program (R273, R275, R301 to R303) -/

/-- L is out of its range of 1 to 65,536 (R301). -/
def inputLong (m : InputMsg) : Bool := decide (m.len = 0) || decide (65536 < m.len.toNat)

/-- The data is L bytes, padded to a multiple of 16 (R298, R301). -/
def inputAgrees (m : InputMsg) : Bool := inputLong m || decide (m.data.length = roundUpTo m.len.toNat 16)

/-- `INPUT_WRITE` (R301): accepted, or refused with its status. -/
def execInputWrite (msg : InputMsg) (s : State) : Host.Outcome State Fault Refusal :=
  .next (s.hear msg.src (inputAgrees msg) fun s =>
    match s.programs.get? msg.p.toNat with
    | none => s.ackInput msg 1 0 0
    | some q =>
      if q.state = 0b11 then s.ackInput msg 1 0 0
      else if q.replay.isSome then s.ackInput msg 3 0 0
      else if inputLong msg = true ∨ msg.clean = false ∨ msg.target.extractLsb' 57 7 ≠ 0 then s.ackInput msg 4 0 0
      else s.modProgram msg.p.toNat fun q => { q with inputs := q.inputs ++ [{ msg with data := msg.data.take msg.len.toNat }] })

/-- `INPUT_LANDING` (R273) in free mode; subject a: program slot. -/
def execInputLanding (s : State) : Host.Outcome State Fault Refusal :=
  let p := s.subj.a
  match s.programs.get? p with
  | none => .next s
  | some q =>
    match q.inputs, s.launches.get? q.launch with
    | m :: rest, some l =>
      if q.dqm then .next s
      else .next (((s.modProgram p fun q => { q with inputs := rest }).land p l m false).afterEvent p)
    | _, _ => .next s

/-- A request that fails its own checks (R302). -/
def snapBad (m : SnapMsg) : Bool :=
  decide (m.len.toNat < 4) || decide (65536 < m.len.toNat) || m.len.toNat % 4 != 0 || m.start.toNat % 4 != 0 || !m.clean

/-- A request that the moment allows is served at once (R258, R275); an input that has arrived lands first (R259, R273). In
free mode the others put their blocks on hold. DESIGN CHOICE: during a replay too a reader's own request is taken and holds its
blocks as at any other time, and the hold that it begins is not journalled; R285 speaks of recorded holds and of inputs only
(log entry 82). -/
def State.takeSnap (s : State) (p : Nat) (q : Program) (l : Launch) (m : SnapMsg) : State :=
  let x : PendSnap := ⟨m, false, false⟩
  if q.dqm then
    if q.state = 0b10 ∧ q.inputs = [] ∧ !l.quantumOpen ∧ !l.commitSent ∧ !l.committed then s.serve p l q x q.snaps
    else s.modProgram p fun q => { q with snaps := q.snaps ++ [x] }
  else if q.inputs = [] ∧ q.clear m 0 = true then (s.serve p l q x q.snaps).afterEvent p
  else
    let s := (q.overlapping m).foldl (fun s i => s.modRes q i fun e =>
      if (q.running.get? i).isSome then e else { e with hold := true }) s
    s.modProgram p fun q => { q with snaps := q.snaps ++ [x] }

/-- `SNAPSHOT_REQUEST` (R275, R302). -/
def execSnapshotRequest (msg : SnapMsg) (s : State) : Host.Outcome State Fault Refusal :=
  let p := msg.p.toNat
  .next (s.hear msg.src true fun s =>
    match (s.programs.get? p).bind fun q => (s.launches.get? q.launch).map fun l => (q, l) with
    | none => s.send 0x0006 msg.src msg.tag (snapBytes p 1 0 0 0 0 0 [])
    | some (q, l) =>
      if snapBad msg then s.send 0x0006 msg.src msg.tag (snapBytes p 2 0 0 0 0 0 [])
      else s.takeSnap p q l msg)

/-- `SNAPSHOT_SERVE` (R275) in free mode; subject a: program slot. -/
def execSnapshotServe (s : State) : Host.Outcome State Fault Refusal :=
  .next (match (s.programs.get? s.subj.a).bind fun q => (s.launches.get? q.launch).map fun l => (q, l) with
    | none => s
    | some (q, l) => if q.dqm then s else (s.serveFree s.subj.a l q).getD s)

/-- The answer to a subscription: the state as it stands, or 00 where none is taken, which takes no notice number (R303). -/
def State.answerSub (s : State) (m : SubMsg) (state : Nat) (q : Program) : State :=
  s.send 0x0007 m.src m.tag (noticeBytes m.p.toNat state q.gen q.boundary q.noticeNo.toNat)

/-- `SUBSCRIBE` (R303). -/
def execSubscribe (msg : SubMsg) (s : State) : Host.Outcome State Fault Refusal :=
  let p := msg.p.toNat
  .next (s.hear msg.src true fun s =>
    match s.programs.get? p with
    | none => if msg.on then s.send 0x0007 msg.src msg.tag (noticeBytes p 0 0 0 0) else s
    | some q =>
      if !msg.on then s.modProgram p fun q => { q with readers := q.readers.filter fun r => decide (r ≠ msg.src) }
      else if q.state = 0b11 ∨ (16 ≤ q.readers.length ∧ !q.readers.contains msg.src) then s.answerSub msg 0 q
      else if q.readers.contains msg.src then s.answerSub msg q.state.toNat q
      else (s.modProgram p fun q => { q with readers := q.readers ++ [msg.src] }).answerSub msg q.state.toNat q)

/-! ## The end of a program (R276) and errors of the table (R396) -/

/-- `UNLOAD_COMPLETION` (R276); subject a: program slot. DESIGN CHOICE: it waits until the journal entries deferred for want of
room have been written, so that the journal is whole; the order of R276 does not name them (log entry 81). -/
def execUnloadCompletion (s : State) : Host.Outcome State Fault Refusal :=
  let p := s.subj.a
  match (s.programs.get? p).bind fun q => (s.launches.get? q.launch).map fun l => (q, l) with
  | none => .next s
  | some (q, l) =>
    if q.state = 0b11 ∧ q.running = [] ∧ q.inputs = [] ∧ q.snaps = [] ∧ q.late = [] ∧ !l.commitSent ∧ !l.committed then
      let s : State := { s with
        residuals := s.residuals.filter fun e => decide (e.1 < q.base) || decide (q.base + q.n ≤ e.1)
        programs := s.programs.erase p }
      .next ((s.complete q.unloadEp q.unloadTag 0 0 p 0 0 q.boundary).dropLaunch q.launch l).noteWaits
    else .next s

/-- `RESIDUAL_ENTRY_ERROR` (R396); subject a: entry. The program's decisions stop. -/
def execResidualEntryError (s : State) : Host.Outcome State Fault Refusal :=
  let i := s.subj.a
  match s.programs.find? fun e => decide (e.2.base ≤ i) && decide (i < e.2.base + e.2.n) with
  | none => .next s
  | some (p, q) =>
    let s := (s.modRes q (i - q.base) ResEntry.force).modProgram p fun q => { q with stopped := true }
    .next (match s.launches.get? q.launch with
      | none => s
      | some l => s.post (bareRec l (BitVec.ofNat 32 (2 ^ 31 + (i - q.base))) 0x53 0 0))

end Sys2Proof.Machine
end

