-- ==== Sys2Proof/Machine/Command.lean ====
section
/-! DEFINITION. The launch queue and its commands: run, load, unload and reserved kinds, with their checks (R14, R33 to
R35, R45, R260 to R263, R276, R292 to R296, R300, R402). -/

namespace Sys2Proof.Machine

open Sys2Proof

/-! ## The queue (R292, R293) -/

/-- `LAUNCH_QUEUE_ENABLE` (R292): a write of LQCTL. SIZE is taken while EN is 0; a write that sets EN from 0 to 1 clears
HEAD and TAIL. -/
def execLaunchQueueEnable (val : BitVec 64) (s : State) : Host.Outcome State Fault Refusal :=
  .next (s.modCtl fun k => if !k.ready then k else
    let size := (val.extractLsb' 0 4).toNat
    let k := if k.lqOn then k else { k with lqSize := if size < 9 then size else 8 }
    if val.getLsbD 63 then (if k.lqOn then k else { k with lqOn := true, lqHead := 0, lqTail := 0 })
    else { k with lqOn := false })

/-- `NOTIFY` (R293): a notify that runs past the ring, or while EN is 0, is ignored. -/
def execNotify (src : BitVec 16) (tail : BitVec 32) (s : State) : Host.Outcome State Fault Refusal :=
  .next (s.hear src true fun s =>
    if s.ctl.lqOn && decide ((tail - s.ctl.lqHead).toNat ≤ 2 ^ (s.ctl.lqSize + 4)) then
      s.modCtl fun k => { k with lqTail := tail } else s)

/-- The next command's slot, when there is one. -/
def State.nextCommand (s : State) : Option (List Byte) :=
  if s.ctl.lqOn ∧ s.ctl.lqHead ≠ s.ctl.lqTail then
    some (bytesFrom s.homeByte (s.ctl.lqBase.toNat + 256 * (s.ctl.lqHead.toNat % 2 ^ (s.ctl.lqSize + 4))) 256)
  else none

/-- The command has been taken. -/
def State.advance (s : State) : State := s.modCtl fun k => { k with lqHead := k.lqHead + 1 }

/-- A command of the given kind is taken; another kind leaves the state as it is. -/
def State.takeCommand (s : State) (kind : Nat → Bool) (f : List Byte → State → State) : State :=
  match s.nextCommand with
  | none => s
  | some bs => if kind (leAt bs 0 4) then f bs s.advance else s

/-! ## Checks of R296 -/

/-- Bytes of a range are all 0. -/
def zeroIn (bs : List Byte) (off n : Nat) : Bool := ((bs.drop off).take n).all fun b => b == 0

/-- Tag and endpoint of a command. -/
def tagOf (bs : List Byte) : Word := BitVec.ofNat 32 (leAt bs 4 4)

/-- The completion endpoint. -/
def endpointOf (bs : List Byte) : BitVec 16 := BitVec.ofNat 16 (leAt bs 8 2)

/-- A global virtual address that is a multiple of `n` (R296 code 0x04). -/
def alignedVa (a n : Nat) : Bool := a % n == 0 && decide (a < 2 ^ 57)

/-- A flag of a command. -/
def flagOf (bs : List Byte) (i : Nat) : Bool := (BitVec.ofNat 32 (leAt bs 0xC 4)).getLsbD i

/-- The reserved bytes and bits of a run are 0, and its flags agree (code 0x02). -/
def runReserved (bs : List Byte) : Bool :=
  decide (leAt bs 0xA 2 < 4096) && decide (leAt bs 0xC 4 < 16) && zeroIn bs 0x28 0x58 &&
    (!flagOf bs 3 || flagOf bs 0) && (!flagOf bs 2 || flagOf bs 1)

/-- The reserved bytes and bits of a load are 0 (code 0x02). -/
def loadReserved (bs : List Byte) : Bool :=
  decide (leAt bs 0xA 2 < 4096) && decide (leAt bs 0xC 4 < 4) && zeroIn bs 0x42 0xBE

/-- The reserved bytes and bits of an unload are 0 (code 0x02). -/
def unloadReserved (bs : List Byte) : Bool :=
  decide (leAt bs 0xA 2 < 4096) && zeroIn bs 0xC 12 && zeroIn bs 0x19 231

/-- The ASID is bound to another root (code 0x03). -/
def State.boundElse (s : State) (asid root : Nat) : Bool :=
  match s.asids.get? asid with
  | none => false
  | some r => decide (r ≠ root)

/-- The root is aligned (code 0x04). -/
def rootOk (bs : List Byte) : Bool := leAt bs 0x10 8 % 4096 == 0 && decide (leAt bs 0x10 8 < 2 ^ 48)

/-- One entry of a domain-group table (R295). -/
def groupOf (bs : List Byte) : Group :=
  ⟨BitVec.ofNat 144 (leAt bs 0 18), leAt bs 0x12 1 == 1, crc32c (bs.take 32)⟩

/-- The table as read and copied (R295). -/
def groupsOf (bs : List Byte) : List Group := (List.range 16).map fun i => groupOf (bs.drop (32 * i))

/-- The record of a launch (R14), with the cores that are out of service cleared (R402). -/
def recordOf (bs : List Byte) (live : BitVec 192) : LaunchRec where
  entry := BitVec.ofNat 64 (leAt bs 0 8)
  gx := leAt bs 8 4
  gy := leAt bs 0xC 4
  gz := leAt bs 0x10 4
  kx := leAt bs 0x14 1
  ky := leAt bs 0x15 1
  kz := leAt bs 0x16 1
  waves := leAt bs 0x17 1
  regCount := leAt bs 0x18 2
  slice := leAt bs 0x1A 2
  shared := leAt bs 0x1C 4
  acc := leAt bs 0x20 4
  options := BitVec.ofNat 32 (leAt bs 0x24 4)
  quantum := leAt bs 0x28 4
  seed := BitVec.ofNat 64 (leAt bs 0x30 8)
  mask := BitVec.ofNat 192 (leAt bs 0x38 24) &&& live

/-- The first code whose condition fails, or 0. -/
def firstFail : List (Nat × Bool) → Nat
  | [] => 0
  | (c, ok) :: rest => if ok then firstFail rest else c

/-- A quantum field (R34, R260). -/
def quantumOk (q : Nat) : Bool := q == 0 || (decide (1024 ≤ q) && decide (q ≤ 65536))

/-- A cluster is resident at once on some cell's cores in the mask, each taken as empty (R35, code 0x0E). -/
def LaunchRec.cellFits (r : LaunchRec) : Bool :=
  (List.range 24).any fun cell =>
    let ok (c : Nat) : Bool := r.mask.getLsbD c
    let x := Placing.members false r.need (fun _ => ok) cell (List.range r.members) { occ := fun _ => Occ.empty, spots := [], waiting := [] }
    x.waiting = []

/-- The status of a run (R34, R35): the lowest code that applies; `bs` are the record's bytes. -/
def runStatus (r : LaunchRec) (bs : List Byte) (whole : Bool) : Nat :=
  let kk := r.kx * r.ky * r.kz
  let c := firstFail [
    (0x01, r.entry.toNat % 4 == 0 && decide (r.entry.toNat < 2 ^ 57)),
    (0x02, decide (1 ≤ r.gx) && decide (1 ≤ r.gy) && decide (1 ≤ r.gz) && decide (r.gx * r.gy * r.gz ≤ 2 ^ 31)),
    (0x03, decide (1 ≤ kk) && decide (kk ≤ 8) && r.gx % r.kx == 0 && r.gy % r.ky == 0 && r.gz % r.kz == 0),
    (0x04, decide (1 ≤ r.waves) && decide (r.waves ≤ 16)),
    (0x05, decide (1 ≤ r.regCount) && decide (r.regCount ≤ 256)),
    (0x06, decide (r.slice ≤ 4096) && r.slice % 4 == 0),
    (0x07, decide (r.shared ≤ 262144)),
    (0x08, decide (r.acc ≤ 524288)),
    (0x09, decide (r.options.toNat < 16)),
    (0x0A, quantumOk r.quantum),
    (0x0B, zeroIn bs 0x2C 4 && zeroIn bs 0x50 48),
    (0x0C, decide (r.mask ≠ 0))]
  if c ≠ 0 then c
  else firstFail [
    (0x0D, (Occ.empty.fit false r.need none).isSome),
    (0x0E, r.cellFits),
    (0x0F, !whole || (r.wholePlan false (fun _ c => r.mask.getLsbD c) fun _ => Occ.empty).isSome),
    (0x10, !(r.options.getLsbD 0 && r.options.getLsbD 1))]

/-! ## `RUN_COMMAND` -/

/-- A launch as it is taken. -/
def freshLaunch (bs : List Byte) (r : LaunchRec) (groups : List Group) (dqm : Bool) (standing : Option Nat)
    (now seqNo : Nat) : Launch where
  standing := standing
  tag := tagOf bs
  endpoint := endpointOf bs
  asid := leAt bs 0xA 2
  root := leAt bs 0x10 8
  flags := if standing.isSome then 0 else BitVec.ofNat 32 (leAt bs 0xC 4)
  log := if standing.isSome then 0 else BitVec.ofNat 64 (leAt bs 0x18 8)
  groups := groups
  record := r
  dqm := dqm
  taken := now
  takenSeq := seqNo
  cpos := 0
  waiting := []
  waitFrom := []
  freed := []
  plans := []
  starts := 0
  begun := false
  offered := false
  startedRanks := []
  retiredRanks := []
  tickets := 0
  takenAhead := []
  abandoned := []
  pendingTakes := []
  bounds := 0
  quantumOpen := false
  view := []
  outcome := 0
  domGen := 0
  domSent := false
  domDone := false
  commitSent := false
  commitPos := 0
  commitReqs := []
  commitBad := []
  commitEnd := 0
  committed := false

/-- The command status of a run (R296). -/
def State.runCode (s : State) (bs : List Byte) (table : Option (List Byte)) : Nat :=
  firstFail [
    (0x02, runReserved bs),
    (0x03, !s.boundElse (leAt bs 0xA 2) (leAt bs 0x10 8)),
    (0x04, rootOk bs && (!flagOf bs 1 || alignedVa (leAt bs 0x18 8) 8) && (!flagOf bs 3 || alignedVa (leAt bs 0x20 8) 64)),
    (0x05, !flagOf bs 3 || match table with
      | none => false
      | some t => (groupsOf t).all fun g => !g.valid || g.list.contains ownDev),
    (0x07, !(flagOf bs 2 && (BitVec.ofNat 32 (leAt bs 0xA4 4)).getLsbD 0))]

/-- Place a run that has been accepted (R19, R44, R45, R50). -/
def State.beginRun (s : State) (launch : Nat) : State :=
  match s.launches.get? launch with
  | none => s
  | some l =>
    if l.dqm then ((s.placeAtLaunch launch).realise launch).tryOpen launch
    else if l.whole || l.replays then
      stepsOf launch (if l.whole then 1 else l.record.total) s
    else if s.firstOffer launch then s.placeAtLaunch launch
    else s
where
  /-- Place one block after another, as far as they go. -/
  stepsOf (launch : Nat) : Nat → State → State
    | 0, s => s
    | n + 1, s =>
      match s.launches.get? launch with
      | none => s
      | some l => match (if s.firstOffer launch then s.placeOne launch l else none) with
        | none => s
        | some t => stepsOf launch n t

/-- Bind the ASID to the root (R296). -/
def State.bind (s : State) (bs : List Byte) : State :=
  { s with asids := s.asids.set (leAt bs 0xA 2) (leAt bs 0x10 8) }

/-- Take a run: check it, and place it or reject it. -/
def State.takeRun (bs : List Byte) (s : State) : State :=
  let asid := leAt bs 0xA 2
  let root := leAt bs 0x10 8
  let table := if flagOf bs 3 then s.sysBytes asid root (leAt bs 0x20 8) 512 else none
  let code := s.runCode bs table
  if code ≠ 0 then s.complete (endpointOf bs) (tagOf bs) code 0 0xFF 0 0 0
  else
    let s := s.bind bs
    let r := recordOf (bs.drop 0x80) s.ctl.coreLive
    let st := runStatus r (bs.drop 0x80) (flagOf bs 0)
    if st ≠ 0 then s.complete (endpointOf bs) (tagOf bs) 0 st 0xFF 0 0 0
    else
      let key := s.takes
      let l := freshLaunch bs r (match table with | some t => groupsOf t | none => []) (r.options.getLsbD 0) none s.now s.seq
      (State.beginRun { s with launches := s.launches.set key l, takes := key + 1, seq := s.seq + 1 } key).noteWaits

/-- `RUN_COMMAND` (R294, R35). -/
def execRunCommand (s : State) : Host.Outcome State Fault Refusal :=
  .next (s.takeCommand (fun k => k == 1) State.takeRun)

/-! ## `LOAD_COMMAND` (R260 to R263) -/

/-- The command status of a load (R296). -/
def State.loadCode (s : State) (bs : List Byte) (header : Option (List Byte)) : Nat :=
  let size := leAt bs 0x28 8
  firstFail [
    (0x02, loadReserved bs),
    (0x03, !s.boundElse (leAt bs 0xA 2) (leAt bs 0x10 8)),
    (0x04, rootOk bs && alignedVa (leAt bs 0x18 8) 64 && alignedVa (leAt bs 0x20 8) 4096 && size % 4096 == 0 &&
      decide (4096 ≤ size) && decide (size < 2 ^ 32) &&
      (!flagOf bs 0 || (alignedVa (leAt bs 0x30 8) 64 && leAt bs 0x38 8 % 64 == 0))),
    (0x05, header.isSome),
    (0x07, !flagOf bs 0 || match header with
      | none => true
      | some h => (BitVec.ofNat 32 (leAt h 0x10 4)).getLsbD 0)]

/-- An equation-table entry breaks no limit (R262). -/
def entryLegal (e : List Byte) : Bool :=
  dispatchOk e && leAt e 9 1 == 0 && leAt e 0x3C 4 == 0 && weightOk (leAt e 0x10 4) && decide (leAt e 0x14 4 ≤ 4096) &&
    leAt e 0x18 8 % 8192 == 0 && decide (leAt e 0x18 8 < 2 ^ 57) &&
    (leAt e 0x14 4 == 0 || leAt e 0x20 8 % 8 == 0) && (leAt e 0x38 4 == 0 || leAt e 0x28 8 % 16 == 0) &&
    leAt e 0x30 4 % 4 == 0 && leAt e 0x34 4 % 4 == 0 && decide (4 ≤ leAt e 0x34 4) &&
    decide (leAt e 0x30 4 + leAt e 0x34 4 ≤ 8192) && decide (leAt e 0x38 4 ≤ 64)

/-- A subscription item breaks no limit. -/
def subLegal (b : List Byte) : Bool :=
  decide (leAt b 0 8 < 2 ^ 57) && decide (1 ≤ leAt b 8 4) && decide (leAt b 8 4 ≤ 2 ^ 30) && leAt b 12 4 == 0

/-- The items of a list of `n`, each of `size` bytes: those that can be read, and whether all can. -/
def State.itemsAt (s : State) (asid root list size n : Nat) : List (List Byte) × Bool :=
  let xs := (List.range n).map fun i => s.sysBytes asid root (list + size * i) size
  (xs.filterMap id, xs.all Option.isSome)

/-- The lowest code of a block at load, or 0, and what the Thresher keeps of it (R261, R263). -/
def State.loadBlock (s : State) (asid root table n id : Nat) : Nat × EqBlock :=
  let none_ : EqBlock := ⟨0, 0, 0, 0, [], 0⟩
  match s.sysBytes asid root (table + 64 * id) 64 with
  | none => (0x0E, none_)
  | some e =>
    if !entryLegal e then (0x0B, none_)
    else
      let cs := s.itemsAt asid root (leAt e 0x20 8) 8 (leAt e 0x14 4)
      let ss := s.itemsAt asid root (leAt e 0x28 8) 16 (leAt e 0x38 4)
      let code := firstFail [
        (0x0C, (cs.1.all fun c => couplingOk n id (leAt c 0 4) (leAt c 4 4)) && ss.1.all subLegal),
        (0x0D, (Occ.empty.fit false (relaxNeed e) none).isSome),
        (0x0E, cs.2 && ss.2)]
      (code, ⟨BitVec.ofNat 32 (leAt e 0x10 4), BitVec.ofNat 64 (leAt e 0x18 8), leAt e 0x30 4, leAt e 0x34 4,
        ss.1.map fun b => (BitVec.ofNat 64 (leAt b 0 8), leAt b 8 4), 0⟩)

/-- The header's status (R260). -/
def headerStatus (h : List Byte) (mask : BitVec 192) : Nat :=
  firstFail [
    (0x01, leAt h 0 8 % 64 == 0 && decide (leAt h 0 8 < 2 ^ 57)),
    (0x02, decide (1 ≤ leAt h 8 4) && decide (leAt h 8 4 ≤ 2 ^ 20)),
    (0x03, decide (1 ≤ leAt h 0xC 2) && decide (leAt h 0xC 2 ≤ 4096)),
    (0x04, decide (leAt h 0xE 2 ≤ 255)),
    (0x05, decide (leAt h 0x10 4 < 2)),
    (0x06, quantumOk (leAt h 0x14 4)),
    (0x07, zeroIn h 0x38 8),
    (0x08, decide (mask ≠ 0))]

/-- The lowest-indexed free run of `n` entries of the residual table (R263). -/
def State.freeEntries (s : State) (n : Nat) : Option Nat :=
  let used := s.programs.vals.map fun q => (q.base, q.n)
  let starts := 0 :: used.map fun u => u.1 + u.2
  (starts.filter fun b => decide (b + n ≤ 2 ^ 20) && used.all fun u =>
    decide (b + n ≤ u.1) || decide (u.1 + u.2 ≤ b)).foldl (fun m b => match m with
      | none => some b
      | some x => some (min x b)) none

/-- The lowest code over the blocks, and the lowest block it applies to. -/
def worstBlock (xs : List (Nat × Nat)) : Option (Nat × Nat) :=
  xs.foldl (fun best x => if x.1 = 0 then best else match best with
    | none => some x
    | some b => if x.1 < b.1 then some x else some b) none

/-- Make a loaded program resident, and meet its first event (R255, R266, R272, R274). -/
def State.install (s : State) (bs h : List Byte) (slot base : Nat) (mask : BitVec 192) (eqs : List EqBlock) : State :=
  let n := leAt h 8 4
  let dqm := (BitVec.ofNat 32 (leAt h 0x10 4)).getLsbD 0
  let r : LaunchRec :=
    { entry := 0, gx := 1, gy := 1, gz := 1, kx := 1, ky := 1, kz := 1, waves := 1, regCount := 8, slice := 0, shared := 0,
      acc := 0, options := if dqm then 1 else 0, quantum := leAt h 0x14 4, seed := BitVec.ofNat 64 (leAt h 0x18 8),
      mask := mask }
  let key := s.takes
  let l := freshLaunch bs r [] dqm (some slot) s.now s.seq
  let q : Program :=
    { launch := key, table := BitVec.ofNat 64 (leAt h 0 8), n := n, slots := leAt h 0xC 2, fair := leAt h 0xE 2,
      dqm := dqm, quantum := leAt h 0x14 4, seed := BitVec.ofNat 64 (leAt h 0x18 8), mask := mask, base := base,
      eqs := eqs.zipIdx.map fun x => (x.2, x.1), state := 0b01, gen := 0, bound := 0,
      jbase := BitVec.ofNat 64 (leAt bs 0x20 8), jsize := leAt bs 0x28 8, jrd := 0, jwr := 0, jref := 0, jindex := 0,
      late := [], replay := if flagOf bs 0 then some (BitVec.ofNat 64 (leAt bs 0x30 8), leAt bs 0x38 8, 0) else none,
      seqNo := 0, snapNo := 0, noticeNo := 0,
      readers := if flagOf bs 1 then [BitVec.ofNat 16 (leAt bs 0x40 2)] else [], inputs := [], snaps := [],
      waiting := [], running := [], stopped := false, unloadTag := 0, unloadEp := 0 }
  let s : State := { s with launches := s.launches.set key l, takes := key + 1, seq := s.seq + 1
                            programs := s.programs.set slot q }
  let s := (List.range n).foldl (fun (s : State) i =>
    { s with residuals := s.residuals.set (base + i) ⟨infWord, 0, 0, 0, false, false, 0, false, stForced⟩ }) s
  let s := ((s.notice slot).complete (endpointOf bs) (tagOf bs) 0 0 slot 0 0 0).replayEnd slot l
  let s := s.afterEvent slot
  if dqm then ((s.realise key).tryOpen key).noteWaits else s.noteWaits

/-- Take a load: check it, and make the program resident or refuse it. -/
def State.takeLoad (bs : List Byte) (s : State) : State :=
  let asid := leAt bs 0xA 2
  let root := leAt bs 0x10 8
  let refuse (s : State) (code st : Nat) (block : Word) : State := s.complete (endpointOf bs) (tagOf bs) code st 0xFF 0 block 0
  let header := s.sysBytes asid root (leAt bs 0x18 8 % 2 ^ 57) 64
  let code := s.loadCode bs header
  if code ≠ 0 then refuse s code 0 0
  else
    let s := s.bind bs
    let h := header.getD []
    let mask := BitVec.ofNat 192 (leAt h 0x20 24) &&& s.ctl.coreLive
    let st := headerStatus h mask
    if st ≠ 0 then refuse s 0 st 0
    else match s.programs.firstFree 8 0 with
      | none => refuse s 0 0x09 0
      | some slot =>
        match s.freeEntries (leAt h 8 4) with
        | none => refuse s 0 0x0A 0
        | some base =>
          let xs := (List.range (leAt h 8 4)).map fun i => s.loadBlock asid root (leAt h 0 8) (leAt h 8 4) i
          match worstBlock (xs.zipIdx.map fun x => (x.1.1, x.2)) with
          | some (c, id) => refuse s 0 c (BitVec.ofNat 32 id)
          | none => s.install bs h slot base mask (xs.map (·.2))

/-- `LOAD_COMMAND` (R294, R261). -/
def execLoadCommand (s : State) : Host.Outcome State Fault Refusal :=
  .next (s.takeCommand (fun k => k == 2) State.takeLoad)

/-! ## `UNLOAD_COMMAND` and reserved kinds -/

/-- Take an unload (R276): decisions stop; the completion follows. -/
def State.takeUnload (bs : List Byte) (s : State) : State :=
  let p := leAt bs 0x18 1
  let refuse (code : Nat) : State := s.complete (endpointOf bs) (tagOf bs) code 0 p 0 0 0
  if !unloadReserved bs then refuse 0x02
  else match (s.programs.get? p).bind fun q => (s.launches.get? q.launch).map fun l => (q, l) with
    | none => refuse 0x06
    | some (q, l) =>
      if l.asid ≠ leAt bs 0xA 2 ∨ q.state = 0b11 then refuse 0x06
      else s.modProgram p fun q => { q with state := 0b11, unloadTag := tagOf bs, unloadEp := endpointOf bs }

/-- `UNLOAD_COMMAND` (R276, R296). -/
def execUnloadCommand (s : State) : Host.Outcome State Fault Refusal :=
  .next (s.takeCommand (fun k => k == 3) State.takeUnload)

/-- `RESERVED_COMMAND` (R296): kind 0, or 4 and above, is rejected with code 0x01. -/
def execReservedCommand (s : State) : Host.Outcome State Fault Refusal :=
  .next (s.takeCommand (fun k => k == 0 || decide (4 ≤ k)) fun bs s =>
    s.complete (endpointOf bs) (tagOf bs) 1 0 0xFF 0 0 0)

end Sys2Proof.Machine
end

