-- ==== Sys2Proof/Machine/Lanes.lean ====
section
/-! DEFINITION. Lane exchanges, lane masks, reductions and scans (R135 to R139, R110). -/

namespace Sys2Proof.Machine

open Sys2Proof

/-- A quad exchange (R136): lane L takes register a of a lane of its quad, whatever that lane's state. -/
def issueQuad (d a : Reg) (g : Guard) (from_ : Nat → Nat) (s : State) : Host.Outcome State Fault Refusal :=
  issue ⟨g, false, 1, [(a, 1)], [(d, 1)], true, false,
      fun t => maskOf fun j => (lanesOf t).any fun i => from_ i == j⟩
    (fun c ops s => .done .plain (s.writeReg c d.toNat fun i => opLane ops 0 (from_ i))) s

/-- A form in which only the lanes that take part receive a result (R135). -/
def issueLanes (d : Reg) (g : Guard) (reads : List (Reg × Nat)) (v : Ctx → List (List LaneVec) → Nat → Word × Flags)
    (s : State) : Host.Outcome State Fault Refusal :=
  issue ⟨g, false, 1, reads, [(d, 1)], false, false, id⟩
    (fun c ops s =>
      .done .plain ((s.writeReg c d.toNat fun i => (v c ops i).1).raiseFlags c fun i => (v c ops i).2)) s

/-- The value a shuffle gives a lane (R137). -/
def shuffled (c : Ctx) (v : LaneVec) (lane from_ : Nat) : Word :=
  if c.t.getLsbD from_ then laneOf v from_ else laneOf v lane

/-- The lane mask of bit 0 over the lanes that take part (R138). -/
def gatherBits (c : Ctx) (v : LaneVec) : Mask := maskOf fun i => c.t.getLsbD i && (laneOf v i).getLsbD 0

/-- A value with the flags raised so far. -/
abbrev Acc := Word × Flags

/-- Combine neighbours (R110). -/
def pairUp (op : Word → Word → Acc) : List Acc → List Acc
  | x :: y :: rest => ((op x.1 y.1).1, x.2 ||| y.2 ||| (op x.1 y.1).2) :: pairUp op rest
  | xs => xs

/-- Combine in the fixed tree of R110: neighbours first. `fuel` halvings. -/
def treeFold (op : Word → Word → Acc) : Nat → List Acc → Acc
  | 0, xs => xs.headD (0, 0)
  | fuel + 1, xs => treeFold op fuel (pairUp op xs)

/-- One step of a scan (R110): lane L at or above the distance adds the value 2^s lanes below. -/
def scanStep (op : Word → Word → Acc) (dist : Nat) (xs : List Acc) : List Acc :=
  (List.range 64).map fun i =>
    let x := xs.getD i (0, 0)
    if i < dist then x
    else
      let r := op (xs.getD (i - dist) (0, 0)).1 x.1
      (r.1, x.2 ||| r.2)

/-- The six steps of a scan (R110). -/
def scanAll (op : Word → Word → Acc) (xs : List Acc) : List Acc :=
  [1, 2, 4, 8, 16, 32].foldl (fun xs d => scanStep op d xs) xs

/-- The lanes' values with the identity where a lane does not take part (R110, R139). -/
def withIdentity (c : Ctx) (v : LaneVec) (ident : Word) : List Acc :=
  (List.range 64).map fun i => (if c.t.getLsbD i then laneOf v i else ident, 0)

/-- The rounding of a reduction: `%fpmode`.RM with SR treated as RNE (R110). -/
def Ctx.roundRed (c : Ctx) : RCtx :=
  ⟨match modeOf c.w.fpmode with | .sr => .rne | .rtz => .rtz | .rup => .rup | .rdn => .rdn | .rne => .rne | .mode => .rne,
   0, c.fz32⟩

/-- A rounded sum (R110). -/
def sumOp (c : Ctx) (x y : Word) : Acc := asWord (fp32.addF c.roundRed (c.f32 x) (c.f32 y))

/-- NV for a signalling NaN from any lane that takes part (R139). -/
def snanFlags (c : Ctx) (v : LaneVec) : Flags :=
  flagIf (c.lanes.any fun i => (fp32.read (laneOf v i).toNat).isSnan) flagNV

/-- The OR of the flags of every step. -/
def allFlags (xs : List Acc) : Flags := xs.foldl (fun f x => f ||| x.2) 0

/-- A reduction (R139). -/
def issueRed (d a : Reg) (g : Guard) (float : Bool) (ident : Word) (op : Ctx → Word → Word → Acc) (s : State) :
    Host.Outcome State Fault Refusal :=
  issueLanes d g [(a, 1)] (fun c ops _ =>
    let r := treeFold (op c) 6 (withIdentity c (opReg ops 0) ident)
    (r.1, r.2 ||| if float then snanFlags c (opReg ops 0) else 0)) s

/-- A scan (R139). -/
def issueScan (d a : Reg) (g : Guard) (float : Bool) (ident : Word) (op : Ctx → Word → Word → Acc) (s : State) :
    Host.Outcome State Fault Refusal :=
  issueLanes d g [(a, 1)] (fun c ops i =>
    let r := scanAll (op c) (withIdentity c (opReg ops 0) ident)
    ((r.getD i (0, 0)).1, allFlags r ||| if float then snanFlags c (opReg ops 0) else 0)) s

/-- `qx.h` (R136). -/
def execQxH (d a : Reg) (g : Guard) (s : State) : Host.Outcome State Fault Refusal :=
  issueQuad d a g (fun i => i ^^^ 1) s

/-- `qx.v` (R136). -/
def execQxV (d a : Reg) (g : Guard) (s : State) : Host.Outcome State Fault Refusal :=
  issueQuad d a g (fun i => i ^^^ 2) s

/-- `qx.d` (R136). -/
def execQxD (d a : Reg) (g : Guard) (s : State) : Host.Outcome State Fault Refusal :=
  issueQuad d a g (fun i => i ^^^ 3) s

/-- `qx.b0` (R136). -/
def execQxB0 (d a : Reg) (g : Guard) (s : State) : Host.Outcome State Fault Refusal :=
  issueQuad d a g (fun i => i / 4 * 4 + 0) s

/-- `qx.b1` (R136). -/
def execQxB1 (d a : Reg) (g : Guard) (s : State) : Host.Outcome State Fault Refusal :=
  issueQuad d a g (fun i => i / 4 * 4 + 1) s

/-- `qx.b2` (R136). -/
def execQxB2 (d a : Reg) (g : Guard) (s : State) : Host.Outcome State Fault Refusal :=
  issueQuad d a g (fun i => i / 4 * 4 + 2) s

/-- `qx.b3` (R136). -/
def execQxB3 (d a : Reg) (g : Guard) (s : State) : Host.Outcome State Fault Refusal :=
  issueQuad d a g (fun i => i / 4 * 4 + 3) s

/-- `shfl.pick` (R137). -/
def execShflPick (d a b : Reg) (g : Guard) (s : State) : Host.Outcome State Fault Refusal :=
  issueLanes d g [(a, 1), (b, 1)]
    (fun c ops i => (shuffled c (opReg ops 0) i ((opLane ops 1 i).toNat % 64), 0)) s

/-- `shfl.xor` (R137). -/
def execShflXor (d a : Reg) (k : BitVec 6) (g : Guard) (s : State) : Host.Outcome State Fault Refusal :=
  issueLanes d g [(a, 1)] (fun c ops i => (shuffled c (opReg ops 0) i (i ^^^ k.toNat), 0)) s

/-- `mask.any` (R138). -/
def execMaskAny (d a : Reg) (g : Guard) (s : State) : Host.Outcome State Fault Refusal :=
  issueLanes d g [(a, 1)] (fun c ops _ => (boolWord (gatherBits c (opReg ops 0) != 0), 0)) s

/-- `mask.all` (R138). -/
def execMaskAll (d a : Reg) (g : Guard) (s : State) : Host.Outcome State Fault Refusal :=
  issueLanes d g [(a, 1)] (fun c ops _ => (boolWord (gatherBits c (opReg ops 0) == c.t), 0)) s

/-- `mask.lo` (R138). -/
def execMaskLo (d a : Reg) (g : Guard) (s : State) : Host.Outcome State Fault Refusal :=
  issueLanes d g [(a, 1)] (fun c ops _ => ((gatherBits c (opReg ops 0)).extractLsb' 0 32, 0)) s

/-- `mask.hi` (R138). -/
def execMaskHi (d a : Reg) (g : Guard) (s : State) : Host.Outcome State Fault Refusal :=
  issueLanes d g [(a, 1)] (fun c ops _ => ((gatherBits c (opReg ops 0)).extractLsb' 32 32, 0)) s

/-- `mask.cnt` (R138). -/
def execMaskCnt (d a : Reg) (g : Guard) (s : State) : Host.Outcome State Fault Refusal :=
  issueLanes d g [(a, 1)] (fun c ops _ => (BitVec.ofNat 32 (lanesOf (gatherBits c (opReg ops 0))).length, 0)) s

/-- `red.add.f32` (R139). -/
def execRedAddF32 (d a : Reg) (g : Guard) (s : State) : Host.Outcome State Fault Refusal :=
  issueRed d a g true 0x80000000 sumOp s

/-- `red.min.f32` (R139). -/
def execRedMinF32 (d a : Reg) (g : Guard) (s : State) : Host.Outcome State Fault Refusal :=
  issueRed d a g true 0x7F800000 (minmax32 false) s

/-- `red.max.f32` (R139). -/
def execRedMaxF32 (d a : Reg) (g : Guard) (s : State) : Host.Outcome State Fault Refusal :=
  issueRed d a g true 0xFF800000 (minmax32 true) s

/-- `red.add` (R139). -/
def execRedAdd (d a : Reg) (g : Guard) (s : State) : Host.Outcome State Fault Refusal :=
  issueRed d a g false 0 (fun _ x y => (x + y, 0)) s

/-- `red.min` (R139). -/
def execRedMin (d a : Reg) (g : Guard) (s : State) : Host.Outcome State Fault Refusal :=
  issueRed d a g false 0x7FFFFFFF (fun _ x y => (if x.sle y then x else y, 0)) s

/-- `red.max` (R139). -/
def execRedMax (d a : Reg) (g : Guard) (s : State) : Host.Outcome State Fault Refusal :=
  issueRed d a g false 0x80000000 (fun _ x y => (if x.sle y then y else x, 0)) s

/-- `scan.add.f32` (R139). -/
def execScanAddF32 (d a : Reg) (g : Guard) (s : State) : Host.Outcome State Fault Refusal :=
  issueScan d a g true 0x80000000 sumOp s

/-- `scan.add` (R139). -/
def execScanAdd (d a : Reg) (g : Guard) (s : State) : Host.Outcome State Fault Refusal :=
  issueScan d a g false 0 (fun _ x y => (x + y, 0)) s

end Sys2Proof.Machine
end

