-- ==== Sys2Proof/Machine/Preempt.lean ====
section
/-! DEFINITION. Pre-emption, restore, checkpoints and their images (R200, R320, R383 to R391). -/

namespace Sys2Proof.Machine

open Sys2Proof

/-! ## The image (R386, R387) -/

/-- A section of an image: type, index and bytes. -/
abbrev Section := Nat × Nat × List Byte

/-- The state byte of a wave section (R387). -/
def stateByte (b : Block) (w : Wave) : Nat :=
  if w.halted || (b.halt.isSome && !w.exited) then 4
  else if w.parked.isSome then 3
  else if w.backoff.isSome then 2
  else if w.blocked.isSome then 1
  else 0

/-- The 16 bytes of an entry of a divergence stack (R387). -/
def entryBytes : StackEntry → List Byte
  | .token a m => natLe 8 (a.toNat % 2 ^ 57 + 2 ^ 63) ++ natLe 8 m.toNat
  | .path a m => natLe 8 (a.toNat % 2 ^ 57) ++ natLe 8 m.toNat

/-- Bytes filled up with zeros to a length. -/
def padTo (n : Nat) (bs : List Byte) : List Byte := bs ++ List.replicate (n - bs.length) 0

/-- A register across the lanes as bytes. -/
def vecBytes (v : LaneVec) : List Byte := (List.range 64).flatMap fun i => natLe 4 (laneOf v i).toNat

/-- Unmerged matrix flags, one byte per lane (R105, R387). -/
def Wave.mxBytes (w : Wave) : List Byte :=
  (List.range 64).map fun i => w.mxflags.foldl (fun f x => if x.2.1 = i then f ||| x.2.2 else f) 0

/-- The registers of an image in their order: lr, k0, k1, p1, p2, p3, then the physical ones (R387). -/
def imageSlots (a : Nat) : List Nat := (List.range 6).map (fun x => 256 + x) ++ List.range a

/-- A wave section (R387) of a saved wave. -/
def waveBytes (b : Block) (w : Wave) : List Byte :=
  natLe 8 w.pc.toNat ++ natLe 8 w.active.toNat ++ natLe 8 w.live.toNat ++ natLe 8 w.retired ++ natLe 4 w.qcount ++
    natLe 4 w.wtime.toNat ++ natLe 4 w.wtcmp.toNat ++ natLe 4 w.fpmode.toNat ++ natLe 8 w.seed.toNat ++ natLe 2 w.wb ++
    natLe 2 w.regCount ++ natLe 1 w.level ++ natLe 1 w.polls ++ natLe 1 (stateByte b w) ++
    natLe 1 ((if w.shadow then 1 else 0) + (if w.sup then 2 else 0) + (if w.parked.isSome then 4 else 0) +
      (if w.set.isSome then 8 else 0) + if w.delta.isSome then 16 else 0) ++
    natLe 4 (w.set.getD 0).toNat ++ natLe 4 (w.delta.getD 0).toNat ++ natLe 4 w.batch ++
    natLe 4 (match w.parked with | some p => p.1 | none => 0) ++ natLe 1 w.stack.length ++ natLe 1 w.rets.length ++
    natLe 14 0 ++ padTo 256 (w.stack.reverse.flatMap entryBytes) ++
    padTo 64 (w.rets.reverse.flatMap fun r => natLe 8 r.toNat) ++
    natLe 8 (w.tepc.toNat % 2 ^ 57) ++ natLe 4 w.tcause.toNat ++
    natLe 4 (w.tdepth * 2 ^ 16 + w.tlevel * 2 ^ 8 + if w.sup then 1 else 0) ++ natLe 4 w.tscr0.toNat ++
    natLe 4 w.tscr1.toNat ++ natLe 4 w.tscr2.toNat ++ natLe 4 w.tscr3.toNat ++
    ((List.range 64).map fun i => w.fpflags.getD i 0) ++ w.mxBytes ++
    ((imageSlots w.regCount).flatMap fun k => vecBytes (w.slotVec k)) ++
    (imageSlots w.regCount).flatMap fun k => natLe 8 (w.poison.getD k 0).toNat

/-- The accumulator section: bytes, checksum pairs, kinds, and zeros to a multiple of 64 (R386). -/
def Block.accSection (b : Block) : List Byte :=
  let bs := ((List.range (16384 * b.accGran)).map fun i => b.acc.getD i 0) ++
    ((List.range b.accUnits).flatMap fun u => natLe 8 (b.pair u).toNat) ++
    (List.range b.accUnits).map fun u => BitVec.ofNat 8 (b.kindAt u)
  padTo (roundUpTo bs.length 64) bs

/-- Bytes of a section of open layout; its length is left open too (log entry 9). -/
def innerSection (gen : Nat) (kind index : Nat) : List Byte :=
  let key := gen * 2 ^ 16 + kind * 256 + index
  (List.range (Config.innerLength key % 2 ^ 20)).map fun i => Config.innerByte key i

/-- The waves of a block in slot order, exited ones last. -/
def slotOrder (ws : List (Nat × Wave)) : List (Nat × Wave) :=
  ((List.range 64).flatMap fun i => ws.filter fun e => !e.2.exited && decide (16 * e.2.sect + e.2.slot = i)) ++
    ws.filter fun e => e.2.exited

/-- The tenures on a block's core that the block pinned, in ascending handle order (R320). -/
def State.ownTenures (s : State) (b : Nat) (core : Nat) : List (Nat × Tenure) :=
  ((s.core core).tenures.filter fun t => decide (t.2.pinBlock = b)).foldl (fun xs t =>
    (xs.filter fun x => decide (x.2.handle.toNat < t.2.handle.toNat)) ++ [t] ++
      xs.filter fun x => !decide (x.2.handle.toNat < t.2.handle.toNat)) []

/-- A wave as it is saved: `%wtime` as it reads (R388), and an error that the save finds as poison (R387, R395). -/
def State.savedWave (s : State) (l : Launch) (w : Wave) : Wave :=
  { w with wtime := s.wtime l w, struck := [],
           poison := w.struck.foldl (fun (m : KMap Mask) x => m.put 0 x.1 (m.getD x.1 0 ||| x.2)) w.poison }

/-- What an image of the block carries (R384 to R386). -/
def State.savedOf (s : State) (b : Nat) (blk : Block) (l : Launch) : Saved where
  block := blk
  waves := (slotOrder (s.wavesOf b)).map fun e => (e.1, s.savedWave l e.2)
  jobs := (s.core blk.core).jobs.filter fun j => decide (j.block = b)
  ops := (s.core blk.core).ops.filter fun o => decide (o.block = b)
  tenures := (s.ownTenures b blk.core).map (·.2)

/-- The sections of an image, in order (R386). -/
def Saved.sections (v : Saved) (gen : Nat) : List Section :=
  (v.waves.zipIdx.map fun x => (1, x.2, waveBytes v.block x.1.2)) ++
    [(2, 0, bytesFrom v.block.scrByte 0 (4096 * v.block.scrGran)), (3, 0, v.block.accSection)] ++
    (v.tenures.zipIdx.map fun x => (4, x.2, x.1.bytes)) ++
    (if v.jobs = [] ∧ v.ops = [] then [] else [(5, 0, innerSection gen 5 0)]) ++
    ((v.waves.zipIdx.filter fun x => decide (x.1.2.share ≠ [])).map fun x => (6, x.2, innerSection gen 6 x.2)) ++
    [(7, 0, innerSection gen 7 0)]

/-- Directory entries, given the offset of the first section. -/
def directory : Nat → List Section → List Byte
  | _, [] => []
  | off, (t, i, bs) :: rest => natLe 4 t ++ natLe 4 i ++ natLe 4 off ++ natLe 4 bs.length ++ directory (off + bs.length) rest

/-- Bytes closed by zeros and the seal, to a multiple of 64 (R386). -/
def sealed (bs : List Byte) : List Byte :=
  let body := padTo (roundUpTo (bs.length + 4) 64 - 4) bs
  body ++ natLe 4 (crc32c body).toNat

/-- Bytes of an image, before the seal counts (R386). -/
def imageLength (xs : List Section) : Nat :=
  roundUpTo (64 + 16 * xs.length + (xs.map fun x => x.2.2.length).sum + 4) 64

/-- A block image (R386). -/
def Saved.image (v : Saved) (l : Launch) (gen : DWord) : List Byte :=
  let xs := v.sections gen.toNat
  let halted := v.block.halt.isSome
  sealed (natLe 4 1 ++ natLe 4 (imageLength xs) ++ natLe 8 gen.toNat ++ natLe 4 l.tag.toNat ++
    natLe 4 (blockField l v.block).toNat ++ natLe 2 l.asid ++ natLe 1 v.waves.length ++ natLe 1 v.tenures.length ++
    natLe 4 ((if halted then 1 else 0) + (if l.dqm then 2 else 0) + (if l.record.options.getLsbD 1 then 4 else 0) +
      (if l.record.options.getLsbD 2 then 8 else 0) + if l.record.options.getLsbD 3 then 16 else 0) ++
    natLe 4 xs.length ++ natLe 4 (match v.block.halt with | some h => h.cause | none => 0) ++
    natLe 8 (if l.dqm then l.bounds + 1 else 0) ++ natLe 16 0 ++ directory (64 + 16 * xs.length) xs ++
    xs.flatMap fun x => x.2.2)

/-! ## Reading an image -/

/-- The bytes of a sealed buffer: its length is the number of `n` bytes at offset `at_`; none when a limit or the seal
fails (R385, R391). -/
def State.unseal (s : State) (j : PeOp) (version at_ n : Nat) : Option (List Byte) :=
  let a := j.addr.toNat
  let len := s.homeNat (a + at_) n
  if 68 ≤ len ∧ len % 64 = 0 ∧ len ≤ j.len.toNat ∧ s.homeNat a 4 = version then
    let bs := bytesFrom s.homeByte a len
    if s.poisoned (.mem a) len then none
    else if leAt bs (len - 4) 4 = (crc32c (bs.take (len - 4))).toNat then some bs else none
  else none

/-- The sections of an image's bytes. -/
def sectionsOf (bs : List Byte) : List Section :=
  (List.range (leAt bs 0x20 4)).map fun k =>
    (leAt bs (64 + 16 * k) 4, leAt bs (68 + 16 * k) 4, (bs.drop (leAt bs (72 + 16 * k) 4)).take (leAt bs (76 + 16 * k) 4))

/-- A section of a type and an index. -/
def pick (xs : List Section) (t i : Nat) : Option (List Byte) :=
  (xs.find? fun x => decide (x.1 = t) && decide (x.2.1 = i)).map fun x => x.2.2

/-- An entry of a divergence stack from its 16 bytes. -/
def entryOf (bs : List Byte) : StackEntry :=
  let a := leAt bs 0 8
  if 2 ^ 63 ≤ a then .token (BitVec.ofNat 64 (a % 2 ^ 57)) (BitVec.ofNat 64 (leAt bs 8 8))
  else .path (BitVec.ofNat 64 (a % 2 ^ 57)) (BitVec.ofNat 64 (leAt bs 8 8))

/-- The address bits that a section keeps of an entry of a divergence stack (R387). -/
def StackEntry.cut : StackEntry → StackEntry
  | .token a m => .token (a &&& 0x01FFFFFFFFFFFFFF) m
  | .path a m => .path (a &&& 0x01FFFFFFFFFFFFFF) m

/-- A divergence stack from its bytes: one that the section has not changed is the wave's own, a path that waits to fall off
the last address among it (R231). -/
def readStack (own : List StackEntry) (n : Nat) (bs : List Byte) : List StackEntry :=
  let read := ((List.range n).map fun k => entryOf (bs.drop (16 * k))).reverse
  if read = own.map StackEntry.cut then own else read

/-- Unmerged flags of an operation from their 64 bytes: five bits each (R104, R105). -/
def readFlags (bs : List Byte) : List (Nat × Nat × Byte) :=
  (List.range 64).filterMap fun i =>
    if leAt bs i 1 % 32 = 0 then none else some (0, i, BitVec.ofNat 8 (leAt bs i 1 % 32))

/-- A program counter from its bytes: a multiple of 4 up to 2^57, where no word lies (R231). -/
def readPc (x : DWord) : DWord := if 2 ^ 57 ≤ x.toNat then BitVec.ofNat 64 (2 ^ 57) else x >>> 2 <<< 2

/-- A wave as its section describes it (R387); the rest is as the image's sections of open layout keep it. -/
def Wave.fromBytes (w : Wave) (bs : List Byte) : Wave :=
  let word (off : Nat) : Word := BitVec.ofNat 32 (leAt bs off 4)
  let dword (off : Nat) : DWord := BitVec.ofNat 64 (leAt bs off 8)
  let st := leAt bs 0x3E 1
  let fl : Byte := BitVec.ofNat 8 (leAt bs 0x3F 1)
  let slots := imageSlots w.regCount
  let regs := slots.zipIdx.foldl (fun (m : KMap LaneVec) x =>
    m.put zeroVec x.1 (vecOf fun i => word (0x240 + 256 * x.2 + 4 * i))) []
  let poison := slots.zipIdx.foldl (fun (m : KMap Mask) x =>
    m.put 0 x.1 (dword (0x840 + 256 * w.regCount + 8 * x.2))) []
  let w := { w with pc := readPc (dword 0), active := dword 8, live := dword 0x10, retired := leAt bs 0x18 8 % 2 ^ 48,
                    qcount := leAt bs 0x20 4, wtime := word 0x24, wtcmp := word 0x28, fpmode := fpmodeOf (word 0x2C),
                    seed := dword 0x30, wb := leAt bs 0x38 2, level := leAt bs 0x3C 1 % 8, polls := leAt bs 0x3D 1 % 8 }
  let w := { w with sup := fl.getLsbD 1, set := if fl.getLsbD 3 then some (word 0x40) else none,
                    delta := if fl.getLsbD 4 then some (word 0x44) else none, batch := leAt bs 0x48 4,
                    regs := regs, poison := poison, struck := [] }
  let w := { w with
    stack := readStack w.stack (leAt bs 0x50 1) (bs.drop 0x60)
    rets := ((List.range (leAt bs 0x51 1)).map fun k => dword (0x160 + 8 * k)).reverse
    tepc := BitVec.ofNat 64 (leAt bs 0x1A0 8 % 2 ^ 57)
    tcause := BitVec.ofNat 8 (leAt bs 0x1A8 1)
    tlevel := leAt bs 0x1AD 1 % 8
    tdepth := leAt bs 0x1AE 1 % 32
    tscr0 := word 0x1B0
    tscr1 := word 0x1B4
    tscr2 := word 0x1B8
    tscr3 := word 0x1BC
    fpflags := (List.range 64).map fun i => BitVec.ofNat 8 (leAt bs (0x1C0 + i) 1 % 32)
    mxflags := if (List.range 64).all fun i => decide (w.mxBytes.getD i 0 = BitVec.ofNat 8 (leAt bs (0x200 + i) 1)) then w.mxflags
      else readFlags (bs.drop 0x200) }
  { w with
    halted := decide (st = 4) && !w.exited
    parked := if st = 3 then some (leAt bs 0x4C 4, match w.parked with | some p => p.2 | none => 0)
      else if st = 4 then w.parked else none
    backoff := if st = 2 then some (w.backoff.getD 0) else if st = 4 then w.backoff else none
    blocked := if st = 1 ∨ st = 4 ∨ st = 3 then w.blocked else none }

/-- A byte map in canonical form, from one in any form. -/
def canonBytes (m : KMap Byte) : KMap Byte := m.foldl (fun k e => k.put 0 e.1 e.2) []

/-- A block with the scratchpad and accumulator sections written back. -/
def Block.fromSections (b : Block) (xs : List Section) : Block :=
  let b := match pick xs 2 0 with
    | some bs => { b with scr := putBytes [] 0 (bs.take (4096 * b.scrGran)) }
    | none => { b with scr := canonBytes b.scr }
  match pick xs 3 0 with
  | none => { b with acc := canonBytes b.acc }
  | some bs =>
    let n := 16384 * b.accGran
    { b with
      acc := putBytes [] 0 (bs.take n)
      sums := (List.range b.accUnits).foldl (fun (m : KMap DWord) u => m.put 0 u (BitVec.ofNat 64 (leAt bs (n + 8 * u) 8))) []
      kinds := (List.range b.accUnits).foldl (fun (m : KMap Nat) u => m.put 0 u (leAt bs (n + 8 * b.accUnits + u) 1)) [] }

/-- A tenure written back from its record and verified again (R320). -/
def Tenure.fromSection (t : Tenure) (bs : List Byte) : Tenure :=
  let u := t.ofBytes (fun i => bs.getD i 0) 0
  { u with failed := u.failed || t.failed }

/-- What an image whose sections of open layout were altered restores, if anything (R386, log entry 9). -/
opaque Config.foreignBlock : List Section → Option Saved

/-- What a checkpoint holds that another Prawen made, if it is accepted (R386, log entry 9). -/
opaque Config.foreignLaunch : List Byte → Option SavedLaunch

/-- What an image of this device holds: the sections of known layout as they read, those of open layout as they were
written. Altered sections of open layout leave the content open (R386, log entry 9). -/
def Saved.fromSections (v : Saved) (gen : Nat) (xs : List Section) : Option Saved :=
  let ys := v.sections gen
  let own := (xs.filter fun x => decide (5 ≤ x.1)) == ys.filter fun x => decide (5 ≤ x.1)
  match (if own then some v else Config.foreignBlock xs) with
  | none => none
  | some v => some
    { v with
      block := v.block.fromSections xs
      waves := v.waves.zipIdx.map fun x => match pick xs 1 x.2 with
        | some bs => (x.1.1, x.1.2.fromBytes bs)
        | none => x.1
      tenures := v.tenures.zipIdx.filterMap fun x => (pick xs 4 x.2).map x.1.fromSection }

/-! ## Going on after a restore (R388, R167, R369) -/

/-- A wave as a restore brings it back: an acquire at system scope, an empty latch, the back-off restarted at its full
length, no starvation count (R200, R388). `wtime` is free of the time switched out. -/
def Wave.resumeAt (w : Wave) (l : Launch) (now seqNo : Nat) : Wave :=
  { w with
    wtime := if l.dqm then w.wtime else w.wtime - BitVec.ofNat 32 now
    latch := none
    backoff := w.backoff.map fun _ => now + min 256 (4 * 2 ^ (w.polls - 1))
    readyFrom := now
    starving := false
    governed := false
    stalled := none
    walking := []
    walkOut := []
    skid := 0
    acq := seqNo }

/-- A job runs again from its first byte (R167). -/
def Job.again (j : Job) : Job :=
  if j.queued then j
  else { j with moved := 0, started := false, paused := false, pauseAddr := 0, tags := [], acks := [], waits := [],
                walking := [], walkOut := [] }

/-- An operation is issued again whole (R369). -/
def TileOp.again (o : TileOp) : TileOp :=
  { o.whole with held := false, tags := [], out := none, flags := 0, replayed := false, walking := [], walkOut := [] }

/-! ## Pre-emption (R384) -/

/-- The key under which the generation of a (TAG, BLOCK) is recorded. -/
def genKey (tag block : Word) : Nat := tag.toNat * 2 ^ 32 + block.toNat

/-- Complete what a block has in flight, as far as it goes: accesses, stores of tile operations, jobs (R200, R384). -/
def State.settleBlock (s : State) (b : Nat) : State :=
  let s := s.performIssued b
  (s.jobsOf b).foldl (fun s j => if j.2.queued || j.2.paused then s else s.runJob j.1 j.2.id) s

/-- A block's image may be written: its waves stand at a boundary, its accesses have completed at system scope, and only
paused or buffered jobs and restored operations remain (R200, R384). -/
def State.mayImage (s : State) (b : Nat) : Bool :=
  s.blockAtBoundary b && !s.halting b &&
    (match (s.blocks.get? b).bind fun k => k.halt with | some h => decide (h.cause ≠ 0x43) | none => true) &&
    ((s.wavesOf b).all fun e => decide (e.2.outst = []) && decide (e.2.horizon ≤ s.now) && decide (e.2.peerOut = [])) &&
    ((s.jobsOf b).all fun j => j.2.queued || j.2.paused) &&
    s.allOps.all fun o => decide (o.block ≠ b) || !o.isTst || o.held

/-- Take a block off its core (R384 step 7), keeping what its image carries (R320). -/
def State.takeOff (s : State) (b : Nat) (blk : Block) (v : Saved) : State :=
  let s := s.dropLost b
  let s := s.modCore blk.core fun k => { k with
    jobs := k.jobs.filter fun j => decide (j.block ≠ b)
    ops := k.ops.filter fun o => decide (o.block ≠ b)
    tenures := k.tenures.filter fun t => decide (t.2.pinBlock ≠ b) }
  { s with
    waves := s.waves.filter fun e => decide (e.2.block ≠ b)
    blocks := s.blocks.erase b
    scrStamps := s.scrStamps.erase b
    saved := s.saved.set b v }

/-- Write the image, stamp it, and free the block's resources (R384 steps 5 to 7). -/
def State.preempt (s : State) (at_ b : Nat) (blk : Block) (l : Launch) : State :=
  let gen := s.generation
  let v := s.savedOf b blk l
  let s := s.poke none at_ (v.image l gen)
  let s := { s with generation := gen + 1, gens := s.gens.set (genKey l.tag (blockField l blk)) gen.toNat }
  (s.takeOff b blk v).noteFreed (if l.dqm then s.takes else blk.launch) blk.core blk.imCore

/-- Bytes an image of the block needs, in units of 64 (R383). -/
def State.imageNeed (s : State) (b : Nat) (blk : Block) (l : Launch) : Nat :=
  imageLength ((s.savedOf b blk l).sections s.generation.toNat) / 64

/-- `PREEMPT_BLOCK` (R384). While the block has something in flight, or the commit of its launch is under way, the
operation goes on and BUSY is 1; a boundary that a paused job holds does not keep it waiting (R167, R200). -/
def execPreemptBlock (s : State) : Host.Outcome State Fault Refusal :=
  .next (s.peRun 1 0 fun j s => match s.findBlock j.tag j.blk with
    | none => s.peResult 1
    | some b =>
      match (s.blocks.get? b).bind fun k => (s.launches.get? k.launch).map fun l => (k, l) with
      | none => s.peResult 1
      | some (blk, l) =>
        let need := s.imageNeed b blk l
        if j.len.toNat < 64 * need then
          (s.peResult 2).modCtl fun k => { k with peNeed := BitVec.ofNat 32 need }
        else if l.commitSent then s.peWait j
        else
          let t := (s.finishHalt b).settleBlock b
          match t.blocks.get? b with
          | none => t.peResult 1
          | some blk =>
            if t.mayImage b then
              (((t.preempt j.addr.toNat b blk l).noteWaits).peResult 0).modCtl fun k =>
                { k with peNeed := BitVec.ofNat 32 (t.imageNeed b blk l) }
            else t.peWait j)

/-! ## Restore (R385) -/

/-- The saved block that an image names. -/
def State.findSaved (s : State) (tag block : Word) : Option (Nat × Saved × Launch) :=
  s.saved.findSome? fun e =>
    match s.launches.get? e.2.block.launch with
    | none => none
    | some l => if l.tag = tag ∧ blockField l e.2.block = block then some (e.1, e.2, l) else none

/-- Places for tenures of given granules beside the runs in use. -/
def placeRuns : List (Nat × Nat) → List Nat → Option (List Nat)
  | _, [] => some []
  | used, n :: ns =>
    match freeRun used n accTotal with
    | none => none
    | some b => (placeRuns ((b, n) :: used) ns).map fun bs => b :: bs

/-- What a saved block needs on a core (R36). -/
def Saved.need (v : Saved) (l : Launch) : Need where
  waves := v.block.waves
  gran := v.block.granules
  shadow := l.record.options.getLsbD 1
  scr := v.block.scrGran
  acc := v.block.accGran

/-- Room on a core for a saved block, with its tenures and its jobs. -/
def State.roomFor? (s : State) (v : Saved) (l : Launch) (core : Nat) : Option (Spot × List Nat) :=
  if (s.core core).drains.isNone && s.ctl.coreLive.getLsbD core && decide ((s.core core).tenures.length + v.tenures.length ≤ 32) &&
      decide ((s.core core).engaged + (v.jobs.filter fun j => !j.queued).length ≤ 64) then
    match (s.physOcc core).fit false (v.need l) none with
    | none => none
    | some (o, p) => (placeRuns o.acc (v.tenures.map fun t => t.gcnt)).map fun bs => (p, bs)
  else none

/-- Put a saved block on a core (R385). DESIGN CHOICE: its jobs stand before those already in the core's table, which are of
other blocks, started ones too (log entry 66). A fresh slot for each wave (R372), the same handles for its tenures (R320). -/
def State.putBack (s : State) (b : Nat) (v : Saved) (l : Launch) (core : Nat) (p : Spot) (bases : List Nat) : State :=
  let blk := { v.block with core := core, scrBase := p.scr, accBase := p.acc, snap := none }
  let keys := (v.waves.map (·.1))
  let rank (k : Nat) : Nat := (keys.filter fun j => decide (placeOf j < placeOf k)).length
  let s : State := { s with blocks := s.blocks.set b blk, saved := s.saved.erase b, seq := s.seq + 1 }
  let s := v.waves.foldl (fun (s : State) e =>
    let at_ := p.waves.getD (rank e.1) (0, 0)
    let w := e.2.resumeAt l s.now s.seq
    let w := { w with
      core := core, sect := at_.1, slot := s.freeSlot core at_.1, runBase := at_.2,
      share := w.share.map fun x => match x with
        | .job _ id => .job core id
        | y => y }
    { s with waves := s.waves.set e.1 w }) s
  let s := (v.tenures.zip bases).foldl (fun s t => s.enterTenure core { t.1 with gbase := t.2 }) s
  let s := s.modCore core fun k => { k with
    jobs := v.jobs.map Job.again ++ k.jobs
    ops := v.ops.map TileOp.again ++ k.ops }
  (s.snapshot b).afterExit b
where
  /-- the order of placement: a compute wave before its shadow -/
  placeOf (key : Nat) : Nat := key % 16 * 2 + key / 16 % 2

/-- `RESTORE_BLOCK` (R385). While no core has room the operation goes on and BUSY is 1. -/
def execRestoreBlock (core : BitVec 8) (s : State) : Host.Outcome State Fault Refusal :=
  .next (s.peRun 2 core fun j s => match s.unseal j 1 4 4 with
    | none => s.peResult 3
    | some bs =>
      let tag : Word := BitVec.ofNat 32 (leAt bs 0x10 4)
      let block : Word := BitVec.ofNat 32 (leAt bs 0x14 4)
      if s.gens.get? (genKey tag block) ≠ some (leAt bs 8 8) then s.peResult 4
      else match s.findSaved tag block with
        | none => s.peResult 1
        | some (b, v, l) =>
          match v.fromSections (leAt bs 8 8) (sectionsOf bs) with
          | none => s.peResult 3
          | some v =>
            if core.toNat < 192 ∨ core = 0xFF then
              let cores := if core = 0xFF then (List.range 192).filter l.inMask else [core.toNat]
              match cores.findSome? fun c => (s.roomFor? v l c).map fun x => (c, x) with
              | none => s.peWait j
              | some (c, p, bases) =>
                let s := { s with gens := s.gens.erase (genKey tag block) }
                ((s.putBack b v l c p bases).noteWaits).peResult 0
            else s.peResult 1)

/-! ## Checkpoints (R389, R390) -/

/-- The launch with a command tag. -/
def State.findLaunch (s : State) (tag : Word) : Option (Nat × Launch) := s.launches.find? fun e => decide (e.2.tag = tag)

/-- The last boundary is over and no quantum is open. -/
def Launch.between (l : Launch) : Bool := !l.quantumOpen && !l.commitSent && !l.committed && decide (l.plans = [])

/-- A launch goes on after its checkpoint (R389): its next quantum opens, or the program decides again. -/
def State.goOnAfter (s : State) (launch : Nat) (l : Launch) : State :=
  if l.dqm then s.tryOpen launch
  else match l.standing with
    | none => s
    | some p => s.afterEvent p

/-- The header of a program, as it was read at load (R251). -/
def Program.header (q : Program) : List Byte :=
  natLe 8 q.table.toNat ++ natLe 4 q.n ++ natLe 2 q.slots ++ natLe 2 q.fair ++ natLe 4 (if q.dqm then 1 else 0) ++
    natLe 4 q.quantum ++ natLe 8 q.seed.toNat ++ natLe 24 q.mask.toNat ++ natLe 8 0

/-- Registers SPpSTAT to SPpJREF and the reserved one (R266). -/
def Program.regs (q : Program) : List DWord :=
  [BitVec.ofNat 64 (q.running.length * 2 ^ 32 + (min 255 q.inputs.length) * 16 + q.state.toNat), q.gen,
    BitVec.ofNat 64 (if q.dqm then q.bound else 0), BitVec.ofNat 64 (q.n * 2 ^ 32 + q.base), BitVec.ofNat 64 q.jrd,
    BitVec.ofNat 64 q.jwr, q.jref.setWidth 64, 0]

/-- The 128 bits of a residual-table entry (R264). -/
def ResEntry.bits (e : ResEntry) : Nat :=
  e.res.toNat * 2 ^ 96 + e.bump.toNat * 2 ^ 64 + e.seq.toNat * 2 ^ 16 + e.wait.toNat * 2 ^ 8 + (if e.fpend then 128 else 0) +
    (if e.hold then 64 else 0) + e.kills.toNat * 8 + (if e.rearm then 4 else 0) + e.state.toNat

/-- An entry from its 128 bits. -/
def ResEntry.ofBits (x : Nat) : ResEntry where
  res := BitVec.ofNat 32 (x / 2 ^ 96)
  bump := BitVec.ofNat 32 (x / 2 ^ 64)
  seq := BitVec.ofNat 48 (x / 2 ^ 16)
  wait := BitVec.ofNat 8 (x / 2 ^ 8)
  fpend := x / 128 % 2 == 1
  hold := x / 64 % 2 == 1
  kills := BitVec.ofNat 3 (x / 8)
  rearm := x / 4 % 2 == 1
  state := BitVec.ofNat 2 x

/-- The parts of a checkpoint that follow its block images (R390). -/
def State.programPart (s : State) : Option Program → List Byte
  | none => []
  | some q => q.header ++ (q.regs.flatMap fun r => natLe 8 r.toNat) ++
      (List.range q.n).flatMap fun i => natLe 16 (s.resOf q i).bits

/-- What a checkpoint of a launch holds. -/
def State.checkpointOf (s : State) (launch : Nat) (l : Launch) : SavedLaunch where
  launch := l
  program := l.standing.bind fun p => s.programs.get? p
  blocks := (s.blocksOf launch).map fun e => (e.1, s.savedOf e.1 e.2 l)

/-- The bytes of a checkpoint (R390). -/
def State.checkpointBytes (s : State) (c : SavedLaunch) (gen : DWord) : List Byte :=
  let images := c.blocks.flatMap fun e => e.2.image c.launch gen
  let tail := s.programPart c.program
  let n := match c.program with
    | some q => q.n
    | none => 0
  let total := roundUpTo (64 + images.length + tail.length + 4) 64
  sealed (natLe 8 2 ++ natLe 8 total ++ natLe 8 gen.toNat ++ natLe 4 c.launch.tag.toNat ++ natLe 4 c.blocks.length ++
    natLe 4 n ++ natLe 28 0 ++ images ++ tail)

/-- The blocks are restored in place (R388, R389). -/
def State.again (s : State) (launch : Nat) (l : Launch) : State :=
  let keys := (s.blocksOf launch).map (·.1)
  let mine (k : Nat) : Bool := keys.contains k
  let s : State := { s with
    waves := s.waves.map fun e => if mine e.2.block then
      (e.1, ({ e.2 with wtime := s.wtime l e.2 } : Wave).resumeAt l s.now s.seq) else e
    cores := s.cores.map fun e => (e.1, { e.2 with
      jobs := e.2.jobs.map fun j => if mine j.block then j.again else j
      ops := e.2.ops.map fun o => if mine o.block then o.again else o })
    gens := s.gens.filter fun e => decide (keys.all fun k => match s.blocks.get? k with
      | some b => decide (genKey l.tag (blockField l b) ≠ e.1)
      | none => true) }
  keys.foldl (fun s k => (s.dropLost k).snapshot k) s

/-- `CHECKPOINT_LAUNCH` (R389). While a block has something in flight, or a quantum of the launch is in use, the
operation goes on and BUSY is 1. -/
def execCheckpointLaunch (s : State) : Host.Outcome State Fault Refusal :=
  .next (s.peRun 5 0 fun j s => match s.findLaunch j.tag with
    | none => s.peResult 1
    | some (k, l) =>
      let keys := (s.blocksOf k).map (·.1)
      let t := keys.foldl (fun s b => (s.finishHalt b).settleBlock b) s
      let c := t.checkpointOf k l
      let bs := t.checkpointBytes c t.generation
      let need := bs.length / 64
      if j.len.toNat < 64 * need then
        ((s.peResult 2).modCtl fun k => { k with peNeed := BitVec.ofNat 32 need }).goOnAfter k l
      else if (l.dqm && !l.between) || !keys.all t.mayImage then t.peWait j
      else
        let u := t.poke none j.addr.toNat bs
        let u := { u with generation := t.generation + 1, seq := t.seq + 1
                          savedLaunches := u.savedLaunches.set t.generation.toNat c }
        (((u.again k l).peResult 0).modCtl fun k => { k with peNeed := BitVec.ofNat 32 need }).goOnAfter k l)

/-! ## Restore of a launch (R391) -/

/-- The block images of a checkpoint, each with its seal checked: none when one fails (R391). -/
def imagesOf : Nat → List Byte → Option (List (List Byte))
  | 0, _ => some []
  | m + 1, bs =>
    let len := leAt bs 4 4
    if 68 ≤ len ∧ len % 64 = 0 ∧ len ≤ bs.length ∧ leAt bs (len - 4) 4 = (crc32c (bs.take (len - 4))).toNat then
      (imagesOf m (bs.drop len)).map fun xs => bs.take len :: xs
    else none

/-- Put every block of a checkpoint on the lowest core of the mask with room (R391). -/
def State.putAll (l : Launch) : List (Nat × Saved) → State → Option State
  | [], s => some s
  | (b, v) :: rest, s =>
    match ((List.range 192).filter l.inMask).findSome? fun c => (s.roomFor? v l c).map fun x => (c, x) with
    | none => none
    | some (c, p, bases) => State.putAll l rest (s.putBack b v l c p bases)

/-- The saved blocks with the images' sections written over them. -/
def loadImages (gen : Nat) : List (Nat × Saved) → List (List Byte) → Option (List (Nat × Saved))
  | [], _ => some []
  | _ :: _, [] => none
  | (b, v) :: rest, im :: ims =>
    match v.fromSections gen (sectionsOf im), loadImages gen rest ims with
    | some v, some vs => some ((b, v) :: vs)
    | _, _ => none

/-- The launch of a checkpoint as it goes on: no quantum is open. DESIGN CHOICE: a run's further clusters are offered every
core of the mask, as though each had freed at the restore, by number (log entry 65). -/
def Launch.reopened (l : Launch) (slot : Option Nat) : Launch :=
  { l with standing := slot, waitFrom := [], freed := ((List.range 192).filter l.inMask).map fun c => (0, c), plans := [],
           quantumOpen := false, view := [], commitSent := false, commitPos := 0, commitReqs := [], commitBad := [],
           commitEnd := 0, committed := false }

/-- Enter a checkpoint's program in a slot, with its entries (R264, R266, R389). -/
def State.putProgram (s : State) (q : Program) (slot base : Nat) (tail : List Byte) : State :=
  let s : State := { s with programs := s.programs.set slot { q with base := base } }
  (List.range q.n).foldl (fun (s : State) i =>
    { s with residuals := s.residuals.set (base + i) (ResEntry.ofBits (leAt tail (128 + 16 * i) 16)) }) s

/-- Restore an accepted checkpoint, and let the launch go on; none while it finds no room. -/
def State.restoreLaunch (s : State) (c : SavedLaunch) (blocks : List (Nat × Saved)) (key : Nat) (tail : List Byte) :
    Option State :=
  let bound := if (s.asids.get? c.launch.asid).isSome then s.asids else s.asids.set c.launch.asid c.launch.root
  let place (s : State) (l : Launch) : Option State :=
    (State.putAll l blocks { s with launches := s.launches.set key l, asids := bound }).map fun s => s.goOnAfter key l
  match c.program with
  | none => place s (c.launch.reopened none)
  | some q =>
    match s.programs.firstFree 8 0, s.freeEntries q.n with
    | some slot, some base => place (s.putProgram q slot base tail) (c.launch.reopened (some slot))
    | _, _ => none

/-- `RESTORE_LAUNCH` (R391). The checkpoint's own record is found by its generation; for one made by another Prawen it is
what its sections of open layout say, which the model leaves open (log entry 9). While no room is found, BUSY is 1. -/
def execRestoreLaunch (core : BitVec 8) (s : State) : Host.Outcome State Fault Refusal :=
  .next (s.peRun 6 core fun j s => match s.unseal j 2 8 8 with
    | none => s.peResult 3
    | some bs =>
      let gen := leAt bs 0x10 8
      let tag : Word := BitVec.ofNat 32 (leAt bs 0x18 4)
      let m := leAt bs 0x1C 4
      match imagesOf m (bs.drop 64) with
      | none => s.peResult 3
      | some ims =>
        if !ims.all fun im => decide (leAt im 8 8 = gen) then s.peResult 4
        else if (s.findLaunch tag).isSome then s.peResult 6
        else
          let own := match s.savedLaunches.get? gen with
            | some c => if c.launch.tag = tag ∧ c.blocks.length = m then some c else Config.foreignLaunch bs
            | none => Config.foreignLaunch bs
          match own.bind fun c => (loadImages gen c.blocks ims).map fun vs => (c, vs) with
          | none => s.peResult 3
          | some (c, vs) =>
            let key := match c.blocks with
              | e :: _ => e.2.block.launch
              | [] => match c.program with
                | some q => q.launch
                | none => s.takes
            if (s.launches.get? key).isSome then s.peResult 3
            else match s.restoreLaunch c vs key (bs.drop (64 + (ims.map List.length).sum)) with
              | none => s.peWait j
              | some t => (t.noteWaits).peResult 0)

end Sys2Proof.Machine
end

