-- ==== Sys2Proof/Machine/Digest.lean ====
section
/-! DEFINITION. SHA-512 and the RSA signature of an attestation report (R12, R401, R406), as FIPS 180-4 and RFC 8017
define them. PRESUMED: the specification names both and repeats neither (log entry 4). -/

namespace Sys2Proof.Machine

open Sys2Proof

/-! ## SHA-512 -/

/-- The prime numbers below 410, of which there are 80. -/
def smallPrimes : List Nat :=
  (List.range 410).filter fun n => decide (2 ≤ n) && ((List.range 19).map (· + 2)).all fun d => decide (n ≤ d) || n % d != 0

/-- The largest r' of the form r + x with x below 2^b and r'^k at most n, found bit by bit. -/
def rootFrom (k n : Nat) : Nat → Nat → Nat
  | 0, r => r
  | b + 1, r => rootFrom k n b (if (r + 2 ^ b) ^ k ≤ n then r + 2 ^ b else r)

/-- The first 64 bits of the fractional part of the k-th root of a number. -/
def rootBits (k p : Nat) : DWord := BitVec.ofNat 64 (rootFrom k (p * 2 ^ (64 * k)) 70 0)

/-- The 80 constants: cube roots of the first 80 primes. -/
def cubeWords : List DWord := smallPrimes.map (rootBits 3)

/-- The initial hash value: square roots of the first eight primes. -/
def squareWords : List DWord := (smallPrimes.take 8).map (rootBits 2)

/-- A number from bytes, most significant first. -/
def beNat (bs : List Byte) : Nat := bs.foldl (fun n b => 256 * n + b.toNat) 0

/-- The low `n` bytes of a number, most significant first. -/
def natBe (n v : Nat) : List Byte := (natLe n v).reverse

/-- A word turned right by each of some amounts, added without carries. -/
def turned (amounts : List Nat) (x : DWord) : DWord := amounts.foldl (fun y n => y ^^^ x.rotateRight n) 0

/-- The message schedule of a block, the newest word first, carried on by a number of words. -/
def scheduleOn : Nat → List DWord → List DWord
  | 0, ws => ws
  | n + 1, ws =>
    let old (k : Nat) : DWord := ws.getD (k - 1) 0
    scheduleOn n ((old 16 + (turned [1, 8] (old 15) ^^^ old 15 >>> 7) + old 7 + (turned [19, 61] (old 2) ^^^ old 2 >>> 6)) :: ws)

/-- One round on the eight working words, given the sum of its constant and its word of the schedule. -/
def digestRound (x : List DWord) (kw : DWord) : List DWord :=
  match x with
  | [a, b, c, d, e, f, g, h] =>
    let t := kw + h + turned [14, 18, 41] e + (g ^^^ (e &&& (f ^^^ g)))
    [t + turned [28, 34, 39] a + ((a &&& b) ||| (c &&& (a ||| b))), a, b, c, d + t, e, f, g]
  | _ => x

/-- One 128-byte block, taken into the eight words of the hash. -/
def digestBlock (x : List DWord) (bs : List Byte) : List DWord :=
  let first := (pieces 8 17 bs).map fun w => BitVec.ofNat 64 (beNat w)
  let ws := (scheduleOn 64 first.reverse).reverse
  (x.zip (((cubeWords.zip ws).map fun p => p.1 + p.2).foldl digestRound x)).map fun p => p.1 + p.2

/-- The message with its padding: a 1 bit, zeros, and the length in bits. -/
def digestPad (bs : List Byte) : List Byte :=
  let n := bs.length
  bs ++ [0x80] ++ List.replicate (roundUpTo (n + 17) 128 - (n + 17)) 0 ++ natBe 16 (8 * n)

/-- SHA-512: 64 bytes. -/
def sha512 (bs : List Byte) : List Byte :=
  let m := digestPad bs
  ((pieces 128 (m.length + 1) m).foldl digestBlock squareWords).flatMap fun w => natBe 8 w.toNat

/-! ## The signature (R406) -/

/-- base^e mod m, by the bits of e from the lowest of `n`. -/
def powMod (m : Nat) : Nat → Nat → Nat → Nat
  | 0, _, _ => 1 % m
  | n + 1, base, e =>
    let r := powMod m n (base * base % m) (e / 2)
    if e % 2 = 1 then base * r % m else r

/-- The extended Euclidean algorithm, as far as an inverse needs it. -/
def euclid : Nat → Nat → Nat → Int → Int → Int
  | 0, _, _, t, _ => t
  | n + 1, r, r', t, t' => if r' = 0 then t else euclid n r' (r % r') t' (t - (r / r' : Nat) * t')

/-- The inverse of a modulo m. -/
def rsaInverse (a m : Nat) : Nat := ((euclid 8192 m (a % m) 0 1) % (m : Int)).toNat

/-- The modulus of the identity key, 4096 bits. -/
def rsaModulus : Nat := Config.keyPrimes.1 * Config.keyPrimes.2

/-- The private exponent to the public exponent 65,537. -/
def rsaExponent : Nat := rsaInverse 65537 (Nat.lcm (Config.keyPrimes.1 - 1) (Config.keyPrimes.2 - 1))

/-- EMSA-PKCS1-v1_5 with SHA-512 in 512 bytes. -/
def pkcsEncode (msg : List Byte) : List Byte :=
  [0x00, 0x01] ++ List.replicate 426 0xFF ++
    [0x00, 0x30, 0x51, 0x30, 0x0D, 0x06, 0x09, 0x60, 0x86, 0x48, 0x01, 0x65, 0x03, 0x04, 0x02, 0x03, 0x05, 0x00, 0x04, 0x40] ++
    sha512 msg

/-- RSASSA-PKCS1-v1_5: 512 bytes, most significant first. -/
def rsaSign (msg : List Byte) : List Byte := natBe 512 (powMod rsaModulus 4096 (beNat (pkcsEncode msg)) rsaExponent)

end Sys2Proof.Machine
end

