-- ==== Sys2Proof/Machine/Module.lean ====
section
/-! DEFINITION. The device control space and the module: registers and their writes, power, bring-up, format windows,
invalidation of translations, attestation, soft errors, and the requests of peers (R8, R9, R13, R112, R115, R154, R160,
R265, R266, R292, R305, R336 to R338, R346, R347, R372, R374, R379, R383, R392, R395, R398 to R406). -/

namespace Sys2Proof.Machine

open Sys2Proof

/-! ## Registers of the control space -/

/-- A register of the control space; `hi` is the upper half of a 16-byte entry. -/
inductive CtlReg where
  | mgid | mgstat | coreLive (i : Nat) | lease | pwr | pwrcap | port (n : Nat)
  | nonce (i : Nat) | atAddr | atCmd | atStat
  | fwCtl (n : Nat) | fwView (n : Nat) | fwCode (n : Nat) | fwScale (n : Nat)
  | xltA | xltC | xltStat
  | sp (p i : Nat)
  | lqBase | lqCtl | lqHead | lqTail
  | mxgov | tspBase | tspSize | tspUsed | rnsFail (core : Nat) | rnsLog (core : Nat)
  | trBase | trCtl | trWr | trRd | trStat
  | lmap (n : Nat) | vector (asid : Nat)
  | peTag | peBlk | peAddr | peLen | peCmd | peStat
  | haltWin (core slot : Nat) (hi : Bool)
  | owner (core entry : Nat) (hi : Bool)
  | resWin (entry : Nat) (hi : Bool)
  deriving DecidableEq, Repr

/-- The management and attestation registers at an offset (R400, R405). -/
def mgmtReg (off : Nat) : Option CtlReg :=
  match off with
  | 0x000 => some .mgid
  | 0x008 => some .mgstat
  | 0x010 => some (.coreLive 0)
  | 0x018 => some (.coreLive 1)
  | 0x020 => some (.coreLive 2)
  | 0x028 => some .lease
  | 0x030 => some .pwr
  | 0x038 => some .pwrcap
  | 0x200 => some (.nonce 0)
  | 0x208 => some (.nonce 1)
  | 0x210 => some (.nonce 2)
  | 0x218 => some (.nonce 3)
  | 0x220 => some .atAddr
  | 0x228 => some .atCmd
  | 0x230 => some .atStat
  | _ => if 0x100 ≤ off ∧ off < 0x180 then some (.port ((off - 0x100) / 8)) else none

/-- The single registers at an offset. -/
def plainReg (off : Nat) : Option CtlReg :=
  match off with
  | 0x110000 => some .xltA
  | 0x110008 => some .xltC
  | 0x110010 => some .xltStat
  | 0x130000 => some .lqBase
  | 0x130008 => some .lqCtl
  | 0x130010 => some .lqHead
  | 0x130018 => some .lqTail
  | 0x140000 => some .mxgov
  | 0x140010 => some .tspBase
  | 0x140018 => some .tspSize
  | 0x140020 => some .tspUsed
  | 0x150000 => some .trBase
  | 0x150008 => some .trCtl
  | 0x150010 => some .trWr
  | 0x150018 => some .trRd
  | 0x150020 => some .trStat
  | 0x160000 => some .peTag
  | 0x160008 => some .peBlk
  | 0x160010 => some .peAddr
  | 0x160018 => some .peLen
  | 0x160020 => some .peCmd
  | 0x160028 => some .peStat
  | _ => none

/-- A register of a format window: CTL, VIEW, CODE or SCALE (R112). -/
def windowReg (n k : Nat) : CtlReg :=
  match k with
  | 0 => .fwCtl n
  | 1 => .fwView n
  | 2 => .fwCode n
  | _ => .fwScale n

/-- The registers that stand in rows, at an offset that is a multiple of 8. -/
def rowReg (off : Nat) : Option CtlReg :=
  if 0x100000 ≤ off ∧ off < 0x100200 then some (windowReg ((off - 0x100000) / 32) (off / 8 % 4))
  else if 0x120000 ≤ off ∧ off < 0x120200 then some (.sp ((off - 0x120000) / 64) (off / 8 % 8))
  else if 0x141000 ≤ off ∧ off < 0x141C00 then
    some (if off / 8 % 2 = 0 then .rnsFail ((off - 0x141000) / 16) else .rnsLog ((off - 0x141000) / 16))
  else if 0x152000 ≤ off ∧ off < 0x153800 then some (.lmap ((off - 0x152000) / 8))
  else if 0x158000 ≤ off ∧ off < 0x160000 then some (.vector ((off - 0x158000) / 8))
  else if 0x170000 ≤ off ∧ off < 0x1A0000 then
    some (.haltWin ((off - 0x170000) / 1024) (off % 1024 / 16) (off / 8 % 2 == 1))
  else if 0x200000 ≤ off ∧ off < 0x218000 then
    some (.owner ((off - 0x200000) / 512) (off % 512 / 16) (off / 8 % 2 == 1))
  else if 0x1000000 ≤ off ∧ off < 0x2000000 then some (.resWin ((off - 0x1000000) / 16) (off / 8 % 2 == 1))
  else none

/-- The register at an offset; none for an unused or misaligned one (R399). -/
def ctlRegAt (off : Nat) : Option CtlReg :=
  if off % 8 ≠ 0 then none
  else if off < 0x300 then mgmtReg off
  else match plainReg off with
    | some r => some r
    | none => rowReg off

/-- Registers that work from the end of the measurement on, whether or not READY is set (R400). -/
def CtlReg.early : CtlReg → Bool
  | .mgid => true
  | .nonce _ => true
  | .atAddr => true
  | .atCmd => true
  | .atStat => true
  | _ => false

/-- The register answers: READY is set, or it works before (R400). -/
def State.regLive (s : State) (r : CtlReg) : Bool := s.ctl.ready || (s.ctl.measured && r.early) || r == .mgstat

/-! ## Reads -/

/-- A number as a register. -/
def reg64 (n : Nat) : DWord := BitVec.ofNat 64 n

/-- `MGSTAT` (R400). -/
def Ctl.mgstat (k : Ctl) : Nat := (if k.therm then 4 else 0) + (if k.fwbad then 2 else 0) + if k.ready then 1 else 0

/-- `MGID` (R400). -/
def mgidWord : Nat := Config.serial.toNat * 2 ^ 16 + Config.dev.toNat

/-- A format window (R112). -/
def Ctl.window (k : Ctl) (n : Nat) : Window := k.windows.getD n ⟨0, false, 0, 0, 0⟩

/-- The wave of a halted block that holds a slot of a core (R372). -/
def State.haltEntry (s : State) (core slot : Nat) : Option Wave :=
  (s.waves.find? fun e => !e.2.exited && decide (e.2.core = core) && decide (16 * e.2.sect + e.2.slot = slot) &&
    match (s.blocks.get? e.2.block).bind fun b => b.halt with
    | some h => h.done
    | none => false).map (·.2)

/-- One half of an entry of the halt window (R372). -/
def State.haltHalf (s : State) (core slot : Nat) (hi : Bool) : DWord :=
  match s.haltEntry core slot with
  | none => 0
  | some w => if hi then w.pc else reg64 (2 ^ 63 + min 4 w.skid * 2 ^ 48 + w.retired % 2 ^ 48)

/-- One half of an entry of the ownership table (R337). -/
def State.ownerHalf (s : State) (core entry : Nat) (hi : Bool) : DWord :=
  match (s.core core).tenures.get? entry with
  | none => 0
  | some t => if hi then t.handle ++ t.tag
    else reg64 (t.shape.toNat * 2 ^ 40 + t.gbase * 2 ^ 32 + t.gcnt * 2 ^ 16 + 1)

/-- One half of an entry of the residual window; an entry of no resident program reads 0 (R265). -/
def State.resHalf (s : State) (entry : Nat) (hi : Bool) : DWord :=
  if s.programs.any fun e => decide (e.2.base ≤ entry) && decide (entry < e.2.base + e.2.n) then
    reg64 (if hi then (s.resEntry entry).bits / 2 ^ 64 else (s.resEntry entry).bits % 2 ^ 64)
  else 0

/-- What a register reads as; reserved bits and write-only fields read 0 (R8, R9). DESIGN CHOICE: the registers of a slot
with no program read 0, and a write of SPpJRD there is ignored (log entry 83). -/
def State.ctlRead (s : State) (r : CtlReg) : DWord :=
  let k := s.ctl
  match r with
  | .mgid => reg64 mgidWord
  | .mgstat => reg64 k.mgstat
  | .coreLive i => k.coreLive.extractLsb' (64 * i) 64
  | .lease => reg64 k.leaseNs.toNat
  | .pwr => reg64 (k.inlet.toNat * 2 ^ 16 + k.watts.toNat)
  | .pwrcap => reg64 (k.fwgov.toNat * 2 ^ 16 + k.cap.toNat)
  | .port n => reg64 ((if k.portDown.getLsbD n then 2 ^ 63 else 0) + (k.portDrop.getD n 0).toNat)
  | .nonce i => k.nonce.getD i 0
  | .atAddr => k.atAddr
  | .atCmd => 0
  | .atStat => reg64 (k.atRes.toNat * 256 + if k.atBusy then 1 else 0)
  | .fwCtl n => reg64 ((k.window n).len * 2 ^ 32 + if (k.window n).on then 1 else 0)
  | .fwView n => reg64 (k.window n).view
  | .fwCode n => reg64 (k.window n).code
  | .fwScale n => reg64 (k.window n).scale
  | .xltA => k.xltVa
  | .xltC => 0
  | .xltStat => reg64 (if k.xltBusy then 1 else 0)
  | .sp p i => match s.programs.get? p with
    | none => 0
    | some q => q.regs.getD i 0
  | .lqBase => k.lqBase
  | .lqCtl => reg64 ((if k.lqOn then 2 ^ 63 else 0) + k.lqSize)
  | .lqHead => reg64 k.lqHead.toNat
  | .lqTail => reg64 k.lqTail.toNat
  | .mxgov => reg64 (k.govStep.toNat * 2 ^ 16 + k.govMax.toNat)
  | .tspBase => k.tspBase
  | .tspSize => reg64 k.tspSize.toNat
  | .tspUsed => reg64 (4096 * (s.poolUsed.map (·.2)).sum)
  | .rnsFail c => reg64 ((s.core c).rnsFail ||| (s.core c).rnsWant).toNat
  | .rnsLog c => reg64 ((s.core c).rnsCount.toNat * 2 ^ 32 + (s.core c).rnsLast.toNat)
  | .trBase => k.trBase
  | .trCtl => reg64 ((if k.trOn then 2 ^ 63 else 0) + k.trSize)
  | .trWr => reg64 k.trWr.toNat
  | .trRd => reg64 k.trRd.toNat
  | .trStat => reg64 (k.trLost.toNat * 2 ^ 32 + if k.trOvf then 1 else 0)
  | .lmap n => reg64 (s.lmap n).toNat
  | .vector a => k.vectors.getD a 0
  | .peTag => reg64 k.peTag.toNat
  | .peBlk => reg64 k.peBlk.toNat
  | .peAddr => k.peAddr
  | .peLen => k.peLen
  | .peCmd => 0
  | .peStat => reg64 (k.peNeed.toNat * 2 ^ 32 + k.peRes.toNat * 256 + if k.peJob.isSome || k.peWaits ≠ [] then 1 else 0)
  | .haltWin c i hi => s.haltHalf c i hi
  | .owner c i hi => s.ownerHalf c i hi
  | .resWin i hi => s.resHalf i hi

/-! ## Writes with an effect of their own -/

/-- Bits of a value from a low bit on, `n` of them, in place. -/
def keepBits (v : DWord) (lo n : Nat) : DWord := (v.extractLsb' lo n).setWidth 64 <<< lo

/-- A write of TRCTL (R374): SIZE is taken while EN is 0; setting EN clears WR and RD. -/
def Ctl.writeTrctl (k : Ctl) (val : DWord) : Ctl :=
  let size := (val.extractLsb' 0 5).toNat
  let k := if k.trOn then k else { k with trSize := if 6 ≤ size ∧ size ≤ 16 then size else 12 }
  if val.getLsbD 63 then (if k.trOn then k else { k with trOn := true, trWr := 0, trRd := 0 })
  else { k with trOn := false }

/-- Change a format window. -/
def State.modWindow (s : State) (n : Nat) (f : Window → Window) : State :=
  s.modCtl fun k => { k with windows := k.windows.put ⟨0, false, 0, 0, 0⟩ n (f (k.window n)) }

/-- Drop the decoded lines of a window from every L1 and L2 (R115). -/
def State.dropViews (s : State) (w : Window) : State :=
  let out (line : Nat) : Bool := decide (64 * line + 64 ≤ w.view) || decide (w.view + 64 * w.len ≤ 64 * line)
  { s with
    views := s.views.filter fun e => out e.1
    cores := s.cores.map fun e => (e.1, { e.2 with l1 := e.2.l1.filter fun x => out x.1 }) }

/-- A write of FWn CTL (R112, R115): LEN is taken while FMT is 00; 10 and 11 act as 00. DESIGN CHOICE: enabling a window
drops nothing: lines of the view range that an L1 holds undecoded keep serving under their leases (log entry 67). -/
def State.writeWindow (s : State) (n : Nat) (val : DWord) : State :=
  let w := s.ctl.window n
  let on := decide (val.extractLsb' 0 2 = 1)
  let s := if w.on && !on then s.dropViews w else s
  s.modWindow n fun w => { w with len := if w.on then w.len else (val.extractLsb' 32 32).toNat, on := on }

/-- An entry that an invalidation drops: scope 0 one page, 1 an address space, 2 all (R160). -/
def xltHit (job : Nat × Nat × Nat) (x : Xlate) : Bool :=
  decide (job.1 = 2) || (decide (x.asid = job.2.1) && (decide (job.1 = 1) || x.covers job.2.1 job.2.2))

/-- Drop the matching entries of every cache. -/
def State.dropXlates (s : State) (job : Nat × Nat × Nat) : State :=
  { s with
    cores := s.cores.map fun e => (e.1, { e.2 with tlb := e.2.tlb.filter fun x => !xltHit job x })
    dieTlb := s.dieTlb.map fun e => (e.1, e.2.filter fun x => !xltHit job x) }

/-- An invalidation begins (R160). -/
def State.startXlt (s : State) (scope asid va : Nat) : State :=
  let job := (scope, asid, va)
  (s.dropXlates job).modCtl fun k => { k with xltBusy := true, xltJob := some job }

/-- A write of the pre-emption command register (R383). -/
def State.peCommand (s : State) (op : Nat) (core : BitVec 8) : Host.Outcome State Fault Refusal :=
  let s : State := { s with subj := ⟨0, 0, 0⟩ }
  match op with
  | 1 => execPreemptBlock s
  | 2 => execRestoreBlock core s
  | 3 => execResume s
  | 4 => execDiscard s
  | 5 => execCheckpointLaunch s
  | 6 => execRestoreLaunch core s
  | _ => .next s

/-! ## Attestation (R405, R406) -/

/-- The first 768 bytes of a report. -/
def State.reportHead (s : State) : List Byte :=
  natLe 4 1 ++ natLe 4 1280 ++ natLe 8 mgidWord ++ natLe 8 s.generation.toNat ++ natLe 8 s.now ++
    ((List.range 4).flatMap fun i => natLe 8 (s.ctl.nonce.getD i 0).toNat) ++
    s.ctl.mgmtDigest ++ s.ctl.deviceDigest ++ natLe 24 s.ctl.coreLive.toNat ++ natLe 8 s.ctl.mgstat ++ natLe 32 0 ++
    natBe 512 rsaModulus

/-- A report (R406). -/
def State.report (s : State) : List Byte := s.reportHead ++ rsaSign s.reportHead

/-- A write of ATCMD.GO while BUSY is 0 (R405). -/
def State.attest (s : State) : State :=
  if s.ctl.measured then s.modCtl fun k => { k with atBusy := true, atEnd := none } else s.modCtl fun k => { k with atRes := 1 }

/-- A report is written at system scope, then BUSY clears; the first write of GO that has waited is performed (R405). -/
def State.attestOn (s : State) : State :=
  if !s.ctl.atBusy then s
  else match s.ctl.atEnd with
    | none =>
      let v := s.completionOf (.mem s.ctl.atAddr.toNat) 1280
      ((s.poke none s.ctl.atAddr.toNat s.report).noteWrites (.mem s.ctl.atAddr.toNat) 1280 v).modCtl fun k =>
        { k with atEnd := some v }
    | some v =>
      if s.now < v then s
      else
        let s := s.modCtl fun k => { k with atRes := 0, atBusy := false, atEnd := none }
        match s.ctl.atWaits with
        | [] => s
        | w :: rest => ((s.modCtl fun k => { k with atWaits := rest }).attest).replyWrite w

/-! ## Writes -/

/-- A write of a register (R8, R9): fields that are read-only or reserved keep their value. -/
def State.ctlPut (s : State) (r : CtlReg) (v : DWord) : State :=
  match r with
  | .lease => s.modCtl fun k => { k with leaseNs :=
      if 64 ≤ (v.extractLsb' 0 16).toNat ∧ (v.extractLsb' 0 16).toNat ≤ 4096 then v.extractLsb' 0 16 else 512 }
  | .pwrcap => s.modCtl fun k => { k with cap :=
      if 500 ≤ (v.extractLsb' 0 16).toNat ∧ (v.extractLsb' 0 16).toNat ≤ 3000 then v.extractLsb' 0 16 else 3000 }
  | .port n => s.modCtl fun k => { k with portDrop := k.portDrop.put 0 n (v.extractLsb' 0 32) }
  | .nonce i => s.modCtl fun k => if k.atBusy then k else { k with nonce := k.nonce.set i v }
  | .atAddr => s.modCtl fun k => if k.atBusy then k else { k with atAddr := keepBits v 12 36 }
  | .atCmd => if v.getLsbD 0 then s.attest else s
  | .fwCtl n => s.writeWindow n v
  | .fwView n => s.modWindow n fun w => if w.on then w else { w with view := (keepBits v 12 36).toNat }
  | .fwCode n => s.modWindow n fun w => if w.on then w else { w with code := (keepBits v 4 44).toNat }
  | .fwScale n => s.modWindow n fun w => if w.on then w else { w with scale := (keepBits v 0 48).toNat }
  | .xltA => s.modCtl fun k => { k with xltVa := keepBits v 13 44 }
  | .xltC => match (v.extractLsb' 14 2).toNat with
    | 3 => s
    | scope => s.startXlt scope (v.extractLsb' 0 12).toNat s.ctl.xltVa.toNat
  | .sp p i => if i = 4 then s.modProgram p fun q => { q with jrd := (keepBits v 6 26).toNat } else s
  | .lqBase => s.modCtl fun k => if k.lqOn then k else { k with lqBase := keepBits v 12 36 }
  | .lqCtl => match execLaunchQueueEnable v s with
    | .next t => t
    | _ => s
  | .mxgov => s.modCtl fun k => { k with govStep := v.extractLsb' 16 16, govMax := v.extractLsb' 0 16 }
  | .tspBase => if s.poolUsed = [] then s.modCtl fun k => { k with tspBase := keepBits v 16 32 } else s
  | .tspSize => if s.poolUsed = [] then s.modCtl fun k => { k with tspSize := (keepBits v 12 20).setWidth 32 } else s
  | .rnsFail c => s.modCore c fun k => { k with rnsWant := k.rnsWant ||| v.extractLsb' 0 8 }
  | .trBase => s.modCtl fun k => if k.trOn then k else { k with trBase := keepBits v 12 36 }
  | .trCtl => s.modCtl fun k => k.writeTrctl v
  | .trRd => s.modCtl fun k =>
      if (k.trWr - v.extractLsb' 0 32).toNat ≤ 2 ^ k.trSize then { k with trRd := v.extractLsb' 0 32 } else k
  | .trStat => s.modCtl fun k => { k with trOvf := k.trOvf && !v.getLsbD 0 }
  | .lmap n =>
    let m : BitVec 15 := v.extractLsb' 0 15 &&& 0x7F7F
    if mapOk m then s.modCtl fun k => { k with lmaps := k.lmaps.put mapNone n m } else s
  | .vector a => s.modCtl fun k => { k with vectors := k.vectors.put 0 a (keepBits v 2 55 ||| keepBits v 0 1) }
  | .peTag => s.modCtl fun k => { k with peTag := v.extractLsb' 0 32 }
  | .peBlk => s.modCtl fun k => { k with peBlk := v.extractLsb' 0 32 }
  | .peAddr => s.modCtl fun k => { k with peAddr := keepBits v 12 36 }
  | .peLen => s.modCtl fun k => { k with peLen := v }
  | .peCmd => match s.peCommand (v.extractLsb' 0 8).toNat (v.extractLsb' 16 8) with
    | .next t => t
    | _ => s
  | .mgid => s
  | .mgstat => s
  | .coreLive _ => s
  | .pwr => s
  | .atStat => s
  | .xltStat => s
  | .lqHead => s
  | .lqTail => s
  | .tspUsed => s
  | .rnsLog _ => s
  | .trWr => s
  | .peStat => s
  | .haltWin _ _ _ => s
  | .owner _ _ _ => s
  | .resWin _ _ => s

/-- A write of ATCMD.GO, XLTINVC or PECMD waits while the operation before it is under way (R160, R383, R405). -/
def State.writeWaits (s : State) (r : CtlReg) (v : DWord) : Bool :=
  s.regLive r && match r with
    | .atCmd => v.getLsbD 0 && s.ctl.atBusy
    | .xltC => decide ((v.extractLsb' 14 2).toNat ≠ 3) && s.ctl.xltBusy
    | .peCmd => decide (1 ≤ (v.extractLsb' 0 8).toNat) && decide ((v.extractLsb' 0 8).toNat ≤ 6) &&
        (s.ctl.peJob.isSome || s.ctl.peWaits ≠ [])
    | _ => false

/-- Keep a write that waits. DESIGN CHOICE: an invalidation keeps the page address that XLTINVA held as it was written (log
entry 68). -/
def State.keepWrite (s : State) (r : CtlReg) (v : DWord) (w : Option WriteReply) : State :=
  match r with
  | .atCmd => s.modCtl fun k => { k with atWaits := k.atWaits ++ [w] }
  | .xltC => s.modCtl fun k =>
    { k with xltWaits := k.xltWaits ++ [⟨(v.extractLsb' 14 2).toNat, (v.extractLsb' 0 12).toNat, k.xltVa.toNat, w⟩] }
  | .peCmd => s.modCtl fun k => { k with peWaits := k.peWaits ++ [⟨(v.extractLsb' 0 8).toNat, v.extractLsb' 16 8, w⟩] }
  | _ => s

/-- A write of a register; one that does not answer yet is ignored (R400). -/
def State.ctlWrite (s : State) (r : CtlReg) (v : DWord) : State :=
  if s.writeWaits r v then s.keepWrite r v none else if s.regLive r then s.ctlPut r v else s

/-- A read of a register; 0 while it does not answer yet (R400). -/
def State.ctlValue (s : State) (r : CtlReg) : DWord := if s.regLive r then s.ctlRead r else 0

/-- `REGISTER_WRITE` (R8, R399): an unused or misaligned offset changes nothing. -/
def execRegisterWrite (off : BitVec 25) (val : BitVec 64) (s : State) : Host.Outcome State Fault Refusal :=
  .next (match ctlRegAt off.toNat with
    | none => s
    | some r => s.ctlWrite r val)

/-- `TRAP_RING_ENABLE` (R374): a write of TRCTL. -/
def execTrapRingEnable (val : BitVec 64) (s : State) : Host.Outcome State Fault Refusal := .next (s.ctlWrite .trCtl val)

/-- `FORMAT_WINDOW_ENABLE` (R112): a write of FWn CTL. -/
def execFormatWindowEnable (n : Fin 16) (val : BitVec 64) (s : State) : Host.Outcome State Fault Refusal :=
  .next (s.ctlWrite (.fwCtl n.val) val)

/-- `FORMAT_WINDOW_DISABLE` (R115): a write of FWn CTL, complete once no cache holds a decoded line of the window. -/
def execFormatWindowDisable (n : Fin 16) (val : BitVec 64) (s : State) : Host.Outcome State Fault Refusal :=
  .next (s.ctlWrite (.fwCtl n.val) val)

/-- `XLT_INVALIDATE_PAGE` (R160): a write of XLTINVC with SCOPE 00. -/
def execXltInvalidatePage (asid : BitVec 12) (s : State) : Host.Outcome State Fault Refusal :=
  .next (s.ctlWrite .xltC (asid.setWidth 64))

/-- `XLT_INVALIDATE_ASID` (R160): a write of XLTINVC with SCOPE 01. -/
def execXltInvalidateAsid (asid : BitVec 12) (s : State) : Host.Outcome State Fault Refusal :=
  .next (s.ctlWrite .xltC (0x4000 ||| asid.setWidth 64))

/-- `XLT_INVALIDATE_ALL` (R160): a write of XLTINVC with SCOPE 10. -/
def execXltInvalidateAll (s : State) : Host.Outcome State Fault Refusal := .next (s.ctlWrite .xltC 0x8000)

/-- A walk that an invalidation covers. -/
def walkHit (job : Nat × Nat × Nat) (k : Walk) : Bool :=
  decide (job.1 = 2) || (decide (k.asid = job.2.1) && (decide (job.1 = 1) || decide (k.page = job.2.2 / 2 ^ 13)))

/-- `XLT_INVALIDATION_COMPLETE` (R160, R296): matching entries and walks are gone, BUSY clears, and the bindings of
address spaces covered whole, with no launch resident, are released; the first write of XLTINVC that has waited is
performed. -/
def execXltInvalidationComplete (s : State) : Host.Outcome State Fault Refusal :=
  .next (match s.ctl.xltJob with
    | none => s
    | some job =>
      let t := s.dropXlates job
      let t := (t.walks.filter (walkHit job)).foldl (fun (t : State) k => t.wake (walkKey k.asid (k.page * 2 ^ 13)) none) t
      let free (a : Nat) : Bool := (decide (job.1 = 2) || (decide (job.1 = 1) && decide (a = job.2.1))) &&
        t.launches.all fun e => decide (e.2.asid ≠ a)
      let t : State := { t with
        walks := t.walks.filter fun k => !walkHit job k
        asids := t.asids.filter fun e => !free e.1 }
      let t := t.modCtl fun k => { k with xltBusy := false, xltJob := none }
      match t.ctl.xltWaits with
      | [] => t
      | x :: rest => ((t.modCtl fun k => { k with xltWaits := rest }).startXlt x.scope x.asid x.va).replyWrite x.reply)

/-- `ATTESTATION_REPORT` (R405). With subject a = 0, 1 is written to ATCMD.GO; otherwise the report under way goes on. -/
def execAttestationReport (s : State) : Host.Outcome State Fault Refusal :=
  .next (if s.subj.a = 0 then s.ctlWrite .atCmd 1 else s.attestOn)

/-! ## Power (R13, R401, R403) -/

/-- Everything is lost; what the model has still to choose remains. -/
def State.dark (s : State) : State := { State.reset with sched := s.sched, ver := s.ver }

/-- Write the lane maps that the lane test found, and let the sections adopt them (R401 step 2). -/
def State.laneTest (s : State) (lanes : List LaneTest) : State :=
  lanes.foldl (fun (s : State) t =>
    let m : BitVec 15 := t.fail2 ++ (0 : BitVec 1) ++ t.fail1
    if t.sect < 768 ∧ mapOk m = true then
      (s.modCtl fun k => { k with lmaps := k.lmaps.put mapNone t.sect m }).adoptMap (t.sect / 4) (t.sect % 4)
    else s) s

/-- `POWER_ON` (R401): bring-up in its five steps; both firmware images are measured. With a signature that fails, the device firmware does not run. A
strap of 144 or more leaves every port down (R400). -/
def execPowerOn (sigOk : Bool) (lanes : List LaneTest) (dead : List Nat) (s : State) :
    Host.Outcome State Fault Refusal :=
  .next (if s.powered then s
    else
      let s : State := { s.dark with powered := true }
      let s := s.modCtl fun k => { k with
        measured := true
        fwbad := !sigOk
        mgmtDigest := sha512 (Config.mgmtImage s.ver)
        deviceDigest := sha512 (Config.deviceImage s.ver sigOk) }
      if sigOk then
        (s.laneTest lanes).modCtl fun k => { k with
          ready := true
          coreLive := dead.foldl (fun m c => m &&& ~~~((1 : BitVec 192) <<< c)) (BitVec.allOnes 192)
          portDown := if 144 ≤ Config.dev.toNat then BitVec.allOnes 16 else 0 }
      else s)

/-- `POWER_REMOVAL` (R13, R403). -/
def execPowerRemoval (s : State) : Host.Outcome State Fault Refusal := .next s.dark

/-- `THERMAL_LIMIT` (R403). -/
def execThermalLimit (inlet : BitVec 16) (s : State) : Host.Outcome State Fault Refusal :=
  .next (if s.ctl.ready then s.modCtl fun k => { k with therm := true, fwgov := 1, inlet := inlet } else s)

/-- The inlet is within its range of 15 to 40 °C, in steps of 0.1 °C (R403). -/
def inletOk (t : BitVec 16) : Bool := decide (150 ≤ t.toNat) && decide (t.toNat ≤ 400)

/-- `THERMAL_CLEAR` (R403): THERM clears only while the inlet is within its range. -/
def execThermalClear (inlet : BitVec 16) (s : State) : Host.Outcome State Fault Refusal :=
  .next (if s.ctl.ready then s.modCtl fun k => { k with therm := k.therm && !inletOk inlet, inlet := inlet } else s)

/-- `POWER_CAP_ENFORCE` (R403): firmware has measured WATTS and sets FWGOV, which falls while WATTS is above CAP; under a
thermal limit it stays at 1. -/
def execPowerCapEnforce (fwgov watts : BitVec 16) (s : State) : Host.Outcome State Fault Refusal :=
  .next (if s.ctl.ready then s.modCtl fun k => { k with
      watts := watts
      fwgov := if k.therm then 1
        else if k.cap.toNat < watts.toNat ∧ k.fwgov.toNat ≤ fwgov.toNat then BitVec.ofNat 16 (max 1 (k.fwgov.toNat - 1))
        else fwgov } else s)

/-! ## `SOFT_ERROR` (R154, R392, R395) -/

/-- Count a corrected error. -/
def State.corrected (s : State) : State := s.modCtl fun k => { k with corrected := k.corrected + 1 }

/-- The caches that hold a clean copy of a line: L2 (none), or the L1 of a core (R153, R154). -/
def State.cleanHolders (s : State) (line : Nat) : List (Option Nat) :=
  (if s.l2.get? line = some false then [none] else []) ++
    s.cores.filterMap fun e => if (e.2.l1.get? line).isSome then some (some e.1) else none

/-- The copy that the error has struck is dropped, to be fetched again from the next level (R154). -/
def State.dropHolder (s : State) (line : Nat) : Option Nat → State
  | none =>
    let l2 := s.l2.erase line
    { s with l2 := l2, views := viewsIn l2 s.views }
  | some c => s.modCore c fun k => { k with l1 := k.l1.erase line }

/-- A clean copy of a line, the one that the step picks, is dropped (R154). -/
def State.dropClean (s : State) (line : Nat) : State :=
  s.dropHolder line ((s.cleanHolders line).getD (s.pick % (s.cleanHolders line).length) none)

/-- What is in flight has read the bytes before an error that strikes them: loads, atomics and polls that meet them are
performed. DESIGN CHOICE: R154 leaves open which comes first (log entry 69). -/
def State.readFirst (s : State) (hit : Loc → Nat → Bool) : State :=
  let meets (a : Access) : Bool := (!a.store || a.rmw.isSome) && a.parts.any fun p => match p.tgt with
    | .here l => hit l a.width
    | .peer _ _ => false
  s.waves.foldl (fun s e => (e.2.outst.filter meets).foldl (fun s a => s.perform e.1 a.id (BitVec.allOnes 64)) s) s

/-- An access of `n` bytes meets the `size` bytes of memory from `a` on. -/
def meetsMem (a size : Nat) (l : Loc) (n : Nat) : Bool :=
  match l with
  | .mem x => decide (x < a + size) && decide (a < x + n)
  | .scr _ _ => false

/-- An access of `n` bytes meets a word of a block's scratchpad. -/
def meetsScr (b word : Nat) (l : Loc) (n : Nat) : Bool :=
  match l with
  | .mem _ => false
  | .scr c off => decide (c = b) && decide (off < 4 * word + 4) && decide (4 * word < off + n)

/-- A soft error strikes (R154): a single-bit error is corrected and counted, one in a clean cached copy drops the copy,
which the step's choice tells; another poisons the line or the word, leaves a register word to be judged when it is read
(R395), or changes stored bytes that checksums guard (R331, R345). -/
def State.strike (s : State) : SoftError → State
  | .line n single =>
    if s.hit && s.cleanHolders n ≠ [] then (s.dropClean n).corrected
    else if single then s.corrected
    else
      let s := s.readFirst (meetsMem (64 * n) 64)
      { s with poison := s.poison.set n () }
  | .dieWord n single =>
    if single then s.corrected
    else
      let s := s.readFirst (meetsMem (4 * n) 4)
      { s with diePoison := s.diePoison.set n () }
  | .scratchWord b n single =>
    if single then s.corrected
    else (s.readFirst (meetsScr b n)).modBlock b fun k => { k with scrPoison := k.scrPoison.set n () }
  | .regWord w r lane single =>
    if single then s.corrected
    else s.modWave w fun w => { w with struck := w.struck.put 0 r (w.struck.getD r 0 ||| ((1 : Mask) <<< lane)) }
  | .accByte b n v => s.modBlock b fun k => { k with acc := k.acc.put 0 n v }
  | .tenureWord core entry n v => s.modTenure core entry fun t => { t with elems := t.elems.put 0 n v }
  | .issue w => s.modWave w fun w => { w with mismatch := true }

/-- `SOFT_ERROR` (R154, R392, R395): in a module that has power. -/
def execSoftError (where_ : SoftError) (s : State) : Host.Outcome State Fault Refusal :=
  .next (if s.powered then s.strike where_ else s)

/-! ## Requests of peers (R161, R305, R399) -/

/-- The first physical address of the control space (R399). -/
def ctlBase : Nat := 0xFF00000000

/-- An address of the control space: its offset. -/
def ctlOffset (a : Nat) : Option Nat := if ctlBase ≤ a ∧ a < ctlBase + 2 ^ 25 then some (a - ctlBase) else none

/-- A control-space read: 8 bytes, aligned, or the 16 bytes of a residual entry; none is rejected (R399). -/
def State.ctlBytes (s : State) (off n : Nat) : Option (List Byte) :=
  match ctlRegAt off with
  | none => none
  | some r =>
    if n = 8 then some (natLe 8 (s.ctlValue r).toNat)
    else match r with
      | .resWin i false => if n = 16 then
          some (natLe 8 (s.ctlValue r).toNat ++ natLe 8 (s.ctlValue (.resWin i true)).toNat) else none
      | _ => none

/-- Some byte of a range lies in an enabled view range (R114). -/
def State.meetsView (s : State) (a n : Nat) : Bool := (linesOf a n).any fun k => (s.windowAt (64 * k)).isSome

/-- A source has a write of the control space waiting, or accesses behind one (R399). -/
def State.ctlBusy (s : State) (src : BitVec 16) : Bool :=
  let is (w : Option WriteReply) : Bool := w.any fun w => decide (w.src = src)
  s.ctl.atWaits.any is || (s.ctl.xltWaits.any fun x => is x.reply) || (s.ctl.peWaits.any fun x => is x.reply) ||
    s.ctl.behind.any fun x => decide (x.reply.src = src)

/-- An access of the control space is performed: a read or a write of 8 bytes of a register, or the 16-byte read of a
residual entry. Any other is rejected with status 1 (R399), an atomic too (log entry 32). A write that waits is answered
once it has been performed (log entry 52). -/
def State.ctlServe (s : State) (x : CtlAccess) : State :=
  let w := x.reply
  match x.kind with
  | .read n => match s.ctlBytes x.off n with
    | some bs => s.reply 0x0011 w.src w.tag w.addr 0 bs
    | none => s.reply 0x0011 w.src w.tag w.addr 1 []
  | .write n v => match ctlRegAt x.off with
    | none => s.reply 0x0013 w.src w.tag w.addr 1 []
    | some r =>
      if n ≠ 8 then s.reply 0x0013 w.src w.tag w.addr 1 []
      else if s.writeWaits r v then s.keepWrite r v (some w)
      else (s.ctlWrite r v).replyWrite (some w)
  | .atomic => s.reply 0x0015 w.src w.tag w.addr 1 []

/-- An access of the control space arrives over the fabric: those of one source are performed in arrival order, after a
write of it that waits (R399). DESIGN CHOICE: writes of the management processor name no source, and wait for none (log
entry 68). -/
def State.ctlAccess (s : State) (x : CtlAccess) : State :=
  if s.ctlBusy x.reply.src then s.modCtl fun k => { k with behind := k.behind ++ [x] } else s.ctlServe x

/-- Accesses of the control space that a write no longer holds back are performed (R399). -/
def State.serveBehind (s : State) : State :=
  if s.ctl.behind = [] then s
  else s.ctl.behind.foldl State.ctlAccess (s.modCtl fun k => { k with behind := [] })

/-- `REMOTE_READ` (R305): of memory or an enabled view (R116), else of the control space. -/
def execRemoteRead (src : BitVec 16) (tag : BitVec 32) (addr : BitVec 64) (len : BitVec 32) (s : State) :
    Host.Outcome State Fault Refusal :=
  let a := addr.toNat
  let n := len.toNat
  .next (s.hear src true fun s =>
    if s.inRange a n && (decide (0 < n) || (ctlOffset a).isNone) then
      if s.poisoned (.mem a) n then s.reply 0x0011 src tag a 1 []
      else (s.keepView a).reply 0x0011 src tag a 0 (bytesFrom s.homeByte a n)
    else match ctlOffset a with
      | some off => s.ctlAccess ⟨off, .read n, ⟨src, tag, a⟩⟩
      | none => s.reply 0x0011 src tag a 1 [])

/-- `REMOTE_WRITE` (R305): the home performs it, unless it meets a view (R114), lies outside the range, or meets poison
that it leaves. A write of the control space is a write of 8 bytes of a register (R399). -/
def execRemoteWrite (src : BitVec 16) (tag : BitVec 32) (addr : BitVec 64) (data : List Byte) (s : State) :
    Host.Outcome State Fault Refusal :=
  let a := addr.toNat
  let n := data.length
  .next (s.hear src true fun s =>
    if s.meetsView a n then s.reply 0x0013 src tag a 1 []
    else match ctlOffset a with
      | some off => s.ctlAccess ⟨off, .write n (BitVec.ofNat 64 (leNat (data.take 8))), ⟨src, tag, a⟩⟩
      | none =>
        if s.inRange a n && s.healsAll a n then
          ((s.poke none a data).noteWrites (.mem a) n (s.completionOf (.mem a) n)).reply 0x0013 src tag a 0 []
        else s.reply 0x0013 src tag a 1 [])

/-- `REMOTE_ATOMIC` (R305): performed at the home as one indivisible operation (R161). -/
def execRemoteAtomic (src : BitVec 16) (tag : BitVec 32) (addr : BitVec 64) (op : RemoteOp) (s : State) :
    Host.Outcome State Fault Refusal :=
  let a := addr.toNat
  .next (s.hear src (remoteFits op) fun s => match ctlOffset a with
    | some off => s.ctlAccess ⟨off, .atomic, ⟨src, tag, a⟩⟩
    | none => match remoteRmw op with
      | none => s.reply 0x0015 src tag a 1 []
      | some (o, v, w) =>
        if s.inRange a o.width && !s.meetsView a o.width && !s.poisoned (.mem a) o.width then
          let old := leNat (bytesFrom s.rawByte a o.width)
          let t := match o.result old v w with
            | none => s
            | some x => s.poke none a (natLe o.width x)
          (t.noteWrites (.mem a) o.width (s.completionOf (.mem a) o.width)).reply 0x0015 src tag a 0 (natLe o.width old)
        else s.reply 0x0015 src tag a 1 [])

/-! ## Messages that leave (R305) -/

/-- A memory message that a device sends to itself comes back to it: a wave reaches the control space so (R399; log entry
48). None for any other message. -/
def State.comesBack (s : State) (port : Nat) (m : OutMsg) : Option (Host.Outcome State Fault Refusal) :=
  let s : State := { s with subj := ⟨port, ownDev, 0⟩ }
  let src : BitVec 16 := BitVec.ofNat 16 ownDev
  let addr : DWord := BitVec.ofNat 64 (leAt m.payload 0 8)
  let len := leAt m.payload 8 4
  match m.kind.toNat with
  | 0x10 => some (execRemoteRead src m.tag addr (BitVec.ofNat 32 len) s)
  | 0x11 => some (execReadResponse m.tag (BitVec.ofNat 8 (leAt m.payload 0 1)) (m.payload.drop 16) s)
  | 0x12 => some (execRemoteWrite src m.tag addr ((m.payload.drop 16).take len) s)
  | 0x13 => some (execWriteResponse m.tag (BitVec.ofNat 8 (leAt m.payload 0 1)) s)
  | 0x14 => some (execRemoteAtomic src m.tag addr
      ⟨BitVec.ofNat 8 (leAt m.payload 8 1), BitVec.ofNat 4 (leAt m.payload 9 1), m.payload.drop 16⟩ s)
  | 0x15 => some (execAtomicResponse m.tag (BitVec.ofNat 8 (leAt m.payload 0 1)) (m.payload.drop 16) s)
  | _ => none

/-- A message of the remote-memory kinds (R305). -/
def OutMsg.ofMemory (m : OutMsg) : Bool := decide (0x10 ≤ m.kind.toNat) && decide (m.kind.toNat ≤ 0x15)

/-- `MESSAGE_GRANT` (R305); subject a: port, b: class. The receiver grants the oldest request, and the message's flits
leave, or come back to this device, when it is their destination. -/
def execMessageGrant (s : State) : Host.Outcome State Fault Refusal :=
  if s.ctl.portDown.getLsbD s.subj.a then .next s
  else match takeGrant s.subj.a s.subj.b s.grants with
    | none => .next s
    | some (m, gs) =>
      let out : State := { s with grants := gs, outbox := s.outbox ++ [m] }
      if m.ofMemory && decide (m.dst.toNat = ownDev) then
        (State.comesBack { s with grants := gs } s.subj.a m).getD (.next out)
      else .next out

end Sys2Proof.Machine
end

