-- ==== Sys2Proof/Machine/Dispatch.lean ====
section
/-! DEFINITION. The dispatcher: one arm for each step of the machine. -/

namespace Sys2Proof.Machine

open Sys2Proof

/-- What a step of the machine does: one meaning for each row of the table of operations and events. -/
def exec (i : Instr) (s : State) : Host.Outcome State Fault Refusal :=
  match i with
  | .powerOn sigOk lanes dead => Sys2Proof.Machine.execPowerOn sigOk lanes dead s
  | .thermalLimit inlet => Sys2Proof.Machine.execThermalLimit inlet s
  | .thermalClear inlet => Sys2Proof.Machine.execThermalClear inlet s
  | .powerCapEnforce fwgov watts => Sys2Proof.Machine.execPowerCapEnforce fwgov watts s
  | .registerWrite off val => Sys2Proof.Machine.execRegisterWrite off val s
  | .launchQueueEnable val => Sys2Proof.Machine.execLaunchQueueEnable val s
  | .trapRingEnable val => Sys2Proof.Machine.execTrapRingEnable val s
  | .formatWindowEnable n val => Sys2Proof.Machine.execFormatWindowEnable n val s
  | .formatWindowDisable n val => Sys2Proof.Machine.execFormatWindowDisable n val s
  | .xltInvalidatePage asid => Sys2Proof.Machine.execXltInvalidatePage asid s
  | .xltInvalidateAsid asid => Sys2Proof.Machine.execXltInvalidateAsid asid s
  | .rnsfailWrite core bits => Sys2Proof.Machine.execRnsfailWrite core bits s
  | .restoreBlock core => Sys2Proof.Machine.execRestoreBlock core s
  | .restoreLaunch core => Sys2Proof.Machine.execRestoreLaunch core s
  | .notify src tail => Sys2Proof.Machine.execNotify src tail s
  | .inputWrite msg => Sys2Proof.Machine.execInputWrite msg s
  | .snapshotRequest msg => Sys2Proof.Machine.execSnapshotRequest msg s
  | .subscribe msg => Sys2Proof.Machine.execSubscribe msg s
  | .remoteRead src tag addr len => Sys2Proof.Machine.execRemoteRead src tag addr len s
  | .remoteWrite src tag addr data => Sys2Proof.Machine.execRemoteWrite src tag addr data s
  | .remoteAtomic src tag addr op => Sys2Proof.Machine.execRemoteAtomic src tag addr op s
  | .readResponse tag status data => Sys2Proof.Machine.execReadResponse tag status data s
  | .writeResponse tag status => Sys2Proof.Machine.execWriteResponse tag status s
  | .atomicResponse tag status old => Sys2Proof.Machine.execAtomicResponse tag status old s
  | .collectiveData msg => Sys2Proof.Machine.execCollectiveData msg s
  | .barrierArrive src msg => Sys2Proof.Machine.execBarrierArrive src msg s
  | .barrierRelease msg => Sys2Proof.Machine.execBarrierRelease msg s
  | .undefinedWord pfx w => Sys2Proof.Machine.execUndefinedWord pfx w s
  | .exit g => Sys2Proof.Machine.execExit g s
  | .nop g => Sys2Proof.Machine.execNop g s
  | .j off g u => Sys2Proof.Machine.execJ off g u s
  | .call off g u => Sys2Proof.Machine.execCall off g u s
  | .joinSet off g => Sys2Proof.Machine.execJoinSet off g s
  | .join g => Sys2Proof.Machine.execJoin g s
  | .yield g => Sys2Proof.Machine.execYield g s
  | .jr a g u => Sys2Proof.Machine.execJr a g u s
  | .callr a g u => Sys2Proof.Machine.execCallr a g u s
  | .ret g => Sys2Proof.Machine.execRet g s
  | .trap imm g => Sys2Proof.Machine.execTrap imm g s
  | .trret g => Sys2Proof.Machine.execTrret g s
  | .lmapLd g => Sys2Proof.Machine.execLmapLd g s
  | .add d a b g u => Sys2Proof.Machine.execAdd d a b g u s
  | .sub d a b g u => Sys2Proof.Machine.execSub d a b g u s
  | .addi d a imm g u => Sys2Proof.Machine.execAddi d a imm g u s
  | .addiP d a imm g u => Sys2Proof.Machine.execAddiP d a imm g u s
  | .mul d a b g u => Sys2Proof.Machine.execMul d a b g u s
  | .mulh d a b g u => Sys2Proof.Machine.execMulh d a b g u s
  | .mulhu d a b g u => Sys2Proof.Machine.execMulhu d a b g u s
  | .and d a b g u => Sys2Proof.Machine.execAnd d a b g u s
  | .andi d a imm g u => Sys2Proof.Machine.execAndi d a imm g u s
  | .andiP d a imm g u => Sys2Proof.Machine.execAndiP d a imm g u s
  | .or d a b g u => Sys2Proof.Machine.execOr d a b g u s
  | .ori d a imm g u => Sys2Proof.Machine.execOri d a imm g u s
  | .oriP d a imm g u => Sys2Proof.Machine.execOriP d a imm g u s
  | .xor d a b g u => Sys2Proof.Machine.execXor d a b g u s
  | .xori d a imm g u => Sys2Proof.Machine.execXori d a imm g u s
  | .xoriP d a imm g u => Sys2Proof.Machine.execXoriP d a imm g u s
  | .shli d a sh g u => Sys2Proof.Machine.execShli d a sh g u s
  | .shri d a sh g u => Sys2Proof.Machine.execShri d a sh g u s
  | .srai d a sh g u => Sys2Proof.Machine.execSrai d a sh g u s
  | .shl d a b g u => Sys2Proof.Machine.execShl d a b g u s
  | .shr d a b g u => Sys2Proof.Machine.execShr d a b g u s
  | .sra d a b g u => Sys2Proof.Machine.execSra d a b g u s
  | .seteq d a b g u => Sys2Proof.Machine.execSeteq d a b g u s
  | .setlt d a b g u => Sys2Proof.Machine.execSetlt d a b g u s
  | .setltu d a b g u => Sys2Proof.Machine.execSetltu d a b g u s
  | .sel d a b g u => Sys2Proof.Machine.execSel d a b g u s
  | .min d a g u => Sys2Proof.Machine.execMin d a g u s
  | .max d a g u => Sys2Proof.Machine.execMax d a g u s
  | .minu d a g u => Sys2Proof.Machine.execMinu d a g u s
  | .maxu d a g u => Sys2Proof.Machine.execMaxu d a g u s
  | .rol d a g u => Sys2Proof.Machine.execRol d a g u s
  | .ror d a g u => Sys2Proof.Machine.execRor d a g u s
  | .addD d a g u => Sys2Proof.Machine.execAddD d a g u s
  | .subD d a g u => Sys2Proof.Machine.execSubD d a g u s
  | .adda d a g u => Sys2Proof.Machine.execAdda d a g u s
  | .bfx d a g u => Sys2Proof.Machine.execBfx d a g u s
  | .bfi d a g u => Sys2Proof.Machine.execBfi d a g u s
  | .popc d a g u => Sys2Proof.Machine.execPopc d a g u s
  | .clz d a g u => Sys2Proof.Machine.execClz d a g u s
  | .ctz d a g u => Sys2Proof.Machine.execCtz d a g u s
  | .brev d a g u => Sys2Proof.Machine.execBrev d a g u s
  | .bswap d a g u => Sys2Proof.Machine.execBswap d a g u s
  | .neg d a g u => Sys2Proof.Machine.execNeg d a g u s
  | .not d a g u => Sys2Proof.Machine.execNot d a g u s
  | .abs d a g u => Sys2Proof.Machine.execAbs d a g u s
  | .sextB d a g u => Sys2Proof.Machine.execSextB d a g u s
  | .sextH d a g u => Sys2Proof.Machine.execSextH d a g u s
  | .movi d imm g u => Sys2Proof.Machine.execMovi d imm g u s
  | .moviP d imm g u => Sys2Proof.Machine.execMoviP d imm g u s
  | .mov d a g u => Sys2Proof.Machine.execMov d a g u s
  | .movD d a g u => Sys2Proof.Machine.execMovD d a g u s
  | .maskAny d a g => Sys2Proof.Machine.execMaskAny d a g s
  | .maskAll d a g => Sys2Proof.Machine.execMaskAll d a g s
  | .maskLo d a g => Sys2Proof.Machine.execMaskLo d a g s
  | .maskHi d a g => Sys2Proof.Machine.execMaskHi d a g s
  | .maskCnt d a g => Sys2Proof.Machine.execMaskCnt d a g s
  | .movS d sr g u => Sys2Proof.Machine.execMovS d sr g u s
  | .movSW d sr g u => Sys2Proof.Machine.execMovSW d sr g u s
  | .wbase imm g => Sys2Proof.Machine.execWbase imm g s
  | .qxH d a g => Sys2Proof.Machine.execQxH d a g s
  | .qxV d a g => Sys2Proof.Machine.execQxV d a g s
  | .qxD d a g => Sys2Proof.Machine.execQxD d a g s
  | .qxB0 d a g => Sys2Proof.Machine.execQxB0 d a g s
  | .qxB1 d a g => Sys2Proof.Machine.execQxB1 d a g s
  | .qxB2 d a g => Sys2Proof.Machine.execQxB2 d a g s
  | .qxB3 d a g => Sys2Proof.Machine.execQxB3 d a g s
  | .shflPick d a b g => Sys2Proof.Machine.execShflPick d a b g s
  | .shflXor d a k g => Sys2Proof.Machine.execShflXor d a k g s
  | .addF32 d a b g u => Sys2Proof.Machine.execAddF32 d a b g u s
  | .subF32 d a b g u => Sys2Proof.Machine.execSubF32 d a b g u s
  | .mulF32 d a b g u => Sys2Proof.Machine.execMulF32 d a b g u s
  | .fmaF32 d a b g u => Sys2Proof.Machine.execFmaF32 d a b g u s
  | .minF32 d a b g u => Sys2Proof.Machine.execMinF32 d a b g u s
  | .maxF32 d a b g u => Sys2Proof.Machine.execMaxF32 d a b g u s
  | .seteqF32 d a b g u => Sys2Proof.Machine.execSeteqF32 d a b g u s
  | .setltF32 d a b g u => Sys2Proof.Machine.execSetltF32 d a b g u s
  | .setleF32 d a b g u => Sys2Proof.Machine.execSetleF32 d a b g u s
  | .setunF32 d a b g u => Sys2Proof.Machine.execSetunF32 d a b g u s
  | .rcpF32 d a g u => Sys2Proof.Machine.execRcpF32 d a g u s
  | .rsqrtF32 d a g u => Sys2Proof.Machine.execRsqrtF32 d a g u s
  | .sqrtF32 d a g u => Sys2Proof.Machine.execSqrtF32 d a g u s
  | .exp2F32 d a g u => Sys2Proof.Machine.execExp2F32 d a g u s
  | .log2F32 d a g u => Sys2Proof.Machine.execLog2F32 d a g u s
  | .sinF32 d a g u => Sys2Proof.Machine.execSinF32 d a g u s
  | .cosF32 d a g u => Sys2Proof.Machine.execCosF32 d a g u s
  | .rintF32 d a g u => Sys2Proof.Machine.execRintF32 d a g u s
  | .floorF32 d a g u => Sys2Proof.Machine.execFloorF32 d a g u s
  | .ceilF32 d a g u => Sys2Proof.Machine.execCeilF32 d a g u s
  | .truncF32 d a g u => Sys2Proof.Machine.execTruncF32 d a g u s
  | .classF32 d a g u => Sys2Proof.Machine.execClassF32 d a g u s
  | .fabsF32 d a g u => Sys2Proof.Machine.execFabsF32 d a g u s
  | .fnegF32 d a g u => Sys2Proof.Machine.execFnegF32 d a g u s
  | .addBf16x2 d a b g u => Sys2Proof.Machine.execAddBf16x2 d a b g u s
  | .mulBf16x2 d a b g u => Sys2Proof.Machine.execMulBf16x2 d a b g u s
  | .fmaBf16x2 d a b g u => Sys2Proof.Machine.execFmaBf16x2 d a b g u s
  | .addF16x2 d a b g u => Sys2Proof.Machine.execAddF16x2 d a b g u s
  | .mulF16x2 d a b g u => Sys2Proof.Machine.execMulF16x2 d a b g u s
  | .fmaF16x2 d a b g u => Sys2Proof.Machine.execFmaF16x2 d a b g u s
  | .minBf16x2 d a g u => Sys2Proof.Machine.execMinBf16x2 d a g u s
  | .maxBf16x2 d a g u => Sys2Proof.Machine.execMaxBf16x2 d a g u s
  | .minF16x2 d a g u => Sys2Proof.Machine.execMinF16x2 d a g u s
  | .maxF16x2 d a g u => Sys2Proof.Machine.execMaxF16x2 d a g u s
  | .redAddF32 d a g => Sys2Proof.Machine.execRedAddF32 d a g s
  | .redMinF32 d a g => Sys2Proof.Machine.execRedMinF32 d a g s
  | .redMaxF32 d a g => Sys2Proof.Machine.execRedMaxF32 d a g s
  | .redAdd d a g => Sys2Proof.Machine.execRedAdd d a g s
  | .redMin d a g => Sys2Proof.Machine.execRedMin d a g s
  | .redMax d a g => Sys2Proof.Machine.execRedMax d a g s
  | .scanAddF32 d a g => Sys2Proof.Machine.execScanAddF32 d a g s
  | .scanAdd d a g => Sys2Proof.Machine.execScanAdd d a g s
  | .cvt k r d a g u => Sys2Proof.Machine.execCvt k r d a g u s
  | .pack k r d a g u => Sys2Proof.Machine.execPack k r d a g u s
  | .unpack k e d a g u => Sys2Proof.Machine.execUnpack k e d a g u s
  | .packB4 t e sr d a g u => Sys2Proof.Machine.execPackB4 t e sr d a g u s
  | .ldW d a imm g u => Sys2Proof.Machine.execLdW d a imm g u s
  | .ldWP d a imm g u => Sys2Proof.Machine.execLdWP d a imm g u s
  | .ldD d a imm g u => Sys2Proof.Machine.execLdD d a imm g u s
  | .ldDP d a imm g u => Sys2Proof.Machine.execLdDP d a imm g u s
  | .ldQ d a imm g u => Sys2Proof.Machine.execLdQ d a imm g u s
  | .ldQP d a imm g u => Sys2Proof.Machine.execLdQP d a imm g u s
  | .ldH d a imm g u => Sys2Proof.Machine.execLdH d a imm g u s
  | .ldHP d a imm g u => Sys2Proof.Machine.execLdHP d a imm g u s
  | .stW d a imm g u => Sys2Proof.Machine.execStW d a imm g u s
  | .stWP d a imm g u => Sys2Proof.Machine.execStWP d a imm g u s
  | .stD d a imm g u => Sys2Proof.Machine.execStD d a imm g u s
  | .stDP d a imm g u => Sys2Proof.Machine.execStDP d a imm g u s
  | .stQ d a imm g u => Sys2Proof.Machine.execStQ d a imm g u s
  | .stQP d a imm g u => Sys2Proof.Machine.execStQP d a imm g u s
  | .stH d a imm g u => Sys2Proof.Machine.execStH d a imm g u s
  | .stHP d a imm g u => Sys2Proof.Machine.execStHP d a imm g u s
  | .ldHu d a imm g u => Sys2Proof.Machine.execLdHu d a imm g u s
  | .ldHuP d a imm g u => Sys2Proof.Machine.execLdHuP d a imm g u s
  | .ldB d a imm g u => Sys2Proof.Machine.execLdB d a imm g u s
  | .ldBP d a imm g u => Sys2Proof.Machine.execLdBP d a imm g u s
  | .ldBu d a imm g u => Sys2Proof.Machine.execLdBu d a imm g u s
  | .ldBuP d a imm g u => Sys2Proof.Machine.execLdBuP d a imm g u s
  | .stB d a imm g u => Sys2Proof.Machine.execStB d a imm g u s
  | .stBP d a imm g u => Sys2Proof.Machine.execStBP d a imm g u s
  | .pfL1 a imm g u => Sys2Proof.Machine.execPfL1 a imm g u s
  | .pfL1P a imm g u => Sys2Proof.Machine.execPfL1P a imm g u s
  | .pfL2 a imm g u => Sys2Proof.Machine.execPfL2 a imm g u s
  | .pfL2P a imm g u => Sys2Proof.Machine.execPfL2P a imm g u s
  | .cinv a g u => Sys2Proof.Machine.execCinv a g u s
  | .cinvAll g u => Sys2Proof.Machine.execCinvAll g u s
  | .ldAcqW d a sc g u => Sys2Proof.Machine.execLdAcqW d a sc g u s
  | .ldAcqD d a sc g u => Sys2Proof.Machine.execLdAcqD d a sc g u s
  | .stRelW d a sc g u => Sys2Proof.Machine.execStRelW d a sc g u s
  | .stRelD d a sc g u => Sys2Proof.Machine.execStRelD d a sc g u s
  | .ldScW d a sc g u => Sys2Proof.Machine.execLdScW d a sc g u s
  | .ldScD d a sc g u => Sys2Proof.Machine.execLdScD d a sc g u s
  | .stScW d a sc g u => Sys2Proof.Machine.execStScW d a sc g u s
  | .stScD d a sc g u => Sys2Proof.Machine.execStScD d a sc g u s
  | .atom o d a sc g u => Sys2Proof.Machine.execAtom o d a sc g u s
  | .atomD o d a sc g u => Sys2Proof.Machine.execAtomD o d a sc g u s
  | .atomF32 o d a sc g u => Sys2Proof.Machine.execAtomF32 o d a sc g u s
  | .casW d a sc g u => Sys2Proof.Machine.execCasW d a sc g u s
  | .casD d a sc g u => Sys2Proof.Machine.execCasD d a sc g u s
  | .fence sc g => Sys2Proof.Machine.execFence sc g s
  | .poll c d a sc g u => Sys2Proof.Machine.execPoll c d a sc g u s
  | .barB g => Sys2Proof.Machine.execBarB g s
  | .barC g => Sys2Proof.Machine.execBarC g s
  | .barDev g => Sys2Proof.Machine.execBarDev g s
  | .barDom g => Sys2Proof.Machine.execBarDom g s
  | .tktTake g => Sys2Proof.Machine.execTktTake g s
  | .tktWait d g => Sys2Proof.Machine.execTktWait d g s
  | .qcfg a g => Sys2Proof.Machine.execQcfg a g s
  | .copy1d a g => Sys2Proof.Machine.execCopy1d a g s
  | .copy2d a g => Sys2Proof.Machine.execCopy2d a g s
  | .copyG a g => Sys2Proof.Machine.execCopyG a g s
  | .batch d g => Sys2Proof.Machine.execBatch d g s
  | .waitB a g => Sys2Proof.Machine.execWaitB a g s
  | .waitC l st t g => Sys2Proof.Machine.execWaitC l st t g s
  | .coll k a g => Sys2Proof.Machine.execColl k a g s
  | .mma t d a g => Sys2Proof.Machine.execMma t d a g s
  | .mmaPair t d a g => Sys2Proof.Machine.execMmaPair t d a g s
  | .tld a g => Sys2Proof.Machine.execTld a g s
  | .tst a g => Sys2Proof.Machine.execTst a g s
  | .accZero a g => Sys2Proof.Machine.execAccZero a g s
  | .accRd d a g => Sys2Proof.Machine.execAccRd d a g s
  | .accWr d a g => Sys2Proof.Machine.execAccWr d a g s
  | .accChkTile a g => Sys2Proof.Machine.execAccChkTile a g s
  | .accChkTen a g => Sys2Proof.Machine.execAccChkTen a g s
  | .pin d a g => Sys2Proof.Machine.execPin d a g s
  | .unpin d a g => Sys2Proof.Machine.execUnpin d a g s
  | .fwupd d a g => Sys2Proof.Machine.execFwupd d a g s
  | .fwrd d a g => Sys2Proof.Machine.execFwrd d a g s
  | .rnsfI16 d a g => Sys2Proof.Machine.execRnsfI16 d a g s
  | .rnsfI32 d a g => Sys2Proof.Machine.execRnsfI32 d a g s
  | .rnsr d a g => Sys2Proof.Machine.execRnsr d a g s
  | .rnsChk d a g => Sys2Proof.Machine.execRnsChk d a g s
  | .rset a g => Sys2Proof.Machine.execRset a g s
  | .rpost a g => Sys2Proof.Machine.execRpost a g s
  | .rget d a g => Sys2Proof.Machine.execRget d a g s
  | .qend g => Sys2Proof.Machine.execQend g s
  | .rand d g u => Sys2Proof.Machine.execRand d g u s
  | .eqId d g u => Sys2Proof.Machine.execEqId d g u s
  | .eqGen d g u => Sys2Proof.Machine.execEqGen d g u s
  | .eqTheta d g u => Sys2Proof.Machine.execEqTheta d g u s
  | .softError where_ => Sys2Proof.Machine.execSoftError where_ s
  | .powerRemoval => Sys2Proof.Machine.execPowerRemoval s
  | .xltInvalidateAll => Sys2Proof.Machine.execXltInvalidateAll s
  | .xltInvalidationComplete => Sys2Proof.Machine.execXltInvalidationComplete s
  | .rnsfailEffect => Sys2Proof.Machine.execRnsfailEffect s
  | .attestationReport => Sys2Proof.Machine.execAttestationReport s
  | .preemptBlock => Sys2Proof.Machine.execPreemptBlock s
  | .resume => Sys2Proof.Machine.execResume s
  | .discard => Sys2Proof.Machine.execDiscard s
  | .checkpointLaunch => Sys2Proof.Machine.execCheckpointLaunch s
  | .runCommand => Sys2Proof.Machine.execRunCommand s
  | .loadCommand => Sys2Proof.Machine.execLoadCommand s
  | .unloadCommand => Sys2Proof.Machine.execUnloadCommand s
  | .clusterPlacement => Sys2Proof.Machine.execClusterPlacement s
  | .drain => Sys2Proof.Machine.execDrain s
  | .blockRetirement => Sys2Proof.Machine.execBlockRetirement s
  | .runCompletion => Sys2Proof.Machine.execRunCompletion s
  | .quantumBoundary => Sys2Proof.Machine.execQuantumBoundary s
  | .standingBoundary => Sys2Proof.Machine.execStandingBoundary s
  | .deferredJournalEntry => Sys2Proof.Machine.execDeferredJournalEntry s
  | .relaxationPlacement => Sys2Proof.Machine.execRelaxationPlacement s
  | .relaxationRetirement => Sys2Proof.Machine.execRelaxationRetirement s
  | .relaxationKill => Sys2Proof.Machine.execRelaxationKill s
  | .inputLanding => Sys2Proof.Machine.execInputLanding s
  | .snapshotServe => Sys2Proof.Machine.execSnapshotServe s
  | .unloadCompletion => Sys2Proof.Machine.execUnloadCompletion s
  | .residualEntryError => Sys2Proof.Machine.execResidualEntryError s
  | .reservedMessage => Sys2Proof.Machine.execReservedMessage s
  | .messageGrant => Sys2Proof.Machine.execMessageGrant s
  | .portDown => Sys2Proof.Machine.execPortDown s
  | .remoteRequestTimeout => Sys2Proof.Machine.execRemoteRequestTimeout s
  | .loadDataReturn => Sys2Proof.Machine.execLoadDataReturn s
  | .storeAcknowledgement => Sys2Proof.Machine.execStoreAcknowledgement s
  | .l1LeaseEnd => Sys2Proof.Machine.execL1LeaseEnd s
  | .pageWalk => Sys2Proof.Machine.execPageWalk s
  | .copyJobStart => Sys2Proof.Machine.execCopyJobStart s
  | .copyJobFault => Sys2Proof.Machine.execCopyJobFault s
  | .copyJobCompletion => Sys2Proof.Machine.execCopyJobCompletion s
  | .matrixOperationRetirement => Sys2Proof.Machine.execMatrixOperationRetirement s
  | .pairOperationFollowerStart => Sys2Proof.Machine.execPairOperationFollowerStart s
  | .pinAllocation => Sys2Proof.Machine.execPinAllocation s
  | .pressureSpill => Sys2Proof.Machine.execPressureSpill s
  | .governorWindow => Sys2Proof.Machine.execGovernorWindow s
  | .backoffExpiry => Sys2Proof.Machine.execBackoffExpiry s
  | .starvation => Sys2Proof.Machine.execStarvation s
  | .timerTrap => Sys2Proof.Machine.execTimerTrap s
  | .blockHalt => Sys2Proof.Machine.execBlockHalt s
  | .trapRecordPosting => Sys2Proof.Machine.execTrapRecordPosting s
  | .repost => Sys2Proof.Machine.execRepost s
  | .rollback => Sys2Proof.Machine.execRollback s
  | .reservedCommand => Sys2Proof.Machine.execReservedCommand s

end Sys2Proof.Machine
end

