-- ==== Sys2Proof/Machine/Fetch.lean ====
section
/-! DEFINITION. Fetching an instruction, choosing the wave that issues, and the default order of events (R27, R29, R53,
R231, R233). -/

namespace Sys2Proof.Machine

open Sys2Proof

/-! ## Fetching (R231, R233) -/

/-- Where the fetch of a word ends. -/
inductive CodeFetch where
  | word (x : Word) (s : State)
  | fault (cause : Nat)
  | park
  | wait (s : State)
  deriving Repr

/-- Put a word into an instruction cache, which holds 64 KiB (R2); a full one gives up the entry that the step picks.
DESIGN CHOICE: which entry goes is a choice of the step (log entry 55). -/
def icacheIn (pick a : Nat) (x : Word × Nat) (m : KMap (Word × Nat)) : KMap (Word × Nat) :=
  if (m.get? a).isSome || decide (m.length < 16384) then m.set a x
  else (m.erase (m.keys.getD (pick % m.length) 0)).set a x

/-- The values that a word has held and lost since a launch was taken, newest first (R233). -/
def State.pastWords (s : State) (l : Launch) (a : Nat) : List Word :=
  ((s.past.getD (a / 4) []).filter fun x => decide (l.takenSeq < x.2)).map (·.1)

/-- The word at a physical address as a fetch returns it (R233): in DQM as committed at the boundary; in free mode the
word as it stands, the core's cached copy, or any value it has held since the launch was taken, as the step chooses. -/
def State.codeWord (s : State) (w : Wave) (l : Launch) (a : Nat) : Word × State :=
  if l.dqm then (BitVec.ofNat 32 (leNat (bytesFrom (s.byteVia (s.underByte l)) a 4)), s)
  else
    let fresh : Word := BitVec.ofNat 32 (s.homeNat a 4)
    let filled := s.modCore w.core fun k => { k with icache := icacheIn s.pick a (fresh, s.seq) k.icache }
    if !s.hit then (fresh, filled)
    else if s.pick = 0 then
      match (s.core w.core).icache.get? a with
      | some (x, n) => if l.takenSeq < n then (x, s) else (fresh, filled)
      | none => (fresh, filled)
    else ((s.pastWords l a).getD (s.pick - 1) fresh, s)

/-- Fetch the word at a virtual address, with the checks of R231 in their order. -/
def State.fetchAt (s : State) (key : Nat) (w : Wave) (l : Launch) (va : Nat) : CodeFetch :=
  if 2 ^ 57 ≤ va then .fault 0x07
  else match s.lookup w.walkOut w.core l.asid l.root va with
    | .absent => .park
    | .malformed => .fault 0x14
    | .joined k t => .wait (t.awaitWalks key [k])
    | .found x t =>
      if !x.permits .fetch w.sup then .fault 0x15
      else match t.route (x.target va) with
        | .here (.mem a) =>
          if t.poisoned (.mem a) 4 then .fault 0x17
          else
            let y := t.codeWord w l a
            .word y.1 y.2
        | _ => .fault 0x17

/-- A fetch fault (R231): a sequential program counter of 2^57 is reported at the word that falls through. -/
def State.fetchFault (s : State) (key : Nat) (w : Wave) (k : Nat) : State :=
  if 2 ^ 57 ≤ w.pc.toNat then (s.modWave key fun w => { w with pc := w.pc - 4 }).takeHalt key 0x07 0 0 0
  else s.takeHalt key k (if k = 0x07 then 0 else w.pc) 0 0

/-- A fetched instruction: the decoded form, the bytes it spans, and the state. -/
inductive Ready where
  | instr (i : Instr) (s : State)
  | fault (cause : Nat)
  | park
  | wait (s : State)
  deriving Repr

/-- Fetch the instruction at a wave's program counter: one word, or a literal word and its partner (R53). -/
def State.fetchInstr (s : State) (key : Nat) (w : Wave) (l : Launch) : Ready :=
  match s.fetchAt key w l w.pc.toNat with
  | .fault k => .fault k
  | .park => .park
  | .wait t => .wait t
  | .word x t =>
    if majorOf x = 1 then
      match t.fetchAt key w l (w.pc.toNat + 4) with
      | .fault k => .fault k
      | .park => .park
      | .wait t => .wait t
      | .word y t => .instr (decodeTwo x y).1 t
    else .instr (decodeTwo x 0).1 t

/-! ## Which wave issues (R27, R29) -/

/-- The age of a wave: start, placement rank, index, and a compute wave before its shadow (R27). -/
def State.ageOf (s : State) (w : Wave) : List Nat :=
  [w.order, match s.blocks.get? w.block with | some b => b.rank | none => 0, w.index, if w.shadow then 1 else 0]

/-- The order of issue: a starving wave first, then the higher level, then the older (R27, R29). A wave that has been
Ready for 112 cycles is starving of itself. -/
def State.turnOf (s : State) (w : Wave) : List Nat :=
  if w.starving || (w.stalled.isNone && decide (w.readyFrom + 112 ≤ s.now)) then 0 :: s.ageOf w else (8 - w.level) :: s.ageOf w

/-- The first list comes before the second. -/
def turnLt : List Nat → List Nat → Bool
  | [], _ => false
  | _ :: _, [] => false
  | x :: xs, y :: ys => decide (x < y) || (decide (x = y) && turnLt xs ys)

/-- A section may issue in this cycle: no earlier issue still holds it (R29, R392, R397). -/
def State.sectFree (s : State) (core sect : Nat) : Bool :=
  match (s.core core).busy.get? sect with
  | none => true
  | some t => decide (t ≤ s.now)

/-- The wave that a section issues from. DESIGN CHOICE: of two waves of different launches whose ages R27 leaves equal, the
one that the table of waves lists first: that of the launch taken earlier (log entry 76). -/
def State.turn (s : State) (core sect : Nat) : Option Nat :=
  if s.sectFree core sect then
    (s.waves.foldl (fun (best : Option (Nat × Wave)) e =>
      if e.2.core = core ∧ e.2.sect = sect ∧ s.mayIssue e.2 = true then
        match best with
        | none => some e
        | some b => if turnLt (s.turnOf e.2) (s.turnOf b.2) then some e else some b
      else best) none).map (·.1)
  else none

/-- Cycles for which an issue holds its section: two in two passes or when issued twice (R29, R392, R397). -/
def State.issueCycles (s : State) (w : Wave) (l : Launch) : Nat :=
  if twoPass ((s.core w.core).maps.get w.sect) || (l.record.options.getLsbD 3 && l.standing.isNone) then 2 else 1

/-! ## The default order of events -/

/-- An event and its parties. -/
abbrev Due := Instr × Subject

/-- Events about a block. -/
def dueBlock (b : Nat) : List Due :=
  [(.blockHalt, ⟨b, 0, 0⟩), (.rollback, ⟨b, 0, 0⟩), (.blockRetirement, ⟨b, 0, 0⟩)]

/-- Events about a launch. -/
def dueLaunch (k : Nat) : List Due :=
  [(.quantumBoundary, ⟨k, 0, 0⟩), (.clusterPlacement, ⟨k, 0, 0⟩), (.drain, ⟨k, 0, 0⟩), (.runCompletion, ⟨k, 0, 0⟩)]

/-- Events about a standing program. -/
def dueProgram (p : Nat) (q : Program) : List Due :=
  [(.standingBoundary, ⟨p, 0, 0⟩), (.deferredJournalEntry, ⟨p, 0, 0⟩)] ++
    (q.running.keys.flatMap fun i => [(.relaxationRetirement, ⟨p, i, 0⟩), (.relaxationKill, ⟨p, i, 0⟩)]) ++
    [(.relaxationPlacement, ⟨p, 0, 0⟩), (.inputLanding, ⟨p, 0, 0⟩), (.snapshotServe, ⟨p, 0, 0⟩),
     (.unloadCompletion, ⟨p, 0, 0⟩)]

/-- Events about a wave. -/
def dueWave (k : Nat) (w : Wave) : List Due :=
  (w.outst.flatMap fun a => [(.loadDataReturn, ⟨k, a.id, 2 ^ 64 - 1⟩), (.storeAcknowledgement, ⟨k, a.id, 2 ^ 64 - 1⟩)]) ++
    [(.backoffExpiry, ⟨k, 0, 0⟩), (.starvation, ⟨k, 0, 0⟩), (.pinAllocation, ⟨k, 0, 0⟩)]

/-- Events about a core. -/
def dueCore (c : Nat) (k : Core) : List Due :=
  (k.jobs.map fun j => (.copyJobCompletion, ⟨c, j.id, 0⟩)) ++
    (k.ops.flatMap fun o => [(.pairOperationFollowerStart, ⟨c, o.id, 0⟩), (.matrixOperationRetirement, ⟨c, o.id, 0⟩)]) ++
    [(.pressureSpill, ⟨c, 0, 0⟩)] ++ (if k.rnsFail = k.rnsFail ||| k.rnsWant then [] else [(.rnsfailEffect, ⟨c, 0, 0⟩)]) ++
    if k.govIssues = 0 ∧ k.govLast = 0 then [] else [(.governorWindow, ⟨c, 0, 0⟩)]

/-- The event of an operation of the pre-emption controls (R383). -/
def peInstr (op : Nat) (core : BitVec 8) : Instr :=
  match op with
  | 1 => .preemptBlock
  | 2 => .restoreBlock core
  | 3 => .resume
  | 4 => .discard
  | 5 => .checkpointLaunch
  | _ => .restoreLaunch core

/-- The operation of the controls that goes on, or the first that waits. -/
def duePe (k : Ctl) : List Due :=
  match k.peJob, k.peWaits with
  | some j, _ => [(peInstr j.op j.core, ⟨1, 0, 0⟩)]
  | none, x :: _ => [(peInstr x.op x.core, ⟨1, 0, 0⟩)]
  | none, [] => []

/-- The events that may be due, in the default order. -/
def State.dueList (s : State) : List Due :=
  (if s.powered then [] else [(.powerOn true [] [], ⟨0, 0, 0⟩)]) ++
    [(.trapRecordPosting, ⟨0, 0, 0⟩), (.repost, ⟨0, 0, 0⟩)] ++ duePe s.ctl ++ s.blocks.keys.flatMap dueBlock ++
    (s.walks.map fun k => (.pageWalk, ⟨k.asid, k.page, 0⟩)) ++ (s.waves.flatMap fun e => dueWave e.1 e.2) ++
    (s.cores.flatMap fun e => dueCore e.1 e.2) ++ s.launches.keys.flatMap dueLaunch ++
    (s.programs.flatMap fun e => dueProgram e.1 e.2) ++
    [(.xltInvalidationComplete, ⟨0, 0, 0⟩), (.attestationReport, ⟨1, 0, 0⟩), (.runCommand, ⟨0, 0, 0⟩), (.loadCommand, ⟨0, 0, 0⟩),
     (.unloadCommand, ⟨0, 0, 0⟩), (.reservedCommand, ⟨0, 0, 0⟩)] ++
    (s.grants.map fun g => (.messageGrant, ⟨g.port, g.cls, 0⟩)) ++
    s.remote.keys.map fun t => (.remoteRequestTimeout, ⟨t, 0, 0⟩)

/-- The sections that may issue, lowest core and section first. -/
def State.turns (s : State) : List (Nat × Nat) :=
  (List.range 192).flatMap fun c => if s.waves.any fun e => decide (e.2.core = c) then
    [0, 1, 2, 3].filterMap fun k => if (s.turn c k).isSome then some (c, k) else none else []

end Sys2Proof.Machine
end

