-- ==== Sys2Proof/Machine/Turns.lean ====
section
/-! DEFINITION. Which waves are Ready, and since when (R26, R29): a wave is Ready in a cycle in which its next instruction
can issue. -/

namespace Sys2Proof.Machine

open Sys2Proof

/-- The wave did not get past its word. -/
def State.onlyStalled (t : State) (key ver : Nat) : Bool :=
  match t.waves.get? key with
  | some w => decide (w.stalled = some ver)
  | none => false

/-- A word that does not retire has got further. -/
def Wave.moved (w v : Wave) : Bool :=
  decide (v.walking ≠ []) || decide (v.remote ≠ w.remote) || decide (v.hold ≠ w.hold) || decide (v.holdOn ≠ w.holdOn) ||
    decide (v.partDone ≠ w.partDone)

/-- The next instruction of a wave can issue in this cycle (R26): it takes a trap or a fault, or its word retires or gets
further. -/
def State.canIssue (s : State) (key : Nat) (w : Wave) : Bool :=
  s.ready w && match (s.blocks.get? w.block).bind fun b => s.launches.get? b.launch with
    | none => false
    | some l => s.trapsNow w || match s.fetchInstr key w l with
      | .fault _ => true
      | .park => true
      | .wait _ => true
      | .instr i t => match exec i { t with cur := some key } with
        | .next u => !u.onlyStalled key s.ver || (u.waves.get? key).any w.moved
        | .fault _ => true
        | .refused _ => true

/-- Since when a wave that can issue now has been Ready, if it was not at an earlier time: the end of a hold (R176), of a
horizon (R173) or of a governor window (R335), or now. -/
def State.readyAt (s : State) (since key : Nat) (w : Wave) : Nat :=
  ((w.hold.toList ++ [w.horizon, s.now / 1200 * 1200]).filter fun t =>
    decide (since < t) && decide (t < s.now) && State.canIssue { s with now := t } key w).foldl min s.now

/-- A wave that becomes Ready begins to count, and one that leaves Ready has no count (R29). -/
def State.counted (s : State) (since key : Nat) (w : Wave) : Wave :=
  if w.exited then w
  else if s.canIssue key w then
    if w.stalled.isNone then w else { w with stalled := none, readyFrom := s.readyAt since key w, starving := false }
  else if w.stalled.isNone then { w with stalled := some (s.ver - 1), starving := false }
  else w

/-- The counts of R29 after a step, or after time has passed since an earlier time. -/
def State.recount (s : State) (since : Nat) : State :=
  { s with waves := s.waves.map fun e => (e.1, s.counted since e.1 e.2) }

end Sys2Proof.Machine
end

