-- ==== Sys2Proof/Machine/Step.lean ====
section
/-! DEFINITION. The step of the machine: the next choice of `State.sched`, or the default order, decides which wave issues
its instruction or which event comes about. -/

namespace Sys2Proof.Machine

open Sys2Proof

/-- The state after a step: no wave is issuing, accesses of the control space that no write holds back any more are
performed (R399), and something has changed unless the wave only waits. -/
def State.settled (ver : Nat) (quiet : Bool) (t : State) : State :=
  let u : State := { t with cur := none, subj := ⟨0, 0, 0⟩, later := false, hit := false, pick := 0 }
  if quiet then { u with ver := ver } else State.recount { u.serveBehind with ver := ver + 1 } u.now

/-- Finish a step. -/
def finish (f : State → State) : Host.Outcome State Fault Refusal → Host.Outcome State Fault Refusal
  | .next t => .next (f t)
  | .fault x => .fault x
  | .refused x => .refused x

/-- An event comes about. -/
def State.happen (s : State) (i : Instr) (subj : Subject) : Host.Outcome State Fault Refusal :=
  finish (State.settled s.ver false) (exec i { s with cur := none, subj := subj })

/-- The undo store of a block that takes snapshots may be full once one of its words has retired: its rollback interval then
closes (R393). When it is full is left open (log entry 61). -/
def State.undoCloses (u : State) (key : Nat) (w : Wave) : State :=
  match (u.blocks.get? w.block).bind fun b => b.snap, u.waves.get? key with
  | some _, some v => if decide (v.retired ≠ w.retired) && Config.undoFull u.seq v.retired then u.snapshot w.block else u
  | _, _ => u

/-- The section is held for the cycles of an issue; a wave that did not get past its word leaves it free. Answers to earlier
stores that came while the word was under way are taken in once it has retired. -/
def State.issued (s : State) (w : Wave) (l : Launch) (key : Nat) (u : State) : State :=
  if u.onlyStalled key s.ver then u.settled s.ver (!(u.waves.get? key).any w.moved)
  else State.settled s.ver false
    (((u.undoCloses key w).lateChecks key).modCore w.core fun k => { k with busy := k.busy.set w.sect (s.now + s.issueCycles w l) })

/-- A wave issues: a timer trap that is due is taken (R380), else its instruction is fetched, decoded and executed. -/
def State.issueFrom (s : State) (key : Nat) (w : Wave) (l : Launch) : Host.Outcome State Fault Refusal :=
  if s.trapsNow w then .next ((s.takeTimer key).settled s.ver false)
  else
    match s.fetchInstr key w l with
    | .fault k => .next ((s.fetchFault key w k).settled s.ver false)
    | .park => .next ((s.takePark key w.pc 0 0).settled s.ver false)
    | .wait t => .next (t.settled s.ver false)
    | .instr i t => finish (s.issued w l key) (exec i { t with cur := some key })

/-- A section's turn. -/
def State.section (s : State) (core sect : Nat) : Host.Outcome State Fault Refusal :=
  match (s.turn core sect).bind fun key => (s.waves.get? key).bind fun w =>
      (s.blocks.get? w.block).bind fun b => (s.launches.get? b.launch).map fun l => (key, w, l) with
  | none => .next (s.settled s.ver true)
  | some (key, w, l) => s.issueFrom key w l

/-- The first due event that changes something. -/
def State.firstDue (s : State) : List Due → Option Due
  | [] => none
  | d :: ds =>
    match exec d.1 { s with cur := none, subj := d.2 } with
    | .next t => if t = { s with cur := none, subj := d.2 } then State.firstDue s ds else some d
    | _ => State.firstDue s ds

/-- The default choice: a due event, else the first section with a Ready wave, else a cycle passes. -/
def State.auto (s : State) : Host.Outcome State Fault Refusal :=
  match s.firstDue s.dueList with
  | some d => s.happen d.1 d.2
  | none =>
    match s.turns with
    | x :: _ => s.section x.1 x.2
    | [] => .next (State.settled s.ver false { s with now := s.now + 1 })

/-- Time passes, and the choice takes effect. -/
def State.after (s : State) (c : Choice) : State :=
  let t : State := if c.elapse = 0 then s else State.recount { s with now := s.now + c.elapse, ver := s.ver + 1 } s.now
  { t with later := c.later, hit := c.hit, pick := c.pick }

/-- One step of the machine. -/
def step (s : State) : Host.Outcome State Fault Refusal :=
  match s.sched with
  | [] => s.auto
  | c :: rest =>
    let t : State := { s.after c with sched := rest }
    match c.act with
    | .auto => t.auto
    | .issue core sect => t.section core sect
    | .event i subj => t.happen i subj

/-! ## Placing an instruction -/

/-- The launch that `withFetchWord` sets up: free mode, one block of one wave with 256 registers. -/
def fetchLaunch : Launch :=
  freshLaunch (List.replicate 16 0 ++ natLe 8 0x10000 ++ List.replicate 232 0)
    { entry := 0, gx := 1, gy := 1, gz := 1, kx := 1, ky := 1, kz := 1, waves := 1, regCount := 256, slice := 0,
      shared := 4096, acc := 16384, options := 0, quantum := 0, seed := 0, mask := 1 } [] false none 0 0

/-- Page tables for the 8 KiB page at virtual address 0 (R155, R156): readable, writable and executable at physical
0x20000. -/
def fetchTables : List (Nat × List Byte) :=
  [(0x10000, natLe 8 0x12001), (0x12000, natLe 8 0x14001), (0x14000, natLe 8 0x16001), (0x16000, natLe 8 0x18001),
   (0x18000, natLe 8 0x2000F)]

/-- The state with an instruction stored where the next step fetches: the module is up, a launch of one block whose one
wave stands at virtual address 0 runs on core 0, and the next choice is that it issues. -/
def State.withFetchWord (s : State) (nbits w : Nat) : State :=
  let code := natLe 8 (w % 2 ^ nbits)
  let r := fetchLaunch.record
  { s with
    powered := true
    ctl := { s.ctl with ready := true, measured := true, coreLive := BitVec.allOnes 192 }
    mem := (fetchTables ++ [(0x20000, code)]).foldl (fun (m : List Host.Cell) (x : Nat × List Byte) => Memory.putAll m x.1 x.2) s.mem
    asids := s.asids.set 0 0x10000
    launches := s.launches.set 0 { fetchLaunch with startedRanks := [(0, ())], begun := true, cpos := 1, starts := 1 }
    blocks := s.blocks.set (blockKey 0 0) (freshBlock 0 fetchLaunch 0 0 ⟨0, 0, [(0, 0)]⟩ ⟨0, 0, [(0, 0)]⟩ 0)
    waves := s.waves.set (waveKey (blockKey 0 0) 0 false)
      { freshWave fetchLaunch (blockKey 0 0) 0 false 0 0 0 0 0 s.now 0 with regCount := r.regCount }
    sched := [⟨0, .issue 0 0, false, false, 0⟩] }

end Sys2Proof.Machine
end

