-- ==== Sys2Proof/Safety.lean ====
section
/-! DEFINITION. The terms in which statements about the machine are made: when nothing holds a word back, what a word
leaves alone, and the canonical forms that every step keeps. -/

namespace Sys2Proof.Machine

open Sys2Proof

/-! ## A word that issues -/

/-- The context in which the current wave issues a form of word: its executing lanes (R55, R56; of a word that has begun,
the ones it began with, R62) and helper lanes (R24). -/
def State.issuing (s : State) (f : Form) : Option Ctx :=
  s.parties.map fun p =>
    { key := p.1, w := p.2.1, b := p.2.2.1, l := p.2.2.2, t := p.2.1.lanesFor f.g f.u,
      hl := if f.u then 0 else f.helperLanes p.2.1, u := f.u }

/-- Nothing holds the word back: some lane executes it (R55), its fields are in range (R59), no load or tile operation
will still write a register it names (R26), and no error waits in the wave (R392, R395). -/
structure Unhindered (s : State) (f : Form) (c : Ctx) : Prop where
  ctx : s.issuing f = some c
  some_lane : c.t ≠ 0
  in_range : f.inRange c.w c.l = true
  settled : ∀ k ∈ guardSlots f.g ++ f.slots c.w, k ∉ s.pendingSlots c.key c.w
  agrees : c.w.mismatch = false
  sound : c.w.struck = [] ∧ c.w.poison = []

/-- Nothing holds the word back, no field of it names a hardware queue, and the word after it has an address (R231). -/
structure Clear (s : State) (f : Form) (c : Ctx) : Prop extends Unhindered s f c where
  no_queue : f.queued c.w = false
  inside : c.atEdge f.size = false

/-- Nothing holds the word back, its destinations have room, its operands are `ops` (queue elements popped: `s1` is the
state after the pops), and the word after it has an address. Every form of a word that runs is one of these. -/
structure Fed (s : State) (f : Form) (c : Ctx) (ops : List (List LaneVec)) (s1 : State) : Prop extends
    Unhindered s f c where
  room : s.roomFor c f.writes = .ok ()
  read : s.readFields c f.reads = .ok (ops, s1)
  inside : c.atEdge f.size = false

/-- The contents of the registers that the operand fields of a word name (R60, R61). -/
def Ctx.operands (c : Ctx) (reads : List (Reg × Nat)) : List (List LaneVec) :=
  reads.map fun x => (List.range x.2).map fun i => c.w.readReg (x.1.toNat + i)

/-- The lane whose value goes to a lane: the source lane of a uniform word, else the lane itself (R56). -/
def Ctx.giver (c : Ctx) (lane : Nat) : Nat := if c.u then c.src else lane

/-! ## What a word leaves alone -/

/-- The wave with the bookkeeping of issue and retirement (program counter, counts, level, back-off, stall marks) of
another: what two waves that agree here differ in is that bookkeeping only. -/
def Wave.bookOf (w' w : Wave) : Wave :=
  { w' with
    pc := w.pc, level := w.level, polls := w.polls, backoff := w.backoff, readyFrom := w.readyFrom,
    starving := w.starving, governed := w.governed, stalled := w.stalled, retired := w.retired,
    qcount := w.qcount, qend := w.qend, wtime := w.wtime, hold := w.hold, holdOn := w.holdOn, partDone := w.partDone,
    walkOut := w.walkOut, remote := w.remote, reach := w.reach, reachHelp := w.reachHelp, heldT := w.heldT,
    blocked := w.blocked, skid := w.skid }

/-- Only the wave `c.key` has changed, to `w'`: every other wave and everything else of the machine is as before. -/
structure OnlyWave (s : State) (c : Ctx) (t : State) (w' : Wave) : Prop where
  wave : t.waves.get? c.key = some w'
  others : ∀ k, k ≠ c.key → t.waves.get? k = s.waves.get? k
  rest : { t with waves := s.waves } = s

/-- The word has retired (R107): the count has risen by one, and the wave stands at `pc`. -/
structure Retired (c : Ctx) (w' : Wave) (pc : DWord) : Prop where
  count : w'.retired = (c.w.retired + 1) % 2 ^ 48
  at_pc : w'.pc = pc

/-- The address of the word after one of `size` words (R231). -/
def Ctx.after (c : Ctx) (size : Nat) : DWord := c.w.pc + BitVec.ofNat 64 (4 * size)

/-- The registers after a word that gives field `d` the value `v`: the named register changes in the lanes that the
result goes to, and no other register does; `lane` and `zero` take nothing (R58, R60). -/
def Ctx.Wrote (c : Ctx) (w' : Wave) (d : Reg) (v : Nat → Word) : Prop :=
  ∀ k lane, lane < 64 → w'.slotLane k lane =
    if c.w.slotOf d.toNat = .phys k ∧ c.dests.getLsbD lane then v (c.giver lane) else c.w.slotLane k lane

/-- The registers after a word that gives the pair `d` the value `v`, low word first (R61). -/
def Ctx.WrotePair (c : Ctx) (w' : Wave) (d : Reg) (v : Nat → DWord) : Prop :=
  ∀ k lane, lane < 64 → w'.slotLane k lane =
    if c.dests.getLsbD lane = false then c.w.slotLane k lane
    else if c.w.slotOf d.toNat = .phys k then (v (c.giver lane)).extractLsb' 0 32
    else if c.w.slotOf (d.toNat + 1) = .phys k then (v (c.giver lane)).extractLsb' 32 32
    else c.w.slotLane k lane

/-- Where the result of a word goes (R31, R56, R60): into the named register, or, where its field names a queue, to the
end of that queue in ascending lane order; a word with no queue as destination leaves the blocks as its pops did. -/
def Ctx.Gave (c : Ctx) (s1 t : State) (w' : Wave) (d : Reg) (v : Nat → Word) : Prop :=
  c.Wrote w' d v ∧
  (∀ n b, c.w.slotOf d.toNat = .qout n → s1.blocks.get? c.w.block = some b →
    ∃ b', t.blocks.get? c.w.block = some b' ∧
      b'.queue c.w.index n = b.queue c.w.index n ++ (if c.u then [c.src] else c.lanes).map v) ∧
  ((∀ n, c.w.slotOf d.toNat ≠ .qout n) → t.blocks = s1.blocks)

/-- A word that only reads its operands and gives its result has left everything else as it was: memory, the control
registers, every other wave, and its own wave but for registers and the bookkeeping of retirement. -/
def Ctx.Quiet (c : Ctx) (s t : State) (w' : Wave) : Prop :=
  t.waves.get? c.key = some w' ∧ (∀ k, k ≠ c.key → t.waves.get? k = s.waves.get? k) ∧
  { t with waves := s.waves, blocks := s.blocks } = s ∧ { w'.bookOf c.w with regs := c.w.regs } = c.w

/-- The word waits: the wave stands where it was, nothing has retired, and its registers are as before. -/
def Ctx.Waits (c : Ctx) (t : State) (w' : Wave) : Prop :=
  t.waves.get? c.key = some w' ∧ w'.pc = c.w.pc ∧ w'.retired = c.w.retired ∧ w'.regs = c.w.regs

/-- The flags after a word that raises `f` in its executing lanes (R104). -/
def Ctx.Raised (c : Ctx) (w' : Wave) (f : Nat → Flags) : Prop :=
  ∀ lane, lane < 64 → w'.fpflags.getD lane 0 =
    if c.t.getLsbD lane then c.w.fpflags.getD lane 0 ||| f lane else c.w.fpflags.getD lane 0

/-! ## Transfers of control -/

/-- How a transfer of control leaves its wave (R235): when every active lane, or a uniform word, transfers, the wave is
at the target; when only some lanes do, the others wait on the stack as a path at the next word. -/
def Ctx.Transferred (c : Ctx) (w' : Wave) (target : DWord) : Prop :=
  w'.pc = target ∧
  w'.active = (if c.u = true ∨ c.t = c.w.active then c.w.active else c.t) ∧
  w'.stack = (if c.u = true ∨ c.t = c.w.active then c.w.stack
    else .path c.next (c.w.active &&& ~~~c.t) :: c.w.stack)

/-- A transfer of control is possible (R235): it is of all lanes, or a token stands on a stack with room. -/
def Ctx.MayTransfer (c : Ctx) : Prop :=
  c.u = true ∨ c.t = c.w.active ∨ (hasToken c.w.stack = true ∧ c.w.stack.length < 16)

/-! ## Messages -/

/-- A message of the control class has been given to the port of its plane (R298, R304, R305). -/
def State.Sent (s t : State) (kind dst : BitVec 16) (tag : Word) (payload : List Byte) : Prop :=
  t.grants = s.grants ++ [⟨s.portFor ((ownDev + dst.toNat % 4096) % 16), msgClass kind, ⟨kind, dst, tag, payload⟩⟩]

/-- An answer to a peer's request for physical address `a` has been given to the port of its plane (R304, R305). -/
def State.Replied (s t : State) (kind dst : BitVec 16) (tag : Word) (a : Nat) (status : Byte) (data : List Byte) : Prop :=
  t.grants = s.grants ++ [⟨s.portFor (a / 64 % 16), msgClass kind,
    ⟨kind, dst, tag, status :: List.replicate 15 0 ++ pad16 data⟩⟩]

/-! ## Canonical forms -/

/-- The on-chip memories of a block are in canonical form, and so is what its rollback snapshot holds. -/
def Block.Canon (b : Block) : Prop :=
  KMap.canon 0 b.scr = true ∧ KMap.canon 0 b.acc = true ∧
  ∀ n, b.snap = some n → KMap.canon 0 n.scr = true ∧ KMap.canon 0 n.acc = true

/-- Every block the machine holds, resident, saved or checkpointed, has its on-chip memories in canonical form. -/
def State.OnChipCanon (s : State) : Prop :=
  (∀ e ∈ s.blocks, e.2.Canon) ∧ (∀ e ∈ s.saved, e.2.block.Canon) ∧
  ∀ e ∈ s.savedLaunches, ∀ v ∈ e.2.blocks, v.2.block.Canon

/-- The tables of the machine are listed by strictly rising key. -/
def State.TablesRise (s : State) : Prop :=
  KMap.wf s.cores = true ∧ KMap.wf s.waves = true ∧ KMap.wf s.blocks = true ∧ KMap.wf s.launches = true

/-- Memory is in its canonical form. -/
def State.MemCanon (s : State) : Prop := Memory.wf s.mem = true

end Sys2Proof.Machine
end

