-- ==== Sys2Proof/Safety/Arith.lean ====
section
/-! DEFINITION. What each instruction that only computes gives its destination, written from its row of the tables of
R76 to R83, R119 to R133 and R136 to R139 and apart from the machine: statements compare the machine with these rows. -/

namespace Sys2Proof.Machine

open Sys2Proof

/-! ## Integer, address and move instructions -/

/-- One instruction that writes one register: its fields, and its result in a lane from its operands. -/
structure AluRow where
  g : Guard
  u : Bool
  size : Nat
  reads : List (Reg × Nat)
  d : Reg
  val : List (List LaneVec) → Nat → Word

/-- The form the issue logic sees. -/
def AluRow.form (r : AluRow) : Form := ⟨r.g, r.u, r.size, r.reads, [(r.d, 1)], true, false, id⟩

/-- Two operands a and b. -/
def rowAB (d a b : Reg) (g : Guard) (u : Bool) (f : Word → Word → Word) : AluRow :=
  ⟨g, u, 1, [(a, 1), (b, 1)], d, fun ops i => f (opLane ops 0 i) (opLane ops 1 i)⟩

/-- The old destination and a. -/
def rowDA (d a : Reg) (g : Guard) (u : Bool) (f : Word → Word → Word) : AluRow :=
  ⟨g, u, 1, [(d, 1), (a, 1)], d, fun ops i => f (opLane ops 0 i) (opLane ops 1 i)⟩

/-- One operand a. -/
def rowA (size : Nat) (d a : Reg) (g : Guard) (u : Bool) (f : Word → Word) : AluRow :=
  ⟨g, u, size, [(a, 1)], d, fun ops i => f (opLane ops 0 i)⟩

/-- The count of a variable shift (R76). -/
def countOf (y : Word) : Nat := y.toNat % 256

/-- The unsigned value of a bit field of a register: position p, width w. -/
def bitField (x p w : Nat) : Nat := x / 2 ^ p % 2 ^ w

/-- Position of a field control (R79). -/
def ctlPos (c : Word) : Nat := c.toNat % 32

/-- Width of a field control (R79): 0 to 32 from c[13:8], and no more than the bits above the position. -/
def ctlWidth (c : Word) : Nat :=
  let w := c.toNat / 256 % 64
  if w ≤ 32 - ctlPos c then w else 32 - ctlPos c

/-- The rows of R76 to R79 and R81 to R83 with one result register. -/
def aluRow : Instr → Option AluRow
  | .add d a b g u => some (rowAB d a b g u fun x y => BitVec.ofNat 32 (x.toNat + y.toNat))
  | .sub d a b g u => some (rowAB d a b g u fun x y => BitVec.ofInt 32 (x.toInt - y.toInt))
  | .mul d a b g u => some (rowAB d a b g u fun x y => BitVec.ofNat 32 (x.toNat * y.toNat))
  | .mulh d a b g u => some (rowAB d a b g u fun x y => BitVec.ofInt 32 (x.toInt * y.toInt / 2 ^ 32))
  | .mulhu d a b g u => some (rowAB d a b g u fun x y => BitVec.ofNat 32 (x.toNat * y.toNat / 2 ^ 32))
  | .and d a b g u => some (rowAB d a b g u fun x y => x &&& y)
  | .or d a b g u => some (rowAB d a b g u fun x y => x ||| y)
  | .xor d a b g u => some (rowAB d a b g u fun x y => x ^^^ y)
  | .shl d a b g u => some (rowAB d a b g u fun x y =>
      if countOf y < 32 then BitVec.ofNat 32 (x.toNat * 2 ^ countOf y) else 0)
  | .shr d a b g u => some (rowAB d a b g u fun x y => BitVec.ofNat 32 (x.toNat / 2 ^ countOf y))
  | .sra d a b g u => some (rowAB d a b g u fun x y =>
      BitVec.ofInt 32 (x.toInt / 2 ^ (if countOf y < 32 then countOf y else 31)))
  | .seteq d a b g u => some (rowAB d a b g u fun x y => if x = y then 1 else 0)
  | .setlt d a b g u => some (rowAB d a b g u fun x y => if x.toInt < y.toInt then 1 else 0)
  | .setltu d a b g u => some (rowAB d a b g u fun x y => if x.toNat < y.toNat then 1 else 0)
  | .sel d a b g u => some ⟨g, u, 1, [(d, 1), (a, 1), (b, 1)], d, fun ops i =>
      if (opLane ops 0 i).toNat % 2 = 1 then opLane ops 1 i else opLane ops 2 i⟩
  | .addi d a k g u => some (rowA 1 d a g u fun x => BitVec.ofInt 32 (x.toInt + k.toInt))
  | .addiP d a k g u => some (rowA 2 d a g u fun x => BitVec.ofInt 32 (x.toInt + k.toInt))
  | .andi d a k g u => some (rowA 1 d a g u fun x => x &&& BitVec.ofInt 32 k.toInt)
  | .andiP d a k g u => some (rowA 2 d a g u fun x => x &&& k)
  | .ori d a k g u => some (rowA 1 d a g u fun x => x ||| BitVec.ofInt 32 k.toInt)
  | .oriP d a k g u => some (rowA 2 d a g u fun x => x ||| k)
  | .xori d a k g u => some (rowA 1 d a g u fun x => x ^^^ BitVec.ofInt 32 k.toInt)
  | .xoriP d a k g u => some (rowA 2 d a g u fun x => x ^^^ k)
  | .shli d a k g u => some (rowA 1 d a g u fun x => BitVec.ofNat 32 (x.toNat * 2 ^ k.toNat))
  | .shri d a k g u => some (rowA 1 d a g u fun x => BitVec.ofNat 32 (x.toNat / 2 ^ k.toNat))
  | .srai d a k g u => some (rowA 1 d a g u fun x => BitVec.ofInt 32 (x.toInt / 2 ^ k.toNat))
  | .min d a g u => some (rowDA d a g u fun x y => if y.toInt < x.toInt then y else x)
  | .max d a g u => some (rowDA d a g u fun x y => if x.toInt < y.toInt then y else x)
  | .minu d a g u => some (rowDA d a g u fun x y => if y.toNat < x.toNat then y else x)
  | .maxu d a g u => some (rowDA d a g u fun x y => if x.toNat < y.toNat then y else x)
  | .rol d a g u => some (rowDA d a g u fun x y =>
      BitVec.ofNat 32 (x.toNat * 2 ^ (y.toNat % 32) + x.toNat / 2 ^ (32 - y.toNat % 32)))
  | .ror d a g u => some (rowDA d a g u fun x y =>
      BitVec.ofNat 32 (x.toNat / 2 ^ (y.toNat % 32) + x.toNat * 2 ^ (32 - y.toNat % 32)))
  | .bfx d a g u => some (rowDA d a g u fun x c => BitVec.ofNat 32 (bitField x.toNat (ctlPos c) (ctlWidth c)))
  | .bfi d a g u => some ⟨g, u, 1, [(d, 1), (a, 2)], d, fun ops i =>
      let x := (opLane ops 0 i).toNat
      let v := (laneOf (opRun ops 1 0) i).toNat
      let c := laneOf (opRun ops 1 1) i
      BitVec.ofNat 32 (x - bitField x (ctlPos c) (ctlWidth c) * 2 ^ ctlPos c + v % 2 ^ ctlWidth c * 2 ^ ctlPos c)⟩
  | .popc d a g u => some (rowA 1 d a g u fun x =>
      BitVec.ofNat 32 (((List.range 32).map fun i => x.toNat / 2 ^ i % 2).foldl (· + ·) 0))
  | .clz d a g u => some (rowA 1 d a g u fun x =>
      BitVec.ofNat 32 (((List.range 32).takeWhile fun i => !x.getLsbD (31 - i)).length))
  | .ctz d a g u => some (rowA 1 d a g u fun x =>
      BitVec.ofNat 32 (((List.range 32).takeWhile fun i => !x.getLsbD i).length))
  | .brev d a g u => some (rowA 1 d a g u fun x => x.reverse)
  | .bswap d a g u => some (rowA 1 d a g u fun x => BitVec.ofNat 32
      (bitField x.toNat 0 8 * 2 ^ 24 + bitField x.toNat 8 8 * 2 ^ 16 + bitField x.toNat 16 8 * 2 ^ 8 +
        bitField x.toNat 24 8))
  | .neg d a g u => some (rowA 1 d a g u fun x => BitVec.ofInt 32 (-x.toInt))
  | .not d a g u => some (rowA 1 d a g u fun x => BitVec.ofNat 32 (2 ^ 32 - 1 - x.toNat))
  | .abs d a g u => some (rowA 1 d a g u fun x => BitVec.ofNat 32 x.toInt.natAbs)
  | .sextB d a g u => some (rowA 1 d a g u fun x => BitVec.ofInt 32 ((x.toNat : Int).bmod (2 ^ 8)))
  | .sextH d a g u => some (rowA 1 d a g u fun x => BitVec.ofInt 32 ((x.toNat : Int).bmod (2 ^ 16)))
  | .movi d k g u => some ⟨g, u, 1, [], d, fun _ _ => BitVec.ofInt 32 k.toInt⟩
  | .moviP d k g u => some ⟨g, u, 2, [], d, fun _ _ => k⟩
  | .mov d a g u => some (rowA 1 d a g u fun x => x)
  | _ => none

/-- One instruction that writes a register pair. -/
structure PairRow where
  g : Guard
  u : Bool
  reads : List (Reg × Nat)
  d : Reg
  val : List (List LaneVec) → Nat → DWord

/-- The form the issue logic sees. -/
def PairRow.form (r : PairRow) : Form := ⟨r.g, r.u, 1, r.reads, [(r.d, 2)], true, false, id⟩

/-- The rows of R80 and R83 with a result pair. -/
def pairRow : Instr → Option PairRow
  | .addD d a g u => some ⟨g, u, [(d, 2), (a, 2)], d, fun ops i =>
      BitVec.ofNat 64 ((opPair ops 0 i).toNat + (opPair ops 1 i).toNat)⟩
  | .subD d a g u => some ⟨g, u, [(d, 2), (a, 2)], d, fun ops i =>
      BitVec.ofInt 64 ((opPair ops 0 i).toInt - (opPair ops 1 i).toInt)⟩
  | .adda d a g u => some ⟨g, u, [(d, 2), (a, 1)], d, fun ops i =>
      BitVec.ofNat 64 ((opPair ops 0 i).toNat / 2 ^ 60 * 2 ^ 60 +
        ((((opPair ops 0 i).toNat : Int) + (opLane ops 1 i).toInt) % 2 ^ 60).toNat)⟩
  | .movD d a g u => some ⟨g, u, [(a, 2)], d, fun ops i => opPair ops 0 i⟩
  | _ => none

/-! ## Floating-point, conversion, packing and lane instructions -/

/-- One instruction that writes one register and may raise flags. -/
structure FloatRow where
  g : Guard
  u : Bool
  reads : List (Reg × Nat)
  d : Reg
  /-- helper lanes execute it too (R24) -/
  helpers : Bool
  val : Ctx → List (List LaneVec) → Nat → Word × Flags

/-- The form the issue logic sees, but for the lanes whose words it hands on. -/
def FloatRow.form (r : FloatRow) : Form := ⟨r.g, r.u, 1, r.reads, [(r.d, 1)], r.helpers, false, id⟩

/-- Two operands. -/
def fRowAB (d a b : Reg) (g : Guard) (u : Bool) (f : Ctx → Nat → Word → Word → Word × Flags) : FloatRow :=
  ⟨g, u, [(a, 1), (b, 1)], d, true, fun c ops i => f c i (opLane ops 0 i) (opLane ops 1 i)⟩

/-- One operand. -/
def fRowA (d a : Reg) (g : Guard) (u : Bool) (f : Ctx → Nat → Word → Word × Flags) : FloatRow :=
  ⟨g, u, [(a, 1)], d, true, fun c ops i => f c i (opLane ops 0 i)⟩

/-- The old destination and one operand. -/
def fRowDA (d a : Reg) (g : Guard) (u : Bool) (f : Ctx → Nat → Word → Word → Word × Flags) : FloatRow :=
  ⟨g, u, [(d, 1), (a, 1)], d, true, fun c ops i => f c i (opLane ops 0 i) (opLane ops 1 i)⟩

/-- The old destination and two operands. -/
def fRowDAB (d a b : Reg) (g : Guard) (u : Bool) (f : Ctx → Nat → Word → Word → Word → Word × Flags) : FloatRow :=
  ⟨g, u, [(d, 1), (a, 1), (b, 1)], d, true,
    fun c ops i => f c i (opLane ops 0 i) (opLane ops 1 i) (opLane ops 2 i)⟩

/-- The value and flags of one format's operation as a register. -/
def as32 (x : Nat × Flags) : Word × Flags := (BitVec.ofNat 32 x.1, x.2)

/-- A comparison's result (R120). -/
def truth (p : Bool) : Word := if p then 1 else 0

/-- A comparison of two FP32 patterns with `%fpmode`.FZ32 applied (R120): NV for a signalling NaN only. -/
def compareRow (c : Ctx) (x y : Word) (p : FVal → FVal → Bool) : Word × Flags :=
  let v := fp32.readFlush c.fz32 x.toNat
  let w := fp32.readFlush c.fz32 y.toNat
  (truth (p v w), if v.isSnan || w.isSnan then 16 else 0)

/-- The rows of R119 to R134. The numbers come from the numeric operations of Machine/Flags.lean (R93 to R111). -/
def floatRow : Instr → Option FloatRow
  | .addF32 d a b g u => some (fRowAB d a b g u fun c i x y => as32 (fp32.addF (c.round32 i) (c.f32 x) (c.f32 y)))
  | .subF32 d a b g u => some (fRowAB d a b g u fun c i x y =>
      as32 (fp32.addF (c.round32 i) (c.f32 x) (c.f32 y).negate))
  | .mulF32 d a b g u => some (fRowAB d a b g u fun c i x y => as32 (fp32.mulF (c.round32 i) (c.f32 x) (c.f32 y)))
  | .fmaF32 d a b g u => some (fRowDAB d a b g u fun c i z x y =>
      as32 (fp32.fma (c.round32 i) (c.f32 x) (c.f32 y) (c.f32 z)))
  | .minF32 d a b g u => some (fRowAB d a b g u fun c _ x y => minmax32 false c x y)
  | .maxF32 d a b g u => some (fRowAB d a b g u fun c _ x y => minmax32 true c x y)
  | .seteqF32 d a b g u => some (fRowAB d a b g u fun c _ x y => compareRow c x y FVal.eq)
  | .setltF32 d a b g u => some (fRowAB d a b g u fun c _ x y => compareRow c x y FVal.lt)
  | .setleF32 d a b g u => some (fRowAB d a b g u fun c _ x y => compareRow c x y fun p q => p.lt q || p.eq q)
  | .setunF32 d a b g u => some (fRowAB d a b g u fun c _ x y => compareRow c x y fun p q => p.isNan || q.isNan)
  | .rcpF32 d a g u => some (fRowA d a g u fun _ _ x => as32 (rcpF (fp32.read x.toNat)))
  | .rsqrtF32 d a g u => some (fRowA d a g u fun _ _ x => as32 (rsqrtF (fp32.read x.toNat)))
  | .sqrtF32 d a g u => some (fRowA d a g u fun c i x => as32 (sqrtF (c.round32 i) (c.f32 x)))
  | .exp2F32 d a g u => some (fRowA d a g u fun _ _ x => as32 (exp2F (fp32.read x.toNat)))
  | .log2F32 d a g u => some (fRowA d a g u fun _ _ x => as32 (log2F (fp32.read x.toNat)))
  | .sinF32 d a g u => some (fRowA d a g u fun _ _ x => as32 (trigF false (fp32.read x.toNat)))
  | .cosF32 d a g u => some (fRowA d a g u fun _ _ x => as32 (trigF true (fp32.read x.toNat)))
  | .rintF32 d a g u => some (fRowA d a g u fun c i x =>
      as32 (integralF (c.round32 i).mode (c.round32 i).u false (c.f32 x)))
  | .floorF32 d a g u => some (fRowA d a g u fun c _ x => as32 (integralF .rdn 0 true (c.f32 x)))
  | .ceilF32 d a g u => some (fRowA d a g u fun c _ x => as32 (integralF .rup 0 true (c.f32 x)))
  | .truncF32 d a g u => some (fRowA d a g u fun c _ x => as32 (integralF .rtz 0 true (c.f32 x)))
  | .classF32 d a g u => some (fRowA d a g u fun _ _ x => (classF x, 0))
  | .fabsF32 d a g u => some (fRowA d a g u fun _ _ x => (BitVec.ofNat 32 (x.toNat % 2 ^ 31), 0))
  | .fnegF32 d a g u => some (fRowA d a g u fun _ _ x => (BitVec.ofNat 32 (x.toNat + 2 ^ 31), 0))
  | .addBf16x2 d a b g u => some (fRowAB d a b g u (packed2 true Fmt.addF))
  | .mulBf16x2 d a b g u => some (fRowAB d a b g u (packed2 true Fmt.mulF))
  | .fmaBf16x2 d a b g u => some (fRowDAB d a b g u (packedFma true))
  | .addF16x2 d a b g u => some (fRowAB d a b g u (packed2 false Fmt.addF))
  | .mulF16x2 d a b g u => some (fRowAB d a b g u (packed2 false Fmt.mulF))
  | .fmaF16x2 d a b g u => some (fRowDAB d a b g u (packedFma false))
  | .minBf16x2 d a g u => some (fRowDA d a g u fun _ _ x y => packedMinmax bf16 false x y)
  | .maxBf16x2 d a g u => some (fRowDA d a g u fun _ _ x y => packedMinmax bf16 true x y)
  | .minF16x2 d a g u => some (fRowDA d a g u fun _ _ x y => packedMinmax fp16 false x y)
  | .maxF16x2 d a g u => some (fRowDA d a g u fun _ _ x y => packedMinmax fp16 true x y)
  | .cvt k r d a g u => some (fRowA d a g u fun c i x => convert k (c.roundCvt r i) x)
  | .pack k r d a g u => some (fRowDA d a g u fun c i old x => packElem k (c.roundCvt r i) old x)
  | .unpack k e d a g u => some ⟨g, u, [(a, if k = .b4 then 2 else 1)], d, true, fun _ ops i =>
      unpackElem k e.toNat (laneOf (opRun ops 0 0) i) (laneOf (opRun ops 0 1) i)⟩
  | .packB4 t e sr d a g u => some ⟨g, u, [(d, 1), (a, 2)], d, true, fun c ops i =>
      let r := packB4Code t sr (c.draw 0 i) (laneOf (opRun ops 1 0) i).toNat ((laneOf (opRun ops 1 1) i).toNat % 256)
      (setNibble (opLane ops 0 i) e.toNat r.1, r.2)⟩
  | _ => none

/-- A quad exchange: the lane takes the word of a lane of its quad (R136). -/
def quadRow (d a : Reg) (g : Guard) (from_ : Nat → Nat) : FloatRow :=
  ⟨g, false, [(a, 1)], d, true, fun _ ops i => (opLane ops 0 (from_ i), 0)⟩

/-- A form in which only the lanes that take part receive a result (R135), the same in each of them. -/
def gatherRow (d a : Reg) (g : Guard) (v : List Nat → (Nat → Word) → Word × Flags) : FloatRow :=
  ⟨g, false, [(a, 1)], d, false, fun c ops _ => v (lanesOf c.t) (opLane ops 0)⟩

/-- The lanes that take part and whose bit 0 is 1 (R138). -/
def setLanes (part : List Nat) (v : Nat → Word) : List Nat := part.filter fun i => (v i).getLsbD 0

/-- A lane mask as a number (R138). -/
def maskNat (lanes : List Nat) : Nat := (lanes.map fun i => 2 ^ i).foldl (· + ·) 0

/-- The rows of R136 to R139. The FP32 reductions and the FP32 scan follow the fixed order of R110. -/
def laneRow : Instr → Option FloatRow
  | .qxH d a g => some (quadRow d a g fun i => if i % 2 = 0 then i + 1 else i - 1)
  | .qxV d a g => some (quadRow d a g fun i => if i % 4 < 2 then i + 2 else i - 2)
  | .qxD d a g => some (quadRow d a g fun i => i - i % 4 + (3 - i % 4))
  | .qxB0 d a g => some (quadRow d a g fun i => i - i % 4)
  | .qxB1 d a g => some (quadRow d a g fun i => i - i % 4 + 1)
  | .qxB2 d a g => some (quadRow d a g fun i => i - i % 4 + 2)
  | .qxB3 d a g => some (quadRow d a g fun i => i - i % 4 + 3)
  | .shflPick d a b g => some ⟨g, false, [(a, 1), (b, 1)], d, false, fun c ops i =>
      (if c.t.getLsbD ((opLane ops 1 i).toNat % 64) then opLane ops 0 ((opLane ops 1 i).toNat % 64)
       else opLane ops 0 i, 0)⟩
  | .shflXor d a k g => some ⟨g, false, [(a, 1)], d, false, fun c ops i =>
      (if c.t.getLsbD (i ^^^ k.toNat) then opLane ops 0 (i ^^^ k.toNat) else opLane ops 0 i, 0)⟩
  | .maskAny d a g => some (gatherRow d a g fun part v => (if setLanes part v = [] then 0 else 1, 0))
  | .maskAll d a g => some (gatherRow d a g fun part v => (if setLanes part v = part then 1 else 0, 0))
  | .maskLo d a g => some (gatherRow d a g fun part v => (BitVec.ofNat 32 (maskNat (setLanes part v)), 0))
  | .maskHi d a g => some (gatherRow d a g fun part v => (BitVec.ofNat 32 (maskNat (setLanes part v) / 2 ^ 32), 0))
  | .maskCnt d a g => some (gatherRow d a g fun part v => (BitVec.ofNat 32 (setLanes part v).length, 0))
  | .redAdd d a g => some (gatherRow d a g fun part v =>
      (BitVec.ofNat 32 ((part.map fun i => (v i).toNat).foldl (· + ·) 0), 0))
  | .redMin d a g => some (gatherRow d a g fun part v =>
      (BitVec.ofInt 32 ((part.map fun i => (v i).toInt).foldl (fun x y => if y < x then y else x) (2 ^ 31 - 1)), 0))
  | .redMax d a g => some (gatherRow d a g fun part v =>
      (BitVec.ofInt 32 ((part.map fun i => (v i).toInt).foldl (fun x y => if x < y then y else x) (-2 ^ 31)), 0))
  | .scanAdd d a g => some ⟨g, false, [(a, 1)], d, false, fun c ops i =>
      (BitVec.ofNat 32 ((((lanesOf c.t).filter fun j => decide (j ≤ i)).map fun j => (opLane ops 0 j).toNat).foldl
        (· + ·) 0), 0)⟩
  | .redAddF32 d a g => some ⟨g, false, [(a, 1)], d, false, fun c ops _ =>
      let r := treeFold (sumOp c) 6 (withIdentity c (opReg ops 0) 0x80000000)
      (r.1, r.2 ||| snanFlags c (opReg ops 0))⟩
  | .redMinF32 d a g => some ⟨g, false, [(a, 1)], d, false, fun c ops _ =>
      let r := treeFold (minmax32 false c) 6 (withIdentity c (opReg ops 0) 0x7F800000)
      (r.1, r.2 ||| snanFlags c (opReg ops 0))⟩
  | .redMaxF32 d a g => some ⟨g, false, [(a, 1)], d, false, fun c ops _ =>
      let r := treeFold (minmax32 true c) 6 (withIdentity c (opReg ops 0) 0xFF800000)
      (r.1, r.2 ||| snanFlags c (opReg ops 0))⟩
  | .scanAddF32 d a g => some ⟨g, false, [(a, 1)], d, false, fun c ops i =>
      let r := scanAll (sumOp c) (withIdentity c (opReg ops 0) 0x80000000)
      ((r.getD i (0, 0)).1, allFlags r ||| snanFlags c (opReg ops 0))⟩
  | _ => none

/-! ## Rounding of an exact value (R100 to R102) -/

/-- The number m * 2^e in units of 2^-400, which divide every product of two finite FP32 values. -/
def scaled (m e : Int) : Int := m * 2 ^ (e + 400).toNat

/-- The number a pattern of a format stands for, in those units; 0 for the others. -/
def Fmt.num (f : Fmt) (x : Nat) : Int :=
  match f.read x with
  | .fin neg m e => scaled (if neg then -(m : Int) else m) e
  | _ => 0

/-- The number that an element code of a matrix type stands for, in the same units (R326). -/
def codeNum (t : MmaType) (x : Nat) : Int := scaled (elemExt t x).1.dy.m (elemExt t x).1.dy.e

/-- A pattern of the format that stands for a number. -/
def Fmt.isNumber (f : Fmt) (x : Nat) : Prop :=
  x < 2 ^ (1 + f.ew + f.fw) ∧ (f.read x).isNan = false ∧ (f.read x).isInf = false

/-- `out` is the exact number v rounded toward zero: no number of the format lies between it and v (R100). -/
def Fmt.Truncates (f : Fmt) (v : Int) (out : Nat) : Prop :=
  f.isNumber out ∧ (f.num out).natAbs ≤ v.natAbs ∧ 0 ≤ f.num out * v ∧
  ∀ z, f.isNumber z → (f.num z).natAbs ≤ v.natAbs → (f.num z).natAbs ≤ (f.num out).natAbs

/-- `out` is what a rounding mode makes of the exact number v, which lies among the numbers of the format: a nearest one,
and of two the even one; the next toward zero, up or down; or, stochastically, the one toward zero or the next away from
it as the 24 drawn bits say (R100, R101). -/
def Fmt.Rounds (f : Fmt) (mode : Rnd) (u : Nat) (v : Int) (out : Nat) : Prop :=
  let nearest : Prop := f.isNumber out ∧ ∀ z, f.isNumber z →
    (v - f.num out).natAbs ≤ (v - f.num z).natAbs ∧
    ((v - f.num out).natAbs = (v - f.num z).natAbs → f.num out ≠ f.num z → out % 2 = 0)
  match mode with
  | .mode => nearest
  | .rne => nearest
  | .rtz => f.Truncates v out
  | .rup => f.isNumber out ∧ v ≤ f.num out ∧ ∀ z, f.isNumber z → v ≤ f.num z → f.num out ≤ f.num z
  | .rdn => f.isNumber out ∧ f.num out ≤ v ∧ ∀ z, f.isNumber z → f.num z ≤ v → f.num z ≤ f.num out
  | .sr => ∃ lo, f.Truncates v lo ∧
      if f.num lo = v then f.num out = v
      else out = if 2 ^ 24 - (v.natAbs - (f.num lo).natAbs) * 2 ^ 24 / ((f.num (lo + 1)).natAbs - (f.num lo).natAbs) ≤ u
        then lo + 1 else lo

/-- The result and the flags of rounding the exact number v ≠ 0 (R100 to R104): within the format's range by its mode,
inexact exactly when the result differs, with underflow where an inexact result lies below the normal numbers; a step or
more past the largest number, overflow: infinity, or, where the mode or the format says so, the largest number. -/
def Fmt.RoundsWell (f : Fmt) (r : RCtx) (v : Int) (x : Nat × Flags) : Prop :=
  let top := (f.num f.maxFin).natAbs
  let step := top - (f.num (f.maxFin - 1)).natAbs
  let neg : Bool := decide (v < 0)
  (v.natAbs ≤ top →
    f.Rounds r.mode r.u v x.1 ∧ (f.num x.1 ≠ 0 → (f.read x.1).neg = neg) ∧
    x.2 &&& 0x1C = 0 ∧ (x.2.getLsbD 0 = true ↔ f.num x.1 ≠ v) ∧
    (x.2.getLsbD 1 = true → f.num x.1 ≠ v ∧ (f.num x.1).natAbs ≤ (f.num (2 ^ f.fw)).natAbs) ∧
    (f.num x.1 ≠ v → (f.num x.1).natAbs < (f.num (2 ^ f.fw)).natAbs → x.2.getLsbD 1 = true)) ∧
  (top + step ≤ v.natAbs →
    let saturates : Bool := !f.inf || (match r.mode with
      | .rtz => true
      | .rup => neg
      | .rdn => !neg
      | .mode => false
      | .rne => false
      | .sr => false)
    x = ((if neg then f.signBit else 0) + (if saturates then f.maxFin else f.maxFin + 1), 5))

end Sys2Proof.Machine
end

