-- ==== Sys2Proof/Safety/Words.lean ====
section
/-! DEFINITION. The head of every word (guard, uniform bit, words it takes) and the rows of the words that act beyond
the registers of their wave: loads, stores, atomics and matrix words, for statements that hold of many words at once. -/

namespace Sys2Proof.Machine

open Sys2Proof

/-- Guard, uniform bit and number of words of a step that is a word (R51 to R54); `none` for an event. The forms whose
encodings have no u field name the source lane alone (u acts as 1) where R221 to R230, R286 to R289 and R348 say so. -/
def headOf : Instr → Option (Guard × Bool × Nat)
  | .undefinedWord p w => some ((undefJudge p w).1, (undefJudge p w).2, if p.isSome then 2 else 1)
  | .exit g => some (g, false, 1)
  | .nop g => some (g, false, 1)
  | .j _ g u => some (g, u, 1)
  | .call _ g u => some (g, u, 1)
  | .joinSet _ g => some (g, false, 1)
  | .join g => some (g, false, 1)
  | .yield g => some (g, false, 1)
  | .jr _ g u => some (g, u, 1)
  | .callr _ g u => some (g, u, 1)
  | .ret g => some (g, false, 1)
  | .trap _ g => some (g, false, 1)
  | .trret g => some (g, false, 1)
  | .lmapLd g => some (g, false, 1)
  | .add _ _ _ g u => some (g, u, 1)
  | .sub _ _ _ g u => some (g, u, 1)
  | .addi _ _ _ g u => some (g, u, 1)
  | .addiP _ _ _ g u => some (g, u, 2)
  | .mul _ _ _ g u => some (g, u, 1)
  | .mulh _ _ _ g u => some (g, u, 1)
  | .mulhu _ _ _ g u => some (g, u, 1)
  | .and _ _ _ g u => some (g, u, 1)
  | .andi _ _ _ g u => some (g, u, 1)
  | .andiP _ _ _ g u => some (g, u, 2)
  | .or _ _ _ g u => some (g, u, 1)
  | .ori _ _ _ g u => some (g, u, 1)
  | .oriP _ _ _ g u => some (g, u, 2)
  | .xor _ _ _ g u => some (g, u, 1)
  | .xori _ _ _ g u => some (g, u, 1)
  | .xoriP _ _ _ g u => some (g, u, 2)
  | .shli _ _ _ g u => some (g, u, 1)
  | .shri _ _ _ g u => some (g, u, 1)
  | .srai _ _ _ g u => some (g, u, 1)
  | .shl _ _ _ g u => some (g, u, 1)
  | .shr _ _ _ g u => some (g, u, 1)
  | .sra _ _ _ g u => some (g, u, 1)
  | .seteq _ _ _ g u => some (g, u, 1)
  | .setlt _ _ _ g u => some (g, u, 1)
  | .setltu _ _ _ g u => some (g, u, 1)
  | .sel _ _ _ g u => some (g, u, 1)
  | .min _ _ g u => some (g, u, 1)
  | .max _ _ g u => some (g, u, 1)
  | .minu _ _ g u => some (g, u, 1)
  | .maxu _ _ g u => some (g, u, 1)
  | .rol _ _ g u => some (g, u, 1)
  | .ror _ _ g u => some (g, u, 1)
  | .addD _ _ g u => some (g, u, 1)
  | .subD _ _ g u => some (g, u, 1)
  | .adda _ _ g u => some (g, u, 1)
  | .bfx _ _ g u => some (g, u, 1)
  | .bfi _ _ g u => some (g, u, 1)
  | .popc _ _ g u => some (g, u, 1)
  | .clz _ _ g u => some (g, u, 1)
  | .ctz _ _ g u => some (g, u, 1)
  | .brev _ _ g u => some (g, u, 1)
  | .bswap _ _ g u => some (g, u, 1)
  | .neg _ _ g u => some (g, u, 1)
  | .not _ _ g u => some (g, u, 1)
  | .abs _ _ g u => some (g, u, 1)
  | .sextB _ _ g u => some (g, u, 1)
  | .sextH _ _ g u => some (g, u, 1)
  | .movi _ _ g u => some (g, u, 1)
  | .moviP _ _ g u => some (g, u, 2)
  | .mov _ _ g u => some (g, u, 1)
  | .movD _ _ g u => some (g, u, 1)
  | .maskAny _ _ g => some (g, false, 1)
  | .maskAll _ _ g => some (g, false, 1)
  | .maskLo _ _ g => some (g, false, 1)
  | .maskHi _ _ g => some (g, false, 1)
  | .maskCnt _ _ g => some (g, false, 1)
  | .movS _ _ g u => some (g, u, 1)
  | .movSW _ _ g u => some (g, u, 1)
  | .wbase _ g => some (g, false, 1)
  | .qxH _ _ g => some (g, false, 1)
  | .qxV _ _ g => some (g, false, 1)
  | .qxD _ _ g => some (g, false, 1)
  | .qxB0 _ _ g => some (g, false, 1)
  | .qxB1 _ _ g => some (g, false, 1)
  | .qxB2 _ _ g => some (g, false, 1)
  | .qxB3 _ _ g => some (g, false, 1)
  | .shflPick _ _ _ g => some (g, false, 1)
  | .shflXor _ _ _ g => some (g, false, 1)
  | .addF32 _ _ _ g u => some (g, u, 1)
  | .subF32 _ _ _ g u => some (g, u, 1)
  | .mulF32 _ _ _ g u => some (g, u, 1)
  | .fmaF32 _ _ _ g u => some (g, u, 1)
  | .minF32 _ _ _ g u => some (g, u, 1)
  | .maxF32 _ _ _ g u => some (g, u, 1)
  | .seteqF32 _ _ _ g u => some (g, u, 1)
  | .setltF32 _ _ _ g u => some (g, u, 1)
  | .setleF32 _ _ _ g u => some (g, u, 1)
  | .setunF32 _ _ _ g u => some (g, u, 1)
  | .rcpF32 _ _ g u => some (g, u, 1)
  | .rsqrtF32 _ _ g u => some (g, u, 1)
  | .sqrtF32 _ _ g u => some (g, u, 1)
  | .exp2F32 _ _ g u => some (g, u, 1)
  | .log2F32 _ _ g u => some (g, u, 1)
  | .sinF32 _ _ g u => some (g, u, 1)
  | .cosF32 _ _ g u => some (g, u, 1)
  | .rintF32 _ _ g u => some (g, u, 1)
  | .floorF32 _ _ g u => some (g, u, 1)
  | .ceilF32 _ _ g u => some (g, u, 1)
  | .truncF32 _ _ g u => some (g, u, 1)
  | .classF32 _ _ g u => some (g, u, 1)
  | .fabsF32 _ _ g u => some (g, u, 1)
  | .fnegF32 _ _ g u => some (g, u, 1)
  | .addBf16x2 _ _ _ g u => some (g, u, 1)
  | .mulBf16x2 _ _ _ g u => some (g, u, 1)
  | .fmaBf16x2 _ _ _ g u => some (g, u, 1)
  | .addF16x2 _ _ _ g u => some (g, u, 1)
  | .mulF16x2 _ _ _ g u => some (g, u, 1)
  | .fmaF16x2 _ _ _ g u => some (g, u, 1)
  | .minBf16x2 _ _ g u => some (g, u, 1)
  | .maxBf16x2 _ _ g u => some (g, u, 1)
  | .minF16x2 _ _ g u => some (g, u, 1)
  | .maxF16x2 _ _ g u => some (g, u, 1)
  | .redAddF32 _ _ g => some (g, false, 1)
  | .redMinF32 _ _ g => some (g, false, 1)
  | .redMaxF32 _ _ g => some (g, false, 1)
  | .redAdd _ _ g => some (g, false, 1)
  | .redMin _ _ g => some (g, false, 1)
  | .redMax _ _ g => some (g, false, 1)
  | .scanAddF32 _ _ g => some (g, false, 1)
  | .scanAdd _ _ g => some (g, false, 1)
  | .cvt _ _ _ _ g u => some (g, u, 1)
  | .pack _ _ _ _ g u => some (g, u, 1)
  | .unpack _ _ _ _ g u => some (g, u, 1)
  | .packB4 _ _ _ _ _ g u => some (g, u, 1)
  | .ldW _ _ _ g u => some (g, u, 1)
  | .ldWP _ _ _ g u => some (g, u, 2)
  | .ldD _ _ _ g u => some (g, u, 1)
  | .ldDP _ _ _ g u => some (g, u, 2)
  | .ldQ _ _ _ g u => some (g, u, 1)
  | .ldQP _ _ _ g u => some (g, u, 2)
  | .ldH _ _ _ g u => some (g, u, 1)
  | .ldHP _ _ _ g u => some (g, u, 2)
  | .stW _ _ _ g u => some (g, u, 1)
  | .stWP _ _ _ g u => some (g, u, 2)
  | .stD _ _ _ g u => some (g, u, 1)
  | .stDP _ _ _ g u => some (g, u, 2)
  | .stQ _ _ _ g u => some (g, u, 1)
  | .stQP _ _ _ g u => some (g, u, 2)
  | .stH _ _ _ g u => some (g, u, 1)
  | .stHP _ _ _ g u => some (g, u, 2)
  | .ldHu _ _ _ g u => some (g, u, 1)
  | .ldHuP _ _ _ g u => some (g, u, 2)
  | .ldB _ _ _ g u => some (g, u, 1)
  | .ldBP _ _ _ g u => some (g, u, 2)
  | .ldBu _ _ _ g u => some (g, u, 1)
  | .ldBuP _ _ _ g u => some (g, u, 2)
  | .stB _ _ _ g u => some (g, u, 1)
  | .stBP _ _ _ g u => some (g, u, 2)
  | .pfL1 _ _ g u => some (g, u, 1)
  | .pfL1P _ _ g u => some (g, u, 2)
  | .pfL2 _ _ g u => some (g, u, 1)
  | .pfL2P _ _ g u => some (g, u, 2)
  | .cinv _ g u => some (g, u, 1)
  | .cinvAll g u => some (g, u, 1)
  | .ldAcqW _ _ _ g u => some (g, u, 1)
  | .ldAcqD _ _ _ g u => some (g, u, 1)
  | .stRelW _ _ _ g u => some (g, u, 1)
  | .stRelD _ _ _ g u => some (g, u, 1)
  | .ldScW _ _ _ g u => some (g, u, 1)
  | .ldScD _ _ _ g u => some (g, u, 1)
  | .stScW _ _ _ g u => some (g, u, 1)
  | .stScD _ _ _ g u => some (g, u, 1)
  | .atom _ _ _ _ g u => some (g, u, 1)
  | .atomD _ _ _ _ g u => some (g, u, 1)
  | .atomF32 _ _ _ _ g u => some (g, u, 1)
  | .casW _ _ _ g u => some (g, u, 1)
  | .casD _ _ _ g u => some (g, u, 1)
  | .fence _ g => some (g, false, 1)
  | .poll _ _ _ _ g u => some (g, u, 1)
  | .barB g => some (g, false, 1)
  | .barC g => some (g, false, 1)
  | .barDev g => some (g, false, 1)
  | .barDom g => some (g, false, 1)
  | .tktTake g => some (g, true, 1)
  | .tktWait _ g => some (g, true, 1)
  | .qcfg _ g => some (g, true, 1)
  | .copy1d _ g => some (g, true, 1)
  | .copy2d _ g => some (g, true, 1)
  | .copyG _ g => some (g, true, 1)
  | .batch _ g => some (g, true, 1)
  | .waitB _ g => some (g, true, 1)
  | .waitC _ _ _ g => some (g, false, 1)
  | .coll _ _ g => some (g, true, 1)
  | .mma _ _ _ g => some (g, true, 1)
  | .mmaPair _ _ _ g => some (g, true, 1)
  | .tld _ g => some (g, true, 1)
  | .tst _ g => some (g, true, 1)
  | .accZero _ g => some (g, true, 1)
  | .accRd _ _ g => some (g, true, 1)
  | .accWr _ _ g => some (g, true, 1)
  | .accChkTile _ g => some (g, true, 1)
  | .accChkTen _ g => some (g, true, 1)
  | .pin _ _ g => some (g, true, 1)
  | .unpin _ _ g => some (g, true, 1)
  | .fwupd _ _ g => some (g, true, 1)
  | .fwrd _ _ g => some (g, true, 1)
  | .rnsfI16 _ _ g => some (g, true, 1)
  | .rnsfI32 _ _ g => some (g, true, 1)
  | .rnsr _ _ g => some (g, true, 1)
  | .rnsChk _ _ g => some (g, true, 1)
  | .rset _ g => some (g, true, 1)
  | .rpost _ g => some (g, true, 1)
  | .rget _ _ g => some (g, true, 1)
  | .qend g => some (g, true, 1)
  | .rand _ g u => some (g, u, 1)
  | .eqId _ g u => some (g, u, 1)
  | .eqGen _ g u => some (g, u, 1)
  | .eqTheta _ g u => some (g, u, 1)
  | _ => none

/-! ## Jumps and calls (R236 to R238) -/

/-- A transfer to a target that the word gives: by its offset, or by a register pair; `none` where R232 or R238 refuses
the target. -/
structure JumpRow where
  g : Guard
  u : Bool
  reads : List (Reg × Nat)
  call : Bool
  target : Ctx → Option DWord

/-- The target of an offset in words (R52, R232). -/
def offsetTarget (off : BitVec 21) (c : Ctx) : Option DWord :=
  if 0 ≤ (c.w.pc.toNat : Int) + 4 * off.toInt ∧ (c.w.pc.toNat : Int) + 4 * off.toInt ≤ 2 ^ 57 - 4 then
    some (BitVec.ofInt 64 ((c.w.pc.toNat : Int) + 4 * off.toInt))
  else none

/-- The target in a register pair (R238): the executing lanes agree on a multiple of 4 below 2^57. -/
def pairTarget (a : Reg) (c : Ctx) : Option DWord :=
  let v : Nat → DWord := fun lane => opPair (c.operands [(a, 2)]) 0 lane
  let x := v (firstLane c.t)
  if (∀ lane ∈ lanesOf c.t, v lane = x) ∧ x.toNat % 4 = 0 ∧ x.toNat < 2 ^ 57 then some x else none

/-- The four forms. -/
def jumpRow : Instr → Option JumpRow
  | .j off g u => some ⟨g, u, [], false, offsetTarget off⟩
  | .call off g u => some ⟨g, u, [], true, offsetTarget off⟩
  | .jr a g u => some ⟨g, u, [(a, 2)], false, pairTarget a⟩
  | .callr a g u => some ⟨g, u, [(a, 2)], true, pairTarget a⟩
  | _ => none

/-- The form of a jump or call: a call writes `lr`, register 120 (R237). -/
def JumpRow.form (r : JumpRow) : Form := ⟨r.g, r.u, 1, r.reads, if r.call then [(120, 1)] else [], false, false, id⟩

/-! ## Special registers (R85, R86, R103, R381) -/

/-- What writing `x` to a special register makes of its wave (R86, R103, R381), for the registers held by the wave;
read-only registers and reserved bits keep their values. `v` gives the lanes of `%fpflags`. -/
def Ctx.sregPut (c : Ctx) (r : SReg) (x : Word) (v : Nat → Word) : Wave :=
  match r with
  | .wtcmp => { c.w with wtcmp := x }
  | .fpflags =>
    let mine (i : Nat) : Byte := if c.t.getLsbD i then BitVec.ofNat 8 ((v i).toNat % 32) else c.w.fpflags.getD i 0
    { c.w with fpflags := (List.range 64).map mine }
  | .fpmode =>
    let rm := if x.toNat % 8 = 0 ∨ 5 < x.toNat % 8 then 1 else x.toNat % 8
    { c.w with fpmode := BitVec.ofNat 32 (x.toNat % 32 / 8 * 8 + rm) }
  | .seedLo => { c.w with seed := BitVec.ofNat 64 (c.w.seed.toNat / 2 ^ 32 * 2 ^ 32 + x.toNat) }
  | .seedHi => { c.w with seed := BitVec.ofNat 64 (x.toNat * 2 ^ 32 + c.w.seed.toNat % 2 ^ 32) }
  | .tepcLo => { c.w with tepc := BitVec.ofNat 64 (c.w.tepc.toNat / 2 ^ 32 * 2 ^ 32 + x.toNat) }
  | .tepcHi => { c.w with tepc := BitVec.ofNat 64 (x.toNat % 2 ^ 25 * 2 ^ 32 + c.w.tepc.toNat % 2 ^ 32) }
  | .tcause => { c.w with tcause := BitVec.ofNat 8 x.toNat }
  | .tstat => { c.w with tdepth := x.toNat / 2 ^ 16 % 32, tlevel := x.toNat / 2 ^ 8 % 8 }
  | .tscr0 => { c.w with tscr0 := x }
  | .tscr1 => { c.w with tscr1 := x }
  | .tscr2 => { c.w with tscr2 := x }
  | .tscr3 => { c.w with tscr3 := x }
  | _ => c.w

/-! ## Loads and stores (R206, R210) -/

/-- A plain load or store: size in bytes, extension, byte offset, words of the instruction. -/
structure MemRow where
  g : Guard
  u : Bool
  words : Nat
  d : Reg
  a : Reg
  size : Nat
  signed : Bool
  off : Int

/-- Words of registers that an access of a size moves. -/
def MemRow.regs (r : MemRow) : Nat := if r.size = 8 then 2 else if r.size = 16 then 4 else 1

/-- The plain loads of R206: a seven-bit immediate counts in units of the size, a literal in bytes (R53). -/
def loadRow : Instr → Option MemRow
  | .ldW d a k g u => some ⟨g, u, 1, d, a, 4, false, 4 * k.toInt⟩
  | .ldWP d a k g u => some ⟨g, u, 2, d, a, 4, false, k.toInt⟩
  | .ldD d a k g u => some ⟨g, u, 1, d, a, 8, false, 8 * k.toInt⟩
  | .ldDP d a k g u => some ⟨g, u, 2, d, a, 8, false, k.toInt⟩
  | .ldQ d a k g u => some ⟨g, u, 1, d, a, 16, false, 16 * k.toInt⟩
  | .ldQP d a k g u => some ⟨g, u, 2, d, a, 16, false, k.toInt⟩
  | .ldH d a k g u => some ⟨g, u, 1, d, a, 2, true, 2 * k.toInt⟩
  | .ldHP d a k g u => some ⟨g, u, 2, d, a, 2, true, k.toInt⟩
  | .ldHu d a k g u => some ⟨g, u, 1, d, a, 2, false, 2 * k.toInt⟩
  | .ldHuP d a k g u => some ⟨g, u, 2, d, a, 2, false, k.toInt⟩
  | .ldB d a k g u => some ⟨g, u, 1, d, a, 1, true, k.toInt⟩
  | .ldBP d a k g u => some ⟨g, u, 2, d, a, 1, true, k.toInt⟩
  | .ldBu d a k g u => some ⟨g, u, 1, d, a, 1, false, k.toInt⟩
  | .ldBuP d a k g u => some ⟨g, u, 2, d, a, 1, false, k.toInt⟩
  | _ => none

/-- The plain stores of R206. -/
def storeRow : Instr → Option MemRow
  | .stW d a k g u => some ⟨g, u, 1, d, a, 4, false, 4 * k.toInt⟩
  | .stWP d a k g u => some ⟨g, u, 2, d, a, 4, false, k.toInt⟩
  | .stD d a k g u => some ⟨g, u, 1, d, a, 8, false, 8 * k.toInt⟩
  | .stDP d a k g u => some ⟨g, u, 2, d, a, 8, false, k.toInt⟩
  | .stQ d a k g u => some ⟨g, u, 1, d, a, 16, false, 16 * k.toInt⟩
  | .stQP d a k g u => some ⟨g, u, 2, d, a, 16, false, k.toInt⟩
  | .stH d a k g u => some ⟨g, u, 1, d, a, 2, false, 2 * k.toInt⟩
  | .stHP d a k g u => some ⟨g, u, 2, d, a, 2, false, k.toInt⟩
  | .stB d a k g u => some ⟨g, u, 1, d, a, 1, false, k.toInt⟩
  | .stBP d a k g u => some ⟨g, u, 2, d, a, 1, false, k.toInt⟩
  | _ => none

/-- The form of a load. -/
def MemRow.loadForm (r : MemRow) : Form := ⟨r.g, r.u, r.words, [(r.a, 2)], [(r.d, r.regs)], true, false, id⟩

/-- The form of a store. -/
def MemRow.storeForm (r : MemRow) : Form := ⟨r.g, r.u, r.words, [(r.d, r.regs), (r.a, 2)], [], false, false, id⟩

/-- An acquire load, a release store or an SC form of major 0x5E (R210): its scope, and whether it is SC. -/
structure OrderRow where
  row : MemRow
  sc : Scope
  stamped : Bool

/-- The loads of R210. -/
def acquireRow : Instr → Option OrderRow
  | .ldAcqW d a sc g u => some ⟨⟨g, u, 1, d, a, 4, false, 0⟩, sc, false⟩
  | .ldAcqD d a sc g u => some ⟨⟨g, u, 1, d, a, 8, false, 0⟩, sc, false⟩
  | .ldScW d a sc g u => some ⟨⟨g, u, 1, d, a, 4, false, 0⟩, sc, true⟩
  | .ldScD d a sc g u => some ⟨⟨g, u, 1, d, a, 8, false, 0⟩, sc, true⟩
  | _ => none

/-- The stores of R210. -/
def releaseRow : Instr → Option OrderRow
  | .stRelW d a sc g u => some ⟨⟨g, u, 1, d, a, 4, false, 0⟩, sc, false⟩
  | .stRelD d a sc g u => some ⟨⟨g, u, 1, d, a, 8, false, 0⟩, sc, false⟩
  | .stScW d a sc g u => some ⟨⟨g, u, 1, d, a, 4, false, 0⟩, sc, true⟩
  | .stScD d a sc g u => some ⟨⟨g, u, 1, d, a, 8, false, 0⟩, sc, true⟩
  | _ => none

/-- A read-modify-write of R211 to R213. -/
structure RmwRow where
  op : Rmw
  d : Reg
  a : Reg
  sc : Scope
  g : Guard
  u : Bool

/-- The atomics and compare-and-swaps. -/
def rmwRow : Instr → Option RmwRow
  | .atom o d a sc g u => some ⟨.int o 4, d, a, sc, g, u⟩
  | .atomD o d a sc g u => some ⟨.int o 8, d, a, sc, g, u⟩
  | .atomF32 o d a sc g u => some ⟨.f32 o, d, a, sc, g, u⟩
  | .casW d a sc g u => some ⟨.cas 4, d, a, sc, g, u⟩
  | .casD d a sc g u => some ⟨.cas 8, d, a, sc, g, u⟩
  | _ => none

/-- The form of a read-modify-write. -/
def RmwRow.form (r : RmwRow) : Form :=
  ⟨r.g, r.u, 1, [(r.d, r.op.reads), (r.a, 2)], [(r.d, r.op.words)], false, false, id⟩

/-- A memory word as its checks see it (R202): the form, the operand that holds the addresses, the offset, the size,
whether it writes, and whether it consumes the bytes there, in free mode and in DQM. -/
structure CheckRow where
  form : Form
  operand : Nat
  off : Int
  size : Nat
  p : Purpose
  takes : Bool → Takes

/-- Every word that accesses memory lane by lane. -/
def checkRow (i : Instr) : Option CheckRow :=
  match loadRow i, storeRow i, acquireRow i, releaseRow i, rmwRow i with
  | some r, _, _, _, _ => some ⟨r.loadForm, 0, r.off, r.size, .read, fun _ => .copy⟩
  | _, some r, _, _, _ => some ⟨r.storeForm, 1, r.off, r.size, .write, fun _ => .nothing⟩
  | _, _, some r, _, _ => some ⟨r.row.loadForm, 0, 0, r.row.size, .read,
      fun dqm => if r.stamped && !dqm then .home else .copy⟩
  | _, _, _, some r, _ => some ⟨r.row.storeForm, 1, 0, r.row.size, .write, fun _ => .nothing⟩
  | _, _, _, _, some r => some ⟨r.form, 1, 0, r.op.width, .write, fun _ => .home⟩
  | _, _, _, _, _ => match i with
    | .poll _ d a _ g u => some ⟨⟨g, u, 1, [(d, 1), (a, 2)], [(d, 1)], true, true, id⟩, 1, 0, 4, .read, fun _ => .copy⟩
    | _ => none

/-- A byte of memory or of a resident block's scratchpad run. -/
def State.byteAt (s : State) : Loc → Byte
  | .mem a => s.rawByte a
  | .scr b off => match s.blocks.get? b with
    | some k => k.scrByte off
    | none => 0

/-- The location `i` bytes past another. -/
def Loc.plus (i : Nat) : Loc → Loc
  | .mem a => .mem (a + i)
  | .scr b off => .scr b (off + i)

/-- Which byte of the `n` from `l` on a location is, if it is one of them. -/
def Loc.inside (l : Loc) (n : Nat) (x : Loc) : Option Nat :=
  (List.range n).find? fun i => decide (l.plus i = x)

/-- Bytes once the low `n` bytes of `v`, low byte first, stand from a location on. -/
def putAt (m : Loc → Byte) (l : Loc) (n v : Nat) (x : Loc) : Byte :=
  match l.inside n x with
  | some i => BitVec.ofNat 8 (v / 256 ^ i)
  | none => m x

/-- Read-modify-writes of the reaches one after another (R203): the old value of each lane, and the bytes after. -/
def rmwSeq (op : Rmw) (v : Nat → DWord × DWord) : (Loc → Byte) → List Reach → List (Nat × Nat) × (Loc → Byte)
  | m, [] => ([], m)
  | m, r :: rs =>
    match r.tgt with
    | .peer _ _ => rmwSeq op v m rs
    | .here l =>
      let old := leNat ((List.range op.width).map fun i => m (l.plus i))
      let new := (op.result old (v r.lane).1 (v r.lane).2).getD old
      let y := rmwSeq op v (putAt m l op.width new) rs
      ((r.lane, old) :: y.1, y.2)

/-- No access is published by a narrow release and still to be performed (R172). -/
def State.NonePublished (s : State) : Prop := ∀ e ∈ s.waves, ∀ a ∈ e.2.outst, a.rel = none

/-- The run selects no rollback and the block holds no snapshot (R393). -/
def Ctx.NoRollback (c : Ctx) : Prop := c.l.record.options.getLsbD 2 = false ∧ c.b.snap = none

/-- Every access of a word lies on this device. -/
def allHere (rs : List Reach) : Prop := ∀ r ∈ rs, r.remote = false

/-- The bytes of memory after stores of `n` bytes to the reaches in ascending lane order: the last one that covers an
address has given it its byte (R203). -/
def storedByte (n : Nat) (data : Nat → Nat) (a : Nat) (old : Byte) : List Reach → Byte
  | [] => old
  | r :: rs => storedByte n data a (match r.tgt with
      | .here (.mem p) => if p ≤ a ∧ a < p + n then BitVec.ofNat 8 (data r.lane / 256 ^ (a - p)) else old
      | _ => old) rs

/-- The bytes of a block's scratchpad run after stores of `n` bytes to the reaches. -/
def storedScr (n : Nat) (data : Nat → Nat) (b a : Nat) (old : Byte) : List Reach → Byte
  | [] => old
  | r :: rs => storedScr n data b a (match r.tgt with
      | .here (.scr k p) => if k = b ∧ p ≤ a ∧ a < p + n then BitVec.ofNat 8 (data r.lane / 256 ^ (a - p)) else old
      | _ => old) rs

/-! ## Barriers and jobs (R217 to R219, R226, R230) -/

/-- The barriers. -/
def barRow : Instr → Option (Blocked × Guard)
  | .barB g => some (.barB, g)
  | .barC g => some (.barC, g)
  | .barDev g => some (.barDev, g)
  | .barDom g => some (.barDom, g)
  | _ => none

/-- The launches that may use a barrier (R219): `bar.dev` needs a run whose command promises residence of the whole
grid, `bar.dom` a free-mode run with a domain group. -/
def BarAllowed (k : Blocked) (l : Launch) : Prop :=
  match k with
  | .barDev => l.standing = none ∧ l.flags.getLsbD 0 = true
  | .barDom => l.standing = none ∧ l.dqm = false ∧ l.domain.isSome = true
  | _ => True

/-- The copy words. -/
def copyRow : Instr → Option (JobKind × Reg × Guard)
  | .copy1d a g => some (.d1, a, g)
  | .copy2d a g => some (.d2, a, g)
  | .copyG a g => some (.g, a, g)
  | _ => none

/-- The form of a word whose descriptor stands in eight registers. -/
def descForm (a : Reg) (g : Guard) : Form := ⟨g, true, 1, [(a, 8)], [], false, false, id⟩

/-- The descriptor: the eight registers in the source lane. -/
def Ctx.desc (c : Ctx) (a : Reg) : List Word :=
  (List.range 8).map fun k => laneOf (opRun (c.operands [(a, 8)]) 0 k) c.src

/-- A job has been given to the core's engine (R165), or, in DQM, entered into the wave's commit share (R168). -/
structure Given (s : State) (c : Ctx) (t : State) (w' : Wave) (j : Job) : Prop where
  listed : j ∈ (t.core c.w.core).jobs
  of_wave : j.wave = c.key ∧ j.block = c.w.block ∧ j.launch = c.b.launch ∧ j.sup = c.w.sup
  batch : j.batch = if c.w.batch = 2 ^ 32 - 1 then 1 else c.w.batch + 1
  unmoved : j.moved = 0 ∧ j.started = false ∧ j.paused = false ∧ j.queued = c.l.dqm
  wave : t.waves.get? c.key = some w'
  moved : Retired c w' (c.after 1)
  shared : c.l.dqm = true → w'.share = c.w.share ++ [.job c.w.core j.id] ∧ w'.shareUsed = c.w.shareUsed + 32
  others : ∀ k, k ≠ c.key → t.waves.get? k = s.waves.get? k
  kept : { w'.bookOf c.w with share := c.w.share, shareUsed := c.w.shareUsed } = c.w
  memory : t.mem = s.mem ∧ t.ctl = s.ctl ∧ t.blocks.keys = s.blocks.keys

/-! ## Matrix words (R348 to R364) -/

/-- A word has handed one operation to the matrix engine of its core (R348): the wave has moved on and counted it, and
memory, the blocks and every other wave are as before. -/
structure Queued (s : State) (c : Ctx) (t : State) (w' : Wave) (o : TileOp) : Prop where
  op : (t.core c.w.core).ops = (s.core c.w.core).ops ++ [o]
  of_wave : o.wave = c.key ∧ o.block = c.w.block ∧ o.lane = c.src ∧ o.pc = c.w.pc
  number : o.seqNo = c.w.tiles + 1 ∧ w'.tiles = c.w.tiles + 1
  wave : t.waves.get? c.key = some w'
  others : ∀ k, k ≠ c.key → t.waves.get? k = s.waves.get? k
  moved : Retired c w' (c.after 1)
  registers : w'.regs = c.w.regs
  memory : t.mem = s.mem
  control : t.ctl = s.ctl

/-- What stands of the operand in memory of an operation that has just been handed over (R324, R357): its rows are still to
be fetched, when they are fetched later, or wait for peers, walks or an absent page; else `read` gives the operand from the
bytes that were there. -/
def Fetches (s : State) (c : Ctx) (o : TileOp) (gran : Nat) (rows : List (DWord × Nat))
    (read : List Byte → List (List Nat)) : Prop :=
  let open_ : Prop := o.rows = rows ∧ o.a = []
  if s.later = true ∧ c.l.dqm = false then open_
  else match s.fetchRuns c gran [] rows with
    | .ok bs _ => o.rows = [] ∧ o.a = read bs
    | .asked tags _ => open_ ∧ o.tags = tags
    | .pending _ => open_
    | .walk ks _ => open_ ∧ o.walking = ks
    | .absent _ => open_ ∧ o.held = true
    | .bad _ _ => False

/-- Nothing keeps the fetch of an operand from memory waiting (R43, R166, R175). -/
def State.FetchFree (s : State) (c : Ctx) (gran : Nat) (rows : List (DWord × Nat)) : Prop :=
  let as := (rows.flatMap (runAddrs gran)).map fun p => (0, p)
  s.heldByJob c as gran false = false ∧ s.heldByTile c rows [] false = false ∧ s.outMeets c s.seq false rows = false ∧
    ∀ p ∈ as, s.unstarted c p.2 = false

/-- A fetch that fails leaves no operation, only a deferred fault of its wave (R229, R334, R407). -/
structure FetchFailed (s : State) (c : Ctx) (t : State) (w' : Wave) (cause : Nat) (addr : DWord) : Prop where
  wave : t.waves.get? c.key = some w'
  ops : (t.core c.w.core).ops = (s.core c.w.core).ops
  fault : w'.deferred = c.w.deferred ++ [⟨c.w.tiles + 1, s.seq, cause, addr, 0, 0, false⟩] ∧ w'.tiles = c.w.tiles + 1
  others : ∀ k, k ≠ c.key → t.waves.get? k = s.waves.get? k
  moved : Retired c w' (c.after 1)
  memory : t.mem = s.mem ∧ t.blocks = s.blocks ∧ w'.regs = c.w.regs

/-- A word of R361 to R364 or R367 that names units by a unit word: runs it reads and writes, the words it takes, whether
its units must be residue units and whether it needs the channels, what it leaves the units as, and what it does. -/
structure UnitRow where
  g : Guard
  a : Reg
  runs : UnitWord → Ctx → List RegRun × List RegRun
  takes : UnitWord → Bool
  channels : UnitWord → Bool
  residues : Bool
  kind : UnitWord → TileKind
  leaves : UnitWord → Option Nat
  /-- the register contents it takes along -/
  data : UnitWord → Ctx → List (List Nat) := fun _ _ => []

/-- The unit words' rows. -/
def unitRow : Instr → Option UnitRow
  | .accZero a g => some ⟨g, a, fun _ _ => ([], []), fun _ => true, fun u => u.kind == 2, false,
      fun u => .zero u.kindOf, fun u => some u.kindOf, fun _ _ => []⟩
  | .accRd d a g => some ⟨g, a, fun u c => ([], [(c.key, d.toNat, u.count)]), fun u => decide (u.count ≤ 16),
      fun _ => false, false, fun _ => .rd, fun _ => none, fun _ _ => []⟩
  | .accWr d a g => some ⟨g, a, fun u c => ([(c.key, d.toNat, u.count)], []),
      fun u => decide (u.count ≤ 16) && u.kind != 3, fun u => u.kind == 2, false,
      fun u => .wr u.kindOf, fun u => some u.kindOf,
      fun u c => (List.range u.count).map fun r => (c.w.slotVec (c.w.wb + (d.toNat + r))).map BitVec.toNat⟩
  | .accChkTile a g => some ⟨g, a, fun _ _ => ([], []), fun _ => true, fun _ => false, false,
      fun _ => .chkTile, fun _ => none, fun _ _ => []⟩
  | .rnsr d a g => some ⟨g, a, fun _ c => ([], [(c.key, d.toNat, 4)]), fun u => decide (u.count ≤ 2), fun _ => true, true,
      fun _ => .rnsr, fun _ => none, fun _ _ => []⟩
  | _ => none

/-- The unit word meets the limits of R360, its block holds the units, and nothing holds the form back (R26, R328). -/
structure UnitRow.Admits (r : UnitRow) (s : State) (c : Ctx) (u : UnitWord) : Prop where
  runs : s.runsOk ((r.runs u c).1 ++ (r.runs u c).2) = true
  compute : c.w.shadow = false
  word : u.ok = true ∧ r.takes u = true
  channels : r.channels u = true → s.rnsDead c.w.core = false
  kinds : r.residues = true → s.kindFits 3 (u.units c.w.block) = true
  inside : s.unitsIn (u.units c.w.block) = true
  ready : s.runStop c ((r.runs u c).1.map wholeRun) (r.runs u c).2 = none
  free : s.pairHolds c.w.core = false

/-! ## Standing programs -/

/-- An entry that a coupling item has bumped (R254, R264, R269). -/
def Program.bumped (q : Program) (j : Nat) (e : ResEntry) (b : Word) : ResEntry :=
  if e.state = 0b11 then e
  else if e.state = 0b10 then { e with bump := addUp e.bump b, rearm := e.rearm || decide (b ≠ 0) }
  else { e with res := addUp e.res b, state := if (q.theta j).toNat < (addUp e.res b).toNat then 0b01 else 0b00 }

/-- The entry of a block whose relaxation has ended with residual `r` (R269, R271): an input that landed meanwhile forces
it, and one that an error has struck stays forced (R396). -/
def Program.endedEntry (q : Program) (id : Nat) (old : ResEntry) (r : Word) (kills : BitVec 3) : ResEntry :=
  let e := { old with kills := kills, hold := old.hold || (!q.dqm && q.wanted id), rearm := false }
  if e.state = 0b11 then { e with fpend := false }
  else if e.fpend = true then { e with res := 0x7F800000, state := 0b11, fpend := false }
  else { e with res := r, state := if (q.theta id).toNat < r.toNat then 0b01 else 0b00 }

/-- What the retirement of a relaxation does to the residuals (R254, R269): its own becomes the largest `rset`, or P where
that is larger and a bump reached it; each item of its coupling list bumps its target by w × δ. -/
def Program.Retires (q : Program) (l : Launch) (id : Nat) (s u : State) : Prop :=
  ∀ (bs : List Byte) (items : List (Nat × Word)), s.sysBytes l.asid l.root (q.entryAddr id) 64 = some bs →
    items.length = leAt bs 0x14 4 → items.length ≤ 4096 → leAt bs 0x20 8 % 8 = 0 →
    (∀ (k : Nat) (x : Nat × Word), items[k]? = some x → couplingOk q.n id x.1 x.2.toNat = true ∧
      s.sysBytes l.asid l.root (leAt bs 0x20 8 + 8 * k) 8 = some (natLe 4 x.1 ++ natLe 4 x.2.toNat)) →
    let ws := s.wavesOf (blockKey q.launch id)
    let own := largest (ws.map fun w => w.2.set)
    let delta := largest (ws.map fun w => w.2.delta)
    let e := s.resOf q id
    u.mem = s.mem ∧ u.resOf q id = q.endedEntry id e (if e.rearm then maxRes own e.bump else own) 0 ∧
    ∀ j, j ≠ id → u.resOf q j = (items.filter fun x => decide (x.1 = j)).foldl
      (fun f x => q.bumped j f (bumpOf x.2 delta)) (s.resOf q j)

/-- What the kill of a relaxation does to the residuals (R271): it posts nothing; its residual becomes the larger of its
residual at dispatch and P, or it stays forced; KILLS rises, and a record 0x51 names the block. -/
def Program.Killed (q : Program) (l : Launch) (id : Nat) (d : Dispatched) (s u : State) : Prop :=
  let e := s.resOf q id
  let kills := if e.kills = 7 then 7 else e.kills + 1
  ∃ r, u.traps = s.traps ++ [r] ∧ r.cause = 0x51 ∧ r.detail = BitVec.ofNat 32 id ∧ r.tag = l.tag ∧
    (d.forced = false ∨ e.state = 0b11 → u.resOf q id = q.endedEntry id e (maxRes d.res e.bump) kills) ∧
    (d.forced = true → e.state ≠ 0b11 → (u.resOf q id).res = 0x7F800000 ∧ (u.resOf q id).state = 0b11 ∧
      (u.resOf q id).kills = kills ∧ (u.resOf q id).rearm = false ∧ (u.resOf q id).fpend = false) ∧
    ∀ j, j ≠ id → u.resOf q j = s.resOf q j

/-- A relaxation has left its slot: its block and waves are gone, and the block is no longer among those running. -/
def Program.Gone (q : Program) (p id : Nat) (s u : State) : Prop :=
  u.blocks.get? (blockKey q.launch id) = none ∧
  ((s.blocks.get? (blockKey q.launch id)).isSome = true →
    ∀ j v, u.waves.get? j = some v → v.block ≠ blockKey q.launch id) ∧
  ∃ q0 q1, s.programs.get? p = some q0 ∧ u.programs.get? p = some q1 ∧ q1.running = q0.running.erase id ∧
    q1.running.get? id = none ∧ q1.gen = q0.gen

/-- The subscribers of an input become forced, or, while they run, take FPEND and REARM (R273). -/
def Program.Forces (q : Program) (m : InputMsg) (s u : State) : Prop :=
  ∀ i, u.resOf q i =
    if ∃ e ∈ q.eqs, e.1 = i ∧ ∃ x ∈ e.2.subs, x.1.toNat < m.target.toNat + m.data.length ∧
        m.target.toNat < x.1.toNat + x.2 then
      (if (s.resOf q i).state = 0b10 then { s.resOf q i with fpend := true, rearm := true }
        else { s.resOf q i with res := 0x7F800000, state := 0b11 })
    else s.resOf q i

/-- The bytes of memory once the pieces of an input have landed. -/
def landedByte (ps : List (Nat × List Byte)) (x : Nat) (old : Byte) : Byte :=
  ps.foldl (fun old y => if y.1 ≤ x ∧ x < y.1 + y.2.length then y.2.getD (x - y.1) 0 else old) old

/-- What an input does at a boundary of a deterministic program (R273, R282, R284, R301): it lands, g rises by one and its
entry is journalled; one with a byte that has no place, or whose entry does not fit, is answered with 5 or 2 and changes
no memory. -/
def Program.Lands (q : Program) (p : Nat) (l : Launch) (m : InputMsg) (s u : State) : Prop :=
  ∀ q0, s.programs.get? p = some q0 → q0.late = [] →
    let pieces := s.landPieces l (m.data.length / 64 + 2) m.target.toNat m.data
    let n := 64 + roundUpTo m.data.length 64
    (pieces = none → u.mem = s.mem ∧ u.residuals = s.residuals ∧ u.programs.get? p = some q0 ∧
      s.Sent u 0x0004 m.src m.tag (natLe 1 5 ++ List.replicate 31 0) ∧
      ∃ r, u.traps = s.traps ++ [r] ∧ r.cause = 0x52 ∧ r.addr = m.target) ∧
    ∀ ps, pieces = some ps →
      (q0.journalFits n = false → u.mem = s.mem ∧ u.residuals = s.residuals ∧
        s.Sent u 0x0004 m.src m.tag (natLe 1 2 ++ List.replicate 31 0) ∧
        u.programs.get? p = some { q0 with jref := if q0.jref = BitVec.allOnes 32 then q0.jref else q0.jref + 1 }) ∧
      (q0.journalFits n = true → q0.jwr + n ≤ q0.jsize →
        q.Forces m s u ∧ s.Sent u 0x0004 m.src m.tag (natLe 8 0 ++ natLe 8 (q0.gen + 1).toNat ++ natLe 8 q0.bound ++ natLe 8 0) ∧
        u.programs.get? p = some { q0 with
          gen := q0.gen + 1, jwr := (q0.jwr + n) % q0.jsize, jindex := q0.jindex + 1 } ∧
        ∃ w : State, (∀ x, w.rawByte x = landedByte ps x (s.rawByte x)) ∧
          let e : JournalEntry :=
            ⟨BitVec.ofNat 64 q0.bound, q0.gen + 1, 1, m.len, m.target, BitVec.ofNat 32 q0.jindex, 0, m.data⟩
          u.mem = (w.journalBytes l q0 q0.jwr
            (e.header n ++ m.data ++ List.replicate (n - 64 - m.data.length) 0)).mem)

/-- A pending request is served (R258, R302): the reply carries the region's bytes, the largest residual of the overlapping
blocks, g, the next number and the boundary. -/
def Program.Serves (q : Program) (p : Nat) (l : Launch) (m : SnapMsg) (s u : State) : Prop :=
  let data := s.sysBytes l.asid l.root m.start.toNat m.len.toNat
  ∃ b : Word, (∀ i ∈ q.overlapping m, (s.resOf q i).res.toNat ≤ b.toNat) ∧
    (b = 0 ∨ ∃ i ∈ q.overlapping m, b = (s.resOf q i).res) ∧
    s.Sent u 0x0006 m.src m.tag (natLe 1 p ++ natLe 1 (if data.isSome then 0 else 3) ++ natLe 1 q.state.toNat ++
      natLe 1 0 ++ natLe 4 b.toNat ++ natLe 8 q.gen.toNat ++ natLe 8 (q.snapNo + 1).toNat ++
      natLe 8 (if q.dqm then q.bound else 0) ++ natLe 4 (data.getD []).length ++ natLe 12 0 ++ pad16 (data.getD []))

/-! ## Messages that arrive -/

/-- The source, and the agreement of lengths, of a message that arrives (R298, R301 to R306, R310): an answer and a release
name none, and come from the endpoint that subject b of the event tells. -/
def messageRow (s : State) : Instr → Option (BitVec 16 × Bool)
  | .notify src _ => some (src, true)
  | .inputWrite m => some (m.src, inputAgrees m)
  | .snapshotRequest m => some (m.src, true)
  | .subscribe m => some (m.src, true)
  | .remoteRead src _ _ _ => some (src, true)
  | .remoteWrite src _ _ _ => some (src, true)
  | .remoteAtomic src _ _ op => some (src, remoteFits op)
  | .readResponse tag st data => some (BitVec.ofNat 16 s.subj.b, s.answerFits tag.toNat st data)
  | .writeResponse _ _ => some (BitVec.ofNat 16 s.subj.b, true)
  | .atomicResponse tag st data => some (BitVec.ofNat 16 s.subj.b, s.answerFits tag.toNat st data)
  | .collectiveData m => some (m.src, true)
  | .barrierArrive src _ => some (src, true)
  | .barrierRelease _ => some (BitVec.ofNat 16 s.subj.b, true)
  | _ => none

/-- An endpoint of a type that sends messages (R299): 0 or 1. -/
def knownType (src : BitVec 16) : Prop := (src.extractLsb' 12 4).toNat < 2

end Sys2Proof.Machine
end

