-- ==== Sys2Proof/Certificates/Slice0/Obligations.lean ====
section
/-! DEFINITION. The statements about this machine that are to be proved. Each docstring names the rule of the
specification it formalises. -/

open Sys2Proof Sys2Proof.Machine

/-! ## Decoding and the step -/

/-- R51, R64: words computed as the rules lay them out (op × 2^25 + d × 2^18 + a × 2^11 + b × 2^4 + g × 2 + u) decode
to the instructions of the map: `(p1) addi v5, v6, -3`, `j -2`, uniform `ld.w v3, [v4]+8`, `mma.rns v8, v16`, `qend`,
`wait.c 1, 2, 3`, a literal with `movi`, and two words the map gives no meaning. -/
def Obligations.WrittenWordsDecode : Prop :=
  decodeTwo (BitVec.ofNat 32 (0x12 * 2 ^ 25 + 5 * 2 ^ 18 + 6 * 2 ^ 11 + 125 * 2 ^ 4 + 1 * 2 + 0)) 0 =
    (.addi 5 6 125 .p1 false, 4) ∧
  decodeTwo (BitVec.ofNat 32 (0x04 * 2 ^ 25 + (2 ^ 21 - 2) * 2 ^ 4)) 0 = (.j (-2) .always false, 4) ∧
  decodeTwo (BitVec.ofNat 32 (0x50 * 2 ^ 25 + 3 * 2 ^ 18 + 4 * 2 ^ 11 + 2 * 2 ^ 4 + 1)) 0 = (.ldW 3 4 2 .always true, 4) ∧
  decodeTwo (BitVec.ofNat 32 (0x70 * 2 ^ 25 + 8 * 2 ^ 18 + 16 * 2 ^ 11 + 6 * 2 ^ 4 + 1)) 0 =
    (.mma .rns 8 16 .always, 4) ∧
  decodeTwo (BitVec.ofNat 32 (0x79 * 2 ^ 25 + 1)) 0 = (.qend .always, 4) ∧
  decodeTwo (BitVec.ofNat 32 (0x6B * 2 ^ 25 + (1 * 2 ^ 9 + 2 * 2 ^ 4 + 3) * 2 ^ 4)) 0 = (.waitC 1 2 3 .always, 4) ∧
  decodeTwo (BitVec.ofNat 32 (0x01 * 2 ^ 25 + 1)) (BitVec.ofNat 32 (0x28 * 2 ^ 25 + 9 * 2 ^ 18 + 5 * 2 ^ 4)) =
    (.moviP 9 133 .always false, 8) ∧
  (decodeTwo (BitVec.ofNat 32 (0x0B * 2 ^ 25)) 0).1 = .undefinedWord none (BitVec.ofNat 32 (0x0B * 2 ^ 25)) ∧
  (decodeTwo (BitVec.ofNat 32 (0x02 * 2 ^ 25 + 1 * 2 ^ 4)) 0).1 =
    .undefinedWord none (BitVec.ofNat 32 (0x02 * 2 ^ 25 + 1 * 2 ^ 4))

/-- R53, R61, R63: decoding the words of a well-formed instruction gives that instruction back, with every operand at
every value its field can hold. -/
def Obligations.DecodeOfEncode : Prop :=
  ∀ i : Instr, wellFormed i = true → (∀ p w, i ≠ .undefinedWord p w) →
    ((headOf i).isSome = true →
      (∃ w, encode i = [w] ∧ ∀ w2, decodeTwo w w2 = (i, 4)) ∨ ∃ w w2, encode i = [w, w2] ∧ decodeTwo w w2 = (i, 8))

/-- R61, R62, R63: no bit of a word is ignored: the words of what was decoded are the words that were read; and what
is decoded is a well-formed word (words with reserved fields decode to the undefined word). -/
def Obligations.DecodingIsCanonical : Prop :=
  ∀ w w2 : Word, encode (decodeTwo w w2).1 = (if (decodeTwo w w2).2 = 4 then [w] else [w, w2]) ∧
    wellFormed (decodeTwo w w2).1 = true ∧ (headOf (decodeTwo w w2).1).isSome = true

/-- A step in which a section's turn falls on a wave whose timer does not trap runs the instruction decoded from the
word at the wave's program counter: it is `exec` of that instruction, and the section is then held for its cycles. A
literal word is taken with the word after it (R53). R231, R233: a fetch in free mode from an executable page of this
device, which no older copy serves, returns the four bytes that stand there, lowest first. That the schedule chooses
the turn, and whether an older copy serves, is the model's form (log entry 2). -/
def Obligations.StepRunsDecoded : Prop :=
  (∀ (s : State) (ch : Choice) (rest : List Choice) (core sect key : Nat) (w : Wave) (b : Block) (l : Launch) (x : Word)
    (t : State),
    let s1 : State := { (s.after ch) with sched := rest }
    s.sched = ch :: rest → ch.act = .issue core sect → s1.turn core sect = some key →
    s1.waves.get? key = some w → s1.blocks.get? w.block = some b → s1.launches.get? b.launch = some l →
    s1.trapsNow w = false → s1.fetchAt key w l w.pc.toNat = .word x t →
    (majorOf x ≠ 1 → step s = finish (s1.issued w l key) (exec (decodeTwo x 0).1 { t with cur := some key })) ∧
    ∀ (y : Word) (t2 : State), majorOf x = 1 → t.fetchAt key w l (w.pc.toNat + 4) = .word y t2 →
      step s = finish (s1.issued w l key) (exec (decodeTwo x y).1 { t2 with cur := some key })) ∧
  (∀ (s t : State) (key : Nat) (w : Wave) (l : Launch) (va a : Nat) (m : Xlate),
    va < 2 ^ 57 → s.lookup w.walkOut w.core l.asid l.root va = .found m t → m.permits .fetch w.sup = true →
    t.route (m.target va) = .here (.mem a) → t.poisoned (.mem a) 4 = false → l.dqm = false → t.hit = false →
    ∃ u, s.fetchAt key w l va =
        .word (le32 (t.homeByte a) (t.homeByte (a + 1)) (t.homeByte (a + 2)) (t.homeByte (a + 3))) u ∧ u.mem = t.mem)

/-! ## What holds of every word -/

/-- R26, R55, R62: the start of every word. While a load of its wave or a tile operation will still write the register
its guard reads, the word waits, with no effect. Else, when no lane executes it and its guard holds in no helper lane, it
only moves its wave on, whatever the word is: no other wave, no register, no flag and no byte of memory changes. R24: an
integer or logical word that no live lane executes still gives its result to the helper lanes in which its guard holds,
and changes nothing else; that R24 goes before R62 there is the model's choice (log entry 53). -/
def Obligations.GuardAndNoLane : Prop :=
  ∀ (i : Instr) (g : Guard) (u : Bool) (n : Nat) (s : State) (key : Nat) (w : Wave) (b : Block) (l : Launch),
    headOf i = some (g, u, n) → s.parties = some (key, w, b, l) →
    ((∃ k ∈ guardSlots g, k ∈ s.pendingSlots key w) →
      ∃ t, exec i s = .next t ∧ { t with waves := s.waves } = s ∧
        t.waves.get? key = some { w with stalled := some s.ver, readyFrom := s.now, starving := false } ∧
        ∀ k, k ≠ key → t.waves.get? k = s.waves.get? k) ∧
    ((∀ k ∈ guardSlots g, k ∉ s.pendingSlots key w) → w.lanesFor g u = 0 →
      (u = true ∨ ∀ lane, lane < 64 → w.helpers.getLsbD lane = true → w.guardIn g lane = false) →
      w.pc.toNat + 4 * n < 2 ^ 57 →
      ∃ t w', exec i s = .next t ∧ t.waves.get? key = some w' ∧ (∀ k, k ≠ key → t.waves.get? k = s.waves.get? k) ∧
        { t with waves := s.waves } = s ∧ w'.bookOf w = w ∧ w'.pc = w.pc + BitVec.ofNat 64 (4 * n) ∧
        w'.retired = (w.retired + 1) % 2 ^ 48) ∧
    ∀ (r : AluRow) (c : Ctx), aluRow i = some r → s.issuing r.form = some c → c.t = 0 → c.u = false →
      (∀ k ∈ guardSlots r.g ++ r.form.slots c.w, k ∉ s.pendingSlots c.key c.w) → r.form.inRange c.w c.l = true →
      r.form.queued c.w = false → c.atEdge r.size = false → c.w.struck = [] → c.w.poison = [] →
      ∃ t w', exec i s = .next t ∧ OnlyWave s c t w' ∧ Retired c w' (c.after r.size) ∧
        c.Wrote w' r.d (r.val (c.operands r.reads)) ∧ { w'.bookOf c.w with regs := c.w.regs } = c.w

/-- R62, R63: a word the map gives no meaning, executed by some lane, halts its block with cause 0x01 and no other
effect; with no executing lane it is a word like any other (GuardAndNoLane). R59, R62, R231: an instruction of the
integer, floating-point or lane tables that names a register outside its wave's allocation, executed by some lane,
halts its block with cause 0x02, before any effect; one after which no word has an address halts it with cause 0x07 in
place of its effect. That the last fault falls on the word itself is the model's reading (log entry 13). R392, R394,
R395: errors a word meets. An integer, floating-point or lane word of a run that issues twice, whose two issues differ,
and an integer or floating-point word that reads a struck or poisoned register in an executing lane, have no effect:
the block stops for a rollback where its snapshot has served fewer than twice, else it halts, with 0x40 or 0x41. A
struck register that an integer word reads in no executing lane does not stop the word: those lanes become poisoned,
and a record 0x42, which halts nothing, says so. -/
def Obligations.UndefinedWordsHalt : Prop :=
  (∀ (p : Option (BitVec 25)) (x : Word) (s : State) (c : Ctx),
    s.issuing ⟨(undefJudge p x).1, (undefJudge p x).2, if p.isSome then 2 else 1, [], [], false, false, id⟩ = some c →
    c.t ≠ 0 → (∀ k ∈ guardSlots (undefJudge p x).1, k ∉ s.pendingSlots c.key c.w) → c.w.mismatch = false →
    exec (.undefinedWord p x) s = .next (s.takeHalt c.key 0x01 0 c.t 0)) ∧
  (∀ (i : Instr) (f : Form) (s : State) (c : Ctx),
    ((∃ r, aluRow i = some r ∧ f = r.form) ∨ (∃ r, pairRow i = some r ∧ f = r.form) ∨
      (∃ r, floatRow i = some r ∧ f = r.form) ∨ (∃ r, laneRow i = some r ∧ f = r.form)) →
    (s.issuing f = some c → c.t ≠ 0 → (∀ k ∈ guardSlots f.g, k ∉ s.pendingSlots c.key c.w) →
      f.inRange c.w c.l = false → exec i s = .next (s.takeHalt c.key 0x02 0 c.t 0)) ∧
    (Unhindered s f c → f.queued c.w = false → 2 ^ 57 ≤ c.w.pc.toNat + 4 * f.size →
      exec i s = .next (s.takeHalt c.key 0x07 0 c.t 0)) ∧
    (s.issuing f = some c → c.t ≠ 0 → f.inRange c.w c.l = true →
      (∀ k ∈ guardSlots f.g ++ f.slots c.w, k ∉ s.pendingSlots c.key c.w) →
      let rolls : Prop := c.b.snap.isSome = true ∧ c.b.consumed < 2
      let stopped : Block := { c.b with halt := some (c.b.halt.getD ⟨0x43, c.key, false, false⟩) }
      let stops (u : State) (cause : Nat) : Prop :=
        (rolls → exec i s = .next { u with blocks := s.blocks.set c.w.block stopped }) ∧
        (¬ rolls → exec i s = .next (u.takeHalt c.key cause 0 c.t 0))
      (c.w.mismatch = true → c.l.record.options.getLsbD 3 = true → c.l.standing = none →
        stops { s with waves := s.waves.set c.key { c.w with mismatch := false } } 0x40) ∧
      (c.w.mismatch = false → (laneRow i = none) →
        (∃ x ∈ f.reads, ∃ k ∈ c.w.slotsOf x.1 x.2, (c.w.struck.getD k 0 ||| c.w.poison.getD k 0) &&& c.t ≠ 0) →
        stops s 0x41))) ∧
  ∀ (i : Instr) (r : AluRow) (s : State) (c : Ctx) (a : Reg) (k : Nat), aluRow i = some r → r.reads = [(a, 1)] →
    s.issuing r.form = some c → c.t ≠ 0 → r.form.inRange c.w c.l = true → r.form.queued c.w = false →
    c.atEdge r.size = false → (∀ k ∈ guardSlots r.g ++ r.form.slots c.w, k ∉ s.pendingSlots c.key c.w) →
    c.w.mismatch = false → c.w.slotOf a.toNat = .phys k → c.w.slotOf r.d.toNat ≠ .phys k →
    (c.w.struck.getD k 0 ||| c.w.poison.getD k 0) &&& c.t = 0 → c.w.struck.getD k 0 ≠ 0 →
    ∃ t w' x, exec i s = .next t ∧ t.waves.get? c.key = some w' ∧ Retired c w' (c.after r.size) ∧
      c.Wrote w' r.d (r.val (c.operands r.reads)) ∧ t.blocks = s.blocks ∧ t.mem = s.mem ∧ t.traps = s.traps ++ [x] ∧
      x.cause = 0x42 ∧ x.halt = false ∧ x.park = false ∧ x.pc = c.w.pc ∧
      (KMap.wf c.w.struck = true → KMap.wf c.w.poison = true → w'.struck.getD k 0 = 0 ∧
        w'.poison.getD k 0 = c.w.poison.getD k 0 ||| c.w.struck.getD k 0)

/-- R371, R375: taking a halting cause of a run's wave: the wave stops at its instruction, its block's halt names the
first cause and wave, and one record is queued with cause, program counter, address, mask and detail; memory and every
other wave and block are as before. R157, R378: a recoverable translation fault parks its wave at its instruction with
the address, queues a record of the park class whose detail is the lane, and changes nothing else: no block halts. -/
def Obligations.TakingAHalt : Prop :=
  (∀ (s : State) (key cause : Nat) (addr : DWord) (mask : Mask) (detail : Word) (w : Wave) (b : Block) (l : Launch),
    s.waves.get? key = some w → s.blocks.get? w.block = some b → s.launches.get? b.launch = some l →
    l.standing = none →
    let t := s.takeHalt key cause addr mask detail
    t.waves.get? key = some { w.dropWord with halted := true, trapped := (w.halted && w.trapped) || cause == 0x08 } ∧
    t.blocks.get? w.block = some { b with halt := some (b.halt.getD ⟨cause, key, false, false⟩) } ∧
    (∃ r : TrapRec, t.traps = s.traps ++ [r] ∧ r.cause = cause ∧ r.halt = true ∧ r.park = false ∧ r.pc = w.pc ∧
      r.addr = addr ∧ r.mask = mask ∧ r.detail = detail ∧ r.core = w.core ∧ r.sect = w.sect ∧ r.wave = w.index ∧
      r.shadow = w.shadow ∧ r.asid = l.asid ∧ r.tag = l.tag ∧ r.block = BitVec.ofNat 32 b.rank ∧
      r.count = w.retired ∧ r.sv = w.sup) ∧
    { t with waves := s.waves, blocks := s.blocks, traps := s.traps } = s ∧
    (∀ k, k ≠ key → t.waves.get? k = s.waves.get? k) ∧ ∀ k, k ≠ w.block → t.blocks.get? k = s.blocks.get? k) ∧
  ∀ (s : State) (key lane : Nat) (addr : DWord) (mask : Mask) (w : Wave) (b : Block) (l : Launch),
    s.waves.get? key = some w → s.blocks.get? w.block = some b → s.launches.get? b.launch = some l →
    let t := s.takePark key addr mask lane
    t.waves.get? key = some { w.dropWord with parked := some (0x13, addr) } ∧
    (∀ k, k ≠ key → t.waves.get? k = s.waves.get? k) ∧ { t with waves := s.waves, traps := s.traps } = s ∧
    ∃ r : TrapRec, t.traps = s.traps ++ [r] ∧ r.cause = 0x13 ∧ r.park = true ∧ r.halt = false ∧ r.job = false ∧
      r.pc = w.pc ∧ r.addr = addr ∧ r.mask = mask ∧ r.detail = BitVec.ofNat 32 lane ∧ r.core = w.core ∧
      r.wave = w.index ∧ r.asid = l.asid ∧ r.tag = l.tag

/-! ## Integer, floating-point and lane instructions -/

/-- R76 to R79, R81 to R83: every integer, logical and move instruction with one result gives its destination, in the
lanes the result goes to, the value of its row, in every register form; every other register, flag, wave and byte of
memory is as before, and the wave moves on past the word or the pair. R28: such a word restores level 7 and ends a series of
polls. -/
def Obligations.IntegerResults : Prop :=
  ∀ (i : Instr) (r : AluRow) (s : State) (c : Ctx), aluRow i = some r → Clear s r.form c →
    ∃ t w', exec i s = .next t ∧ OnlyWave s c t w' ∧ Retired c w' (c.after r.size) ∧ w'.level = 7 ∧ w'.polls = 0 ∧
      c.Wrote w' r.d (r.val (c.operands r.reads)) ∧ { w'.bookOf c.w with regs := c.w.regs } = c.w

/-- R80, R83: the 64-bit sums, differences, address sums and moves give their pair, low word first; `adda` keeps the
space nibble. Nothing else changes. -/
def Obligations.PairResults : Prop :=
  ∀ (i : Instr) (r : PairRow) (s : State) (c : Ctx), pairRow i = some r → Clear s r.form c →
    ∃ t w', exec i s = .next t ∧ OnlyWave s c t w' ∧ Retired c w' (c.after 1) ∧
      c.WrotePair w' r.d (r.val (c.operands r.reads)) ∧ { w'.bookOf c.w with regs := c.w.regs } = c.w

/-- R104, R117 to R134: every floating-point, conversion and packing instruction gives its destination the value of
its row and ORs the row's flags into the lanes that execute it, into no other; no other register, wave or byte
changes. How the elementary functions find the rounded value is the model's (log entry 50). R100 to R104, R118, R128,
R130: what the rows' sums, products, fused products and conversions of finite values give is the rounding of the exact
value, under every mode, with the flags of its inexactness, underflow and overflow; an exact zero raises none. -/
def Obligations.FloatResults : Prop :=
  (∀ (i : Instr) (r : FloatRow) (s : State) (c : Ctx), floatRow i = some r → Clear s r.form c →
    ∃ t w', exec i s = .next t ∧ OnlyWave s c t w' ∧ Retired c w' (c.after 1) ∧
      (c.Wrote w' r.d fun lane => (r.val c (c.operands r.reads) lane).1) ∧
      (c.Raised w' fun lane => (r.val c (c.operands r.reads) lane).2) ∧
      { w'.bookOf c.w with regs := c.w.regs, fpflags := c.w.fpflags } = c.w) ∧
  (∀ f ∈ [fp32, fp16, bf16], ∀ (r : RCtx) (x y z : Nat) (sx sy sz : Bool) (mx my mz : Nat) (ex ey ez : Int),
    r.flush = false → x < 2 ^ (1 + f.ew + f.fw) → y < 2 ^ (1 + f.ew + f.fw) → z < 2 ^ (1 + f.ew + f.fw) →
    f.read x = .fin sx mx ex → f.read y = .fin sy my ey → f.read z = .fin sz mz ez →
    let signed (s : Bool) (m : Nat) : Int := if s then -(m : Int) else m
    let product : Int := scaled (signed sx mx * signed sy my) (ex + ey)
    let gives (v : Int) (out : Nat × Flags) : Prop :=
      (v ≠ 0 → f.RoundsWell r v out) ∧ (v = 0 → f.num out.1 = 0 ∧ out.2 = 0)
    gives (f.num x + f.num y) (f.addF r (f.read x) (f.read y)) ∧
    gives product (f.mulF r (f.read x) (f.read y)) ∧
    gives (product + f.num z) (f.fma r (f.read x) (f.read y) (f.read z))) ∧
  ∀ f ∈ [fp32, fp16, bf16, e5m2, e4m3], ∀ g ∈ [fp32, fp16, bf16, e5m2, e4m3], ∀ (r : RCtx) (x : Nat),
    x < 2 ^ (1 + g.ew + g.fw) → g.isNumber x → g.num x ≠ 0 → f.RoundsWell { r with flush := false } (g.num x)
      (f.convert r (g.read x))

/-- R110, R135 to R139: quad exchanges, shuffles, lane masks, reductions and scans give the lanes that take part the
value of their row: the integer sums, minima, maxima and prefix sums over exactly those lanes; lanes that take no part
keep their registers. -/
def Obligations.LaneResults : Prop :=
  ∀ (i : Instr) (r : FloatRow) (s : State) (c : Ctx), laneRow i = some r → Clear s r.form c →
    ∃ t w', exec i s = .next t ∧ OnlyWave s c t w' ∧ Retired c w' (c.after 1) ∧
      (c.Wrote w' r.d fun lane => (r.val c (c.operands r.reads) lane).1) ∧
      (c.Raised w' fun lane => (r.val c (c.operands r.reads) lane).2) ∧
      { w'.bookOf c.w with regs := c.w.regs, fpflags := c.w.fpflags } = c.w

/-- R31, R60: the forms of the integer and floating-point instructions that name hardware queues: an operand field
that names a queue pops it, in the order of the fields, a destination that names a queue is pushed, and the word
retires. A word of these, a lane word, a load or a store, with a destination queue it may not push halts with the cause
of the push; one with a destination queue that has no room, or an operand queue with too few elements, is Blocked on
that queue, with nothing popped and no other effect; one with an operand queue it may not pop halts with its cause. -/
def Obligations.QueueForms : Prop :=
  (∀ (i : Instr) (f : Form) (s : State) (c : Ctx),
    ((∃ r, aluRow i = some r ∧ f = r.form) ∨ (∃ r, pairRow i = some r ∧ f = r.form) ∨
      (∃ r, floatRow i = some r ∧ f = r.form) ∨ (∃ r, laneRow i = some r ∧ f = r.form) ∨
      (∃ r, loadRow i = some r ∧ f = r.loadForm) ∨ (∃ r, storeRow i = some r ∧ f = r.storeForm)) → Unhindered s f c →
    (∀ k, s.roomFor c f.writes = .fault k ∨ (s.roomFor c f.writes = .ok () ∧ s.readFields c f.reads = .fault k) →
      exec i s = .next (s.takeHalt c.key k 0 c.t 0)) ∧
    ∀ n, s.roomFor c f.writes = .wait n ∨ (s.roomFor c f.writes = .ok () ∧ s.readFields c f.reads = .wait n) →
      ∃ t w', exec i s = .next t ∧ OnlyWave s c t w' ∧ c.Waits t w' ∧ w'.blocked = some (.queue n) ∧
        w'.bookOf c.w = c.w) ∧
  ∀ (i : Instr) (s s1 : State) (c : Ctx) (ops : List (List LaneVec)),
    (∀ r, aluRow i = some r → Unhindered s r.form c → c.atEdge r.size = false → s.roomFor c [(r.d, 1)] = .ok () →
      s.readFields c r.reads = .ok (ops, s1) →
      exec i s = .next ((s1.writeReg c r.d.toNat (r.val ops)).retireAt c r.size .plain)) ∧
    (∀ r, floatRow i = some r → Unhindered s r.form c → c.atEdge 1 = false → s.roomFor c [(r.d, 1)] = .ok () →
      s.readFields c r.reads = .ok (ops, s1) →
      exec i s = .next (((s1.writeReg c r.d.toNat fun lane => (r.val c ops lane).1).raiseFlags c fun lane =>
        (r.val c ops lane).2).retireAt c 1 .plain))

/-- R31, R60: a pop hands the queue's oldest elements to the executing lanes in ascending order (one element, to the
source lane, when u = 1), and leaves the rest; a wave that may not consume the queue faults with 0x20, one whose
partner has exited with 0x21, else it is Blocked. A push appends the executing lanes' values in ascending lane order,
or the source lane's one value when u = 1, and changes nothing else of the machine. It may take place when the wave
produces the queue (else 0x20) and the queue, of 512 elements, has room for all of them; with no room the wave is
Blocked, or faults with 0x21 when its partner has exited. -/
def Obligations.QueuesAreFifo : Prop :=
  ∀ (s : State) (c : Ctx) (n : Nat) (b : Block) (v : Nat → Word), s.blocks.get? c.w.block = some b →
    (c.consumes n = false → s.pop c n = .fault 0x20) ∧
    (c.consumes n = true → (b.queue c.w.index n).length < c.elems →
      s.pop c n = if s.exitedWave c.partner then .fault 0x21 else .wait n) ∧
    (c.consumes n = true → c.elems ≤ (b.queue c.w.index n).length →
      ∃ x t b', s.pop c n = .ok (x, t) ∧ t.blocks.get? c.w.block = some b' ∧
        b'.queue c.w.index n = (b.queue c.w.index n).drop c.elems ∧
        (∀ m, m ≠ 4 * c.w.index + n → b'.queues.getD m [] = b.queues.getD m []) ∧ { b' with queues := b.queues } = b ∧
        { t with blocks := s.blocks } = s ∧
        (c.u = false → ∀ j lane, c.lanes[j]? = some lane → laneOf x lane = (b.queue c.w.index n).getD j 0) ∧
        (c.u = true → c.src < 64 → laneOf x c.src = (b.queue c.w.index n).getD 0 0)) ∧
    (c.consumes n = true → s.mayPush c n = .fault 0x20) ∧
    (c.consumes n = false → (b.queue c.w.index n).length + c.elems ≤ 512 → s.mayPush c n = .ok ()) ∧
    (c.consumes n = false → 512 < (b.queue c.w.index n).length + c.elems →
      s.mayPush c n = if s.exitedWave c.partner then .fault 0x21 else .wait n) ∧
    ∃ b', (s.push c n v).blocks.get? c.w.block = some b' ∧
      b'.queue c.w.index n = b.queue c.w.index n ++ (if c.u then [v c.src] else c.lanes.map v) ∧
      (∀ m, m ≠ 4 * c.w.index + n → b'.queues.getD m [] = b.queues.getD m []) ∧ { b' with queues := b.queues } = b ∧
      { s.push c n v with blocks := s.blocks } = s

/-- R58, R60: `zero` reads 0 and `lane` reads the lane number in every lane, and a result written to either is
discarded: the whole machine is as before. -/
def Obligations.ConstantRegisters : Prop :=
  ∀ (s : State) (c : Ctx) (v : Nat → Word),
    (∀ lane, lane < 64 → laneOf (c.w.readReg 127) lane = 0 ∧ laneOf (c.w.readReg 121) lane = BitVec.ofNat 32 lane) ∧
    s.writeReg c 127 v = s ∧ s.writeReg c 121 v = s

/-- R94, R100: every finite value of the five floating-point formats is read and rounded back to its own pattern, with
no flag, under every rounding mode. R309: a group of 16 values of a wire type that is packed is restored to every bit.
-/
def Obligations.RoundTrips : Prop :=
  (∀ f ∈ [fp32, fp16, bf16, e5m2, e4m3], ∀ (x : Nat) (neg : Bool) (m : Nat) (e : Int) (r : RCtx),
    x < 2 ^ (1 + f.ew + f.fw) → f.read x = .fin neg m e → r.flush = false →
    f.convert r (f.read x) = (x, 0)) ∧
  (∀ (w : WireType) (xs : List Nat), xs.length = 16 → (∀ x ∈ xs, x < 2 ^ (8 * (wireShape w).2)) →
    packable (wireShape w).1 xs = true →
    ∃ (e : Byte) (codes rest : List Byte), sendGroup w xs = (1 : Byte) :: e :: (codes ++ rest) ∧ codes.length = 8 ∧
      restoreGroup w e.toNat codes rest = xs)

/-! ## Control flow and special registers -/

/-- R235, R236, R238: `j` and `jr` to a target the rules allow take the wave there: all lanes together, or the
executing ones while the others wait on the stack. Nothing else changes. R232, R235, R238: a target the rules refuse
halts with 0x07; a divergent transfer with no token halts with 0x04, and with a full stack with 0x05; none has any
other effect. R235 to R240: `call` and `callr` do the same, give `lr` the low word of the next address in the lanes
that transfer, and push that address onto the return stack, which keeps its eight latest entries. R239, R240: `ret`
with the executing lanes' `lr` equal and a multiple of 4 transfers to that address within the 4 GiB of the word, and
pops the return stack, which a mismatch empties; lanes that disagree halt with 0x06, and an address off the words with
0x07; one that is divergent with no token halts with 0x04, and with a full stack with 0x05. -/
def Obligations.ControlTransfers : Prop :=
  ((∀ (i : Instr) (r : JumpRow) (s : State) (c : Ctx) (target : DWord), jumpRow i = some r → r.call = false →
    Unhindered s r.form c → r.target c = some target → c.MayTransfer →
    ∃ t w', exec i s = .next t ∧ OnlyWave s c t w' ∧ Retired c w' target ∧ c.Transferred w' target ∧
      { w'.bookOf c.w with active := c.w.active, stack := c.w.stack } = c.w) ∧
  ∀ (i : Instr) (r : JumpRow) (s : State) (c : Ctx), jumpRow i = some r → Unhindered s r.form c →
    (r.target c = none → exec i s = .next (s.takeHalt c.key 0x07 0 c.t 0)) ∧
    ∀ target, r.target c = some target → ¬ c.MayTransfer →
      exec i s = .next (s.takeHalt c.key (if hasToken c.w.stack then 0x05 else 0x04) 0 c.t 0)) ∧
  (∀ (i : Instr) (r : JumpRow) (s : State) (c : Ctx) (target : DWord), jumpRow i = some r → r.call = true →
    Unhindered s r.form c → r.target c = some target → c.MayTransfer →
    ∃ t w', exec i s = .next t ∧ OnlyWave s c t w' ∧ Retired c w' target ∧ c.Transferred w' target ∧
      w'.rets = (c.w.pc + 4) :: c.w.rets.take 7 ∧
      (∀ k lane, lane < 64 → w'.slotLane k lane =
        if k = 256 ∧ c.dests.getLsbD lane then BitVec.ofNat 32 ((c.w.pc + 4).toNat) else c.w.slotLane k lane) ∧
      { w'.bookOf c.w with active := c.w.active, stack := c.w.stack, rets := c.w.rets, regs := c.w.regs } = c.w) ∧
  (∀ (g : Guard) (s : State) (c : Ctx) (x : Word), Unhindered s (controlForm g false [(120, 1)]) c →
    x = c.w.slotLane 256 (firstLane c.t) →
    let same : Prop := ∀ lane ∈ lanesOf c.t, c.w.slotLane 256 lane = x
    let target : DWord := BitVec.ofNat 64 (c.w.pc.toNat % 2 ^ 57 / 2 ^ 32 * 2 ^ 32 + x.toNat)
    (¬ same → exec (.ret g) s = .next (s.takeHalt c.key 0x06 0 c.t 0)) ∧
    (same → x.toNat % 4 ≠ 0 → exec (.ret g) s = .next (s.takeHalt c.key 0x07 0 c.t 0)) ∧
    (same → x.toNat % 4 = 0 → ¬ c.MayTransfer →
      exec (.ret g) s = .next (s.takeHalt c.key (if hasToken c.w.stack then 0x05 else 0x04) 0 c.t 0)) ∧
    (same → x.toNat % 4 = 0 → c.MayTransfer →
      ∃ t w', exec (.ret g) s = .next t ∧ OnlyWave s c t w' ∧ Retired c w' target ∧ c.Transferred w' target ∧
        w'.rets = (if c.w.rets.head? = some target then c.w.rets.tail else []) ∧
        { w'.bookOf c.w with active := c.w.active, stack := c.w.stack, rets := c.w.rets } = c.w))

/-- R241: `join.set` pushes a token with the reconvergence address and an empty arrived mask; a target out of range
halts with 0x07, and a full stack with 0x05. R143, R242, R243: `join` at its token's address collects the running
lanes: with paths left above the token the next of them runs, with none the arrived lanes run on together past the
join; with no token, or one of another address, it halts with 0x04. `yield` lets the next path above the nearest token
run and queues the running one behind the others; with no such path it only moves on. It lowers the level by one, not
below 0 (R28). -/
def Obligations.JoinsAndYield : Prop :=
  (∀ (off : BitVec 21) (g : Guard) (s : State) (c : Ctx), Clear s (controlForm g false []) c →
    (offsetTarget off c = none → exec (.joinSet off g) s = .next (s.takeHalt c.key 0x07 0 c.t 0)) ∧
    ∀ target, offsetTarget off c = some target →
      (16 ≤ c.w.stack.length → exec (.joinSet off g) s = .next (s.takeHalt c.key 0x05 0 c.t 0)) ∧
      (c.w.stack.length < 16 →
        ∃ t w', exec (.joinSet off g) s = .next t ∧ OnlyWave s c t w' ∧ Retired c w' (c.after 1) ∧
          w'.bookOf c.w = { c.w with stack := .token target 0 :: c.w.stack })) ∧
  (∀ (g : Guard) (s : State) (c : Ctx), Clear s (controlForm g false []) c →
    (hasToken c.w.stack = false → exec (.join g) s = .next (s.takeHalt c.key 0x04 0 c.t 0)) ∧
    (∀ (r : DWord) (m : Mask) (rest : List StackEntry) (ps : List (DWord × Mask)),
      c.w.stack = pathsOf ps ++ .token r m :: rest →
      (r ≠ c.w.pc → exec (.join g) s = .next (s.takeHalt c.key 0x04 0 c.t 0)) ∧
      (r = c.w.pc → ∃ t w', exec (.join g) s = .next t ∧ OnlyWave s c t w' ∧
        match ps with
        | [] => Retired c w' (c.after 1) ∧ w'.bookOf c.w = { c.w with active := m ||| c.w.active, stack := rest }
        | (p, k) :: more => Retired c w' p ∧ w'.bookOf c.w =
            { c.w with active := k, stack := pathsOf more ++ .token r (m ||| c.w.active) :: rest }) ∧
      (∃ t w', exec (.yield g) s = .next t ∧ OnlyWave s c t w' ∧ w'.level = c.w.level - 1 ∧
        match ps with
        | [] => Retired c w' (c.after 1) ∧ w'.bookOf c.w = c.w
        | (p, k) :: more => Retired c w' p ∧ w'.bookOf c.w =
            { c.w with active := k, stack := pathsOf more ++ .path c.next c.w.active :: .token r m :: rest })) ∧
    (hasToken c.w.stack = false → ∃ t w', exec (.yield g) s = .next t ∧ OnlyWave s c t w' ∧ w'.level = c.w.level - 1 ∧
      Retired c w' (c.after 1) ∧ w'.bookOf c.w = c.w))

/-- R245: `exit` ends its executing lanes: the lanes left go on past it; when none is left on the running path the
nearest path, or the arrived lanes of the nearest token that has any, run next; when there is none the wave has
exited. In every case memory and the control registers are as before. R28, R84, R246, R247: `nop` only moves on,
restores level 7 and ends a series of polls; `trap` halts the block with cause 0x08 and its code in DETAIL; `wbase` sets the window base when it lies in the allocation,
and halts with 0x02 when it does not. -/
def Obligations.ExitNopTrapWbase : Prop :=
  (∀ (g : Guard) (s : State) (c : Ctx), Clear s (controlForm g false []) c →
    ∃ t w', exec (.exit g) s = .next t ∧ t.waves.get? c.key = some w' ∧ t.mem = s.mem ∧ t.ctl = s.ctl ∧
      w'.regs = c.w.regs ∧ w'.live = c.w.live &&& ~~~c.t ∧
      (if c.w.active &&& ~~~c.t ≠ 0 then
        w'.active = c.w.active &&& ~~~c.t ∧ w'.stack = c.w.stack ∧ Retired c w' (c.after 1) ∧ w'.exited = c.w.exited
       else match resumeFrom c.w.stack with
        | some (p, m, rest) => w'.active = m ∧ w'.stack = rest ∧ Retired c w' p ∧ w'.exited = c.w.exited
        | none => w'.active = 0 ∧ w'.stack = [] ∧ w'.exited = true)) ∧
  (∀ (g : Guard) (s : State) (c : Ctx), Clear s (controlForm g false []) c →
    (∃ t w', exec (.nop g) s = .next t ∧ OnlyWave s c t w' ∧ Retired c w' (c.after 1) ∧ w'.level = 7 ∧ w'.polls = 0 ∧
      w'.bookOf c.w = c.w) ∧
    (∀ k : BitVec 14, exec (.trap k g) s = .next (s.takeHalt c.key 0x08 0 c.t (BitVec.ofNat 32 k.toNat))) ∧
    ∀ k : BitVec 14,
      (c.w.regCount ≤ k.toNat → exec (.wbase k g) s = .next (s.takeHalt c.key 0x02 0 c.t 0)) ∧
      (k.toNat < c.w.regCount → ∃ t w', exec (.wbase k g) s = .next t ∧ OnlyWave s c t w' ∧
        Retired c w' (c.after 1) ∧ w'.level = 7 ∧ w'.polls = 0 ∧ w'.bookOf c.w = { c.w with wb := k.toNat }))

/-- R85, R86, R87: `mov.s` gives its destination the special register's value in every lane the result goes to, and
keeps device time for a later read of the high word; a register of access SV outside supervisor state halts with 0x03.
R86, R103, R104: the values special registers read as. R85, R86, R103, R381: `mov.s.w` gives the special register the
value of the lowest executing lane (`%fpflags` each lane its own); read-only registers and reserved bits keep theirs;
outside supervisor state a register of access SV halts with 0x03. `%wtime` counts on from the value written; that in DQM the write itself counts, and that a uniform `mov.s.w` to
`%fpflags` writes the source lane's copy alone, are the model's choices (log entries 54, 57). Both take queue forms: a destination of `mov.s` that names a queue is pushed, an operand of `mov.s.w` that names one pops it.
R397, R398: `mov.s.w` to `%lrmap` in supervisor state gives the wave's section the lane map, in its register and as
adopted, when the value is accepted, and else only moves on. -/
def Obligations.SpecialRegisters : Prop :=
  ((∀ (d : Reg) (sr : SReg) (g : Guard) (u : Bool) (s : State) (c : Ctx),
    Fed s ⟨g, u, 1, [], [(d, 1)], true, false, id⟩ c [] s →
    (svOnly sr = true → c.w.sup = false → exec (.movS d sr g u) s = .next (s.takeHalt c.key 0x03 0 c.t 0)) ∧
    (svOnly sr = false ∨ c.w.sup = true →
      ∃ t w', exec (.movS d sr g u) s = .next t ∧ t.waves.get? c.key = some w' ∧ Retired c w' (c.after 1) ∧
        (∀ k, k ≠ c.key → t.waves.get? k = s.waves.get? k) ∧ { t with waves := s.waves, blocks := s.blocks } = s ∧
        c.Gave s t w' d (s.sreg c (s.capture c sr).1 sr) ∧ w'.latch = (s.capture c sr).2 ∧
        { w'.bookOf c.w with regs := c.w.regs, latch := c.w.latch } = c.w)) ∧
  ∀ (s : State) (c : Ctx) (x : DWord) (lane : Nat),
    s.sreg c x .wave lane = BitVec.ofNat 32 c.w.index ∧ s.sreg c x .block lane = BitVec.ofNat 32 c.b.linear ∧
    s.sreg c x .clus lane = BitVec.ofNat 32 c.b.clus ∧ s.sreg c x .mbr lane = BitVec.ofNat 32 c.b.mbr ∧
    (c.w.core < 2 ^ 16 → c.w.sect < 4 →
      (s.sreg c x .core lane).toNat % 2 ^ 16 = c.w.core ∧ (s.sreg c x .core lane).toNat / 2 ^ 16 = c.w.sect) ∧
    (c.l.standing = none → s.sreg c x .eq lane = 0xFFFFFFFF ∧ s.sreg c x .gen lane = 0) ∧
    s.sreg c x .dix lane = BitVec.ofNat 32 c.w.retired ∧ s.sreg c x .fpmode lane = c.w.fpmode ∧
    s.sreg c x .wtcmp lane = c.w.wtcmp ∧ s.sreg c x .wb lane = BitVec.ofNat 32 c.w.wb ∧
    (s.sreg c x .seedLo lane).toNat + 2 ^ 32 * (s.sreg c x .seedHi lane).toNat = c.w.seed.toNat ∧
    (s.sreg c x .cycleLo lane).toNat + 2 ^ 32 * (s.sreg c x .cycleHi lane).toNat = x.toNat ∧
    (s.sreg c x .fpflags lane).toNat = (c.w.fpflags.getD lane 0).toNat ∧
    (c.l.dqm = false → s.sreg c x .qtm lane = 0 ∧ (s.capture c .cycleLo).1 = BitVec.ofNat 64 s.now) ∧
    (c.l.dqm = true → s.sreg c x .mxgov lane = 0xFFFF0000) ∧
    ((s.sreg c x .tstat lane).toNat % 2 = if c.w.sup then 1 else 0)) ∧
  (∀ (d : Reg) (sr : SReg) (g : Guard) (u : Bool) (s s1 : State) (c : Ctx) (ops : List (List LaneVec)),
    Fed s ⟨g, u, 1, [(d, 1)], [], false, false, id⟩ c ops s1 →
    let v (lane : Nat) : Word := opLane ops 0 lane
    let x := v (firstLane c.t)
    (svOnly sr = true → c.w.sup = false → exec (.movSW d sr g u) s = .next (s.takeHalt c.key 0x03 0 c.t 0)) ∧
    (svOnly sr = false ∨ c.w.sup = true → sr ≠ .lrmap →
      ∃ t w', exec (.movSW d sr g u) s = .next t ∧ OnlyWave s1 c t w' ∧ Retired c w' (c.after 1) ∧
        w'.bookOf c.w = c.sregPut sr x v ∧
        (sr = .wtime → w'.wtime + (if c.l.dqm then 0 else BitVec.ofNat 32 s.now) = x + if c.l.dqm then 1 else 0)) ∧
    (sr = .lrmap → c.w.sup = true → c.w.sect < 4 → s.TablesRise →
      let m := x.extractLsb' 0 15
      let f1 := (m.extractLsb' 0 7).toNat
      let f2 := (m.extractLsb' 8 7).toNat
      let accepted : Prop := (f1 ≤ 64 ∨ f1 = 127) ∧ (f2 ≤ 64 ∨ f2 = 127) ∧ ¬ (f1 ≤ 64 ∧ f2 ≤ f1)
      ∃ t w', exec (.movSW d sr g u) s = .next t ∧ t.waves.get? c.key = some w' ∧ Retired c w' (c.after 1) ∧
        w'.bookOf c.w = c.w ∧ t.mem = s.mem ∧ t.blocks = s1.blocks ∧
        (∀ k, k ≠ c.key → t.waves.get? k = s.waves.get? k) ∧
        (∀ n, n ≠ 4 * c.w.core + c.w.sect → t.lmap n = s.lmap n) ∧
        (accepted → t.lmap (4 * c.w.core + c.w.sect) = m &&& 0x7F7F ∧
          (t.core c.w.core).maps.get c.w.sect = m &&& 0x7F7F) ∧
        (¬ accepted → t.ctl = s.ctl ∧ t.cores = s.cores)))

/-- R382, R397, R398: `trret` in supervisor state, at the depth of its entry, takes the wave back to `%tepc` with the
level of `%tstat` and out of supervisor state; at another depth it halts with 0x04. `lmap.ld` makes the wave's section
adopt its lane map. Outside supervisor state both halt with 0x03. R380: a timer trap with a handler saves the program
counter, the depth and the level, enters supervisor state at level 7 and goes to the handler; the mask, the stacks and
every other register are as before. With no handler it halts the block with cause 0x09. Taking it sets `%wtcmp` to 0.
The low bits of the restored program counter and the level that stands are the model's reading (log entries 44, 45).
-/
def Obligations.SupervisorEntryAndReturn : Prop :=
  (∀ (g : Guard) (s : State) (c : Ctx), Clear s (controlForm g false []) c →
    (c.w.sup = false → exec (.trret g) s = .next (s.takeHalt c.key 0x03 0 c.t 0) ∧
      exec (.lmapLd g) s = .next (s.takeHalt c.key 0x03 0 c.t 0)) ∧
    (c.w.sup = true → c.w.stack.length ≠ c.w.tdepth →
      exec (.trret g) s = .next (s.takeHalt c.key 0x04 0 c.t 0)) ∧
    (c.w.sup = true → c.w.stack.length = c.w.tdepth →
      ∃ t w', exec (.trret g) s = .next t ∧ OnlyWave s c t w' ∧
        Retired c w' (BitVec.ofNat 64 (c.w.tepc.toNat % 2 ^ 57 / 4 * 4)) ∧ w'.level = c.w.tlevel ∧
        w'.bookOf c.w = { c.w with sup := false }) ∧
    (c.w.sup = true →
      ∃ t w', exec (.lmapLd g) s = .next t ∧ t.waves.get? c.key = some w' ∧ Retired c w' (c.after 1) ∧
        w'.bookOf c.w = c.w ∧ t.mem = s.mem ∧ t.ctl = s.ctl ∧
        (c.w.sect < 4 → s.TablesRise → (t.core c.w.core).maps.get c.w.sect = s.ctl.lmaps.getD (4 * c.w.core + c.w.sect) mapNone))) ∧
  ∀ (s : State) (key : Nat) (w : Wave) (b : Block) (l : Launch), s.waves.get? key = some w →
    s.blocks.get? w.block = some b → s.launches.get? b.launch = some l →
    let v : DWord := s.ctl.vectors.getD l.asid 0
    (v.getLsbD 0 = true → ∃ t, s.takeTimer key = t ∧ { t with waves := s.waves } = s ∧
      t.waves.get? key = some { w with
        wtcmp := 0, sup := true, tepc := w.pc, tcause := 0x09, tdepth := w.stack.length, tlevel := w.level, level := 7,
        pc := BitVec.ofNat 64 (v.toNat % 2 ^ 57 / 4 * 4) } ∧
      ∀ k, k ≠ key → t.waves.get? k = s.waves.get? k) ∧
    (v.getLsbD 0 = false → l.standing = none →
      ∃ t, s.takeTimer key = t ∧ 
        t.waves.get? key = some { w.dropWord with wtcmp := 0, halted := true, trapped := w.halted && w.trapped } ∧
        ∃ r : TrapRec, t.traps = s.traps ++ [r] ∧ r.cause = 0x09 ∧ r.pc = w.pc ∧ r.halt = true)

/-! ## Memory instructions -/

/-- R201, R206: a plain load whose accesses pass the checks of R202 and lie on this device, performed at once, gives
each lane its bytes: words as they stand, bytes and halves extended as the form says, one register for each word. It
changes no memory, no block, no control register, no other wave and no other register of its own. R153, R206: in free
mode a load of global memory by a core that holds no copy of any line reads, in each lane, the bytes that stand at the
line's home; a load of a block's scratchpad always reads the bytes of its run. R197: in DQM each byte is the wave's own
latest buffered store to it, else what memory held at the boundary. R173, R175: a load whose data returns later only
enters the wave's outstanding accesses, with its lanes and registers, and the wave moves on; memory and registers are
as before, but that helper lanes with no place to read from take 0 (R24). -/
def Obligations.LoadsGiveBytes : Prop :=
  (∀ (i : Instr) (r : MemRow) (s s1 : State) (c : Ctx) (rs hs : List Reach), loadRow i = some r → Clear s r.loadForm c →
    s.gate c (addrsOf (c.operands [(r.a, 2)]) 0 r.off c.t) (addrsOf (c.operands [(r.a, 2)]) 0 r.off c.hl) r.size .read .copy =
      .go rs hs s1 → allHere (rs ++ hs) →
    (s1.later = false ∨ c.l.dqm = true →
      ∃ t w', exec i s = .next t ∧ t.waves.get? c.key = some w' ∧ Retired c w' (c.after r.words) ∧
      (∀ k, k ≠ c.key → t.waves.get? k = s.waves.get? k) ∧
      t.mem = s.mem ∧ t.blocks = s.blocks ∧ t.ctl = s.ctl ∧ t.launches = s.launches ∧ t.traps = s.traps ∧
      (∀ j, j < r.regs → ∀ k lane, lane < 64 → c.w.slotOf (r.d.toNat + j) = .phys k →
        (c.dests.getLsbD lane = true → w'.slotLane k lane = loadedWord r.size r.signed
          (laneData (s1.readAll c.l c.w s1.seq r.size [] (rs ++ hs)).1 (c.giver lane)) j) ∧
        (c.dests.getLsbD lane = false → w'.slotLane k lane = c.w.slotLane k lane)) ∧
      (∀ k, (∀ j, j < r.regs → c.w.slotOf (r.d.toNat + j) ≠ .phys k) → w'.slotVec k = c.w.slotVec k) ∧
      { w'.bookOf c.w with regs := c.w.regs } = c.w) ∧
    (s1.later = true → c.l.dqm = false →
      let lost (lane : Nat) : Prop := c.hl.getLsbD lane = true ∧ ∀ x ∈ hs, x.lane ≠ lane
      ∃ t w' a, exec i s = .next t ∧ t.waves.get? c.key = some w' ∧ Retired c w' (c.after r.words) ∧
        (∀ k, k ≠ c.key → t.waves.get? k = s.waves.get? k) ∧ t.mem = s.mem ∧ t.blocks = s.blocks ∧ t.ctl = s.ctl ∧
        w'.outst = c.w.outst ++ [a] ∧ a.store = false ∧ a.width = r.size ∧ a.signed = r.signed ∧
        a.dest = c.w.slotsOf r.d r.regs ∧ a.bcast = (if c.u then c.w.active else 0) ∧ a.rmw = none ∧ a.poll = none ∧
        a.parts.map (fun p => (p.lane, p.tgt)) = (rs ++ hs).map (fun x => (x.lane, x.tgt)) ∧
        (∀ k lane, lane < 64 → (k ∈ a.dest → lost lane → w'.slotLane k lane = 0) ∧
          (k ∉ a.dest ∨ ¬ lost lane → w'.slotLane k lane = c.w.slotLane k lane)) ∧
        { w'.bookOf c.w with regs := c.w.regs, outst := c.w.outst } = c.w)) ∧
  (∀ (s : State) (l : Launch) (w : Wave) (n : Nat) (rs : List Reach) (r : Reach), allHere rs → r ∈ rs →
    rs.Pairwise (fun x y => x.lane ≠ y.lane) → s.hit = false →
    (l.dqm = false → w.share = [] → (s.core w.core).l1 = [] →
      (∀ a, r.tgt = .here (.mem a) → a / 64 = (a + n - 1) / 64 → 0 < n →
        laneData (s.readAll l w s.seq n [] rs).1 r.lane =
          if a < 2 ^ 48 then bytesFrom s.homeByte a n else bytesFrom s.rawByte a n) ∧
      (∀ k off b, r.tgt = .here (.scr k off) → s.blocks.get? k = some b →
        laneData (s.readAll l w s.seq n [] rs).1 r.lane = bytesFrom b.scrByte off n)) ∧
    (l.dqm = true →
      (∀ a i, r.tgt = .here (.mem a) → i < n →
        (laneData (s.readAll l w s.seq n [] rs).1 r.lane).getD i 0 = w.share.foldl (fun old e => match e with
          | .store (.here (.mem p)) m v _ _ => if p ≤ a + i ∧ a + i < p + m then BitVec.ofNat 8 (v / 256 ^ (a + i - p)) else old
          | _ => old) (s.byteVia (s.underByte l) (a + i))) ∧
      (∀ k off b i, r.tgt = .here (.scr k off) → s.blocks.get? k = some b → i < n →
        (laneData (s.readAll l w s.seq n [] rs).1 r.lane).getD i 0 = w.share.foldl (fun old e => match e with
          | .store (.here (.scr q p)) m v _ _ => if q = k ∧ p ≤ off + i ∧ off + i < p + m then
              BitVec.ofNat 8 (v / 256 ^ (off + i - p)) else old
          | _ => old) (b.scrByte (off + i)))))

/-- R31, R206: a load of one register whose destination is a queue with room pushes the loaded words of the executing
lanes in ascending order (the source lane's one word when u = 1). R175: one whose data returns later only enters the wave's
outstanding accesses, with the queue its words will enter, and the queue is as before. -/
def Obligations.LoadsIntoQueues : Prop :=
  ∀ (i : Instr) (r : MemRow) (s s1 : State) (c : Ctx) (rs hs : List Reach) (n : Nat) (b : Block), loadRow i = some r →
    Unhindered s r.loadForm c → c.atEdge r.words = false → r.regs = 1 → c.w.slotOf r.d.toNat = .qout n →
    s.mayPush c n = .ok () → s.blocks.get? c.w.block = some b →
    s.gate c (addrsOf (c.operands [(r.a, 2)]) 0 r.off c.t) (addrsOf (c.operands [(r.a, 2)]) 0 r.off c.hl) r.size .read .copy =
      .go rs hs s1 → allHere (rs ++ hs) →
    (s1.later = false ∨ c.l.dqm = true →
      ∃ t w' b', exec i s = .next t ∧ t.waves.get? c.key = some w' ∧ Retired c w' (c.after r.words) ∧ t.mem = s.mem ∧
        w'.regs = c.w.regs ∧ t.blocks.get? c.w.block = some b' ∧
        b'.queue c.w.index n = b.queue c.w.index n ++ (if c.u then [c.src] else c.lanes).map fun lane =>
          loadedWord r.size r.signed (laneData (s1.readAll c.l c.w s1.seq r.size [] (rs ++ hs)).1 lane) 0) ∧
    (s1.later = true → c.l.dqm = false →
      ∃ t w' a, exec i s = .next t ∧ t.waves.get? c.key = some w' ∧ Retired c w' (c.after r.words) ∧ t.mem = s.mem ∧
        t.blocks = s.blocks ∧ w'.regs = c.w.regs ∧ w'.outst = c.w.outst ++ [a] ∧ a.queue = some n ∧ a.got = [] ∧
        a.store = false ∧ a.parts.map (fun p => (p.lane, p.tgt)) = rs.map fun x => (x.lane, x.tgt))

/-- R201, R203, R206: a plain store in free mode whose accesses pass the checks of R202 and lie on this device,
performed at once, in every form (data from registers or popped from a queue): every byte a lane's access covers takes
the byte the highest such lane stores, in memory and in scratchpads, and every other byte, every register and every
other wave keeps its value. R173, R175: one that its homes apply later only enters the wave's outstanding accesses,
with each lane's place and data (of lanes that store to one place the highest, R203), and the wave moves on. R197, R204,
R205: in DQM the lanes of a store or of a release store that lie in the block's own scratchpad take effect at once, and
the others enter the wave's commit share, in ascending lane order, where memory and other scratchpads keep their bytes
until the boundary; what the share holds stays, where no store at once overlaps it; a store that the share has no room
for ends the quantum before the word, with no effect. -/
def Obligations.StoresWriteOrBuffer : Prop :=
  (∀ (i : Instr) (r : MemRow) (s s0 s1 : State) (c : Ctx) (ops : List (List LaneVec)) (rs hs : List Reach),
    storeRow i = some r → Unhindered s r.storeForm c → c.atEdge r.words = false → s.MemCanon → s.OnChipCanon →
    c.l.dqm = false → s.readFields c [(r.d, r.regs), (r.a, 2)] = .ok (ops, s0) →
    s0.gate c (addrsOf ops 1 r.off c.t) [] r.size .write .nothing = .go rs hs s1 → allHere rs →
    (s1.later = false →
      ∃ t w', exec i s = .next t ∧ t.waves.get? c.key = some w' ∧ Retired c w' (c.after r.words) ∧
      (∀ a, t.rawByte a = storedByte r.size (storeData r.size ops 0) a (s.rawByte a) rs) ∧
      (∀ k b, s.blocks.get? k = some b → ∃ b', t.blocks.get? k = some b' ∧
        (∀ a, b'.scrByte a = storedScr r.size (storeData r.size ops 0) k a (b.scrByte a) rs) ∧
        { b' with scr := b.scr, scrPoison := b.scrPoison, queues := b.queues } = b) ∧
      { w'.bookOf c.w with horizon := c.w.horizon } = c.w ∧ (∀ k, k ≠ c.key → t.waves.get? k = s.waves.get? k) ∧
      t.ctl = s.ctl ∧ t.traps = s.traps) ∧
    (s1.later = true → c.w.remote = [] →
      ∃ t w' a, exec i s = .next t ∧ t.waves.get? c.key = some w' ∧ Retired c w' (c.after r.words) ∧ t.mem = s.mem ∧
        t.blocks = s0.blocks ∧ t.ctl = s.ctl ∧ (∀ k, k ≠ c.key → t.waves.get? k = s.waves.get? k) ∧
        w'.outst = c.w.outst ++ [a] ∧ a.store = true ∧ a.width = r.size ∧ a.dest = [] ∧ a.rmw = none ∧
        a.parts.map (fun p => (p.lane, p.tgt, p.data)) =
          (keepLast rs).map (fun x => (x.lane, x.tgt, storeData r.size ops 0 x.lane)) ∧
        { w'.bookOf c.w with outst := c.w.outst } = c.w)) ∧
  (∀ (rs : List Reach) (x : Reach), x ∈ keepLast rs ↔ ∃ xs ys, rs = xs ++ x :: ys ∧ ∀ y ∈ ys, y.tgt ≠ x.tgt) ∧
  (∀ (i : Instr) (r : MemRow) (s s1 : State) (c : Ctx) (rs hs : List Reach),
    storeRow i = some r ∨ (∃ q, releaseRow i = some q ∧ q.row = r ∧ c.NoRollback) → Clear s r.storeForm c →
    c.l.dqm = true → c.w.hold = none → c.w.holdOn = none → s.OnChipCanon →
    let ops := c.operands [(r.d, r.regs), (r.a, 2)]
    let far := rs.filter fun x => !c.ownScr x.tgt
    s.gate c (addrsOf ops 1 r.off c.t) [] r.size .write .nothing = .go rs hs s1 → allHere rs →
    (far = [] ∨ c.w.shareUsed + r.size * far.length ≤ 1024 →
      ∃ t w' b', exec i s = .next t ∧ t.waves.get? c.key = some w' ∧ Retired c w' (c.after r.words) ∧
        ((∀ n v u lane a, .store u n v lane a ∈ c.w.share → ∀ x ∈ rs, c.ownScr x.tgt = true →
            x.tgt.overlaps r.size u n = false) →
          w'.share = c.w.share ++
            far.map (fun x => .store x.tgt r.size (storeData r.size ops 0 x.lane) x.lane x.addr)) ∧
        w'.shareUsed = c.w.shareUsed + r.size * far.length ∧ w'.regs = c.w.regs ∧ t.mem = s.mem ∧
        t.blocks.get? c.w.block = some b' ∧
        (∀ a, b'.scrByte a = storedScr r.size (storeData r.size ops 0) c.w.block a (c.b.scrByte a) rs) ∧
        { b' with scr := c.b.scr, scrPoison := c.b.scrPoison } = c.b ∧
        (∀ k, k ≠ c.w.block → t.blocks.get? k = s.blocks.get? k) ∧
        ∀ k, k ≠ c.key → t.waves.get? k = s.waves.get? k) ∧
    (far ≠ [] → 1024 < c.w.shareUsed + r.size * far.length →
      ∃ t w', exec i s = .next t ∧ t.waves.get? c.key = some w' ∧ w'.qend = true ∧ w'.pc = c.w.pc ∧
        w'.retired = c.w.retired ∧ w'.share = c.w.share ∧ w'.regs = c.w.regs ∧ t.mem = s.mem ∧ t.blocks = s.blocks))

/-- R202: the checks of an access in their order over its executing lanes: the address space, then the alignment, then
the bounds; the lowest lane that fails the first failing check is reported, with cause 0x10, 0x11 or 0x12. R201: an
address plus an offset keeps the space nibble and wraps below it. R157, R202: the later checks, for a lane's global
address: an absent page is a recoverable translation fault; a malformed entry faults with 0x14, an access the entry
does not permit with 0x15, a write of an enabled view with 0x16, and one that consumes poisoned bytes with 0x17; where
several lanes were translated, each of these checks goes over all lanes before the next. Every load, store, atomic,
compare-and-swap and poll that fails a check has no effect: it halts its block with the check's cause, the lane's
address and the lane in DETAIL, or, for an absent page, parks its wave. -/
def Obligations.AddressesAreChecked : Prop :=
  (∀ (s : State) (c : Ctx) (as : List (Nat × DWord)) (size : Nat) (p : Purpose) (takes : Takes) (lane : Nat) (a : DWord),
    (∀ xs ys, as = xs ++ (lane, a) :: ys → (∀ x ∈ xs, s.spaceOk c x.2 = true) → s.spaceOk c a = false →
      s.check c as size p takes = .fault 0x10 lane a) ∧
    ((∀ x ∈ as, s.spaceOk c x.2 = true) →
      (∀ xs ys, as = xs ++ (lane, a) :: ys → (∀ x ∈ xs, x.2.toNat % size = 0) → a.toNat % size ≠ 0 →
        s.check c as size p takes = .fault 0x11 lane a) ∧
      ((∀ x ∈ as, x.2.toNat % size = 0) →
        (∀ xs ys, as = xs ++ (lane, a) :: ys →
          (∀ x ∈ xs, offsetOf x.2 + size ≤ c.spaceSize x.2) → c.spaceSize a < offsetOf a + size →
          s.check c as size p takes = .fault 0x12 lane a) ∧
        ((∀ x ∈ as, offsetOf x.2 + size ≤ c.spaceSize x.2) → (∀ x ∈ as, s.unstarted c x.2 = false) →
          let found := s.reachAll c as
          let absent (x : Nat × DWord × Option (Except Nat Xlate)) : Prop := x.2.2 = some (.error 0x13)
          let bad (x : Nat × DWord × Option (Except Nat Xlate)) : Prop := ∃ k, x.2.2 = some (.error k)
          let refused (x : Nat × DWord × Option (Except Nat Xlate)) : Prop :=
            ∃ k, x.2.2 = some (.ok k) ∧ k.permits p c.w.sup = false
          found.2.2 = [] → ∀ xs x ys, found.2.1 = xs ++ x :: ys →
          ((∀ y ∈ xs, ¬ absent y) → absent x → s.check c as size p takes = .park x.1 x.2.1) ∧
          ((∀ y ∈ found.2.1, ¬ absent y) →
            ((∀ y ∈ xs, ¬ bad y) → bad x → s.check c as size p takes = .fault 0x14 x.1 x.2.1) ∧
            ((∀ y ∈ found.2.1, ¬ bad y) → (∀ y ∈ xs, ¬ refused y) → refused x →
              s.check c as size p takes = .fault 0x15 x.1 x.2.1)))))) ∧
  (∀ (s : State) (c : Ctx) (a : DWord) (lane size : Nat) (p : Purpose) (takes : Takes),
    spaceOf a = 0 → s.spaceOk c a = true → a.toNat % size = 0 → offsetOf a + size ≤ 2 ^ 57 → s.later = false →
    s.cached c.w.core c.l.asid (offsetOf a) = none → s.mustQueue c.l.asid (offsetOf a) = false →
    c.w.walkOut = [] →
    match s.walk c.l.asid c.l.root (offsetOf a) with
    | .absent => s.check c [(lane, a)] size p takes = .park lane a
    | .malformed => s.check c [(lane, a)] size p takes = .fault 0x14 lane a
    | .leaf x =>
      let place := s.route (x.target (offsetOf a))
      (x.permits p c.w.sup = false → s.check c [(lane, a)] size p takes = .fault 0x15 lane a) ∧
      (x.permits p c.w.sup = true →
        (p = .write → s.inView place = true → s.check c [(lane, a)] size p takes = .fault 0x16 lane a) ∧
        (p ≠ .write ∨ s.inView place = false →
          (s.poisonedAt c takes place size = true → s.check c [(lane, a)] size p takes = .fault 0x17 lane a) ∧
          (s.poisonedAt c takes place size = false →
            ∃ t, s.check c [(lane, a)] size p takes = .ok [⟨lane, a, place⟩] t)))) ∧
  (∀ (i : Instr) (r : CheckRow) (s s0 : State) (c : Ctx) (ops : List (List LaneVec)), checkRow i = some r →
    Unhindered s r.form c → s.roomFor c r.form.writes = .ok () → s.readFields c r.form.reads = .ok (ops, s0) →
    c.w.hold = none → c.w.holdOn = none → c.w.remote = [] → c.w.partDone = 0 →
    (∀ k lane a, s0.check c (addrsOf ops r.operand r.off c.t) r.size r.p (r.takes c.l.dqm) = .fault k lane a →
      (k = 0x17 → c.b.snap = none ∨ c.b.ownAddr a = false) →
      exec i s = .next (s.takeHalt c.key k a c.t (BitVec.ofNat 32 lane))) ∧
    ∀ lane a, s0.check c (addrsOf ops r.operand r.off c.t) r.size r.p (r.takes c.l.dqm) = .park lane a →
      exec i s = .next (s.takePark c.key a c.t lane)) ∧
  ∀ (base : DWord) (off : Int), (stepAddr base off).toNat / 2 ^ 60 = base.toNat / 2 ^ 60 ∧
    ((stepAddr base off).toNat % 2 ^ 60 : Int) = ((base.toNat : Int) + off) % 2 ^ 60

/-- R208, R209: `pf.l2` brings the lines it names into L2 and `pf.l1` into the core's L1 too, as they stand at their
homes, under a lease from now on; neither faults. `cinv` drops the core's copies of the lines it
names, and keeps the others; `cinv.all` drops all. None changes memory, a block, a register or another wave. R159: a
prefetch or a `cinv` with an address whose translation is being walked waits for the walk. A `cinv`
of an address of no space halts with 0x10. R178, R197: a `fence` waits while its wave's accesses are outstanding or its
horizon is ahead, then only moves on, setting older copies aside at cell scope or wider; in DQM it only moves on. (For
parties outside a scope narrower than the device the hold may be taken to end at once, R172: `later`.) -/
def Obligations.FencesAndCacheWords : Prop :=
  (∀ (a : Reg) (g : Guard) (u : Bool) (s : State) (c : Ctx),
    (∀ (i : Instr) (n : Nat) (l1 : Bool) (off : Int),
      (∃ k, i = .pfL1 a k g u ∧ n = 1 ∧ l1 = true ∧ off = 4 * k.toInt) ∨
        (∃ k, i = .pfL1P a k g u ∧ n = 2 ∧ l1 = true ∧ off = k.toInt) ∨
        (∃ k, i = .pfL2 a k g u ∧ n = 1 ∧ l1 = false ∧ off = 4 * k.toInt) ∨
        (∃ k, i = .pfL2P a k g u ∧ n = 2 ∧ l1 = false ∧ off = k.toInt) →
      Clear s ⟨g, u, n, [(a, 2)], [], false, false, id⟩ c →
      let walks := (s.quietLook c (addrsOf (c.operands [(a, 2)]) 0 off c.t)).2.1
      (walks ≠ [] → ∃ t w', exec i s = .next t ∧ c.Waits t w' ∧ w'.walking = walks ∧ t.mem = s.mem ∧ t.blocks = s.blocks) ∧
      (walks = [] → ∃ t w', exec i s = .next t ∧ t.waves.get? c.key = some w' ∧ Retired c w' (c.after n) ∧
        w'.bookOf c.w = c.w ∧ t.mem = s.mem ∧ t.blocks = s.blocks ∧ t.ctl = s.ctl ∧ (∀ k, k ≠ c.key → t.waves.get? k = s.waves.get? k) ∧
        (l1 = false → ∀ k, (t.core k).l1 = (s.core k).l1) ∧
        ∀ lane x p, addrsOf (c.operands [(a, 2)]) 0 off c.t = [(lane, x)] → spaceOf x = 0 → s.spaceOk c x = true →
          ∀ m, s.cached c.w.core c.l.asid (offsetOf x) = some m → m.permits .read c.w.sup = true →
          s.route (m.target (offsetOf x)) = .here (.mem p) → s.poisoned (.mem p) 1 = false → p < 2 ^ 48 →
          s.TablesRise → (t.l2.get? (p / 64)).isSome = true ∧
            (l1 = true → s.hit = false → ∃ k, (t.core c.w.core).l1.get? (p / 64) = some k ∧
              k.bytes = bytesFrom s.homeByte (p / 64 * 64) 64 ∧ k.lease = s.now + s.leaseLen))) ∧
    (Clear s ⟨g, u, 1, [(a, 2)], [], false, false, id⟩ c →
      (∀ xs lane x ys, addrsOf (c.operands [(a, 2)]) 0 0 c.t = xs ++ (lane, x) :: ys →
        (∀ y ∈ xs, s.spaceOk c y.2 = true) → s.spaceOk c x = false →
        exec (.cinv a g u) s = .next (s.takeHalt c.key 0x10 x c.t (BitVec.ofNat 32 lane))) ∧
      ((∀ x ∈ addrsOf (c.operands [(a, 2)]) 0 0 c.t, s.spaceOk c x.2 = true) →
        let named (line : Nat) : Prop := ∃ x ∈ addrsOf (c.operands [(a, 2)]) 0 0 c.t, spaceOf x.2 = 0 ∧
          ∃ m p, s.cached c.w.core c.l.asid (offsetOf x.2) = some m ∧ s.route (m.target (offsetOf x.2)) = .here (.mem p) ∧
            p / 64 = line
        let walks := (s.quietLook c (addrsOf (c.operands [(a, 2)]) 0 0 c.t)).2.1
        (walks ≠ [] → ∃ t w', exec (.cinv a g u) s = .next t ∧ c.Waits t w' ∧ w'.walking = walks ∧ t.mem = s.mem) ∧
        (walks = [] → ∃ t w', exec (.cinv a g u) s = .next t ∧ t.waves.get? c.key = some w' ∧ Retired c w' (c.after 1) ∧
          w'.bookOf c.w = c.w ∧ t.mem = s.mem ∧ t.blocks = s.blocks ∧ t.ctl = s.ctl ∧
          (∀ k, k ≠ c.key → t.waves.get? k = s.waves.get? k) ∧
          (s.TablesRise → KMap.wf (s.core c.w.core).l1 = true → ∀ line,
            (named line → (t.core c.w.core).l1.get? line = none) ∧
            (¬ named line → (∀ x ∈ addrsOf (c.operands [(a, 2)]) 0 0 c.t, spaceOf x.2 = 0 →
                (s.cached c.w.core c.l.asid (offsetOf x.2)).isSome = true) →
              (t.core c.w.core).l1.get? line = (s.core c.w.core).l1.get? line))))) ∧
    (Clear s ⟨g, u, 1, [], [], false, false, id⟩ c → s.TablesRise →
      ∃ t w', exec (.cinvAll g u) s = .next t ∧ t.waves.get? c.key = some w' ∧ Retired c w' (c.after 1) ∧
        w'.bookOf c.w = c.w ∧ (t.core c.w.core).l1 = [] ∧ t.mem = s.mem ∧ t.blocks = s.blocks ∧ t.ctl = s.ctl ∧
        (∀ k, k ≠ c.w.core → t.core k = s.core k) ∧ ∀ k, k ≠ c.key → t.waves.get? k = s.waves.get? k)) ∧
  (∀ (sc : Scope) (g : Guard) (s : State) (c : Ctx), Clear s (controlForm g false []) c →
    (c.l.dqm = true ∨ (s.released c.w sc = true ∧ s.NonePublished) →
      ∃ t w', exec (.fence sc g) s = .next t ∧ OnlyWave s c t w' ∧ Retired c w' (c.after 1) ∧
        w'.bookOf c.w = { c.w with acq := if c.l.dqm = false ∧ wideScope sc = true then s.seq else c.w.acq }) ∧
    (c.l.dqm = false → s.released c.w sc = false → s.later = false ∨ narrow sc = false ∨ s.tileOpen c.w sc = true →
      ∃ t w', exec (.fence sc g) s = .next t ∧ t.waves.get? c.key = some w' ∧ w'.pc = c.w.pc ∧
        w'.retired = c.w.retired ∧ w'.bookOf c.w = c.w ∧ t.mem = s.mem))

/-- R177, R180, R210: an acquire load, and an SC load, whose accesses lie on this device and are performed at once
complete with the bytes read, and at cell scope or wider set older copies of the core aside for the wave; in DQM they
are plain loads. They change no memory and no block. R172: what another wave has published to the acquiring one by a
release at a narrow scope is performed by then. R175 to R177: one whose lanes are performed later holds its wave until
they are, and then retires. R176, R180, R210: a release store waits, with no store made, while an access of its wave is
outstanding (for parties outside a narrow scope the hold may be taken to end at once, R172); once the earlier ones have
ended it stores its bytes, as a plain store does, and at a scope narrower than cell completes at once; at a wider scope
it completes when the time its homes gave the write has come. -/
def Obligations.AcquireAndRelease : Prop :=
  (∀ (i : Instr) (r : OrderRow) (s s1 : State) (c : Ctx) (rs hs : List Reach), acquireRow i = some r →
    Clear s r.row.loadForm c →
    (c.w.holdOn = none →
      s.gate c (addrsOf (c.operands [(r.row.a, 2)]) 0 0 c.t) (addrsOf (c.operands [(r.row.a, 2)]) 0 0 c.hl) r.row.size
        .read (if r.stamped && !c.l.dqm then .home else .copy) = .go rs hs s1 → allHere (rs ++ hs) → c.l.dqm = true ∨ (s1.later = false ∧ s.NonePublished) →
      ∃ t w', exec i s = .next t ∧ t.waves.get? c.key = some w' ∧ Retired c w' (c.after 1) ∧
      t.mem = s.mem ∧ t.blocks = s.blocks ∧ t.ctl = s.ctl ∧ (∀ k, k ≠ c.key → t.waves.get? k = s.waves.get? k) ∧
      (c.l.dqm = false → wideScope r.sc = true → s1.seq ≤ w'.acq) ∧
      { w'.bookOf c.w with regs := c.w.regs, acq := c.w.acq } = c.w ∧
      ∀ j, j < r.row.regs → ∀ k lane, lane < 64 → c.w.slotOf (r.row.d.toNat + j) = .phys k →
        (c.dests.getLsbD lane = true → w'.slotLane k lane = loadedWord r.row.size false
          (laneData (if c.l.dqm = false ∧ r.stamped = true then s1.readHomes c.l c.w r.row.size [] (rs ++ hs)
            else (s1.readAll c.l c.w s1.seq r.row.size [] (rs ++ hs)).1) (c.giver lane)) j) ∧
        (c.dests.getLsbD lane = false → w'.slotLane k lane = c.w.slotLane k lane)) ∧
    ∀ id, c.w.holdOn = some id →
      ((∃ a ∈ c.w.outst, a.id = id) → ∃ t w', exec i s = .next t ∧ OnlyWave s c t w' ∧ c.Waits t w' ∧
        w'.bookOf c.w = c.w) ∧
      ((∀ a ∈ c.w.outst, a.id ≠ id) → s.NonePublished → ∃ t w', exec i s = .next t ∧ OnlyWave s c t w' ∧
        Retired c w' (c.after 1) ∧ w'.holdOn = none ∧
        w'.bookOf c.w = { c.w with acq := if wideScope r.sc = true then s.seq else c.w.acq })) ∧
  (∀ (s : State) (key : Nat) (q : Wave) (sc : Scope), s.waves.get? key = some q → KMap.wf s.waves = true →
    (∀ e ∈ s.waves, e.2.outst.Pairwise fun x y => x.id ≠ y.id) →
    ∀ j v a r, j ≠ key → s.waves.get? j = some v → a ∈ v.outst → a.rel = some r → v.includes q r = true →
      q.includes v sc = true → ∃ v', (s.acquire key sc).waves.get? j = some v' ∧ ∀ x ∈ v'.outst, x.id ≠ a.id) ∧
  (∀ (i : Instr) (r : OrderRow) (s s1 : State) (c : Ctx) (rs hs : List Reach), releaseRow i = some r →
    Clear s r.row.storeForm c → s.MemCanon → c.l.dqm = false → c.NoRollback →
    let ops := c.operands [(r.row.d, r.row.regs), (r.row.a, 2)]
    (∀ v, c.w.holdOn = none → c.w.hold = some v → v ≤ s.now → ∃ t w', exec i s = .next t ∧ OnlyWave s c t w' ∧
      Retired c w' (c.after 1) ∧ w'.bookOf c.w = c.w ∧ w'.hold = none) ∧
    (∀ id, c.w.holdOn = some id → (∀ a ∈ c.w.outst, a.id ≠ id) → c.w.remote = [] → c.w.reach = [] →
      wideScope r.sc = false ∨ c.w.horizon ≤ s.now →
      ∃ t w', exec i s = .next t ∧ OnlyWave s c t w' ∧ Retired c w' (c.after 1) ∧ w'.bookOf c.w = c.w ∧
        w'.holdOn = none) ∧
    (c.w.holdOn = none → c.w.hold = none → s.gate c (addrsOf ops 1 0 c.t) [] r.row.size .write .nothing = .go rs hs s1 →
      allHere rs → s1.later = false →
      (s1.released c.w r.sc = false → ∃ t w', exec i s = .next t ∧ t.mem = s.mem ∧ t.blocks.keys = s.blocks.keys ∧
        t.waves.get? c.key = some w' ∧ w'.pc = c.w.pc ∧ w'.retired = c.w.retired ∧ w'.regs = c.w.regs) ∧
      (s1.released c.w r.sc = true → ∃ t w', exec i s = .next t ∧ t.waves.get? c.key = some w' ∧ w'.regs = c.w.regs ∧
        (∀ a, t.rawByte a = storedByte r.row.size (storeData r.row.size ops 0) a (s.rawByte a) rs) ∧
        (wideScope r.sc = false → Retired c w' (c.after 1)) ∧
        (w'.retired = c.w.retired → ∃ v, w'.hold = some v ∧ s1.now < v))))

/-- R203, R211 to R214: in free mode an atomic or compare-and-swap of locations of this device, memory or scratchpad,
in any number of lanes, with nothing of its wave outstanding and performed at once: its lanes act one after another in
ascending order, each leaving the result of the operation on what stands there then (a compare that fails leaves it),
every other byte is kept, and each lane takes the old value it met, high word and all; a uniform form gives it to every
lane of S. At a scope narrower than cell the word has then retired; at a wider one it holds its wave while a write of it
is not complete, and retires when the time has come. R197, R203 to R205: in DQM the lanes of a word that lie in the
block's own scratchpad act at once in the same way; the others enter the commit share, 16 bytes each (32 for `cas.d`), with
operands, registers and lanes, and the quantum ends after the word; where the share has no room for them it ends before the
word. A `cas.d` whose lanes no share can hold puts as many as it holds into an empty one, and goes on with the rest in the
next quantum. R211 to R213: what
the read-modify-writes of 4 and 8 bytes leave in place of the old value: the sum modulo the width, bit operations, signed
and unsigned minimum and maximum, exchange; the FP32 sum rounded to nearest even, minimum and maximum; a
compare-and-swap leaves its second operand where the old value equals the first, and writes nothing where it does not.
-/
def Obligations.AtomicsReadModifyWrite : Prop :=
  (∀ (i : Instr) (r : RmwRow) (s s1 : State) (c : Ctx) (rs hs : List Reach), rmwRow i = some r →
    Clear s r.form c → s.MemCanon → s.OnChipCanon → c.NoRollback → c.w.holdOn = none → c.w.partDone = 0 →
    let ops := c.operands [(r.d, r.op.reads), (r.a, 2)]
    let v := r.op.operands ops
    let seq := rmwSeq r.op v s.byteAt rs
    let takesOld (w' : Wave) : Prop := ∀ j, j < r.op.words → ∀ k lane, lane < 64 → c.w.slotOf (r.d.toNat + j) = .phys k →
      w'.slotLane k lane = if c.dests.getLsbD lane = true then
        BitVec.ofNat 32 (oldOf seq.1 (c.giver lane) / 2 ^ (32 * j)) else c.w.slotLane k lane
    (∀ x, c.l.dqm = false → c.w.hold = some x → x ≤ s.now → ∃ t w', exec i s = .next t ∧ OnlyWave s c t w' ∧
      Retired c w' (c.after 1) ∧ w'.bookOf c.w = c.w ∧ w'.hold = none) ∧
    (c.w.hold = none → s.gate c (addrsOf ops 1 0 c.t) [] r.op.width .write .home = .go rs hs s1 → allHere rs →
      rs.map Reach.lane = c.lanes → (∀ x ∈ rs, ∀ p j, x.tgt = .here (.mem p) → j < r.op.width → s.windowAt (p + j) = none) →
      (∀ x ∈ rs, ∀ b o, x.tgt = .here (.scr b o) → (s.blocks.get? b).isSome = true) →
      (c.l.dqm = false → s1.later = false → s1.released c.w r.sc = true → s.NonePublished →
        ∃ t w', exec i s = .next t ∧ t.waves.get? c.key = some w' ∧ takesOld w' ∧ (∀ x, t.byteAt x = seq.2 x) ∧
          t.ctl = s.ctl ∧ (∀ k, k ≠ c.key → t.waves.get? k = s.waves.get? k) ∧
          (wideScope r.sc = false ∨ (∀ x ∈ rs, ∃ b o, x.tgt = .here (.scr b o)) → Retired c w' (c.after 1)) ∧
          (w'.retired = c.w.retired → w'.pc = c.w.pc ∧ ∃ x, w'.hold = some x ∧ s1.now < x)) ∧
      (c.l.dqm = true →
        let near := rs.filter fun x => c.ownScr x.tgt
        let far := rs.filter fun x => !c.ownScr x.tgt
        let own := rmwSeq r.op v s.byteAt near
        let each := if r.op = .cas 8 then 32 else 16
        let entry (x : Reach) : Buffered := .rmw r.op x.tgt (v x.lane).1 (v x.lane).2 (c.w.slotsOf r.d r.op.words)
          (if c.u then c.w.active else maskOf fun i => i == x.lane) x.lane x.addr
        let nearDone (t : State) (w' : Wave) : Prop := (∀ x, t.byteAt x = own.2 x) ∧ t.mem = s.mem ∧
          ∀ j, j < r.op.words → ∀ k lane, lane < 64 → c.w.slotOf (r.d.toNat + j) = .phys k → w'.slotLane k lane =
            if c.dests.getLsbD lane = true ∧ c.giver lane ∈ near.map Reach.lane then
              BitVec.ofNat 32 (oldOf own.1 (c.giver lane) / 2 ^ (32 * j)) else c.w.slotLane k lane
        (∀ n y u lane a, .store u n y lane a ∈ c.w.share → ∀ x ∈ near, x.tgt.overlaps r.op.width u n = false) →
        (far = [] ∨ c.w.shareUsed + each * far.length ≤ 1024 →
          ∃ t w', exec i s = .next t ∧ t.waves.get? c.key = some w' ∧ Retired c w' (c.after 1) ∧ nearDone t w' ∧
            (far ≠ [] → w'.qend = true) ∧ w'.share = c.w.share ++ far.map entry ∧
            w'.shareUsed = c.w.shareUsed + each * far.length) ∧
        (far ≠ [] → 1024 < c.w.shareUsed + each * far.length → each * far.length ≤ 1024 ∨ 0 < c.w.shareUsed →
          ∃ t w', exec i s = .next t ∧ t.waves.get? c.key = some w' ∧ w'.qend = true ∧ w'.pc = c.w.pc ∧
            w'.retired = c.w.retired ∧ w'.share = c.w.share ∧ w'.regs = c.w.regs ∧ t.mem = s.mem ∧ t.blocks = s.blocks) ∧
        (1024 < each * far.length → c.w.shareUsed = 0 →
          ∃ t w', exec i s = .next t ∧ t.waves.get? c.key = some w' ∧ w'.qend = true ∧ w'.pc = c.w.pc ∧
            w'.retired = c.w.retired ∧ nearDone t w' ∧ w'.share = c.w.share ++ (far.take (1024 / each)).map entry ∧
            ∀ lane, lane < 64 → (w'.partDone.getLsbD lane = true ↔
              lane ∈ (far.take (1024 / each) ++ near).map Reach.lane))))) ∧
  (∀ (n old : Nat) (v w : DWord), n = 4 ∨ n = 8 → old < 2 ^ (8 * n) →
    let x := v.toNat % 2 ^ (8 * n)
    let signed (y : Nat) : Int := if y < 2 ^ (8 * n - 1) then (y : Int) else (y : Int) - 2 ^ (8 * n)
    (Rmw.int .add n).result old v w = some ((old + x) % 2 ^ (8 * n)) ∧
    (Rmw.int .and n).result old v w = some (old &&& x) ∧ (Rmw.int .or n).result old v w = some (old ||| x) ∧
    (Rmw.int .xor n).result old v w = some (old ^^^ x) ∧ (Rmw.int .xchg n).result old v w = some x ∧
    (Rmw.int .minu n).result old v w = some (Nat.min old x) ∧ (Rmw.int .maxu n).result old v w = some (Nat.max old x) ∧
    (∃ y, (Rmw.int .min n).result old v w = some y ∧ y < 2 ^ (8 * n) ∧ signed y = min (signed old) (signed x)) ∧
    (∃ y, (Rmw.int .max n).result old v w = some y ∧ y < 2 ^ (8 * n) ∧ signed y = max (signed old) (signed x)) ∧
    (Rmw.cas n).result old v w = (if old = x then some (w.toNat % 2 ^ (8 * n)) else none)) ∧
  ∀ (old : Nat) (v w : DWord), old < 2 ^ 32 →
    let x := v.toNat % 2 ^ 32
    (Rmw.f32 .add).result old v w = some (fp32.addF rneKeep (fp32.read old) (fp32.read x)).1 ∧
    (Rmw.f32 .min).result old v w = some (fp32.minmax false old x).1 ∧
    (Rmw.f32 .max).result old v w = some (fp32.minmax true old x).1

/-- R28, R144, R216: a `poll` of locations of this device, performed at once, gives each executing lane 1 where its word
meets the condition and 0 elsewhere. When every lane's does, the level returns to 7; else the level falls by one and the
wave backs off, 4 cycles at its first failure and twice as long at each further one, up to 256. Memory keeps its bytes.
R175: one whose lanes are performed later holds its wave until they are, with the outcomes in its destination, and then
retires in the same two ways. -/
def Obligations.PollCompares : Prop :=
  ∀ (p : PollCond) (sc : Scope) (d a : Reg) (g : Guard) (u : Bool) (s s1 : State) (c : Ctx) (rs hs : List Reach),
    let ops := c.operands [(d, 1), (a, 2)]
    Clear s ⟨g, u, 1, [(d, 1), (a, 2)], [(d, 1)], true, true, id⟩ c →
    (∀ id, c.w.holdOn = some id →
      ((∃ a ∈ c.w.outst, a.id = id) → ∃ t w', exec (.poll p d a sc g u) s = .next t ∧ OnlyWave s c t w' ∧
        c.Waits t w' ∧ w'.bookOf c.w = c.w) ∧
      ((∀ a ∈ c.w.outst, a.id ≠ id) → s.NonePublished → ∃ t w', exec (.poll p d a sc g u) s = .next t ∧
        OnlyWave s c t w' ∧ Retired c w' (c.after 1) ∧ w'.holdOn = none ∧
        w'.bookOf c.w = { c.w with acq := if wideScope sc = true then s.seq else c.w.acq } ∧
        ((∀ lane ∈ c.lanes, opLane ops 0 lane = 1) → w'.level = 7 ∧ w'.polls = 0) ∧
        (¬ (∀ lane ∈ c.lanes, opLane ops 0 lane = 1) → w'.level = c.w.level - 1 ∧
          w'.backoff = some (s.now + min 256 (4 * 2 ^ c.w.polls))))) ∧
    (c.w.holdOn = none → s.gate c (addrsOf ops 1 0 c.t) (addrsOf ops 1 0 c.hl) 4 .read .copy = .go rs hs s1 → allHere (rs ++ hs) →
    c.l.dqm = true ∨ (s1.later = false ∧ s.NonePublished) →
    let got := (s1.readAll c.l c.w s1.seq 4 [] (rs ++ hs)).1
    let met (lane : Nat) : Prop := laneData got lane ≠ [] ∧
      pollHolds p (loadedWord 4 false (laneData got lane) 0) (opLane ops 0 lane) = true
    ∃ t w', exec (.poll p d a sc g u) s = .next t ∧ t.waves.get? c.key = some w' ∧ Retired c w' (c.after 1) ∧
      t.mem = s.mem ∧ t.blocks = s.blocks ∧
      (∀ k lane, lane < 64 → c.w.slotOf d.toNat = .phys k → c.dests.getLsbD lane = true →
        (met (c.giver lane) → w'.slotLane k lane = 1) ∧ (¬ met (c.giver lane) → w'.slotLane k lane = 0)) ∧
      ((∀ lane ∈ c.lanes, met lane) → w'.level = 7 ∧ w'.polls = 0) ∧
      (¬ (∀ lane ∈ c.lanes, met lane) → w'.level = c.w.level - 1 ∧
        w'.backoff = some (s1.now + min 256 (4 * 2 ^ c.w.polls))))

/-! ## Synchronisation, engines, standing words and the matrix engine -/

/-- R217 to R219: `bar.b`, `bar.c` and `bar.dev`. A launch that may not use the barrier halts with 0x22. In free mode
the word first waits until its wave's earlier accesses have ended (for parties outside a narrow scope the hold may be
taken to end at once, R172). When every other participant has arrived or exited
it releases them all: each waiter of the participating blocks moves on past its word, once, with its registers kept,
and so does this wave; no other wave changes. Else the wave is Blocked, and only it changes. In DQM `bar.c` and
`bar.dev` always block and end the quantum; they are released at the boundary (R205). -/
def Obligations.BarriersMeet : Prop :=
  ∀ (i : Instr) (k : Blocked) (g : Guard) (s : State) (c : Ctx), barRow i = some (k, g) → k ≠ .barDom → c.w.blocked ≠ some k →
    Clear s (controlForm g false []) c → s.TablesRise → s.NonePublished →
    let all := s.allArrived k c.b.launch c.l c.w.block c.b (some c.key)
    (¬ BarAllowed k c.l → exec i s = .next (s.takeHalt c.key 0x22 0 c.t 0)) ∧
    (BarAllowed k c.l → c.l.dqm = false → s.released c.w (barScope k) = false →
      s.later = false ∨ narrow (barScope k) = false ∨ s.tileOpen c.w (barScope k) = true →
      ∃ t w', exec i s = .next t ∧ c.Waits t w' ∧ w'.blocked = c.w.blocked ∧ t.mem = s.mem) ∧
    (BarAllowed k c.l → c.l.dqm = true ∨ s.released c.w (barScope k) = true →
      (c.l.dqm = true → barAtBoundary k = true →
        ∃ t w', exec i s = .next t ∧ c.Waits t w' ∧ w'.blocked = some k ∧ w'.qend = true ∧ t.mem = s.mem) ∧
      (c.l.dqm = false ∨ barAtBoundary k = false → all = false →
        ∃ t w', exec i s = .next t ∧ c.Waits t w' ∧ w'.blocked = some k ∧ w'.bookOf c.w = c.w ∧ t.mem = s.mem ∧
          ∀ j, j ≠ c.key → t.waves.get? j = s.waves.get? j) ∧
      (c.l.dqm = false ∨ barAtBoundary k = false → all = true →
        ∃ t w', exec i s = .next t ∧ t.waves.get? c.key = some w' ∧ Retired c w' (c.after 1) ∧
          { w'.bookOf c.w with acq := c.w.acq } = c.w ∧ t.mem = s.mem ∧ t.ctl = s.ctl ∧
          ∀ j v b' l', j ≠ c.key → s.waves.get? j = some v → s.blocks.get? v.block = some b' →
            s.launches.get? b'.launch = some l' →
            if v.block ∈ s.barBlocks k c.b.launch c.l c.w.block c.b ∧ v.blocked = some k ∧ v.exited = false then
              ∃ v', t.waves.get? j = some v' ∧ v'.pc = v.pc + 4 ∧ v'.retired = (v.retired + 1) % 2 ^ 48 ∧
                v'.blocked = none ∧ { v'.bookOf v with acq := v.acq } = v
            else t.waves.get? j = some v))

/-- R220 to R224: `tkt.take` in free mode waits until every wave of the block has ended its earlier accesses, then
takes the block's ticket, which brings S past it when it is next; with no ticket, or in a standing program, it only
moves on; in DQM the take enters the commit share. `tkt.wait` gives the ticket word once S has reached the block's
ticket, with bit 31 set when the ticket before was abandoned, and is Blocked until then (in DQM it ends the quantum
too); a block of a standing program reads 0x7FFFFFFF, one whose ticket is taken its ticket word. R225: `qcfg` in a
launch that pairs its waves sets the directions of the pair's four queues from the four low bits of its operand. A
launch without pairs, and a queue that would change direction while it holds an element or the partner is Blocked on
it, halt with 0x20. -/
def Obligations.TicketsAndDirections : Prop :=
  (∀ (d : Reg) (g : Guard) (s : State) (c : Ctx),
    (Clear s (controlForm g true []) c → ∃ t w', exec (.tktTake g) s = .next t ∧ t.waves.get? c.key = some w' ∧
      t.mem = s.mem ∧ (∀ k, k ≠ c.key → t.waves.get? k = s.waves.get? k) ∧
      (c.b.ticket = none ∨ c.l.standing.isSome = true →
        Retired c w' (c.after 1) ∧ w'.bookOf c.w = c.w ∧ t.launches = s.launches) ∧
      ∀ r, c.b.ticket = some r → c.l.standing = none →
        (c.l.dqm = true → Retired c w' (c.after 1) ∧ w'.share = c.w.share ++ [.take] ∧ t.launches = s.launches) ∧
        (c.l.dqm = false → s.blockReleased c.w.block = false → c.Waits t w' ∧ t.launches = s.launches) ∧
        (c.l.dqm = false → s.blockReleased c.w.block = true → Retired c w' (c.after 1) ∧ w'.bookOf c.w = c.w ∧
          (t.blocks.get? c.w.block).map Block.ticket = some none ∧
          ∃ l', t.launches.get? c.b.launch = some l' ∧ l'.abandoned = c.l.abandoned ∧
            (c.l.takenAhead = [] → l'.tickets = if r = c.l.tickets then r + 1 else c.l.tickets))) ∧
    (Fed s ⟨g, true, 1, [], [(d, 1)], false, false, id⟩ c [] s →
      (c.l.standing.isSome = true → ∃ t w', exec (.tktWait d g) s = .next t ∧ c.Quiet s t w' ∧
        Retired c w' (c.after 1) ∧ c.Gave s t w' d fun _ => 0x7FFFFFFF) ∧
      (c.l.standing = none → c.b.ticket = none → ∃ t w', exec (.tktWait d g) s = .next t ∧ c.Quiet s t w' ∧
        Retired c w' (c.after 1) ∧ c.Gave s t w' d fun _ => c.b.tktWord) ∧
      ∀ r, c.l.standing = none → c.b.ticket = some r →
        (c.l.tickets < r → ∃ t w', exec (.tktWait d g) s = .next t ∧ c.Waits t w' ∧
          w'.blocked = some (.ticket d.toNat) ∧ (c.l.dqm = true → w'.qend = true) ∧ t.mem = s.mem) ∧
        (r ≤ c.l.tickets → c.l.dqm = true ∨ s.NonePublished → ∃ t w', exec (.tktWait d g) s = .next t ∧ t.waves.get? c.key = some w' ∧
          Retired c w' (c.after 1) ∧ t.mem = s.mem ∧ t.launches = s.launches ∧
          c.Wrote w' d fun _ => BitVec.ofNat 32
            (r + if 0 < r ∧ (c.l.abandoned.get? (r - 1)).isSome = true then 2 ^ 31 else 0)))) ∧
  (∀ (a : Reg) (g : Guard) (s s1 : State) (c : Ctx) (ops : List (List LaneVec)),
    Fed s (controlForm g true [(a, 1)]) c ops s1 → KMap.wf c.b.dirs = true →
    let new : BitVec 4 := BitVec.ofNat 4 (opLane ops 0 c.src).toNat
    let stuck : Prop := ∃ n, n < 4 ∧ new.getLsbD n ≠ (c.b.dirsOf c.w.index).getLsbD n ∧
      (c.b.queue c.w.index n ≠ [] ∨ s1.blockedOn c.partner n = true)
    (c.l.record.options.getLsbD 1 = false ∨ stuck → exec (.qcfg a g) s = .next (s.takeHalt c.key 0x20 0 c.t 0)) ∧
    (c.l.record.options.getLsbD 1 = true → ¬ stuck →
      ∃ t w' b', exec (.qcfg a g) s = .next t ∧ c.Quiet s t w' ∧ Retired c w' (c.after 1) ∧
        t.blocks.get? c.w.block = some b' ∧ b'.dirsOf c.w.index = new ∧
        (∀ k, k ≠ c.w.index → b'.dirsOf k = c.b.dirsOf k) ∧ { b' with dirs := c.b.dirs, queues := c.b.queues } = c.b))

/-- R163 to R168, R204, R226: `copy.1d`, `copy.2d` and `copy.g` with a descriptor in its limits, addresses in their
spaces and source and destination apart hand one job to the core's engine, with the descriptor and the footprints of
R164; a full engine (64 jobs) makes the word wait; in DQM the job takes 32 bytes of the commit share, and one that
finds no room ends the quantum before it. A descriptor that breaks a limit halts with 0x18. R230, R306: `coll` with a
group that the launch command configured and a descriptor in its limits hands one job to the engine, with the
footprints of its kind; in free mode it takes the next number of its group. No such group, or a descriptor that breaks
a limit, halts with 0x18. The limits of a collective's descriptor that its rules leave open are the model's reading
(log entry 16). -/
def Obligations.JobWordsGiveJobs : Prop :=
  (∀ (i : Instr) (k : JobKind) (a : Reg) (g : Guard) (s : State) (c : Ctx), copyRow i = some (k, a, g) →
    Clear s (descForm a g) c →
    let desc := c.desc a
    let f := footprints k desc (c.footprintAddr (descSrc desc)) (c.footprintAddr (descDst desc))
    let good : Prop := descOk k desc = true ∧ s.descAddrOk c (descSrc desc) = true ∧
      s.descAddrOk c (descDst desc) = true ∧ anyMeet f.1 f.2 = false
    (¬ good → exec i s = .next (s.takeHalt c.key 0x18 0 c.t 0)) ∧
    (good → (if c.l.dqm then c.w.shareUsed + 32 ≤ 1024 else (s.core c.w.core).engaged < 64) →
      ∃ t w' j, exec i s = .next t ∧ Given s c t w' j ∧ j.kind = k ∧ j.desc = desc ∧ j.reads = f.1 ∧ j.writes = f.2 ∧
        t.blocks = s.blocks ∧ (t.core c.w.core).jobs = (s.core c.w.core).jobs ++ [j]) ∧
    (good → (if c.l.dqm then 1024 < c.w.shareUsed + 32 else 64 ≤ (s.core c.w.core).engaged) →
      ∃ t w', exec i s = .next t ∧ c.Waits t w' ∧ (c.l.dqm = true → w'.qend = true) ∧ t.mem = s.mem ∧
        t.cores = s.cores)) ∧
  (∀ (k : CollKind) (a : Reg) (g : Guard) (s : State) (c : Ctx), Clear s (descForm a g) c →
    let desc := c.desc a
    let place (x : DWord) : Bool := s.descAddrOk c x && (spaceOf x == 0 || spaceOf x == 0xE)
    (16 ≤ dw desc 5 ∨ c.l.groupAt (dw desc 5) = none → exec (.coll k a g) s = .next (s.takeHalt c.key 0x18 0 c.t 0)) ∧
    ∀ grp, dw desc 5 < 16 → c.l.groupAt (dw desc 5) = some grp →
      let z := collSizes k (dw desc 4) grp.list.length (grp.rankOf ownDev) (dw desc 6)
      let good : Prop := collOk k desc grp.list.length = true ∧ place (descSrc desc) = true ∧ place (descDst desc) = true
      (¬ good → exec (.coll k a g) s = .next (s.takeHalt c.key 0x18 0 c.t 0)) ∧
      (good → (if c.l.dqm then c.w.shareUsed + 32 ≤ 1024 else (s.core c.w.core).engaged < 64) →
        ∃ t w' j, exec (.coll k a g) s = .next t ∧ Given s c t w' j ∧ j.kind = .coll k ∧ j.desc = desc ∧
          j.reads = (if z.1 = 0 then [] else [(c.footprintAddr (descSrc desc), z.1)]) ∧
          j.writes = [(c.footprintAddr (descDst desc), z.2)] ∧
          (c.l.dqm = false → j.seq = s.colls.getD (16 * c.l.tag.toNat + dw desc 5) 0 + 1 ∧
            t.colls = s.colls.set (16 * c.l.tag.toNat + dw desc 5) j.seq)))

/-- R105, R168, R227 to R229, R407: `batch` closes the wave's batch and gives its number. `wait.b` waits while a job
of the wave up to that batch is open (in DQM it ends the quantum before the word), raises the deferred fault of the
first job in issue order that has one in such a batch, and else moves on. `wait.c` waits until no more loads and stores
than its limits are outstanding (a store with lanes here and at peers counts once) and the tile operations it requires
have retired; it then merges their flags into their source lanes and moves on, or raises the deferred fault of the first
required operation in issue order that has one. A fault that is raised is consumed. Which operations the limit t leaves out is the model's reading (log entry
19). -/
def Obligations.BatchesAndWaits : Prop :=
  ∀ (d : Reg) (g : Guard) (l st : BitVec 5) (n : BitVec 4) (s s1 : State) (c : Ctx) (ops : List (List LaneVec)),
    (Fed s ⟨g, true, 1, [], [(d, 1)], false, false, id⟩ c ops s1 →
      ∃ t w', exec (.batch d g) s = .next t ∧ t.waves.get? c.key = some w' ∧ Retired c w' (c.after 1) ∧ t.mem = s.mem ∧
        w'.batch = (if c.w.batch = 2 ^ 32 - 1 then 1 else c.w.batch + 1) ∧
        (c.Gave s t w' d fun _ => BitVec.ofNat 32 w'.batch) ∧
        { w'.bookOf c.w with regs := c.w.regs, batch := c.w.batch } = c.w) ∧
    (Fed s (controlForm g true [(d, 1)]) c ops s1 →
      let k := min (opLane ops 0 c.src).toNat c.w.batch
      let busy : Prop := ∃ j ∈ (s.core c.w.core).jobs, j.wave = c.key ∧ j.batch ≤ k
      let due (x : Deferred) : Prop := x ∈ c.w.deferred ∧ x.job = true ∧ x.batch ≤ k
      (busy → ∃ t w', exec (.waitB d g) s = .next t ∧ c.Waits t w' ∧ (c.l.dqm = true → w'.qend = true) ∧
        t.mem = s.mem) ∧
      (¬ busy → (∀ x, ¬ due x) → ∃ t w', exec (.waitB d g) s = .next t ∧ c.Quiet s t w' ∧ Retired c w' (c.after 1) ∧
        w'.regs = c.w.regs) ∧
      (¬ busy → (∃ x, due x) → c.l.standing = none → c.b.snap = none → ∃ t w' r x, exec (.waitB d g) s = .next t ∧
        due x ∧ (∀ y, due y → x.ord ≤ y.ord) ∧ t.waves.get? c.key = some w' ∧ w'.pc = c.w.pc ∧
        w'.retired = c.w.retired ∧ (∀ y, y ∈ w'.deferred ↔ y ∈ c.w.deferred ∧ y ≠ x) ∧
        t.traps = s.traps ++ [r] ∧ r.cause = x.cause ∧ r.addr = x.addr ∧ r.detail = x.detail ∧ r.job = true ∧
        r.batch = x.batch ∧ r.halt = true ∧ r.pc = c.w.pc ∧ t.mem = s.mem)) ∧
    (Clear s (controlForm g false []) c →
      let loads := (c.w.outst.filter fun a => !a.store).length
      let stores := s.storesOut c.w
      let busy : Prop := l.toNat < loads ∨ st.toNat < stores ∨
        ∃ o ∈ (s.core c.w.core).ops, o.wave = c.key ∧ c.w.required n.toNat o.seqNo = true
      let due (x : Deferred) : Prop := x ∈ c.w.deferred ∧ x.job = false ∧ c.w.required n.toNat x.seq = true
      (busy → ∃ t w', exec (.waitC l st n g) s = .next t ∧ c.Waits t w' ∧ w'.bookOf c.w = c.w ∧ t.mem = s.mem) ∧
      (¬ busy → (∀ x, ¬ due x) → ∃ t w', exec (.waitC l st n g) s = .next t ∧ OnlyWave s c t w' ∧
        Retired c w' (c.after 1) ∧ { w'.bookOf c.w with fpflags := c.w.fpflags, mxflags := c.w.mxflags } = c.w ∧
        w'.mxflags = c.w.mxflags.filter (fun x => !c.w.required n.toNat x.1) ∧
        ∀ lane, lane < 64 → w'.fpflags.getD lane 0 =
          ((c.w.mxflags.filter fun x => c.w.required n.toNat x.1 && decide (x.2.1 = lane)).map fun x => x.2.2).foldl
            (· ||| ·) (c.w.fpflags.getD lane 0)) ∧
      (¬ busy → (∃ x, due x) → c.l.standing = none → c.b.snap = none → ∃ t w' r x, exec (.waitC l st n g) s = .next t ∧
        due x ∧ (∀ y, due y → x.ord ≤ y.ord) ∧ t.waves.get? c.key = some w' ∧ w'.pc = c.w.pc ∧
        w'.retired = c.w.retired ∧ (∀ y, y ∈ w'.deferred ↔ y ∈ c.w.deferred ∧ y ≠ x) ∧ t.traps = s.traps ++ [r] ∧
        r.cause = x.cause ∧ r.addr = x.addr ∧ r.detail = x.detail ∧ r.halt = true ∧ r.pc = c.w.pc ∧ t.mem = s.mem)) ∧
    ∃ ids : List Nat, ids.Nodup ∧ ids.length = s.storesOut c.w ∧ ∀ k, k ∈ ids ↔
      (∃ a ∈ c.w.outst, a.store = true ∧ a.id = k) ∨ ∃ n ∈ c.w.peerOut, ∃ r, s.remote.get? n = some r ∧ r.acc = k

/-- R107, R254, R263, R286 to R291: `rset` and `rpost` keep the magnitude of the source lane's value, with a NaN as
+∞, in the wave of a relaxation (elsewhere they only move on); `rget` gives the RES field of the named block of its
own program, and the canonical NaN outside it; `qend` ends the quantum; `rand` gives each lane the high word of its
Millet draw; `eq.id`, `eq.gen` and `eq.theta` give the block's number, generation and θ. Nothing else changes. -/
def Obligations.StandingWords : Prop :=
  ∀ (d a : Reg) (g : Guard) (u : Bool) (s s1 : State) (c : Ctx) (ops : List (List LaneVec)),
    let x := (opLane ops 0 c.src).toNat
    let m : Word := if 0x7F800000 < x % 2 ^ 31 then 0x7F800000 else BitVec.ofNat 32 (x % 2 ^ 31)
    (Fed s (controlForm g true [(a, 1)]) c ops s1 →
      (∃ t w', exec (.rset a g) s = .next t ∧ OnlyWave s1 c t w' ∧ Retired c w' (c.after 1) ∧
        w'.bookOf c.w = if c.l.standing.isSome then { c.w with set := some m } else c.w) ∧
      ∃ t w', exec (.rpost a g) s = .next t ∧ OnlyWave s1 c t w' ∧ Retired c w' (c.after 1) ∧
        w'.bookOf c.w = if c.l.standing.isSome then { c.w with delta := some m } else c.w) ∧
    (Fed s ⟨g, true, 1, [(a, 1)], [(d, 1)], false, false, id⟩ c ops s1 →
      ∃ t w' v, exec (.rget d a g) s = .next t ∧ c.Quiet s t w' ∧ Retired c w' (c.after 1) ∧
        (c.Gave s1 t w' d fun _ => v) ∧ (c.l.standing = none → v = 0x7FC00000) ∧
        ∀ p q, c.l.standing = some p → s.programs.get? p = some q →
          (x < 2 ^ 20 → x < q.n → ∀ e, s.residuals.get? (q.base + x) = some e → v = e.res) ∧
          (2 ^ 20 ≤ x ∨ q.n ≤ x → v = 0x7FC00000)) ∧
    (Clear s (controlForm g true []) c → ∃ t w', exec (.qend g) s = .next t ∧ OnlyWave s c t w' ∧
      Retired c w' (c.after 1) ∧ w'.bookOf c.w = c.w ∧ (c.l.dqm = true → w'.qend = true)) ∧
    (Fed s ⟨g, u, 1, [], [(d, 1)], true, false, id⟩ c ops s1 →
      (∃ t w', exec (.rand d g u) s = .next t ∧ c.Quiet s t w' ∧ Retired c w' (c.after 1) ∧
        c.Gave s t w' d fun lane => BitVec.ofNat 32
          ((millet (BitVec.ofNat 64 (c.w.retired % 2 ^ 48 * 256 + lane % 64)) c.w.seed).toNat / 2 ^ 32)) ∧
      (∃ t w', exec (.eqId d g u) s = .next t ∧ c.Quiet s t w' ∧ Retired c w' (c.after 1) ∧
        c.Gave s t w' d fun _ => if c.l.standing.isSome then BitVec.ofNat 32 c.b.rank else 0xFFFFFFFF) ∧
      ∃ t w' v, exec (.eqTheta d g u) s = .next t ∧ c.Quiet s t w' ∧ Retired c w' (c.after 1) ∧
        (c.Gave s t w' d fun _ => v) ∧ (c.l.standing = none → v = 0x7FC00000) ∧
        ∀ p q e, c.l.standing = some p → s.programs.get? p = some q → q.eqs.get? c.b.rank = some e → v = e.theta) ∧
    (Clear s ⟨g, u, 1, [], [(d, 2)], true, false, id⟩ c →
      ∃ t w', exec (.eqGen d g u) s = .next t ∧ OnlyWave s c t w' ∧ Retired c w' (c.after 1) ∧
        c.WrotePair w' d (fun _ => if c.l.standing.isSome then c.b.gen else 0) ∧
        { w'.bookOf c.w with regs := c.w.regs } = c.w)

/-- R322 to R324, R327, R335, R348 to R355: an `mma` or `mma.pair` whose descriptor, registers and units meet the
rules, and which nothing holds, hands one operation to the matrix engine, with its operands read from the packed
registers, or with the rows of A still to be fetched from memory; it counts once on the governor of each core it uses.
A broken limit halts with 0x31. R356 to R359: a `tld` that nothing holds hands the engine its rows, a
`tst` the rows to be stored, with their units; the stores enter the commit order at the word (R359). R197, R324, R357: rows of
A or of a `tld` that are fetched at once are read as loads of the wave at the word: in DQM as its quantum sees them, its own
buffered stores over the memory of the boundary, in free mode as they stand at their homes; a fetch that fails leaves a
deferred fault and no operation. A descriptor that
breaks a limit halts with 0x31. Which registers a chunk names, and the unused fields, are the model's reading (log
entries 23, 25). -/
def Obligations.MatrixWordsQueue : Prop :=
  (∀ (ty : MmaType) (pair : Bool) (d a : Reg) (g : Guard) (s : State) (c : Ctx) (fol : Option Nat),
    Clear s (tileForm g [(a, 8)] []) c →
    let i : Instr := if pair then .mmaPair ty d a g else .mma ty d a g
    let x := mmaDesc (c.desc a)
    let brun := quarterRuns c d.toNat ((x.n + 63) / 64) ((x.k + 31) / 32) (chunkRegs ty)
    let arun : List RegRun :=
      if x.asrc = 0 then [(c.key, x.areg, (x.k + 31) / 32 * ((x.m + 63) / 64) * chunkRegs ty)] else []
    let per := (x.n * accElem ty + 255) / 256
    let us := tileUnits c.w.block x.coff x.cpitch (min x.m 128) per ++
      (match fol with | some f => tileUnits f x.coff x.cpitch (x.m - 128) per | none => [])
    let reads := quarterReads ty x.n x.k brun ++ arun.map (rowsRead ty x.m x.k)
    let codes (bs : List Byte) : List (List Nat) := if ty = .b4 then pairRows x.k (cutRuns (x.rows ty) bs)
      else (cutRuns (x.rows ty) bs).map fun p => rowCodes ty x.k p []
    s.runsOk (brun ++ arun) = true →
    (c.w.shadow = true ∨ mmaDescOk ty pair (c.desc a) = false → exec i s = .next (s.takeHalt c.key 0x31 0 c.t 0)) ∧
    (c.w.shadow = false → mmaDescOk ty pair (c.desc a) = true → (ty = .rns → ∀ k ∈ issueCores c.w.core pair, s.rnsDead k = false) →
      (match fol with | none => pair = false | some f => pair = true ∧ s.followerOf c x.fmbr = .block f) →
      s.kindFits (mmaKind ty) us = true → s.unitsIn us = true →
      s.runStop c reads [] = none → s.runsLatent c reads = s → s.pairHolds c.w.core = false →
      (∀ k ∈ issueCores c.w.core pair, s.govSpent k = false) → (x.asrc = 1 → s.FetchFree c (rowGran ty) (x.rows ty)) →
      (x.asrc = 0 ∨ (s.later = true ∧ c.l.dqm = false) ∨
          (∀ k p, s.fetchRuns c (rowGran ty) [] (x.rows ty) ≠ .bad k p) →
        ∃ t w' o, exec i s = .next t ∧ Queued s c t w' o ∧ o.kind = .mma ty x.coff x.cpitch x.n x.m x.k ∧
          o.b = s.readB c ty d.toNat x.n x.k ∧
          (x.asrc = 0 → o.a = s.readA c ty x.areg x.m x.k ∧ o.rows = []) ∧
          (x.asrc = 1 → Fetches s c o (rowGran ty) (x.rows ty) codes) ∧ o.units = us ∧ o.okind = some (mmaKind ty) ∧
          o.follower = fol ∧ o.started = !pair ∧ t.blocks = s.blocks ∧
          ∀ k ∈ issueCores c.w.core pair, (t.core k).govIssues = ((s.core k).atWindow s.now).govIssues + 1) ∧
      (x.asrc = 1 → s.later = false ∨ c.l.dqm = true → ∀ k p, s.fetchRuns c (rowGran ty) [] (x.rows ty) = .bad k p →
        ∃ t w', exec i s = .next t ∧ FetchFailed s c t w' k p))) ∧
  (∀ (a : Reg) (g : Guard) (s : State) (c : Ctx), Clear s (tileForm g [(a, 8)] []) c →
    let x := tileDesc (c.desc a)
    let as := (x.runs.flatMap (runAddrs (memElem x.fmt))).map fun p => (0, p)
    (c.w.shadow = true ∨ tileDescOk false (c.desc a) = false → exec (.tld a g) s = .next (s.takeHalt c.key 0x31 0 c.t 0)) ∧
    (c.w.shadow = true ∨ tileDescOk true (c.desc a) = false → exec (.tst a g) s = .next (s.takeHalt c.key 0x31 0 c.t 0)) ∧
    (c.w.shadow = false → (x.fmt = 2 → s.rnsDead c.w.core = false) → s.unitsIn (x.units c.w.block) = true →
      s.pairHolds c.w.core = false →
      (tileDescOk false (c.desc a) = true → s.FetchFree c (memElem x.fmt) x.runs →
        ((s.later = true ∧ c.l.dqm = false) ∨ (∀ k p, s.fetchRuns c (memElem x.fmt) [] x.runs ≠ .bad k p) →
          ∃ t w' o, exec (.tld a g) s = .next t ∧ Queued s c t w' o ∧ t.blocks = s.blocks ∧
            o.kind = .tld x.coff x.cpitch x.cols x.rows x.fmt ∧ o.units = x.units c.w.block ∧
            o.okind = some (fmtKind x.fmt) ∧ Fetches s c o (memElem x.fmt) x.runs fun bs =>
              (cutRuns x.runs bs).map fun p => (tileRow x.fmt p).map (·.1)) ∧
        (s.later = false ∨ c.l.dqm = true → ∀ k p, s.fetchRuns c (memElem x.fmt) [] x.runs = .bad k p →
          ∃ t w', exec (.tld a g) s = .next t ∧ FetchFailed s c t w' k p)) ∧
      (tileDescOk true (c.desc a) = true → s.kindFits (fmtKind x.fmt) (x.units c.w.block) = true →
        s.heldByJob c as (memElem x.fmt) true = false → s.heldByTile c x.runs [] true = false →
        (∀ p ∈ as, s.unstarted c p.2 = false) →
        ∃ t w' o rnd, exec (.tst a g) s = .next t ∧ Queued s c t w' o ∧ t.blocks = s.blocks ∧
          o.kind = .tst x.coff x.cpitch x.cols x.rows x.fmt rnd x.tid x.wcnt ∧ o.spans = x.runs ∧
          o.units = x.units c.w.block ∧ o.okind = none ∧
          (c.l.dqm = true → w'.share = c.w.share ++ [.tile o.id])))) ∧
  ∀ (s t : State) (c : Ctx) (gran : Nat) (rows : List (DWord × Nat)) (rs : List Reach), s.hit = false →
    (c.l.dqm = false → (s.core c.w.core).l1 = [] ∧ c.w.share = []) →
    State.check { s with later := false } c ((rows.flatMap (runAddrs gran)).map fun a => (0, a)) gran .read .copy = .ok rs t →
    allHere rs → ∃ u, s.fetchRuns c gran [] rows = .ok (rs.flatMap fun r => overlay c.w.share r.tgt (match r.tgt with
      | .here (.mem a) => bytesFrom (if c.l.dqm then s.byteVia (s.underByte c.l) else if a < 2 ^ 48 then s.homeByte else s.rawByte) a gran
      | .here (.scr b off) => s.readLoc s.rawByte (.scr b off) gran
      | .peer _ _ => [])) u

/-- R360 to R364, R366 to R368: `acc.zero`, `acc.rd`, `acc.wr`, `acc.chk.tile` and `rnsr` whose unit word meets the
limits hand the engine one operation on the units it names, with its registers; `rns.chk` hands it the residues to
check. `rnsf.i16` and `rnsf.i32` write the balanced residues of each active lane's four integers at once, one register
for each channel, 0 for a failed channel. R311 to R317, R364: `pin` with room makes a tenure of zeros whose handle is
rank × 256 + the pins made so far + 1, and whose operation will write it; a shape word with other bits set, or a 256th
pin, halts with 0x35. `unpin`, `fwupd`, `fwrd` and `acc.chk.ten` that name a sound tenure on their core hand the
engine one operation on it: the dump as stores, α, β, v and k, the products with q, or the check; a handle that names
nothing halts with 0x35. -/
def Obligations.UnitAndTenureWordsQueue : Prop :=
  ((∀ (i : Instr) (r : UnitRow) (s s1 : State) (c : Ctx) (ops : List (List LaneVec)), unitRow i = some r →
    Fed s (tileForm r.g [(r.a, 1)] []) c ops s1 → r.Admits s1 c (unitWord (opLane ops 0 c.src)) →
    let u := unitWord (opLane ops 0 c.src)
    ∃ t w' o, exec i s = .next t ∧ Queued s1 c t w' o ∧ t.mem = s.mem ∧ t.blocks = s1.blocks ∧ o.kind = r.kind u ∧
      o.units = u.units c.w.block ∧ o.okind = r.leaves u ∧ o.a = r.data u c ∧ o.rows = [] ∧ o.spans = [] ∧
      o.dest = (r.runs u c).2.flatMap fun x => c.w.runSlots x.2.1 x.2.2) ∧
  (∀ (d a : Reg) (g : Guard) (s s1 : State) (c : Ctx) (ops : List (List LaneVec)),
    Fed s (tileForm g [(a, 1)] []) c ops s1 → s1.runsOk [(c.key, d.toNat, 1)] = true → c.w.shadow = false →
    s1.rnsDead c.w.core = false → s1.runStop c [] [(c.key, d.toNat, 1)] = none → s1.pairHolds c.w.core = false →
    ∃ t w' o, exec (.rnsChk d a g) s = .next t ∧ Queued s1 c t w' o ∧ t.blocks = s1.blocks ∧
      o.kind = .rnsChk (opLane ops 0 c.src) ∧ o.dest = c.w.runSlots d.toNat 1) ∧
  ∀ (i : Instr) (d a : Reg) (g : Guard) (s : State) (c : Ctx) (n : Nat) (ints : Nat → List Int),
    (i = .rnsfI16 d a g ∧ n = 2 ∧ (∀ lane, ints lane = (List.range 2).flatMap fun k =>
        let x := c.w.slotLane (c.w.wb + (a.toNat + k)) lane
        [(x.extractLsb' 0 16).toInt, (x.extractLsb' 16 16).toInt])) ∨
      (i = .rnsfI32 d a g ∧ n = 4 ∧ ∀ lane, ints lane = (List.range 4).map fun k =>
        (c.w.slotLane (c.w.wb + (a.toNat + k)) lane).toInt) →
    Clear s (tileForm g [] []) c →
    s.runsOk (((List.range 8).map fun p => (c.key, d.toNat + 8 * p, 1)) ++ [(c.key, a.toNat, n)]) = true →
    c.w.shadow = false → s.rnsDead c.w.core = false →
    s.runStop c [((c.key, a.toNat, n), fun _ => some c.w.active)] ((List.range 8).map fun p => (c.key, d.toNat + 8 * p, 1)) = none →
    ∃ t w', exec i s = .next t ∧ OnlyWave s c t w' ∧ Retired c w' (c.after 1) ∧
      { w'.bookOf c.w with regs := c.w.regs } = c.w ∧
      ∀ lane, lane < 64 → c.w.active.getLsbD lane = true → ∀ p, p < 8 → ∀ k, k < 4 →
        (w'.slotLane (c.w.wb + (d.toNat + 8 * p)) lane).extractLsb' (8 * k) 8 =
          if (s.failedOn c.w.core).getLsbD p then 0 else BitVec.ofInt 8 (balanced ((ints lane).getD k 0) (modulus p))) ∧
  (∀ (d a : Reg) (g : Guard) (s s1 : State) (c : Ctx) (ops : List (List LaneVec)),
    let h := opLane ops 0 c.src
    (Fed s (tileForm g [(a, 1)] []) c ops s1 → s1.runsOk [(c.key, d.toNat, 1)] = true → c.w.shadow = false →
      (16 ≤ h.toNat ∨ 255 ≤ s1.pinsOf c.b c.l → exec (.pin d a g) s = .next (s.takeHalt c.key 0x35 0 c.t 0)) ∧
      ∀ base im, h.toNat < 16 → c.b.rank < 2 ^ 24 → s1.pinsOf c.b c.l < 255 →
        s1.runStop c [] [(c.key, d.toNat, 1)] = none → s1.pairHolds c.w.core = false →
        s1.accRoom c.b.launch c.l.dqm c.w.core c.b.imCore (shapeGran (BitVec.ofNat 4 h.toNat)) none none =
          .at_ base im →
        let handle : Word := BitVec.ofNat 32 (c.b.rank * 256 + s1.pinsOf c.b c.l + 1)
        ∃ t w' o, exec (.pin d a g) s = .next t ∧ Queued s1 c t w' o ∧ o.kind = .pin (BitVec.ofNat 4 h.toNat) ∧
          o.tenure = some handle ∧ o.dest = c.w.runSlots d.toNat 1 ∧
          ∃ e n, (t.core c.w.core).tenures.get? e = some n ∧ n.handle = handle ∧ n.launch = c.b.launch ∧
            n.shape = BitVec.ofNat 4 h.toNat ∧ n.gbase = base ∧ n.gcnt = shapeGran n.shape ∧ n.elems = [] ∧
            n.csum = [] ∧ n.msum = [] ∧ n.writes = 0 ∧ n.failed = false) ∧
    (s1.named c.b.launch h = .nowhere → c.w.shadow = false →
      (∀ i, i = .accChkTen a g ∨ i = .fwupd d a g ∨ i = .fwrd d a g → Fed s (tileForm g [(a, 1)] []) c ops s1 →
        exec i s = .next (s.takeHalt c.key 0x35 0 c.t 0)) ∧
      (Fed s (tileForm g [(a, 1), (d, 2)] []) c ops s1 →
        exec (.unpin d a g) s = .next (s.takeHalt c.key 0x35 0 c.t 0))) ∧
    ∀ e n, s1.named c.b.launch h = .on c.w.core e n → n.failed = false → (c.l.dqm = false ∨ n.imCore = c.b.imCore) →
      s1.tenureBusy c.b.launch h = false → s1.pairHolds c.w.core = false → c.w.shadow = false →
      (Fed s (tileForm g [(a, 1)] []) c ops s1 → ∃ t w' o, exec (.accChkTen a g) s = .next t ∧ Queued s1 c t w' o ∧
        o.kind = .chkTen ∧ o.tenure = some h ∧ t.blocks = s1.blocks) ∧
      (Fed s (tileForm g [(a, 1), (d, 2)] []) c ops s1 →
        (opPair ops 1 c.src = 0 → ∃ t w' o, exec (.unpin d a g) s = .next t ∧ Queued s1 c t w' o ∧
          o.kind = .unpin 0 ∧ o.tenure = some h ∧ o.spans = []) ∧
        ∀ p, p = opPair ops 1 c.src → p ≠ 0 → spaceOf p = 0 → s1.spaceOk c p = true → p.toNat % 64 = 0 →
          let size := 0x40 + 4 * shapeV n.shape * shapeK n.shape + 8 * shapeV n.shape
          s1.heldByJob c [(0, p)] size true = false → s1.heldByTile c [(p, size)] [] true = false → n.firstBad = none →
          ∃ t w' o, exec (.unpin d a g) s = .next t ∧ Queued s1 c t w' o ∧ o.kind = .unpin p ∧ o.tenure = some h ∧
            o.spans = [(p, size)] ∧ o.out = none ∧ (c.l.dqm = true → w'.share = c.w.share ++ [.tile o.id])) ∧
      (Fed s (tileForm g [(a, 1)] []) c ops s1 → s1.govSpent c.w.core = false →
        let kk := shapeK n.shape / 64
        let vv := shapeV n.shape / 64
        (s1.runsOk [(c.key, a.toNat, 1 + kk + vv), (c.key, d.toNat, 2)] = true →
          s1.runStop c ([(c.key, a.toNat, 1 + kk + vv), (c.key, d.toNat, 2)].map wholeRun) [] = none →
          ∃ t w' o, exec (.fwupd d a g) s = .next t ∧ Queued s1 c t w' o ∧ o.tenure = some h ∧
            o.kind = .upd (laneOf (s1.runVec c.key d.toNat) c.src) (laneOf (s1.runVec c.key (d.toNat + 1)) c.src) ∧
            o.a = [s1.vectorAt c.key (a.toNat + 1 + kk) vv] ∧ o.b = [s1.vectorAt c.key (a.toNat + 1) kk] ∧
            (t.core c.w.core).govIssues = ((s1.core c.w.core).atWindow s1.now).govIssues + 1) ∧
        (s1.runsOk [(c.key, a.toNat, 1 + kk), (c.key, d.toNat, vv)] = true →
          s1.runStop c [wholeRun (c.key, a.toNat, 1 + kk)] [(c.key, d.toNat, vv)] = none →
          n.firstBad = none →
          ∃ t w' o, exec (.fwrd d a g) s = .next t ∧ Queued s1 c t w' o ∧ o.tenure = some h ∧ o.kind = .frd ∧
            o.a = [s1.vectorAt c.key (a.toNat + 1) kk] ∧ o.dest = c.w.runSlots d.toNat vv ∧
            (t.core c.w.core).govIssues = ((s1.core c.w.core).atWindow s1.now).govIssues + 1)))

/-! ## Events -/

/-- R28, R29, R157, R159, R173 to R175, R179, R216, R380: a load's data returns: its lane's registers, or every lane of a
broadcast, take the loaded words (of a `poll`, the outcome of its comparison) and the load is no longer outstanding; the
words of a load into a queue enter it, in ascending lane order, once the last lane's has come; a store is acknowledged: memory takes its bytes and no others, and the wave's horizon passes the completion time; a
read-modify-write leaves its result, and gives its lane the old value; a copy in L1 whose lease has ended is dropped; a walk that one of the 32 units has ends: the waves that
joined it go on, each with its translation, which the TLB of every core that waits holds, or its fault, and the jobs and
tile operations that joined it wait no longer; a back-off ends when its time has come; a wave that has been ready
for 112 cycles is starving; a timer trap that is due is taken. -/
def Obligations.AccessesAndTimers : Prop :=
  ∀ (s : State),
    (∀ w b l a p, s.waves.get? s.subj.a = some w → s.blocks.get? w.block = some b → s.launches.get? b.launch = some l →
      w.outst.find? (fun x => decide (x.id = s.subj.b)) = some a → a.parts = [p] → p.lane < 64 →
      s.subj.c = 2 ^ p.lane →
      let takes (lane : Nat) : Prop := if a.bcast = 0 then lane = p.lane else a.bcast.getLsbD lane = true
      let gone (t : State) (w' : Wave) : Prop := t.waves.get? s.subj.a = some w' ∧ w'.pc = w.pc ∧
        w'.retired = w.retired ∧ w'.outst = w.outst.filter (fun x => decide (x.id ≠ a.id)) ∧
        ∀ k lane, lane < 64 → k ∉ a.dest ∨ ¬ takes lane → w'.slotLane k lane = w.slotLane k lane
      let x (j : Nat) : Word := loadedWord a.width a.signed (match a.sc, p.tgt with
        | some _, .here q => s.readLoc s.rawByte q a.width
        | _, _ => (s.readFor l w s.seq p.tgt a.width []).1) j
      (a.store = false → a.queue = none → a.dest.Nodup → ∃ t w', exec .loadDataReturn s = .next t ∧ gone t w' ∧
        t.mem = s.mem ∧ (b.snap = none → ∀ k, t.blocks.get? k = s.blocks.get? k) ∧
        ∀ k j lane, lane < 64 → a.dest[j]? = some k → takes lane →
          w'.slotLane k lane = match a.poll with
            | none => x j
            | some q => if pollHolds q (x j) (BitVec.ofNat 32 p.data) then 1 else 0) ∧
      (a.store = false → a.poll = none → ∀ n, a.queue = some n → s.TablesRise →
        (∀ y ∈ a.got, y.1 < 64 ∧ y.1 ≠ p.lane) → a.got.Pairwise (fun y z => y.1 ≠ z.1) →
        ∃ t w' b' ws, exec .loadDataReturn s = .next t ∧ t.mem = s.mem ∧ t.waves.get? s.subj.a = some w' ∧
          w'.outst = w.outst.filter (fun x => decide (x.id ≠ a.id)) ∧ w'.regs = w.regs ∧
          t.blocks.get? w.block = some b' ∧ b'.queue w.index n = b.queue w.index n ++ ws ∧
          ∃ ys : List (Nat × Word), ys.Perm (a.got ++ [(p.lane, x 0)]) ∧ ys.Pairwise (fun y z => y.1 < z.1) ∧
            ws = ys.map (·.2)) ∧
      (a.store = true → s.MemCanon → ∀ q, p.tgt = .here (.mem q) →
        (a.rmw = none → ∃ t w', exec .storeAcknowledgement s = .next t ∧ gone t w' ∧ w'.regs = w.regs ∧
          s.completion q < w'.horizon ∧ ∀ x, t.rawByte x =
            if q ≤ x ∧ x < q + a.width then BitVec.ofNat 8 (p.data / 256 ^ (x - q)) else s.rawByte x) ∧
        ∀ op, a.rmw = some op → a.queue = none → a.dest.Nodup → (∀ x, x < op.width → s.windowAt (q + x) = none) →
          let old := leNat (bytesFrom s.rawByte q op.width)
          ∃ t w', exec .storeAcknowledgement s = .next t ∧ gone t w' ∧ s.completion q < w'.horizon ∧
            (∀ x, t.rawByte x = match op.result old (BitVec.ofNat 64 p.data) (BitVec.ofNat 64 p.data2) with
              | some y => if q ≤ x ∧ x < q + op.width then BitVec.ofNat 8 (y / 256 ^ (x - q)) else s.rawByte x
              | none => s.rawByte x) ∧
            ∀ k j lane, lane < 64 → a.dest[j]? = some k → takes lane →
              w'.slotLane k lane = BitVec.ofNat 32 (old / 2 ^ (32 * j)))) ∧
    (s.TablesRise → KMap.wf (s.core s.subj.a).l1 = true → ∀ k, (s.core s.subj.a).l1.get? s.subj.b = some k →
      k.lease ≤ s.now → ∃ t, exec .l1LeaseEnd s = .next t ∧ (t.core s.subj.a).l1.get? s.subj.b = none ∧
        { t with cores := s.cores } = s ∧
        ∀ j, j ≠ s.subj.b → (t.core s.subj.a).l1.get? j = (s.core s.subj.a).l1.get? j) ∧
    ((∀ k ∈ s.walks.take 32, ¬ (k.asid = s.subj.a ∧ k.page = s.subj.b)) → exec .pageWalk s = .next s) ∧
    (s.TablesRise → ∀ w0, (s.walks.take 32).find? (fun k => k.at_ s.subj.a s.subj.b) = some w0 →
      let key := walkKey s.subj.a (s.subj.b * 2 ^ 13)
      let found := s.walk s.subj.a (s.asids.getD s.subj.a 0) (s.subj.b * 2 ^ 13)
      ∃ t, exec .pageWalk s = .next t ∧ t.mem = s.mem ∧ (∀ k ∈ t.walks, ¬ (k.asid = s.subj.a ∧ k.page = s.subj.b)) ∧
        (∀ x, found = .leaf x → ∀ c ∈ w0.cores, x ∈ (t.core c).tlb) ∧
        (∀ c, (t.core c).jobs.map (fun j => (j.id, j.walking)) =
            (s.core c).jobs.map (fun j => (j.id, j.walking.filter fun k => decide (k ≠ key))) ∧
          (t.core c).ops.map (fun o => (o.id, o.walking)) =
            (s.core c).ops.map (fun o => (o.id, o.walking.filter fun k => decide (k ≠ key)))) ∧
        ∀ j v, s.waves.get? j = some v → ∃ v', t.waves.get? j = some v' ∧ (key ∉ v.walking → v' = v) ∧
          (key ∈ v.walking → { v' with walking := v.walking, walkOut := v.walkOut } = v ∧
            (∀ k, k ∈ v'.walking ↔ k ∈ v.walking ∧ k ≠ key) ∧
            v'.walkOut = match found with
              | .absent => v.walkOut ++ [(key, 0x13)]
              | .malformed => v.walkOut ++ [(key, 0x14)]
              | .leaf _ => v.walkOut)) ∧
    ∀ w, s.waves.get? s.subj.a = some w →
      (∀ v, w.backoff = some v → v ≤ s.now → ∃ t, exec .backoffExpiry s = .next t ∧ { t with waves := s.waves } = s ∧
        t.waves.get? s.subj.a = some { w with backoff := none, readyFrom := s.now }) ∧
      (s.mayIssue w = true → w.stalled = none → w.readyFrom + 112 ≤ s.now → ∃ t, exec .starvation s = .next t ∧
        { t with waves := s.waves } = s ∧ t.waves.get? s.subj.a = some { w with starving := true }) ∧
      exec .timerTrap s = .next (if s.ready w && s.trapsNow w then s.takeTimer s.subj.a else s)

/-- R223, R371, R375 to R377: once every access of a halting block is complete at device scope and acknowledged by peers,
its halt is complete: all its waves
are stopped where they stand, and, but at a software or timer trap, its ticket is taken and marked abandoned. A record
is then posted: the 64 bytes of R375 at the ring's write place, with the next SEQ, or, when the ring has no room, one
more lost record, kept to be posted again after 10 µs with the flag of a repost. That every attempt to post takes a
SEQ is the model's reading (log entry 33). -/
def Obligations.HaltsAndRecords : Prop :=
  ∀ (s : State), s.TablesRise →
    (∀ b l h, s.blocks.get? s.subj.a = some b → s.launches.get? b.launch = some l → b.halt = some h →
      h.done = false → h.cause ≠ 0x43 → s.drainList s.subj.a = [] →
      (∀ e ∈ s.wavesOf s.subj.a, e.2.outst = [] ∧ e.2.hold = none ∧ e.2.holdOn = none ∧ e.2.remote = []) →
      (∀ e ∈ s.wavesOf s.subj.a, ∀ g ∈ e.2.peerOut, ∀ r, s.remote.get? g = some r → r.status = none) →
      ((∃ e ∈ s.wavesOf s.subj.a, s.now < e.2.horizon ∨ e.2.peerOut ≠ []) →
        ∃ t, exec .blockHalt s = .next t ∧ t.blocks = s.blocks ∧ t.launches = s.launches ∧ t.mem = s.mem) ∧
      ((∀ e ∈ s.wavesOf s.subj.a, e.2.horizon ≤ s.now ∧ e.2.peerOut = []) →
      ∃ t b', exec .blockHalt s = .next t ∧ t.mem = s.mem ∧ t.blocks.get? s.subj.a = some b' ∧
        b'.halt = some { h with done := true } ∧
        (h.cause = 0x08 ∨ h.cause = 0x09 → b'.ticket = b.ticket ∧ t.launches = s.launches) ∧
        (h.cause ≠ 0x08 → h.cause ≠ 0x09 → l.standing = none → b'.ticket = none ∧
          ∀ r, b.ticket = some r → ∃ l', t.launches.get? b.launch = some l' ∧
            (l.dqm = false → (l'.abandoned.get? r).isSome = true) ∧
            (l.dqm = true → l'.pendingTakes = l.pendingTakes ++ [(r, true)])) ∧
        ∀ j v, s.waves.get? j = some v → ∃ v', t.waves.get? j = some v' ∧ (v.block ≠ s.subj.a → v' = v) ∧
          (v.block = s.subj.a → v'.pc = v.pc ∧ v'.regs = v.regs ∧ v'.retired = v.retired ∧
            (v.exited = false → v'.halted = true)))) ∧
    ∀ (again : Bool) (r : TrapRec) (i : Instr) (s1 : State),
      (again = false ∧ i = .trapRecordPosting ∧ (∃ rest, s.nextRecord s.traps = some (r, rest) ∧
          s1 = { s with traps := rest })) ∨
        (again = true ∧ i = .repost ∧ ∃ rest, s.dueRecord s.lost = some (r, rest) ∧ s1 = { s with lost := rest }) →
      s.MemCanon →
      let place := s.ctl.trBase.toNat + 64 * (s.ctl.trWr.toNat % 2 ^ s.ctl.trSize)
      ∃ t, exec i s = .next t ∧ t.ctl.trSeq = s.ctl.trSeq + 1 ∧ t.traps = s1.traps ∧ t.waves = s.waves ∧
        t.blocks = s.blocks ∧
        (s.ctl.trOn = true → (s.ctl.trWr - s.ctl.trRd).toNat < 2 ^ s.ctl.trSize →
          t.ctl.trWr = s.ctl.trWr + 1 ∧ t.ctl.trLost = s.ctl.trLost ∧ t.lost = s1.lost ∧
          ∀ x, t.rawByte x = if place ≤ x ∧ x < place + 64 then (recBytes r (s.ctl.trSeq + 1) again).getD (x - place) 0
            else s.rawByte x) ∧
        (s.ctl.trOn = false ∨ 2 ^ s.ctl.trSize ≤ (s.ctl.trWr - s.ctl.trRd).toNat →
          t.mem = s.mem ∧ t.ctl.trWr = s.ctl.trWr ∧ t.ctl.trOvf = true ∧
          t.ctl.trLost.toNat = min (2 ^ 32 - 1) (s.ctl.trLost.toNat + 1) ∧
          t.lost = s1.lost ++ if r.park || r.halt then [⟨r, s.now + 12000⟩] else [])

/-- R163 to R167, R306 to R308: a job moves units: a unit that can move makes the job one further, and the words of a copy
stand at their destination afterwards with every other byte kept, in `copy.g` the words of the element that the index
names; an index above 65,535 faults with 0x18; a unit that must wait leaves memory and blocks alone; a fault ends the job
and waits for a later word of its wave; an absent page pauses it, with a record. A job with every unit moved leaves the
engine once its writes are complete at device scope, and not before. A segment of a collective joins its sender's
contribution; one whose kind, function or bytes disagree ends the job with 0x18, and a member that has sent nothing yet tells
the others what it was to do; one whose job has not been issued is kept, and one from a device outside the group, or of a
collective that has ended, changes nothing. What a member contributes: its source bytes, or its FP32 elements, rounded to BF16 where the wire type is BF16. What
it receives: the contributions in rank order, or, element by element, their fold in rank order, a NaN as the canonical one,
widened to FP32. The steps in which a job moves, and its segments, are the model's (log entries 16, 17, 60). -/
def Obligations.JobsRun : Prop :=
  ∀ (s : State), s.TablesRise →
    (∀ j, s.job s.subj.a s.subj.b = some j → (s.core s.subj.a).jobs = [j] →
      (jobUnits j.kind j.desc ≤ j.moved → (∀ x, s.answers j.acks = some x → ∀ q ∈ x, q.status = some 0) →
        (s.answers j.acks).isSome = true → j.vtime ≤ s.now →
        ∃ t, exec .copyJobCompletion s = .next t ∧ (t.core s.subj.a).jobs = [] ∧ t.mem = s.mem ∧ t.waves = s.waves) ∧
      (jobUnits j.kind j.desc ≤ j.moved → (∀ x, s.answers j.acks = some x → ∀ q ∈ x, q.status = some 0) →
        s.now < j.vtime → exec .copyJobCompletion s = .next s) ∧
      (j.moved < jobUnits j.kind j.desc →
        (∀ s1, s.moveUnit s.subj.a j = .ok () s1 → s.subj.c = 1 → ∃ t, exec .copyJobStart s = .next t ∧ t.mem = s1.mem ∧
          ∀ j', s1.job s.subj.a s.subj.b = some j' →
            t.job s.subj.a s.subj.b = some { j' with moved := j'.moved + 1, started := true, walkOut := [] }) ∧
        (∀ s1, s.moveUnit s.subj.a j = .pending s1 → exec .copyJobFault s = .next s ∧
          ∃ t, exec .copyJobStart s = .next t ∧ t.mem = s.mem ∧ t.blocks = s.blocks ∧ t.ctl = s.ctl) ∧
        (∀ k a w, s.moveUnit s.subj.a j = .fault k a → s.waves.get? j.wave = some w →
          ∃ t w', exec .copyJobFault s = .next t ∧ t.mem = s.mem ∧ (t.core s.subj.a).jobs = [] ∧
            t.waves.get? j.wave = some w' ∧ w'.deferred = w.deferred ++ [⟨0, j.id, k, a, 0, j.batch, true⟩]) ∧
        (∀ a c, s.moveUnit s.subj.a j = .pause a → s.jobCtx j = some c →
          ∃ t r, exec .copyJobFault s = .next t ∧ t.mem = s.mem ∧
            t.job s.subj.a s.subj.b = some { j with paused := true, pauseAddr := a, walkOut := [] } ∧ t.traps = s.traps ++ [r] ∧
            r.cause = 0x13 ∧ r.park = true ∧ r.job = true ∧ r.halt = false ∧ r.addr = a ∧ r.batch = j.batch))) ∧
    (∀ (j : Job) (c : Ctx) (core x : Nat) (s0 s1 s2 s3 : State) (ss ds : List Nat), (∀ k, j.kind ≠ .coll k) →
      (if j.kind = .g then s.gatherIndex core c j else .ok 0 s) = .ok x s0 →
      let u := jobUnit j.kind j.desc j.moved x
      s.MemCanon → s0.jobTargets core j.id c .write (wordAddrs u.2.1 u.2.2) = .ok (ds.map fun p => .here (.mem p)) s1 →
      s1.jobTargets core j.id c .read (wordAddrs u.1 u.2.2) = .ok (ss.map fun p => .here (.mem p)) s2 →
      s2.jobTargets core j.id c .write (wordAddrs u.2.1 u.2.2) = .ok (ds.map fun p => .here (.mem p)) s3 →
      ds.Pairwise (fun x y => x + 4 ≤ y ∨ y + 4 ≤ x) →
      ∃ t, s.copyUnit core j c = .ok () t ∧
        (∀ (i p q : Nat), ds[i]? = some p → ss[i]? = some q → bytesFrom t.rawByte p 4 = bytesFrom s.homeByte q 4) ∧
        ∀ x, (∀ p ∈ ds, x < p ∨ p + 4 ≤ x) → t.rawByte x = s.rawByte x) ∧
    (∀ (j : Job) (c : Ctx) (core : Nat) (s1 : State) (p : Loc),
      let a : DWord := BitVec.ofNat 64 (0xC * 2 ^ 60 + (dw j.desc 6 + 4 * j.moved) % 2 ^ 60)
      s.jobTargets core j.id c .read [a] = .ok [.here p] s1 →
      let x := leNat (s.readLoc s.rawByte p 4)
      (65535 < x → s.gatherIndex core c j = .fault 0x18 a) ∧ (x ≤ 65535 → s.gatherIndex core c j = .ok x s1)) ∧
    (∀ (m : CollMsg), s.deaf = false → (m.src.extractLsb' 12 4).toNat < 2 →
      (s.collJob m = none → exec (.collectiveData m) s =
        .next (if m.seq.toNat ≤ s.colls.getD (16 * m.tag.toNat + m.group.toNat) 0 then s else { s with early := s.early ++ [m] })) ∧
      ∀ core j l k g, s.collJob m = some (core, j, l) → j.kind = .coll k → l.groupAt m.group.toNat = some g →
        (s.core core).jobs = [j] →
        let len := transferLen k (dw j.desc 4) g.list.length
        let rank := g.rankOf m.src.toNat
        let same : Prop := (collBits k).toNat / 16 % 8 = m.kind.toNat ∧ (collBits k).toNat % 16 = m.fn.toNat
        let silent : Prop := k = .bc ∧ rank ≠ dw j.desc 6
        (m.src.toNat ∉ g.list → exec (.collectiveData m) s = .next s) ∧
        (m.src.toNat ∈ g.list →
          (∀ j', ((∃ bs, same ∧ ¬ silent ∧ segmentOf k len m.offset.toNat m.elems = some bs ∧
                j' = j.joinSegment len rank m.offset.toNat bs) ∨
              (same ∧ silent ∧ m.offset.toNat = dw j.desc 4 ∧ m.elems = [] ∧ j' = { j with got := j.got.set rank [] })) →
            ∃ t, exec (.collectiveData m) s = .next t ∧ t.mem = s.mem ∧ t.waves = s.waves ∧ (t.core core).jobs = [j']) ∧
          (¬ same ∨ (silent ∧ ¬ (m.offset.toNat = dw j.desc 4 ∧ m.elems = [])) ∨
              (¬ silent ∧ segmentOf k len m.offset.toNat m.elems = none) → ∀ w, s.waves.get? j.wave = some w →
            ∃ t w', exec (.collectiveData m) s = .next t ∧ (t.core core).jobs = [] ∧ t.waves.get? j.wave = some w' ∧
              w'.deferred = w.deferred ++ [⟨0, j.id, 0x18, 0, 0, j.batch, true⟩] ∧
              (j.moved ≠ 0 → t.grants = s.grants) ∧
              (j.moved = 0 → ∀ d ∈ g.list, d ≠ ownDev → ∃ x ∈ t.grants, x.msg.kind = 0x0030 ∧
                x.msg.dst = BitVec.ofNat 16 d)))) ∧
    (∀ (w : WireType) (o : CollOp) (n len rank : Nat) (got : KMap (List Byte)), 0 < n →
      let size := if w = .f32 then 4 else 2
      let nan := if w = .f32 then 0x7FC00000 else 0x7FC0
      let isNan (x : Nat) : Bool := ((if w = .f32 then fp32 else bf16).read x).isNan
      let elem (r i : Nat) : Nat := leNat (((got.getD r []).drop (size * i)).take size)
      let total (i : Nat) : Nat := (List.range (n - 1)).foldl (fun acc r => foldOp w o acc (elem (r + 1) i)) (elem 0 i)
      let word (i : Nat) : List Byte := natLe 4 ((if isNan (total i) = true then nan else total i) *
        if w = .f32 then 1 else 2 ^ 16)
      (∀ r, r < n → (got.getD r []).length = size * len) →
        collResult (.ar w o) n rank got = (List.range len).flatMap word ∧
        (len % n = 0 → rank < n →
          collResult (.rs w o) n rank got = (List.range (len / n)).flatMap fun i => word (rank * (len / n) + i))) ∧
    (∀ (n rank : Nat) (got : KMap (List Byte)),
      collResult .ag n rank got = (List.range n).flatMap (fun r => got.getD r []) ∧
      collResult .a2a n rank got = (List.range n).flatMap (fun r => got.getD r []) ∧
      ∀ r bs, collResult .bc n rank [(r, bs)] = bs) ∧
    ∀ (w : WireType) (o : CollOp) (src : List Byte) (n dest : Nat),
      let sent := (List.range (src.length / 4)).flatMap fun i =>
        let x := leNat ((src.drop (4 * i)).take 4)
        if w = .f32 then natLe 4 x else natLe 2 (bf16.convert rneKeep (fp32.read x)).1
      contribution (.ar w o) src n dest = sent ∧ contribution (.rs w o) src n dest = sent ∧
      contribution .ag src n dest = src ∧ contribution .bc src n dest = src ∧
      contribution .a2a src n dest = (src.drop (dest * (src.length / n))).take (src.length / n)

/-- R105, R311 to R317, R328 to R334, R341 to R347, R354 to R364, R366 to R368: an operation that nothing holds retires.
`acc.zero` leaves its units zero, of its kind and with a zero pair; `acc.wr` leaves the words it was given, residues
reduced, `tld` the elements it has fetched; an `mma` leaves every element of C with its chunks added in order: modulo 2^32,
in every channel, or as FP32, rounded to nearest even once for each chunk; no other unit changes. `acc.rd` writes the words
of its units, `pin` its handle, `fwrd` the products of the rows, `rnsr` each lane's value and status, `rns.chk` one bit for
each channel whose multipliers err, into their registers in the lanes of S. `acc.chk` reseals what passes, up to the first
unit or row that fails. `tst` of one row stores its elements. `fwupd` leaves the updated tenure, `unpin` with no dump frees
it, in DQM at the boundary, from when on its handle names nothing: it is marked so. Flags wait for a `wait.c`. A unit that
fails verification is a deferred fault 0x34 that names it; an operation that has written it is replayed once before. Residues of an integer in range give it back. The operation then leaves the engine. Which
operations are not replayed, and what the multipliers give, is the model's reading (log entries 24, 29). -/
def Obligations.OperationsRetire : Prop :=
  (∀ (s : State) (o : TileOp) (c : Ctx), s.TablesRise → s.tileOp s.subj.a s.subj.b = some o → s.opCtx o = some c →
    o.follower = none → c.b.halt = none → s.opHeld s.subj.a o = false → o.held = false → o.walking = [] → o.started = true →
    o.rows = [] → o.out = none → KMap.wf c.b.sums = true → KMap.wf c.b.kinds = true → KMap.wf c.b.acc = true →
    (∀ u ∈ o.units, u.1 = o.block) →
    let retires (t : State) : Prop := exec .matrixOperationRetirement s = .next t ∧
      ∀ p ∈ (t.core s.subj.a).ops, p.id ≠ o.id
    let onBlock (t : State) (b' : Block) : Prop := t.blocks.get? o.block = some b' ∧ t.mem = s.mem ∧
      (∀ k, k ≠ o.block → t.blocks.get? k = s.blocks.get? k) ∧
      ∀ u, (o.block, u) ∉ o.units → b'.unitWords u = c.b.unitWords u ∧ b'.kindAt u = c.b.kindAt u ∧ b'.pair u = c.b.pair u
    let same (t : State) (w' : Wave) : Prop := (c.b.snap = none → t.blocks = s.blocks) ∧ t.mem = s.mem ∧
      t.waves.get? o.wave = some w' ∧
      ∀ k b, s.blocks.get? k = some b → ∃ b', t.blocks.get? k = some b' ∧ { b' with snap := b.snap } = b
    let faults (cause : Nat) (addr : DWord) (detail : Word) : Prop := ∃ t w', retires t ∧ same t w' ∧
      w'.regs = c.w.regs ∧ w'.deferred = c.w.deferred ++ [⟨o.seqNo, o.id, cause, addr, detail, 0, false⟩]
    let writes (t : State) (w' : Wave) (v : Nat → Nat → Word) : Prop := retires t ∧ same t w' ∧
      ∀ r k lane, lane < 64 → o.dest[r]? = some k → w'.slotLane k lane =
        if o.lanes.getLsbD lane then v r lane else c.w.slotLane k lane
    let keeps (w' : Wave) (fl : Flags) : Prop :=
      w'.mxflags = if fl = 0 ∨ c.w.exited = true then c.w.mxflags else c.w.mxflags ++ [(o.seqNo, o.lane, fl)]
    let settles (u : State) (fl : Flags) (then_ : Block → Prop) : Prop :=
      (u.badUnit o.units = none → ∃ t b' w', retires t ∧ onBlock t b' ∧ then_ b' ∧ t.waves.get? o.wave = some w' ∧
        keeps w' fl) ∧
      ∀ x, u.badUnit o.units = some x →
        (o.replayed = false → ∃ t, exec .matrixOperationRetirement s = .next t ∧ { t with cores := s.cores } = s ∧
          t.tileOp s.subj.a s.subj.b = some { o with replayed := true }) ∧
        (o.replayed = true → faults 0x34 (BitVec.ofNat 64 (256 * x.2)) 0)
    o.spans = [] →
    (∀ kind, o.kind = .zero kind → ∃ t b', retires t ∧ onBlock t b' ∧
      ∀ u ∈ o.units, b'.unitWords u.2 = List.replicate 64 0 ∧ b'.kindAt u.2 = kind ∧ b'.pair u.2 = 0) ∧
    (∀ kind, o.kind = .wr kind → 1 ≤ kind → kind ≤ 3 → o.units.Nodup → o.a.length = o.units.length →
      (∀ r ∈ o.a, r.length = 64 ∧ ∀ x ∈ r, x < 2 ^ 32) →
      settles ((s.modBlock o.block fun b => (o.units.zip o.a).foldl (fun b x => b.writeUnit x.1.2 kind x.2) b).resealAll
          o.units) 0 fun b' =>
        ∀ (r : Nat) u ws, o.units[r]? = some u → o.a[r]? = some ws → b'.kindAt u.2 = kind ∧
          (kind ≠ 3 → b'.unitWords u.2 = ws) ∧
          (kind = 3 → b'.unitElems u.2 = (List.range 32).map fun i => joinChans fun p =>
            balanced (chan (ws.getD (2 * i) 0 + 2 ^ 32 * ws.getD (2 * i + 1) 0) p) (modulus p))) ∧
    (∀ coff cpitch cols fmt n, o.kind = .tld coff cpitch cols n fmt → fmt ≤ 3 →
      let es := tileElem fmt
      cols * es % 256 = 0 → cols * es ≤ 256 * cpitch → o.units = tileUnits o.block coff cpitch o.a.length (cols * es / 256) →
      (∀ r ∈ o.a, r.length = cols ∧ ∀ x ∈ r, x < 2 ^ (8 * es)) →
      settles ((s.modBlock o.block fun b => b.loadTile coff cpitch fmt o.a).resealAll o.units) o.flags fun b' =>
        (∀ u ∈ o.units, b'.kindAt u.2 = fmtKind fmt) ∧
        ∀ (i j x : Nat), (o.a.getD i [])[j]? = some x → b'.accNat (256 * (coff + i * cpitch) + es * j) es = x) ∧
    (∀ ty coff cpitch n m k, o.kind = .mma ty coff cpitch n m k →
      let es := accElem ty
      o.a.length ≤ 128 → (∀ r ∈ o.a, r.length = k) → o.b.length = n → (∀ r ∈ o.b, r.length = k) →
      n * es % 256 = 0 → n * es ≤ 256 * cpitch → o.units = tileUnits o.block coff cpitch o.a.length (n * es / 256) →
      let x := s.applyMma s.subj.a o ty coff cpitch n k
      let chunk (xs : List Nat) (q : Nat) : List Nat := (xs.drop (32 * q)).take 32
      settles x.1 x.2 fun b' => (∀ u ∈ o.units, b'.kindAt u.2 = mmaKind ty) ∧
        ∀ i j, i < o.a.length → j < n → b'.accNat (256 * (coff + i * cpitch) + es * j) es =
          (List.range ((k + 31) / 32)).foldl (fun acc q =>
            (cellStep ty (s.failedOn s.subj.a) acc (chunk (o.a.getD i []) q) (chunk (o.b.getD j []) q)).1)
            (c.b.accNat (256 * (coff + i * cpitch) + es * j) es)) ∧
    (o.kind = .rd → o.dest.Nodup →
      (s.badUnit o.units = none → ∃ t w', writes t w' fun r lane =>
        BitVec.ofNat 32 ((c.b.unitWords (o.units.getD r (0, 0)).2).getD lane 0)) ∧
      ∀ u, s.badUnit o.units = some u → faults 0x34 (BitVec.ofNat 64 (256 * u.2)) 0) ∧
    (o.kind = .chkTile → o.units.Nodup → ∀ sound bad rest, o.units = sound ++ bad ++ rest →
      s.badUnit sound = none → (bad = [] ∧ rest = []) ∨ (∃ u, bad = [u] ∧ s.badUnit bad = some u) →
      ∃ t b' w', retires t ∧ t.blocks.get? o.block = some b' ∧ b'.acc = c.b.acc ∧ b'.kinds = c.b.kinds ∧ t.mem = s.mem ∧
        (∀ u ∈ sound, b'.pair u.2 = (c.b.resealSound u.2).pair u.2) ∧
        (∀ u, (o.block, u) ∉ sound → b'.pair u = c.b.pair u) ∧ t.waves.get? o.wave = some w' ∧
        w'.deferred = c.w.deferred ++
          bad.map fun u => ⟨o.seqNo, o.id, 0x34, BitVec.ofNat 64 (256 * u.2), 0, 0, false⟩) ∧
    (∀ shape h, o.kind = .pin shape → o.tenure = some h → o.dest.Nodup → ∃ t w', writes t w' fun _ _ => h) ∧
    (∀ h e n, o.tenure = some h → s.named o.launch h = .on s.subj.a e n → n.failed = false →
      KMap.wf (s.core s.subj.a).tenures = true → (s.core s.subj.a).tenures.get? e = some n →
      (∀ al be, o.kind = .upd al be →
        let x := n.update (modeOf o.fpmode) o.seed al.toNat be.toNat (o.a.getD 0 []) (o.b.getD 0 [])
        ∃ t w', retires t ∧ same t w' ∧ (t.core s.subj.a).tenures.get? e = some x.1 ∧ keeps w' x.2) ∧
      (o.kind = .frd → o.dest.Nodup →
        (n.firstBad = none →
          let out := n.readOut (o.a.getD 0 [])
          ∃ t w', (writes t w' fun r lane => BitVec.ofNat 32 (out.getD (64 * r + lane) (0, 0)).1) ∧
            keeps w' (out.foldl (fun f x => f ||| x.2) 0)) ∧
        ∀ row, n.firstBad = some row → faults 0x34 (h ++ (BitVec.ofNat 32 row : Word)) 0x80000000) ∧
      (o.kind = .chkTen →
        let rows := List.range (shapeV n.shape)
        (n.firstBad = none → ∃ t w', retires t ∧ same t w' ∧ w'.deferred = c.w.deferred ∧
          (t.core s.subj.a).tenures.get? e = some (rows.foldl Tenure.resealRow n)) ∧
        ∀ row, n.firstBad = some row → faults 0x34 (n.handle ++ (BitVec.ofNat 32 row : Word)) 0x80000000) ∧
      (o.kind = .unpin 0 → ∃ t w', retires t ∧ same t w' ∧ (t.core s.subj.a).tenures.get? e =
          (if c.l.dqm = true then some { n with gone := true } else none) ∧
        ∀ j, j ≠ e → (t.core s.subj.a).tenures.get? j = (s.core s.subj.a).tenures.get? j)) ∧
    (∀ d0 d1 d2 d3, o.kind = .rnsr → o.dest = [d0, d1, d2, d3] → o.dest.Nodup → s.badUnit o.units = none →
      let elem (lane : Nat) : Nat := (c.b.unitElems (o.units.getD (lane / 32) (0, 0)).2).getD (lane % 32) 0
      let answer (lane : Nat) : Reversed := reverse (s.failedOn s.subj.a) (elem lane)
      let read (lane : Nat) : Prop := o.lanes.getLsbD lane = true ∧ lane < 64 ∧ lane / 32 < o.units.length
      ((∀ lane, read lane → ∃ v kind ch, answer lane = .value v kind ch) → ∃ t w', retires t ∧ same t w' ∧
        ∀ lane v kind ch, read lane → answer lane = .value v kind ch →
          w'.slotLane d0 lane = BitVec.ofInt 32 v ∧ w'.slotLane d1 lane = BitVec.ofInt 32 (v / 2 ^ 32) ∧
          w'.slotLane d2 lane = BitVec.ofNat 32 (kind + if kind = 1 then 16 * ch else 0) ∧ w'.slotLane d3 lane = 0) ∧
      ∀ lane checks cands, read lane → answer lane = .mismatch checks cands →
        (∀ j, j < lane → read j → ∃ v kind ch, answer j = .value v kind ch) →
        faults 0x36 0 (BitVec.ofNat 32 (checks + 256 * cands))) ∧
    (∀ x, o.kind = .rnsChk x → o.dest.Nodup → ∃ t w', writes t w' (fun _ _ => channelTest s.subj.a o.id x.toInt) ∧
      ∀ p, p < 8 → (∀ r, Config.channelProduct o.id s.subj.a p r r = r * r) →
        (channelTest s.subj.a o.id x.toInt).getLsbD p = false)) ∧
  (∀ (s : State) (o : TileOp) (c : Ctx) (coff cpitch cols fmt tid wcnt : Nat) (rnd : Rnd) (a : DWord) (rs : List Reach)
    (u : State), s.TablesRise → s.MemCanon → s.tileOp s.subj.a s.subj.b = some o → s.opCtx o = some c →
    o.follower = none → c.b.halt = none → s.opHeld s.subj.a o = false → o.held = false → o.walking = [] → o.started = true →
    o.rows = [] → o.out = none → o.tags = [] → o.kind = .tst coff cpitch cols 1 fmt rnd tid wcnt →
    o.spans = [(a, cols * o.gran)] → o.gran = memElem fmt → fmt ≤ 3 → 0 < cols → s.outMeets c o.id true o.spans = false →
    s.badUnit o.units = none → c.l.dqm = false →
    State.check { s with later := false } c ((runAddrs o.gran (a, cols * o.gran)).map fun x => (0, x)) o.gran .write .nothing =
      .ok rs u →
    (∀ r ∈ rs, ∃ p, r.tgt = .here (.mem p)) →
    rs.Pairwise (fun x y => x.tgt.overlaps o.gran y.tgt o.gran = false) →
    let stored (j : Nat) : List Byte :=
      if fmt = 2 then natLe 8 (c.b.accNat (256 * coff + 8 * j) 8)
      else if fmt = 3 then natLe 2 (bf16.convert ⟨rnd, drawBits (matrixCounter tid 0 j wcnt) o.seed, false⟩
        (fp32.read (c.b.accNat (256 * coff + 4 * j) 4))).1
      else natLe 4 (c.b.accNat (256 * coff + 4 * j) 4)
    ∃ t, exec .matrixOperationRetirement s = .next t ∧ (∀ p ∈ (t.core s.subj.a).ops, p.id ≠ o.id) ∧
      (∀ (j p : Nat) r, rs[j]? = some r → r.tgt = .here (.mem p) → bytesFrom t.rawByte p o.gran = stored j) ∧
      (∀ x, (∀ r ∈ rs, ∀ p, r.tgt = .here (.mem p) → x < p ∨ p + o.gran ≤ x) → t.rawByte x = s.rawByte x) ∧
      ∀ k b, s.blocks.get? k = some b → ∃ b', t.blocks.get? k = some b' ∧ b'.acc = b.acc ∧ b'.scr = b.scr) ∧
  (∀ (acc : Nat) (as bs : List Nat) (failed : Byte), as.length = bs.length →
    let total (f : Nat → Int) (acc : Int) : Int := acc + ((as.zip bs).map fun x => f x.1 * f x.2).sum
    cellStep .i8 failed acc as bs = ((total (fun x => (BitVec.ofNat 8 x).toInt) acc % 2 ^ 32).toNat, 0) ∧
    (cellStep .rns failed acc as bs).2 = 0 ∧
    (∀ p, p < 8 → chan (cellStep .rns failed acc as bs).1 p = if failed.getLsbD p then chan acc p
      else balanced (total (fun x => chan x p) (chan acc p)) (modulus p)) ∧
    ∀ ty, ty ≠ .i8 → ty ≠ .rns → acc < 2 ^ 32 → (extOf acc).isFin = true →
      (∀ x, x ∈ as ∨ x ∈ bs → (elemExt ty x).1.isFin = true ∧ -200 ≤ (elemExt ty x).1.dy.e) →
      ∀ v : Int, v * 2 ^ 400 = fp32.num acc * 2 ^ 400 + ((as.zip bs).map fun x => codeNum ty x.1 * codeNum ty x.2).sum →
        let out := cellStep ty failed acc as bs
        (v ≠ 0 → fp32.RoundsWell rneKeep v out) ∧ (v = 0 → out = (0, 0))) ∧
  (∀ (fmt : Nat) (bs : List Byte) (i : Nat), fmt ≤ 3 → (i + 1) * memElem fmt ≤ bs.length →
    let x := leNat ((bs.drop (memElem fmt * i)).take (memElem fmt))
    (tileRow fmt bs)[i]? = some (
      if fmt = 2 then (joinChans fun p => balanced (chan x p) (modulus p), 0)
      else if fmt = 3 then (if (bf16.read x).isNan then 0x7FC00000 else x * 2 ^ 16, if (bf16.read x).isSnan then 16 else 0)
      else (x, 0))) ∧
  ∀ x : Int, -115190410035772 ≤ x → x ≤ 115190410035772 → reverse 0 (forward 0 x) = .value x 0 0

/-- R311, R328, R335, R338, R339, R347: a pair operation begins on its follower when nothing holds it there; a waiting
`pin` whose run has room gets its tenure, and its word retires, but the 256th of a block halts it with 0x35; the
governor's window closes with its count as the last one; a written RNSFAIL bit is kept until no residue operation is in
flight on the core, that of a pair whose follower it is among them, then takes effect; a spill moves the tenure's record
to its place in the pool and strikes it from the core, and pressure from another launch spills one, once the operations
that name it have ended: that it waits for them is the model's reading (log entry 37). -/
def Obligations.EngineEvents : Prop :=
  ∀ (s : State), s.TablesRise →
    (∀ o, s.tileOp s.subj.a s.subj.b = some o →
      (s.mayStartPair s.subj.a o = true → ∃ t, exec .pairOperationFollowerStart s = .next t ∧
        t.tileOp s.subj.a s.subj.b = some { o with started := true } ∧ { t with cores := s.cores } = s) ∧
      (s.mayStartPair s.subj.a o = false → exec .pairOperationFollowerStart s = .next s)) ∧
    (∀ c d shape base im, s.waveCtx s.subj.a = some c → c.w.qend = false → c.w.halted = false →
      c.w.blocked = some (.pin d shape) → c.atEdge 1 = false → shape < 16 → (c.l.dqm = true → c.l.quantumOpen = true) →
      s.accRoom c.b.launch c.l.dqm c.w.core c.b.imCore (shapeGran (BitVec.ofNat 4 shape)) none none = .at_ base im →
      let h : Word := BitVec.ofNat 32 (c.b.rank * 256 + s.pinsOf c.b c.l + 1)
      (255 ≤ s.pinsOf c.b c.l → exec .pinAllocation s = .next (State.takeHalt
        { s with waves := s.waves.set c.key { c.w with blocked := none } } c.key 0x35 0 c.t 0)) ∧
      (s.pinsOf c.b c.l < 255 → ∃ t w', exec .pinAllocation s = .next t ∧ t.mem = s.mem ∧ t.waves.get? s.subj.a = some w' ∧
        Retired c w' (c.after 1) ∧ w'.blocked = none ∧ w'.regs = c.w.regs ∧
        (∃ o ∈ (t.core c.w.core).ops, o.kind = .pin (BitVec.ofNat 4 shape) ∧ o.tenure = some h ∧
          o.dest = c.w.runSlots d 1 ∧ o.wave = s.subj.a) ∧
        ∃ e n, (t.core c.w.core).tenures.get? e = some n ∧ n.handle = h ∧ n.launch = c.b.launch ∧ n.gbase = base ∧
          n.shape = BitVec.ofNat 4 shape ∧ n.elems = [] ∧ n.writes = 0)) ∧
    (∃ t, exec .governorWindow s = .next t ∧ { t with cores := s.cores } = s ∧
      ((s.core s.subj.a).govWin < s.now / 1200 →
        (t.core s.subj.a).govIssues = 0 ∧ (t.core s.subj.a).govWin = s.now / 1200 ∧
        (t.core s.subj.a).govLast = if s.now / 1200 = (s.core s.subj.a).govWin + 1 then (s.core s.subj.a).govIssues else 0) ∧
      (s.now / 1200 ≤ (s.core s.subj.a).govWin → t.core s.subj.a = s.core s.subj.a)) ∧
    (∀ (core : Nat) (bits : BitVec 8), s.ctl.ready = true → core < 192 → ∃ t, exec (.rnsfailWrite core bits) s = .next t ∧
      { t with cores := s.cores } = s ∧
      t.core core = { s.core core with rnsWant := (s.core core).rnsWant ||| bits }) ∧
    (let flying : Prop := (∃ o ∈ (s.core s.subj.a).ops, o.isRns = true) ∨
        (s.subj.a % 2 = 1 ∧ ∃ o ∈ (s.core (s.subj.a - 1)).ops, o.isRns = true ∧ o.follower.isSome = true)
     (¬ flying → ∃ t, exec .rnsfailEffect s = .next t ∧ { t with cores := s.cores } = s ∧ t.core s.subj.a =
        { s.core s.subj.a with rnsFail := (s.core s.subj.a).rnsFail ||| (s.core s.subj.a).rnsWant }) ∧
     (flying → exec .rnsfailEffect s = .next s)) ∧
    (∀ core e n off own, s.MemCanon → KMap.wf (s.core core).tenures = true → (s.core core).tenures.get? e = some n →
      s.poolFit (spillUnits n.shape) = some off → (s.pool.filter fun p => p.live).length < 4096 →
      let place := s.ctl.tspBase.toNat + 4096 * off
      ∃ u, s.spill core e own = some u ∧ (u.core core).tenures.get? e = none ∧
        (∃ p ∈ u.pool, p.handle = n.handle ∧ p.launch = n.launch ∧ p.live = true ∧ p.offset = off ∧ p.shape = n.shape) ∧
        (∀ x, u.rawByte x = if place ≤ x ∧ x < place + n.bytes.length then n.bytes.getD (x - place) 0 else s.rawByte x) ∧
        u.waves = s.waves ∧ u.blocks = s.blocks ∧ u.ctl = s.ctl) ∧
    ∀ launch g e n, (s.pinWaiters s.subj.a (fun l _ => !l.dqm) false).length < 2 → s.starvedFor s.subj.a = none →
      s.roomTaken s.subj.a = some (launch, g) → KMap.wf (s.core s.subj.a).tenures = true →
      (s.core s.subj.a).tenures.length = 32 ∨ freeRun (s.accUsed s.subj.a) g accTotal = none →
      s.lastTenure s.subj.a (fun t => decide (t.launch ≠ launch)) = some (e, n) →
      (s.tenureBusy n.launch n.handle = false → ∀ u, s.spill s.subj.a e false = some u →
        (u.core s.subj.a).tenures.length < 32 → (freeRun (u.accUsed s.subj.a) g accTotal).isSome = true →
        exec .pressureSpill s = .next u.noteWaits) ∧
      (s.tenureBusy n.launch n.handle = true →
        let u := s.finishTenure n.launch n.handle
        u.tenureBusy n.launch n.handle = true → exec .pressureSpill s = .next (if u = s then s else u.noteWaits))

/-- R19, R20, R25, R30, R32, R36 to R39, R42, R49, R150, R183, R223, R300, R407. Where blocks go: of a run in free mode the
next cluster of one block takes the first core, in the order in which cores freed, that has room for it, as the run is
launched the lowest-numbered core with room, and a member that waits takes the lowest-numbered core of its cell before any
cluster; other members of a cluster take the lowest-numbered cores of its cell. A wave goes to the section with the most free
wave slots, the lower-numbered of two, among those with room for its registers, and every run is the lowest that fits. A block
that retires enters its core among those that have freed. How a placement starts a block: on its core
with scratchpad and accumulator all 0, its ticket its rank, and every wave at the entry (its shadow one word on) with
all lanes active, registers 0, level 7, rounding mode RNE and the launch's seed; a placement log receives its entry. A drain,
after 4,096 cycles of waiting,
marks the lowest core that would have room but for holes, one at a time, and nothing but what waits is placed on it. A block
whose waves have
exited and whose accesses are done retires, and its waves with it; a deferred fault of an exited wave halts it at that
point instead, and its ticket is taken. A run whose blocks have all retired ends with one completion message. That
peers' acknowledgements hold a retirement is the model's reading (log entry 36). -/
def Obligations.LaunchEvents : Prop :=
  (∀ (o p : Occ) (g sc ac : Nat) (sp : Spot), (∀ k, k < 4 → (o.inSect k).length ≤ 16) →
    Occ.fit false ⟨1, g, false, sc, ac⟩ none o = some (p, sp) →
    let free (used : List (Nat × Nat)) (n total b : Nat) : Prop :=
      b + n ≤ total ∧ ∀ u ∈ used, u.2 = 0 ∨ b + n ≤ u.1 ∨ u.1 + u.2 ≤ b
    let lowest (used : List (Nat × Nat)) (n total b : Nat) : Prop :=
      free used n total b ∧ ∀ b', b' < b → ¬ free used n total b'
    let fits (k : Nat) : Prop := (o.inSect k).length < 16 ∧ ∃ b, free (o.inSect k) g 128 b
    lowest o.scr sc 64 sp.scr ∧ lowest o.acc ac 32 sp.acc ∧
    ∃ k b, sp.waves = [(k, b)] ∧ k < 4 ∧ fits k ∧ lowest (o.inSect k) g 128 b ∧
      ∀ j, j < 4 → fits j → (o.inSect k).length < (o.inSect j).length ∨ ((o.inSect k).length = (o.inSect j).length ∧ k ≤ j)) ∧
  (∀ (x : Placing) (need : Need) (ok : Nat → Nat → Bool) (cell r : Nat) (rs : List Nat),
    let fits (c : Nat) : Prop := ok r c = true ∧ ((x.occ c).fit false need none).isSome = true
    (∀ c o sp, c / 8 = cell → ok r c = true → (x.occ c).fit false need none = some (o, sp) →
      (∀ d, d / 8 = cell → d < c → ¬ fits d) →
      Placing.members false need ok cell (r :: rs) x = Placing.members false need ok cell rs (x.put c r o sp)) ∧
    ((∀ c, c / 8 = cell → ¬ fits c) → Placing.members false need ok cell (r :: rs) x =
      Placing.members false need ok cell rs { x with waiting := x.waiting ++ [(r, cell)] })) ∧
  (∀ (l : Launch) (at_ core : Nat), let before (x y : Nat × Nat) : Prop := x.1 < y.1 ∨ (x.1 = y.1 ∧ x.2 < y.2)
    l.freed.Pairwise before → core ∉ l.freed.map (·.2) →
      ((at_, core) :: l.freed).Perm (l.enterFreed at_ core).freed ∧ (l.enterFreed at_ core).freed.Pairwise before) ∧
  ∀ (s : State) (l : Launch), s.TablesRise → s.launches.get? s.subj.a = some l →
    (∀ u, l.dqm = true ∨ s.firstOffer s.subj.a = true → s.placeOne s.subj.a l = some u →
      exec .clusterPlacement s = .next u.noteWaits) ∧
    (l.dqm = false → s.firstOffer s.subj.a = false → exec .clusterPlacement s = .next s) ∧
    (s.placeOne s.subj.a l = none → exec .clusterPlacement s = .next s) ∧
    (l.dqm = false → l.standing = none → l.whole = false → l.replays = false →
      let need := l.record.need
      let fits (rank c : Nat) : Prop := s.mayUse s.subj.a l rank c = true ∧ ((s.physOcc c).fit false need none).isSome = true
      let starts (rank c : Nat) (sp : Spot) (cpos : Nat) : Option State := some ((s.startBlock s.subj.a rank c sp sp).modLaunch
        s.subj.a fun l => { l with cpos := cpos, waiting := [], offered := true })
      (l.offered = true → l.waiting = [] → l.record.members = 1 →
        (l.cpos < l.record.clusters → ∀ xs c ys o sp, l.freed.map (·.2) = xs ++ c :: ys → (∀ d ∈ xs, ¬ fits l.cpos d) →
          s.mayUse s.subj.a l l.cpos c = true → (s.physOcc c).fit false need none = some (o, sp) →
          s.placeOne s.subj.a l = starts l.cpos c sp (l.cpos + 1)) ∧
        (l.record.clusters ≤ l.cpos ∨ (∀ c ∈ l.freed.map (·.2), ¬ fits l.cpos c) → s.placeOne s.subj.a l = none)) ∧
      (l.offered = true → ∀ r cell c o sp, l.waiting = [(r, cell)] → c / 8 = cell → s.mayUse s.subj.a l r c = true →
        (s.physOcc c).fit false need none = some (o, sp) → (∀ d, d / 8 = cell → d < c → ¬ fits r d) →
        s.placeOne s.subj.a l = starts r c sp l.cpos) ∧
      (l.offered = false → l.record.members = 1 → l.cpos + 1 = l.record.clusters →
        (∀ c o sp, s.mayUse s.subj.a l l.cpos c = true → (s.physOcc c).fit false need none = some (o, sp) →
          (∀ d, d < c → ¬ fits l.cpos d) → s.placeOne s.subj.a l = starts l.cpos c sp (l.cpos + 1)) ∧
        ((∀ c, ¬ fits l.cpos c) → s.placeOne s.subj.a l =
          some (s.modLaunch s.subj.a fun l => { l with waiting := [], offered := true })))) ∧
    (∀ rank core p im, l.standing = none → p.waves.length = im.waves.length →
      let paired := l.record.options.getLsbD 1
      p.waves.length ≤ (if paired then 32 else 16) → rank < 2 ^ 31 →
      let key := blockKey s.subj.a rank
      let va := (l.log.toNat + 8 * rank) % 2 ^ 57
      let entry : List Byte := natLe 8 ((if l.dqm then l.bounds + 1 else l.starts) * 2 ^ 32 +
        (p.waves.headD (0, 0)).1 * 2 ^ 16 + core)
      ∃ t b', s.startBlock s.subj.a rank core p im = t ∧ t.blocks.get? key = some b' ∧
        (l.flags.getLsbD 1 = false → t.mem = s.mem) ∧
        (l.flags.getLsbD 1 = true → va % 8 = 0 → s.MemCanon → ∀ x a, s.walk l.asid l.root va = .leaf x →
          s.route (x.target va) = .here (.mem a) → x.permits .write false = true → s.inView (.here (.mem a)) = false →
          ∀ y, t.rawByte y = if a ≤ y ∧ y < a + 8 then entry.getD (y - a) 0 else s.rawByte y) ∧
        b'.launch = s.subj.a ∧ b'.rank = rank ∧ b'.core = core ∧ b'.scr = [] ∧ b'.acc = [] ∧ b'.ticket = some rank ∧
        b'.halt = none ∧ b'.queues = [] ∧ b'.pins = 0 ∧
        (∀ (i : Nat) x, p.waves[i]? = some x →
          let n := if paired then i / 2 else i
          let shadow := paired && decide (i % 2 = 1)
          ∃ w, t.waves.get? (waveKey key n shadow) = some w ∧ w.block = key ∧ w.index = n ∧ w.shadow = shadow ∧
          w.core = core ∧ w.sect = x.1 ∧ w.runBase = x.2 ∧
          w.pc = (if shadow then l.record.entry + 4 else l.record.entry) ∧ w.active = BitVec.allOnes 64 ∧
          w.live = BitVec.allOnes 64 ∧ w.regs = [] ∧ w.stack = [] ∧ w.level = 7 ∧ w.fpmode = 1 ∧ w.wb = 0 ∧
          w.retired = 0 ∧ w.seed = l.record.seed ∧ w.sup = false ∧ w.regCount = (l.record.regCount + 7) / 8 * 8) ∧
        ∃ l', t.launches.get? s.subj.a = some l' ∧ (l'.startedRanks.get? rank).isSome = true ∧ l'.starts = l.starts + 1) ∧
    (l.dqm = false → l.standing = none → l.whole = false → l.replays = false → l.waiting = [] → l.record.members = 1 →
      ∀ x, x ∈ s.torn l ↔ l.cpos < l.record.clusters ∧ x.rank = l.cpos ∧ x.core < 192 ∧
        l.record.mask.getLsbD x.core = true ∧ x.blocks = [(l.record.need, none)] ∧
        (s.physOcc x.core).fit false l.record.need none = none ∧
        ((s.physOcc x.core).fit true l.record.need none).isSome = true) ∧
    (∀ x ∈ s.torn l, (s.waitTimes l).get? x.rank = some (l.waitFrom.getD x.rank s.now)) ∧
    (let long (x : Want) : Prop := x ∈ s.torn l ∧ ∃ t, l.waitFrom.get? x.rank = some t ∧ t + 4096 ≤ s.now
     let busy : Prop := ∃ c r, (s.core c).drains = some (s.subj.a, r)
     (∀ x, long x → (∀ y, long y → x.core ≤ y.core) → ¬ busy → (s.core x.core).drains = none →
       ∃ t y, exec .drain s = .next t ∧ long y ∧ y.core = x.core ∧ (t.core x.core).drains = some (s.subj.a, y.rank) ∧
         { t with cores := s.cores } = s ∧ ∀ k, k ≠ x.core → t.core k = s.core k) ∧
     ((∀ x, ¬ long x) ∨ busy → exec .drain s = .next s)) ∧
    (∀ c a r rank, (s.core c).drains = some (a, r) → s.mayUse s.subj.a l rank c = true →
      a = s.subj.a ∧ (l.whole = true ∨ rank / l.clusterSize = r / l.clusterSize)) ∧
    (s.runOver s.subj.a l = false → exec .runCompletion s = .next s) ∧
    (s.runOver s.subj.a l = true → l.domain = none → ∃ t, exec .runCompletion s = .next t ∧
      t.launches.get? s.subj.a = none ∧ t.mem = s.mem ∧ t.waves = s.waves ∧
      (∀ c e n, (t.core c).tenures.get? e = some n → (e, n) ∈ (s.core c).tenures ∧ n.launch ≠ s.subj.a) ∧
      t.grants = s.grants ++ [⟨s.portFor ((ownDev + l.endpoint.toNat % 4096) % 16), msgClass 0x0002,
        ⟨0x0002, l.endpoint, l.tag, [0, 0, 255, l.outcome] ++ natLe 4 0 ++ natLe 8 (if l.dqm then l.bounds else 0)⟩⟩]) ∧
    ∀ (k : Nat) (b : Block), let s1 : State := { s with subj := ⟨k, 0, 0⟩ }
      s.blocks.get? k = some b → b.launch = s.subj.a → l.standing = none → l.dqm = false → b.halt = none →
      (s1.allExited k = false ∨ s1.blockDone k = false → exec .blockRetirement s1 = .next s1) ∧
      (s1.allExited k = true → s1.exitFault k = none → s1.blockDone k = true →
        ∃ t l', exec .blockRetirement s1 = .next t ∧ t.mem = s.mem ∧ t.blocks.get? k = none ∧
          (∀ j v, t.waves.get? j = some v → v.block ≠ k ∧ s.waves.get? j = some v) ∧
          t.launches.get? s.subj.a = some l' ∧ (l'.retiredRanks.get? b.rank).isSome = true ∧
          (b.core ∉ l.freed.map (·.2) → ((t.physOcc b.core).fit false l.record.need none).isSome = true →
            (s.now, b.core) ∈ l'.freed) ∧
          (∀ r, b.ticket = some r → (l'.abandoned.get? r).isSome = true)) ∧
      ∀ key d w, s1.allExited k = true → s1.blockDone k = true → s1.exitFault k = some (key, d) →
        s.waves.get? key = some w → b.snap = none →
        ∃ t r b' l', exec .blockRetirement s1 = .next t ∧ t.traps = s.traps ++ [r] ∧ r.cause = d.cause ∧ r.addr = d.addr ∧
          r.mask = 0 ∧ r.pc = w.pc ∧ r.halt = true ∧ t.blocks.get? k = some b' ∧ b'.halt.isSome = true ∧ t.mem = s.mem ∧
          t.launches.get? s.subj.a = some l' ∧ ∀ r, b.ticket = some r → b'.ticket = none ∧ (l'.abandoned.get? r).isSome = true

/-- R162, R168, R173, R183, R198, R205, R224, R277, R278: a boundary of a run in DQM comes about when every wave has ended
its quantum: the buffered stores and atomics of this device, those of a `tst` and those into the scratchpads of other members
among them, take effect in commit order (wave order, each in program order),
each over what stood before, and memory and scratchpads after the event are what they give; tickets taken count. A store to a
peer is sent once all before it have taken effect, and nothing after it takes effect before the peer has answered. The jobs of
the quantum then run one after another, none before the one before it has ended. Once what was written is
complete at device scope, every wave starts its next quantum with an empty share, a count of 0 and no quantum-end mark,
but for one that waits at a barrier or for its ticket, and the boundary number rises by one. Before that, memory is as it
was. An atomic into a view, which faults as it issues (R114), is in no buffer. -/
def Obligations.BoundariesCommit : Prop :=
  ∀ (s : State) (l : Launch), s.TablesRise → s.MemCanon → s.launches.get? s.subj.a = some l → l.standing = none →
    let mine := s.wavesIn s.subj.a
    let quiet : Prop := l.flags.getLsbD 1 = false ∧ ∀ e ∈ mine, ∀ d k, e.2.blocked ≠ some (.pin d k)
    let all := s.commitList s.subj.a
    let clean : Prop := quiet ∧ s.poison = [] ∧ s.diePoison = [] ∧ (∀ e ∈ mine, s.killedWave e.2 = false) ∧
      ∀ k b, s.blocks.get? k = some b → b.scrPoison = [] ∧ KMap.wf b.scr = true
    let isLocal (e : Buffered) : Prop := match e with
      | .store (.here (.scr k _)) _ _ _ _ => (s.blocks.get? k).isSome = true
      | .rmw _ (.here (.scr k _)) _ _ _ _ _ _ => (s.blocks.get? k).isSome = true
      | .rmw op (.here (.mem p)) _ _ _ _ _ _ => s.meetsView p op.width = false
      | .store (.peer _ _) _ _ _ _ => False
      | .rmw _ (.peer _ _) _ _ _ _ _ _ => False
      | .job _ _ => False
      | _ => True
    let front := s.boundaryFront s.subj.a
    let done := front.2
    let effect (m : Loc → Byte) (e : Nat × Nat × Buffered) : Loc → Byte := match e.2.2 with
      | .store (.here q) n v _ _ => putAt m q n v
      | .rmw op (.here q) v w _ _ _ _ => match op.result (leNat ((List.range op.width).map fun i => m (q.plus i))) v w with
        | some y => putAt m q op.width y
        | none => m
      | _ => m
    let opens (t : State) (l' : Launch) : Prop :=
      l'.bounds = l.bounds + 1 ∧ l'.committed = false ∧ l'.commitSent = false ∧
      ∀ j v b v', s.waves.get? j = some v → s.blocks.get? v.block = some b → b.launch = s.subj.a →
        t.waves.get? j = some v' → v'.qcount = 0 ∧ v'.share = [] ∧ v'.shareUsed = 0 ∧ v'.stalled = none ∧
          v'.blocked ≠ some .handle ∧
          (v'.qend = true ↔ v'.blocked = some .barC ∨ v'.blocked = some .barDev ∨ ∃ d, v'.blocked = some (.ticket d))
    let commits (es : List (Nat × Nat × Buffered)) (t : State) (l' : Launch) : Prop :=
      t.launches.get? s.subj.a = some l' ∧
      (∀ q, front.1.byteAt q = es.foldl effect s.byteAt q) ∧ (∀ x, t.rawByte x = es.foldl effect s.byteAt (.mem x)) ∧
      (∀ e ∈ es, e.2.2 = .take → ∀ w b r, s.waves.get? e.1 = some w → s.blocks.get? w.block = some b →
        b.ticket = some r → r < l'.tickets ∨ (l'.takenAhead.get? r).isSome = true) ∧
      (done = true → opens t l') ∧ (done = false → t = front.1 ∧ l'.bounds = l.bounds ∧ l'.committed = true)
    (l.dqm = false → exec .quantumBoundary s = .next s) ∧
    (l.dqm = true → l.committed = false → l.commitSent = false →
      (s.mayClose s.subj.a l = false → exec .quantumBoundary s = .next s) ∧
      (s.mayClose s.subj.a l = true → (∀ e ∈ mine, e.2.outst = []) → clean →
        (∀ e ∈ all, isLocal e.2.2) → ∃ t l', exec .quantumBoundary s = .next t ∧ commits all t l') ∧
      (s.mayClose s.subj.a l = true → (∀ e ∈ mine, e.2.outst = []) → clean →
        ∀ xs k c d pa n v i a ys, all = xs ++ (k, c, .store (.peer d pa) n v i a) :: ys → (∀ e ∈ xs, isLocal e.2.2) →
          ∃ t l' x, exec .quantumBoundary s = .next t ∧ t.launches.get? s.subj.a = some l' ∧
            (∀ q, t.byteAt q = xs.foldl effect s.byteAt q) ∧ t.grants = s.grants ++ [x] ∧ x.msg.kind = 0x0012 ∧
            x.msg.dst = BitVec.ofNat 16 d ∧ x.msg.payload = writePayload pa (natLe n v) ∧ l'.bounds = l.bounds ∧
            l'.committed = false ∧ l'.commitSent = true ∧ l'.commitPos = xs.length ∧ l'.commitReqs = [x.msg.tag.toNat])) ∧
    (l.dqm = true → l.committed = false → l.commitSent = true → ∀ tag r k c d pa n v i a ys, l.commitReqs = [tag] →
      s.remote.get? tag = some r → all.drop l.commitPos = (k, c, .store (.peer d pa) n v i a) :: ys →
      (r.status = none → exec .quantumBoundary s = .next s) ∧
      (r.status = some 0 → clean → (∀ e ∈ ys, isLocal e.2.2) → ∃ t l', exec .quantumBoundary s = .next t ∧ commits ys t l')) ∧
    (l.dqm = true → l.committed = true → l.commitSent = false → (∀ e ∈ s.saved, e.2.block.launch ≠ s.subj.a) →
      ∀ core id rest j, s.quantumJobs s.subj.a = (core, id) :: rest → s.job core id = some j →
        let u := (s.enterJob core j l.tag).runJob core id
        ((u.job core id).isSome = true → exec .quantumBoundary s = .next u) ∧
        (u.job core id = none → exec .quantumBoundary s = exec .quantumBoundary u)) ∧
    (l.dqm = true → l.committed = true → s.quantumJobs s.subj.a = [] → (∀ e ∈ s.saved, e.2.block.launch ≠ s.subj.a) →
      let complete : Prop := l.commitEnd ≤ s.now ∧ l.commitSent = false ∧
        ∀ k b, (k, b) ∈ s.blocksOf s.subj.a → b.kill.isSome = true ∨ b.halt.isSome = true ∨ s.allExited k = false ∨
          s.blockDone k = true
      (l.commitSent = false → ¬ complete → exec .quantumBoundary s = .next s) ∧
      (complete → ∃ t l', exec .quantumBoundary s = .next t ∧ t.launches.get? s.subj.a = some l' ∧ opens t l' ∧
        (quiet → ∀ x, t.rawByte x = s.rawByte x)))

/-! ## Peers, ports and domains -/

/-- R161, R304, R305: a peer's read of memory is answered with the bytes; a write stores its bytes and no others; an
atomic operation stores its result over the old value, which the answer carries; each answer goes out on the port of
the address's plane. A range outside the device, a write into a view, or poison that stays answers with status 1 and
changes nothing. The answer to a request of this device reaches what awaits it: a word or job through the record of
the request; a store that has retired is no longer owed, and when it failed its wave halts with 0x17, or has the fault
kept for the retirement of its block when it has exited; a fault waits for the end of a word under way. An answer that comes
more than 1 ms after its request, or not at all, acts as one of status 1. R298,
R304, R305: a message of a reserved kind that arrives on a working port is dropped there and counted, up to 2^32 - 1, and so is
one of a reserved source type or of lengths that disagree; a module that is off, or whose ports are all down, takes no
message (R13, R400); the receiver grants a port's oldest request of a class, and that message leaves, or arrives at this device when it is a memory
message for it (log entry 48); a port goes down,
and every message that waits on it waits on the next working port instead, when there is one. Where the range of the
device ends is read from R1 (log entry 8); the late fault of an exited wave is the model's reading (log entry 31), and so is
status 1 for an atomic whose operation code is unknown (log entry 32). -/
def Obligations.PeersAndPorts : Prop :=
  (∀ (s : State),
    (∀ (src : BitVec 16) (tag : Word) (addr : DWord), s.deaf = false → knownType src →
      let a := addr.toNat
      (∀ (len : BitVec 32),
        (s.inRange a len.toNat = true → len ≠ 0 ∨ ctlOffset a = none → s.poisoned (.mem a) len.toNat = false →
          ∃ t, exec (.remoteRead src tag addr len) s = .next t ∧
            s.Replied t 0x0011 src tag a 0 (bytesFrom s.homeByte a len.toNat) ∧
            { t with grants := s.grants, views := s.views, l2 := s.l2 } = s) ∧
        ((s.inRange a len.toNat = false ∧ ctlOffset a = none) ∨
            (s.inRange a len.toNat = true ∧ s.poisoned (.mem a) len.toNat = true) →
          ∃ t, exec (.remoteRead src tag addr len) s = .next t ∧ s.Replied t 0x0011 src tag a 1 [] ∧
            { t with grants := s.grants } = s)) ∧
      (∀ (data : List Byte), s.MemCanon →
        let ok := s.inRange a data.length && s.healsAll a data.length
        (s.meetsView a data.length = false → ctlOffset a = none → ok = true →
          ∃ t, exec (.remoteWrite src tag addr data) s = .next t ∧ s.Replied t 0x0013 src tag a 0 [] ∧
          (∀ x, t.rawByte x = if a ≤ x ∧ x < a + data.length then data.getD (x - a) 0 else s.rawByte x) ∧
          t.waves = s.waves ∧ t.blocks = s.blocks ∧ t.cores = s.cores ∧ t.ctl = s.ctl) ∧
        (s.meetsView a data.length = true ∨ (ctlOffset a = none ∧ ok = false) →
          ∃ t, exec (.remoteWrite src tag addr data) s = .next t ∧ s.Replied t 0x0013 src tag a 1 [] ∧
          { t with grants := s.grants } = s)) ∧
      ctlOffset a = none →
      (∀ (op : RemoteOp) (o : Rmw) (v w : DWord), s.MemCanon → remoteFits op = true → remoteRmw op = some (o, v, w) →
        let ok := s.inRange a o.width && !s.meetsView a o.width && !s.poisoned (.mem a) o.width
        let old := leNat (bytesFrom s.rawByte a o.width)
        (ok = true → ∃ t, exec (.remoteAtomic src tag addr op) s = .next t ∧
          s.Replied t 0x0015 src tag a 0 (natLe o.width old) ∧
          (∀ x, t.rawByte x = match o.result old v w with
            | some y => if a ≤ x ∧ x < a + o.width then BitVec.ofNat 8 (y / 256 ^ (x - a)) else s.rawByte x
            | none => s.rawByte x) ∧
          t.waves = s.waves ∧ t.blocks = s.blocks ∧ t.cores = s.cores ∧ t.ctl = s.ctl) ∧
        (ok = false → ∃ t, exec (.remoteAtomic src tag addr op) s = .next t ∧ s.Replied t 0x0015 src tag a 1 [] ∧
          { t with grants := s.grants } = s)) ∧
      ∀ (op : RemoteOp), remoteFits op = true → remoteRmw op = none →
        ∃ t, exec (.remoteAtomic src tag addr op) s = .next t ∧
          s.Replied t 0x0015 src tag a 1 [] ∧ { t with grants := s.grants } = s) ∧
    (∀ (i : Instr) (tag : Word) (st : Byte) (data : List Byte), knownType (BitVec.ofNat 16 s.subj.b) →
      i = .readResponse tag st data ∨ (i = .writeResponse tag st ∧ data = []) ∨ i = .atomicResponse tag st data →
      let k := tag.toNat
      let now : Byte → Nat → Byte := fun x deadline => if deadline < s.now then 1 else x
      (s.deaf = true ∨ s.remote.get? k = none → exec i s = .next s) ∧
      ∀ r w, s.deaf = false → s.remote.get? k = some r → KMap.wf s.remote = true → r.status = none →
        s.waves.get? r.wave = some w → (data = [] ∧ (∃ x, i = .writeResponse tag x)) ∨ s.answerFits k st data = true →
        let st := now st r.deadline
        let held : State := { s with remote := s.remote.set k { r with status := some st, data := data.take r.size } }
        let owed : State := { s with
          remote := s.remote.erase k
          waves := s.waves.set r.wave { w with peerOut := w.peerOut.filter fun x => decide (x ≠ k) } }
        (k ∉ w.peerOut ∨ w.underWay = true → exec i s = .next held) ∧
        (k ∈ w.peerOut → w.underWay = false →
          (∀ g ∈ w.peerOut, g ≠ k → ∀ q, s.remote.get? g = some q → q.status = none) →
          (st = 0 → exec i s = .next owed) ∧
          (st ≠ 0 → w.exited = false →
            exec i s = .next (owed.takeHalt r.wave 0x17 r.addr (maskOf fun j => j == r.lane) (BitVec.ofNat 32 r.lane))) ∧
          (st ≠ 0 → w.exited = true → ∀ b l, s.blocks.get? w.block = some b → s.launches.get? b.launch = some l →
            (l.standing.isSome = true → l.dqm = false → exec i s = .next { owed with
              blocks := owed.blocks.set w.block { b with kill := some (b.kill.getD 0x17) } }) ∧
            (l.standing = none → b.snap = none → ∃ t w', exec i s = .next t ∧ { t with waves := owed.waves } = owed ∧
              t.waves.get? r.wave = some w' ∧ w'.peerOut = w.peerOut.filter (fun x => decide (x ≠ k)) ∧
              w'.deferred = w.deferred ++ [⟨0, r.acc, 0x17, r.addr, BitVec.ofNat 32 r.lane, 0, false⟩])))) ∧
    ∀ r, s.remote.get? s.subj.a = some r → s.subj.a < 2 ^ 32 →
      (s.now < r.deadline → exec .remoteRequestTimeout s = .next s) ∧
      (r.deadline ≤ s.now → exec .remoteRequestTimeout s = .next (s.answer s.subj.a 1 [])) ∧
      (r.deadline ≤ s.now → s.deaf = false → knownType (BitVec.ofNat 16 s.subj.b) →
        exec .remoteRequestTimeout s = exec (.writeResponse (BitVec.ofNat 32 s.subj.a) 1) s)) ∧
  (∀ (s : State) (i : Instr) src agree, messageRow s i = some (src, agree) →
    (s.deaf = true → exec i s = .next s) ∧
    (s.deaf = false → ¬ knownType src ∨ agree = false → exec i s = exec .reservedMessage s)) ∧
  (∀ (s : State), s.powered = false → exec .reservedMessage s = .next s ∧ exec .portDown s = .next s) ∧
  (∀ (s : State), s.powered = true → s.subj.a < 16 →
    (s.ctl.portDown.getLsbD s.subj.a = false →
      (∃ t, exec .reservedMessage s = .next t ∧ { t with ctl := { t.ctl with portDrop := s.ctl.portDrop } } = s ∧
        ∀ n, (t.ctl.portDrop.getD n 0).toNat = if n = s.subj.a then
          min (2 ^ 32 - 1) ((s.ctl.portDrop.getD n 0).toNat + 1) else (s.ctl.portDrop.getD n 0).toNat) ∧
      (∀ xs ys g, s.grants = xs ++ g :: ys → g.port = s.subj.a → g.cls = s.subj.b →
        (∀ x ∈ xs, ¬ (x.port = s.subj.a ∧ x.cls = s.subj.b)) →
        let m := g.msg
        let own : Prop := 0x10 ≤ m.kind.toNat ∧ m.kind.toNat ≤ 0x15 ∧ m.dst.toNat = ownDev
        let here : State := { s with grants := xs ++ ys, subj := ⟨s.subj.a, ownDev, 0⟩ }
        let addr : DWord := BitVec.ofNat 64 (leAt m.payload 0 8)
        let status : Byte := BitVec.ofNat 8 (leAt m.payload 0 1)
        let rest := m.payload.drop 16
        (¬ own → exec .messageGrant s = .next { s with grants := xs ++ ys, outbox := s.outbox ++ [m] }) ∧
        (own → m.kind = 0x0010 → exec .messageGrant s =
          exec (.remoteRead (BitVec.ofNat 16 ownDev) m.tag addr (BitVec.ofNat 32 (leAt m.payload 8 4))) here) ∧
        (own → m.kind = 0x0011 → exec .messageGrant s = exec (.readResponse m.tag status rest) here) ∧
        (own → m.kind = 0x0012 → exec .messageGrant s =
          exec (.remoteWrite (BitVec.ofNat 16 ownDev) m.tag addr (rest.take (leAt m.payload 8 4))) here) ∧
        (own → m.kind = 0x0013 → exec .messageGrant s = exec (.writeResponse m.tag status) here) ∧
        (own → m.kind = 0x0014 → exec .messageGrant s = exec (.remoteAtomic (BitVec.ofNat 16 ownDev) m.tag addr
          ⟨BitVec.ofNat 8 (leAt m.payload 8 1), BitVec.ofNat 4 (leAt m.payload 9 1), rest⟩) here) ∧
        (own → m.kind = 0x0015 → exec .messageGrant s = exec (.atomicResponse m.tag status rest) here)) ∧
      ((∀ x ∈ s.grants, ¬ (x.port = s.subj.a ∧ x.cls = s.subj.b)) → exec .messageGrant s = .next s)) ∧
    (s.ctl.portDown.getLsbD s.subj.a = true → exec .reservedMessage s = .next s ∧ exec .messageGrant s = .next s) ∧
    ∃ t, exec .portDown s = .next t ∧
      { t with ctl := { t.ctl with portDown := s.ctl.portDown }, grants := s.grants } = s ∧
      (∀ n, n < 16 → t.ctl.portDown.getLsbD n = (decide (n = s.subj.a) || s.ctl.portDown.getLsbD n)) ∧
      t.grants.length = s.grants.length ∧
      ∀ (j : Nat) (x : GrantReq), s.grants[j]? = some x → ∃ y, t.grants[j]? = some y ∧ y.msg = x.msg ∧ y.cls = x.cls ∧
        (x.port ≠ s.subj.a → y.port = x.port) ∧
        (x.port = s.subj.a → t.ctl.portDown ≠ BitVec.allOnes 16 → t.ctl.portDown.getLsbD y.port = false))

/-- R217 to R219, R310: `bar.dom` waits for its wave's accesses, then is Blocked; the last local arrival sends the
device's arrival to the root, once for a generation. A device alone in its group, every wave of whose run has arrived,
releases at once: each waiter's word retires. The root keeps an arrival until every member's is there, then sends each
other member a release, of status 1 where the tables differ, and is released itself. A release of status 0 lets the
waiters of its launch and generation go on; one of status 1 halts their blocks; one for no such launch does nothing.
Once the run of every member has ended the root keeps nothing of its barriers. Of several valid groups an open function
picks the one used (log entry 10). -/
def Obligations.DomainBarrier : Prop :=
  ∀ (s : State), s.TablesRise → s.NonePublished →
    let passes (launch : Nat) (t : State) (j : Nat) (v : Wave) : Prop :=
      ∀ b, s.blocks.get? v.block = some b → b.launch = launch → v.blocked = some .barDom → v.exited = false →
        ∃ v', t.waves.get? j = some v' ∧ v'.pc = v.pc + 4 ∧ v'.retired = (v.retired + 1) % 2 ^ 48 ∧ v'.blocked = none ∧
          { v'.bookOf v with acq := v.acq } = v
    (∀ (g : Guard) (c : Ctx) (n : Nat) (d : Group), Clear s (controlForm g false []) c → c.l.standing = none →
      c.l.dqm = false → c.l.domain = some (n, d) → c.w.blocked ≠ some .barDom → c.w.halted = false → c.w.parked = none →
      let gen : Word := BitVec.ofNat 32 (c.l.domGen + 1)
      (s.released c.w .system = false → ∃ t w', exec (.barDom g) s = .next t ∧ c.Waits t w' ∧
        w'.blocked = c.w.blocked ∧ t.mem = s.mem) ∧
      (s.released c.w .system = true → s.runArrived .barDom c.b.launch c.l (some c.key) = false ∨ c.l.domSent = true →
        ∃ t w', exec (.barDom g) s = .next t ∧ c.Waits t w' ∧ w'.blocked = some .barDom ∧ t.mem = s.mem ∧
          t.grants = s.grants ∧ t.launches = s.launches ∧ ∀ j, j ≠ c.key → t.waves.get? j = s.waves.get? j) ∧
      (s.released c.w .system = true → s.runArrived .barDom c.b.launch c.l (some c.key) = true → c.l.domSent = false →
        (d.root ≠ ownDev → ∃ t w' l', exec (.barDom g) s = .next t ∧ c.Waits t w' ∧ w'.blocked = some .barDom ∧
          t.mem = s.mem ∧ t.launches.get? c.b.launch = some l' ∧ l' = { c.l with domSent := true } ∧
          s.Sent t 0x0020 (BitVec.ofNat 16 d.root) 0 (barBytes ⟨BitVec.ofNat 8 n, 0, c.l.tag, gen, d.crc⟩)) ∧
        (d.list = [ownDev] → n < 16 → s.doms = [] → (∀ e ∈ s.launches, e.2.tag = c.l.tag → e.1 = c.b.launch) →
          ∃ t w' l', exec (.barDom g) s = .next t ∧ t.waves.get? c.key = some w' ∧ Retired c w' (c.after 1) ∧
            t.mem = s.mem ∧ t.grants = s.grants ∧ t.launches.get? c.b.launch = some l' ∧
            l'.domGen = c.l.domGen + 1 ∧ l'.domSent = false ∧
            ∀ j v, j ≠ c.key → s.waves.get? j = some v → passes c.b.launch t j v))) ∧
    (∀ (src : BitVec 16) (m : BarMsg) (d : Group), s.deaf = false → knownType src → m.gen ≠ 0xFFFFFFFF →
      knownType (BitVec.ofNat 16 s.subj.b) →
      s.domRoots.get? (16 * m.tag.toNat + m.group.toNat) = some d →
      let here := (s.doms ++ [(src, m)]).filter fun x => decide (x.2.group = m.group) && decide (x.2.tag = m.tag) &&
        (decide (x.2.gen = m.gen) || decide (x.2.gen = 0xFFFFFFFF))
      let answer : BarMsg := ⟨m.group, if here.all fun x => decide (x.2.crc = d.crc) then 0 else 1, m.tag, m.gen, d.crc⟩
      ((∃ k ∈ d.list, ∀ x ∈ here, x.1 ≠ BitVec.ofNat 16 k) →
        exec (.barrierArrive src m) s = .next { s with doms := s.doms ++ [(src, m)] }) ∧
      ((∀ k ∈ d.list, ∃ x ∈ here, x.1 = BitVec.ofNat 16 k) →
        exec (.barrierArrive src m) s = exec (.barrierRelease answer) { s with
          doms := (s.doms ++ [(src, m)]).filter fun x =>
            !(decide (x.2.group = m.group) && decide (x.2.tag = m.tag) && decide (x.2.gen = m.gen)),
          grants := s.grants ++ (d.list.filter fun k => decide (k ≠ ownDev)).map fun k =>
            ⟨s.portFor ((ownDev + (BitVec.ofNat 16 k).toNat % 4096) % 16), 2,
              ⟨0x0021, BitVec.ofNat 16 k, 0, barBytes answer⟩⟩ })) ∧
    (∀ (src : BitVec 16) (m : BarMsg) (d : Group), s.deaf = false → knownType src → m.gen = 0xFFFFFFFF →
      s.domRoots.get? (16 * m.tag.toNat + m.group.toNat) = some d →
      (∀ x ∈ s.doms, x.2.group = m.group → x.2.tag = m.tag → x.2.gen = 0xFFFFFFFF) →
      let all := s.doms ++ [(src, m)]
      let ended (k : Nat) : Prop := ∃ x ∈ all, x.1 = BitVec.ofNat 16 k ∧ x.2.group = m.group ∧ x.2.tag = m.tag
      ((∃ k ∈ d.list, ¬ ended k) → exec (.barrierArrive src m) s = .next { s with doms := all }) ∧
      ((∀ k ∈ d.list, ended k) → exec (.barrierArrive src m) s = .next { s with
        doms := all.filter fun x => !(decide (x.2.group = m.group) && decide (x.2.tag = m.tag)),
        domRoots := s.domRoots.erase (16 * m.tag.toNat + m.group.toNat) })) ∧
    ∀ (m : BarMsg), s.deaf = false → knownType (BitVec.ofNat 16 s.subj.b) →
      ((∀ e ∈ s.launches, ¬ (e.2.tag = m.tag ∧ e.2.flags.getLsbD 3 = true ∧ BitVec.ofNat 32 (e.2.domGen + 1) = m.gen)) →
        exec (.barrierRelease m) s = .next s) ∧
      ∀ k l, s.launches.get? k = some l → l.tag = m.tag → l.flags.getLsbD 3 = true → l.standing = none → l.dqm = false →
        BitVec.ofNat 32 (l.domGen + 1) = m.gen → (∀ e ∈ s.launches, e.2.tag = m.tag → e.1 = k) →
        ∃ t l', exec (.barrierRelease m) s = .next t ∧ t.mem = s.mem ∧ t.launches.get? k = some l' ∧
          l'.domGen = l.domGen + 1 ∧ l'.domSent = false ∧
          ∀ j v, s.waves.get? j = some v →
            (m.status = 0 → passes k t j v) ∧
            (m.status ≠ 0 → ∀ b, s.blocks.get? v.block = some b → b.launch = k → v.blocked = some .barDom →
              ∃ v' b', t.waves.get? j = some v' ∧ v'.halted = true ∧ v'.blocked = none ∧ v'.pc = v.pc ∧
                t.blocks.get? v.block = some b' ∧ b'.halt.isSome = true)

/-! ## Standing programs -/

/-- R258, R259, R272 to R276, R301 to R303: what a message to a program does. An input write is acknowledged with status 1
when no program takes it, 3 while a journal is replayed, 4 when it is malformed; else it is accepted and waits to land. A
subscription adds its sender once (at most 16) and answers with a notice of the present state; where none is taken the
state is 00, with the program's g, boundary and last number, or zeros without a program; its end removes it. A snapshot
request with no program or malformed is answered at once; one of a converged deterministic program between quanta with
no input waiting, or of a free-mode program with no input waiting and no overlapping block running, is served at once;
any other waits, and in free mode holds every overlapping block that is not running. The order of the status codes is
the model's reading (log entry 39). -/
def Obligations.ProgramsTakeMessages : Prop :=
  ∀ (s : State), s.deaf = false →
    (∀ (m : InputMsg), knownType m.src → inputAgrees m = true →
      let put (x : Program) : State := { s with programs := s.programs.set m.p.toNat x }
      let refused (st : Nat) : Prop := ∃ t, exec (.inputWrite m) s = .next t ∧ { t with grants := s.grants } = s ∧
        s.Sent t 0x0004 m.src m.tag (natLe 1 st ++ List.replicate 31 0)
      (s.programs.get? m.p.toNat = none → refused 1) ∧
      ∀ q, s.programs.get? m.p.toNat = some q →
        let bad : Prop := m.len = 0 ∨ 65536 < m.len.toNat ∨ m.clean = false ∨ 2 ^ 57 ≤ m.target.toNat
        (q.state = 0b11 → refused 1) ∧
        (q.state ≠ 0b11 → q.replay.isSome = true → refused 3) ∧
        (q.state ≠ 0b11 → q.replay = none → bad → refused 4) ∧
        (q.state ≠ 0b11 → q.replay = none → ¬ bad → exec (.inputWrite m) s =
          .next (put { q with inputs := q.inputs ++ [{ m with data := m.data.take m.len.toNat }] }))) ∧
    (∀ (m : SubMsg), knownType m.src →
      let put (x : Program) : State := { s with programs := s.programs.set m.p.toNat x }
      let told (state : Nat) (g : DWord) (bound num : Nat) : Prop := ∃ t, exec (.subscribe m) s = .next t ∧
        { t with grants := s.grants } = s ∧ s.Sent t 0x0007 m.src m.tag (noticeBytes m.p.toNat state g bound num)
      (s.programs.get? m.p.toNat = none → (m.on = true → told 0 0 0 0) ∧ (m.on = false → exec (.subscribe m) s = .next s)) ∧
      ∀ q, s.programs.get? m.p.toNat = some q →
        (m.on = true → q.state = 0b11 ∨ (16 ≤ q.readers.length ∧ m.src ∉ q.readers) →
          told 0 q.gen q.boundary q.noticeNo.toNat) ∧
        (m.on = true → q.state ≠ 0b11 → q.readers.length < 16 ∨ m.src ∈ q.readers →
          ∃ t q', exec (.subscribe m) s = .next t ∧ { t with grants := s.grants, programs := s.programs } = s ∧
            s.Sent t 0x0007 m.src m.tag (noticeBytes m.p.toNat q.state.toNat q.gen q.boundary q.noticeNo.toNat) ∧
            t.programs.get? m.p.toNat = some q' ∧
            q' = { q with readers := if m.src ∈ q.readers then q.readers else q.readers ++ [m.src] }) ∧
        (m.on = false → exec (.subscribe m) s =
          .next (put { q with readers := q.readers.filter fun r => decide (r ≠ m.src) }))) ∧
    ∀ (m : SnapMsg), knownType m.src →
      let p := m.p.toNat
      let answered (st : Nat) : Prop := ∃ t, exec (.snapshotRequest m) s = .next t ∧ { t with grants := s.grants } = s ∧
        s.Sent t 0x0006 m.src m.tag (natLe 1 p ++ natLe 1 st ++ List.replicate 46 0)
      (s.programs.get? p = none → answered 1) ∧
      ∀ q l, s.programs.get? p = some q → s.launches.get? q.launch = some l →
        let bad : Prop := m.len.toNat < 4 ∨ 65536 < m.len.toNat ∨ m.len.toNat % 4 ≠ 0 ∨ m.start.toNat % 4 ≠ 0 ∨
          m.clean = false
        let rests : Prop := q.state = 0b10 ∧ q.inputs = [] ∧ l.quantumOpen = false ∧ l.commitSent = false ∧ l.committed = false
        let idle : Prop := q.inputs = [] ∧ ∀ i ∈ q.overlapping m, q.running.get? i = none
        let held (t : State) (on : Nat → Prop) : Prop := ∀ i, (i ∈ q.overlapping m ∧ on i →
            t.resOf q i = { s.resOf q i with hold := true }) ∧ (¬ (i ∈ q.overlapping m ∧ on i) → t.resOf q i = s.resOf q i)
        let freed (t : State) : Prop := ∀ i, t.resOf q i =
          if i ∈ q.overlapping m ∧ ∀ y ∈ q.snaps, i ∉ q.overlapping y.msg then { s.resOf q i with hold := false }
          else s.resOf q i
        (bad → answered 2) ∧
        (¬ bad → q.dqm = true → ¬ rests → ∃ t, exec (.snapshotRequest m) s = .next t ∧
          { t with programs := s.programs } = s ∧
          t.programs.get? p = some { q with snaps := q.snaps ++ [⟨m, false, false⟩] }) ∧
        (¬ bad → q.dqm = true → rests → ∃ t, exec (.snapshotRequest m) s = .next t ∧ t.mem = s.mem ∧ q.Serves p l m s t ∧
            freed t ∧ t.programs.get? p = some { q with snapNo := q.snapNo + 1 }) ∧
        (¬ bad → q.dqm = false → idle → ∃ u, exec (.snapshotRequest m) s = .next (u.afterEvent p) ∧ u.mem = s.mem ∧
          q.Serves p l m s u ∧ freed u ∧ u.programs.get? p = some { q with snapNo := q.snapNo + 1 }) ∧
        (¬ bad → q.dqm = false → ¬ idle → ∃ t, exec (.snapshotRequest m) s = .next t ∧ t.mem = s.mem ∧
          t.grants = s.grants ∧ t.programs.get? p = some { q with snaps := q.snaps ++ [⟨m, false, false⟩] } ∧
          held t fun i => q.running.get? i = none)

/-- R258, R273, R275, R301, R302: in free mode the first input accepted lands: its bytes are written, g rises by one,
every subscriber whose item it overlaps becomes forced, or, while it runs, takes FPEND and REARM, and the input is
acknowledged with the new g; one with a byte that has no writable place changes no memory, is answered with status 5
and leaves a record 0x52. A pending request with no overlapping block running is served once no input waits: the reply
carries the region's bytes, the largest residual of the overlapping blocks, g and the next snapshot number, and the hold
ends on every block that no other request overlaps. After either, decisions are taken and the state evaluated. Which
inputs have no place is in part the model's reading (log entries 35, 39). -/
def Obligations.InputsAndSnapshots : Prop :=
  ∀ (s : State) (q : Program) (l : Launch), s.programs.get? s.subj.a = some q → s.launches.get? q.launch = some l →
    (q.dqm = true → exec .inputLanding s = .next s ∧ exec .snapshotServe s = .next s) ∧
    (q.inputs = [] → exec .inputLanding s = .next s) ∧
    (q.dqm = false →
      (∀ m rest, q.inputs = m :: rest → q.replay = none → q.late = [] → s.MemCanon →
        let pieces := s.landPieces l (m.data.length / 64 + 2) m.target.toNat m.data
        (pieces = none → ∃ u r, exec .inputLanding s = .next (u.afterEvent s.subj.a) ∧ u.mem = s.mem ∧
          s.Sent u 0x0004 m.src m.tag (natLe 1 5 ++ List.replicate 31 0) ∧ u.traps = s.traps ++ [r] ∧ r.cause = 0x52 ∧
          r.addr = m.target ∧ u.residuals = s.residuals ∧
          u.programs.get? s.subj.a = some { q with inputs := rest }) ∧
        ∀ ps, pieces = some ps → ∃ u, exec .inputLanding s = .next (u.afterEvent s.subj.a) ∧
          (∀ x, u.rawByte x = landedByte ps x (s.rawByte x)) ∧
          s.Sent u 0x0004 m.src m.tag (natLe 8 0 ++ natLe 8 (q.gen + 1).toNat ++ List.replicate 16 0) ∧
          u.programs.get? s.subj.a = some { q with inputs := rest, gen := q.gen + 1 } ∧ q.Forces m s u) ∧
      (q.inputs ≠ [] ∨ (∀ x ∈ q.snaps, q.clear x.msg 0 = false) → exec .snapshotServe s = .next s) ∧
      ∀ x rest, q.inputs = [] → q.snaps = x :: rest → q.clear x.msg 0 = true → x.replayed = false →
        ∃ u, exec .snapshotServe s = .next (u.afterEvent s.subj.a) ∧ u.mem = s.mem ∧ q.Serves s.subj.a l x.msg s u ∧
          u.programs.get? s.subj.a = some { q with snapNo := q.snapNo + 1, snaps := rest } ∧
          ∀ i, u.resOf q i = if i ∈ q.overlapping x.msg ∧ ∀ y ∈ rest, i ∉ q.overlapping y.msg then
            { s.resOf q i with hold := false } else s.resOf q i)

/-- R254, R264, R267, R269, R271, R287, R396, R407: in free mode a relaxation whose waves have exited and whose accesses
are done retires: its residual becomes the largest `rset`, or P where that is larger and a bump reached it; each item of
its coupling list bumps its target by w × δ; an input that landed meanwhile forces it; KILLS and REARM clear, and its slot
is free; a deferred fault of an exited wave halts its block instead, or kills the relaxation when it is an uncorrectable
error. One that is killed posts nothing: its residual becomes
the larger of its residual at dispatch and P, or it stays forced; KILLS rises, and a record 0x51 names the block. An entry
that an error has struck stays forced. A placement starts the first relaxation that waits. That a retirement waits for peers, that
a kill leaves record 0x51 alone, and that it waits for the jobs that are not paused, are the model's reading (log entries 36,
38). -/
def Obligations.RelaxationsRetire : Prop :=
  ∀ (s : State) (q : Program) (l : Launch), s.programs.get? s.subj.a = some q → s.launches.get? q.launch = some l →
    s.TablesRise → KMap.wf q.running = true →
    let id := s.subj.b
    let key := blockKey q.launch id
    (∀ b, q.dqm = false → s.blocks.get? key = some b → b.halt = none → b.kill = none →
      (s.allExited key = false ∨ s.blockDone key = false → exec .relaxationRetirement s = .next s) ∧
      (s.allExited key = true → s.blockDone key = true →
        (s.exitFault key = none → ∃ u, exec .relaxationRetirement s = .next (u.afterEvent s.subj.a).noteWaits ∧
          q.Gone s.subj.a id s u ∧ q.Retires l id s u) ∧
        ∀ k d w, s.exitFault key = some (k, d) → s.waves.get? k = some w → b.snap = none →
          s.launches.get? b.launch = some l → d.cause ≠ 0x17 → d.cause ≠ 0x41 →
          ∃ t r b', exec .relaxationRetirement s = .next t ∧ t.traps = s.traps ++ [r] ∧ r.cause = d.cause ∧
            r.addr = d.addr ∧ r.mask = 0 ∧ r.pc = w.pc ∧ r.halt = true ∧ t.blocks.get? key = some b' ∧
            b'.halt.isSome = true ∧ t.mem = s.mem ∧ t.residuals = s.residuals) ∧
      ∀ k d w, s.allExited key = true → s.blockDone key = true → s.exitFault key = some (k, d) →
        s.waves.get? k = some w → s.launches.get? b.launch = some l → l.standing.isSome = true →
        d.cause = 0x17 ∨ d.cause = 0x41 →
        ∃ t b', exec .relaxationRetirement s = .next t ∧ t.blocks.get? key = some b' ∧ b' = { b with kill := some d.cause } ∧
          t.traps = s.traps ∧ t.mem = s.mem ∧ t.residuals = s.residuals) ∧
    (∀ d, q.running.get? id = some d → q.dqm = false →
      (d.killed = true ∨ ∃ b, s.blocks.get? key = some b ∧ b.kill.isSome = true) →
      s.performIssued key = s → (∀ j ∈ s.jobsOf key, j.2.paused = true) →
      ∃ u, exec .relaxationKill s = .next (u.afterEvent s.subj.a).noteWaits ∧ q.Gone s.subj.a id s u ∧ u.mem = s.mem ∧
        q.Killed l id d s u) ∧
    (q.dqm = false → s.firstOffer q.launch = true → l.dqm = false → l.standing = some s.subj.a →
      (s.placeOne q.launch l = none → exec .relaxationPlacement s = .next s) ∧
      ∀ u, s.placeOne q.launch l = some u → ∃ first rest, q.waiting = first :: rest ∧
        exec .relaxationPlacement s = .next u.noteWaits ∧ u.mem = s.mem ∧
        (u.programs.get? s.subj.a).map Program.waiting = some rest ∧
        ∃ b, u.blocks.get? (blockKey q.launch first) = some b ∧ b.rank = first ∧ l.inMask b.core = true)

/-- R257, R259, R264, R267, R274: a decision takes the lowest forced block that no snapshot holds; else, among the
eligible ones passed over F times, one with the greatest age; else one with the largest residual, the lower id first
among equals; none when no unheld block is forced or eligible. A dispatch makes the block running with the next
sequence number, WAIT 0 and BUMP 0, its residual kept; every other unheld eligible block's WAIT rises by one. A
program becomes CONVERGED exactly when no block is running, eligible or forced and no input waits; each change sends
every reader a notice of the new state. -/
def Obligations.DecisionsTaken : Prop :=
  ∀ (s : State) (q : Program),
    let free (i : Nat) : Prop := i < q.n ∧ (s.resOf q i).hold = false
    let forced (i : Nat) : Prop := free i ∧ (s.resOf q i).state = 0b11
    let eligible (i : Nat) : Prop := free i ∧ (s.resOf q i).state = 0b01
    let age (i : Nat) : Nat := (nextSeqNo q.seqNo - (s.resOf q i).seq).toNat
    let waited (i : Nat) : Prop := eligible i ∧ (if q.fair = 0 then 64 else q.fair) ≤ (s.resOf q i).wait.toNat
    let size (i : Nat) : Nat := (s.resOf q i).res.toNat
    (s.decide257 q = none ↔ ∀ i, ¬ forced i ∧ ¬ eligible i) ∧
    (∀ i, s.decide257 q = some i →
      (forced i ∧ ∀ j, forced j → i ≤ j) ∨
      ((∀ j, ¬ forced j) ∧ waited i ∧ ∀ j, waited j → age j < age i ∨ (age j = age i ∧ i ≤ j)) ∨
      ((∀ j, ¬ forced j ∧ ¬ waited j) ∧ eligible i ∧ ∀ j, eligible j → size j < size i ∨ (size j = size i ∧ i ≤ j))) ∧
    (∀ p l slot id, s.programs.get? p = some q → s.launches.get? q.launch = some l → id < q.n →
      let u := s.dispatch p l q slot id
      u.resOf q id = { s.resOf q id with state := 0b10, seq := nextSeqNo q.seqNo, wait := 0, bump := 0 } ∧
      (∀ j, j ≠ id → u.resOf q j = if eligible j then
        { s.resOf q j with wait := if (s.resOf q j).wait = 255 then 255 else (s.resOf q j).wait + 1 } else s.resOf q j) ∧
      u.mem = s.mem ∧ u.blocks = s.blocks ∧
      ∃ q' d, u.programs.get? p = some q' ∧ q'.seqNo = nextSeqNo q.seqNo ∧ q'.running.get? id = some d ∧ d.slot = slot ∧
        d.res = (s.resOf q id).res ∧ d.gen = q.gen ∧ (d.killed = false → q'.waiting = q.waiting ++ [id])) ∧
    ∀ p, s.programs.get? p = some q →
      let quiet : Prop := q.running = [] ∧ q.inputs = [] ∧ ∀ i, i < q.n →
        (s.resOf q i).state ≠ 0b01 ∧ (s.resOf q i).state ≠ 0b11
      let changes (x : BitVec 2) : Prop := (s.evaluate p).programs.get? p =
          some { q with state := x, noticeNo := q.noticeNo + 1 } ∧
        (s.evaluate p).grants = s.grants ++ q.readers.map fun r =>
          ⟨s.portFor ((ownDev + r.toNat % 4096) % 16), 2,
            ⟨0x0007, r, 0, noticeBytes p x.toNat q.gen q.boundary (q.noticeNo + 1).toNat⟩⟩
      (q.state = 0b01 → quiet → changes 0b10) ∧ (q.state = 0b10 → ¬ quiet → changes 0b01) ∧
      (q.state = 0b11 ∨ (q.state = 0b01 ∧ ¬ quiet) ∨ (q.state = 0b10 ∧ quiet) → s.evaluate p = s)

/-- R256, R265, R276, R281, R282, R284, R396: the end and the edges of a standing program. An unload whose
relaxations, inputs, snapshots and journal entries are over frees the slot and the entries and sends its completion.
An error in an entry forces its block, stops the program's decisions, and leaves a record 0x53. A journal entry that
waits is written once it fits: its 64-byte header and its data, padded, at the write offset, which moves past it. A
boundary of a deterministic program that closes an empty quantum raises the boundary number by one and lands every
input; a free-mode program has none. R256, R271, R278, R284: one that closes a quantum commits it, then ends its
relaxations by rising id (each retires, is killed, or runs on), then lands the inputs in the order they were accepted,
then takes decisions and evaluates the state, then serves a pending snapshot or holds its blocks, and opens the next
quantum. That an input with no place is answered with 5 before its room is judged (log entry 39), what a kill at a boundary
leaves (log entries 38, 70), and that an unload waits for journal entries (log entry 81), are the model's readings. -/
def Obligations.ProgramsEndAndJournal : Prop :=
  ∀ (s : State) (q : Program) (l : Launch), s.TablesRise → KMap.wf s.programs = true →
    s.programs.get? s.subj.a = some q → s.launches.get? q.launch = some l →
    let ended : Prop := q.state = 0b11 ∧ q.running = [] ∧ q.inputs = [] ∧ q.snaps = [] ∧ q.late = [] ∧
      l.commitSent = false ∧ l.committed = false
    (¬ ended → exec .unloadCompletion s = .next s) ∧
    (ended → ∃ t, exec .unloadCompletion s = .next t ∧ t.programs.get? s.subj.a = none ∧ t.launches.get? q.launch = none ∧
      (∀ i, q.base ≤ i → i < q.base + q.n → t.residuals.get? i = none) ∧ t.mem = s.mem ∧ t.waves = s.waves ∧
      s.Sent t 0x0002 q.unloadEp q.unloadTag ([0, 0] ++ natLe 1 s.subj.a ++ List.replicate 5 0 ++ natLe 8 q.boundary)) ∧
    (∀ i, i < q.n → (∀ e ∈ s.programs, e.2.base ≤ q.base + i → q.base + i < e.2.base + e.2.n → e.1 = s.subj.a) →
      let s1 : State := { s with subj := ⟨q.base + i, 0, 0⟩ }
      ∃ t r, exec .residualEntryError s1 = .next t ∧ t.programs.get? s.subj.a = some { q with stopped := true } ∧
        t.resOf q i = { s.resOf q i with res := 0x7F800000, state := 0b11 } ∧ (∀ j, j ≠ i → t.resOf q j = s.resOf q j) ∧
        t.traps = s.traps ++ [r] ∧ r.cause = 0x53 ∧ r.block = BitVec.ofNat 32 (2 ^ 31 + i) ∧ t.mem = s.mem) ∧
    (∀ e rest, q.late = e :: rest →
      let n := 64 + roundUpTo e.data.length 64
      let bytes := natLe 8 e.boundary.toNat ++ natLe 8 e.gen.toNat ++ natLe 4 e.kind.toNat ++ natLe 4 e.len.toNat ++
        natLe 8 e.addr.toNat ++ natLe 4 e.index.toNat ++ natLe 4 n ++ natLe 4 e.block.toNat ++ List.replicate 20 0 ++
        e.data ++ List.replicate (roundUpTo e.data.length 64 - e.data.length) 0
      (q.journalFits n = false → exec .deferredJournalEntry s = .next s) ∧
      (q.journalFits n = true → q.jwr + n ≤ q.jsize →
        ∀ u, s.sysStore l.asid l.root (bytes.length / 64 + 1) (q.jbase.toNat + q.jwr) bytes = some u →
          ∃ t, exec .deferredJournalEntry s = .next t ∧ t.mem = u.mem ∧
            t.programs.get? s.subj.a = some { q with late := rest, jwr := (q.jwr + n) % q.jsize })) ∧
    (q.late = [] → exec .deferredJournalEntry s = .next s) ∧
    (q.dqm = false → exec .standingBoundary s = .next s) ∧
    (q.dqm = true → l.commitSent = false → l.committed = false → s.mayClose q.launch l = false →
      (s.emptyBoundary l q = false → exec .standingBoundary s = .next s) ∧
      (s.emptyBoundary l q = true → ∃ t q', exec .standingBoundary s = .next t ∧ t.programs.get? s.subj.a = some q' ∧
        q'.bound = q.bound + 1 ∧ q'.inputs = [])) ∧
    (q.dqm = true → q.replay = none → l.commitSent = false → l.committed = false → s.mayClose q.launch l = true →
      ∀ u, KMap.wf q.running = true → KMap.wf u.programs = true → u.TablesRise → u.MemCanon →
      u.programs.get? s.subj.a = some q →
      (s.boundaryFront q.launch = (u, false) → exec .standingBoundary s = .next u) ∧
      (s.boundaryFront q.launch = (u, true) → ∃ st ld : Nat → State,
        { st 0 with programs := u.programs } = u ∧
        (st 0).programs.get? s.subj.a = some { q with bound := q.bound + 1, jindex := 0 } ∧
        (∀ (k id : Nat) (d : Dispatched), q.running[k]? = some (id, d) →
          let key := blockKey q.launch id
          let done : Prop := (u.blocks.get? key).isSome = true ∧ u.allExited key = true
          let dead : Prop := d.killed = true ∨ (∃ b, u.blocks.get? key = some b ∧ b.kill.isSome = true) ∨
            (done ∧ (u.exitFault key).isSome = true)
          (dead → q.Gone s.subj.a id (st k) (st (k + 1)) ∧ q.Killed l id d (st k) (st (k + 1))) ∧
          (¬ dead → done → q.Gone s.subj.a id (st k) (st (k + 1)) ∧ q.Retires l id (st k) (st (k + 1))) ∧
          (¬ dead → ¬ done → st (k + 1) = st k)) ∧
        { ld 0 with programs := (st q.running.length).programs } = st q.running.length ∧
        (∀ (k : Nat) m, q.inputs[k]? = some m → q.Lands s.subj.a l m (ld k) (ld (k + 1))) ∧
        ∃ qc, let c := ((ld q.inputs.length).decisions s.subj.a).evaluate s.subj.a
          let opens (v : State) : State := (((v.nextQuanta q.launch).realise q.launch).tryOpen q.launch).noteWaits
          c.programs.get? s.subj.a = some qc ∧ qc.bound = q.bound + 1 ∧ qc.inputs = [] ∧
          (q.snaps = [] → exec .standingBoundary s = .next (opens c)) ∧
          ∀ x, q.snaps = [x] → x.replayed = false →
            let free : Prop := ∀ i ∈ q.overlapping x.msg, ∀ d, qc.running.get? i = some d → q.bound + 1 ≤ d.born
            ∃ v, exec .standingBoundary s = .next (opens v) ∧
              (free → qc.Serves s.subj.a l x.msg c v ∧
                v.programs.get? s.subj.a = some { qc with snaps := [], snapNo := qc.snapNo + 1 }) ∧
              (¬ free → v.grants = c.grants ∧ (v.programs.get? s.subj.a).map Program.snaps = some [{ x with held := true }] ∧
                ∀ i, v.resOf q i = if i ∈ q.overlapping x.msg then { c.resOf q i with hold := true } else c.resOf q i)))

/-! ## Commands -/

/-- R292 to R296, R300: LQCTL takes SIZE (9 and above count as 8) while EN is 0; setting EN clears HEAD and TAIL. A
notify moves TAIL, unless it runs past the ring or the queue is off. With no command waiting, or one of another kind,
a command event changes nothing. A command of kind 0, or of kind 4 and above, is taken and answered with code 1. An
unload whose reserved bytes are not 0 is answered with code 2, one that names no program of its address space, or one
that unloads, with code 6; else the program unloads: no decision and no input is taken from then on. R14, R34, R35,
R294 to R296, R402: a run command that fails a check is answered with the lowest code that applies, the command's
(`bad`) before the record's (`wrong`), and starts nothing; an accepted one binds its address space to its root and becomes
a launch with its record as read, its core mask without the cores that are out of service, which will start its blocks.
The slot byte of a refused unload is the model's reading (log entry 40). -/
def Obligations.CommandsAndRuns : Prop :=
  (∀ (s : State),
    (∀ (val : DWord), s.ctl.ready = true →
      let n := (val.extractLsb' 0 4).toNat
      ∃ t, exec (.launchQueueEnable val) s = .next t ∧
        { t with ctl := { t.ctl with lqOn := s.ctl.lqOn, lqSize := s.ctl.lqSize, lqHead := s.ctl.lqHead,
                                     lqTail := s.ctl.lqTail } } = s ∧
        t.ctl.lqOn = val.getLsbD 63 ∧ t.ctl.lqSize = (if s.ctl.lqOn then s.ctl.lqSize else if n < 9 then n else 8) ∧
        (s.ctl.lqOn = false → val.getLsbD 63 = true → t.ctl.lqHead = 0 ∧ t.ctl.lqTail = 0) ∧
        (s.ctl.lqOn = true ∨ val.getLsbD 63 = false → t.ctl.lqHead = s.ctl.lqHead ∧ t.ctl.lqTail = s.ctl.lqTail)) ∧
    (∀ (src : BitVec 16) (tail : Word), s.deaf = false → knownType src →
      (s.ctl.lqOn = true → (tail - s.ctl.lqHead).toNat ≤ 2 ^ (s.ctl.lqSize + 4) →
        exec (.notify src tail) s = .next { s with ctl := { s.ctl with lqTail := tail } }) ∧
      (s.ctl.lqOn = false ∨ 2 ^ (s.ctl.lqSize + 4) < (tail - s.ctl.lqHead).toNat → exec (.notify src tail) s = .next s)) ∧
    (∀ (i : Instr) (own : Nat → Prop),
      (i = .runCommand ∧ own = fun k => k = 1) ∨ (i = .loadCommand ∧ own = fun k => k = 2) ∨
        (i = .unloadCommand ∧ own = fun k => k = 3) ∨ (i = .reservedCommand ∧ own = fun k => k = 0 ∨ 4 ≤ k) →
      (s.ctl.lqOn = false ∨ s.ctl.lqHead = s.ctl.lqTail → exec i s = .next s) ∧
      ∀ bs, s.nextCommand = some bs → ¬ own (leAt bs 0 4) → exec i s = .next s) ∧
    ∀ bs, s.nextCommand = some bs →
      let head : State := { s with ctl := { s.ctl with lqHead := s.ctl.lqHead + 1 } }
      let put (p : Nat) (x : Program) : State := { head with programs := s.programs.set p x }
      let answered (i : Instr) (code slot : Nat) : Prop := ∃ t, exec i s = .next t ∧ { t with grants := s.grants } = head ∧
        s.Sent t 0x0002 (endpointOf bs) (tagOf bs) (natLe 1 code ++ [0] ++ natLe 1 slot ++ List.replicate 13 0)
      (leAt bs 0 4 = 0 ∨ 4 ≤ leAt bs 0 4 → answered .reservedCommand 1 255) ∧
      (leAt bs 0 4 = 3 → let p := leAt bs 0x18 1
        (unloadReserved bs = false → answered .unloadCommand 2 p) ∧
        (unloadReserved bs = true → s.programs.get? p = none → answered .unloadCommand 6 p) ∧
        ∀ q l, unloadReserved bs = true → s.programs.get? p = some q → s.launches.get? q.launch = some l →
          (l.asid ≠ leAt bs 0xA 2 ∨ q.state = 0b11 → answered .unloadCommand 6 p) ∧
          (l.asid = leAt bs 0xA 2 → q.state ≠ 0b11 → exec .unloadCommand s = .next (put p
            { q with state := 0b11, unloadTag := tagOf bs, unloadEp := endpointOf bs })))) ∧
  (∀ (s : State) (bs : List Byte), s.nextCommand = some bs → leAt bs 0 4 = 1 →
    let rec_ := recordOf (bs.drop 0x80) s.ctl.coreLive
    let table := s.sysBytes (leAt bs 0xA 2) (leAt bs 0x10 8) (leAt bs 0x20 8) 512
    let zero (off n : Nat) : Prop := ∀ k, k < n → leAt bs (off + k) 1 = 0
    let va (off n : Nat) : Prop := leAt bs off 8 % n = 0 ∧ leAt bs off 8 < 2 ^ 57
    let bad (c : Nat) : Prop :=
      (c = 2 ∧ ¬ (leAt bs 0xA 2 < 2 ^ 12 ∧ leAt bs 0xC 4 < 2 ^ 4 ∧ zero 0x28 0x58 ∧
        (flagOf bs 3 = true → flagOf bs 0 = true) ∧ (flagOf bs 2 = true → flagOf bs 1 = true))) ∨
      (c = 3 ∧ ∃ r, s.asids.get? (leAt bs 0xA 2) = some r ∧ r ≠ leAt bs 0x10 8) ∨
      (c = 4 ∧ ¬ (leAt bs 0x10 8 % 4096 = 0 ∧ leAt bs 0x10 8 < 2 ^ 48 ∧ (flagOf bs 1 = true → va 0x18 8) ∧
        (flagOf bs 3 = true → va 0x20 64))) ∨
      (c = 5 ∧ flagOf bs 3 = true ∧ (table = none ∨ ∃ t i, table = some t ∧ i < 16 ∧ leAt t (32 * i + 0x12) 1 = 1 ∧
        leAt t (32 * i + ownDev / 8) 1 / 2 ^ (ownDev % 8) % 2 = 0)) ∨
      (c = 7 ∧ flagOf bs 2 = true ∧ leAt bs 0xA4 4 % 2 = 1)
    let f (off n : Nat) : Nat := leAt bs (0x80 + off) n
    let limits (x lo hi : Nat) : Prop := lo ≤ x ∧ x ≤ hi
    let wrong (c : Nat) : Prop :=
      (c = 0x01 ∧ ¬ (f 0 8 % 4 = 0 ∧ f 0 8 < 2 ^ 57)) ∨
      (c = 0x02 ∧ ¬ (1 ≤ f 8 4 ∧ 1 ≤ f 0xC 4 ∧ 1 ≤ f 0x10 4 ∧ f 8 4 * f 0xC 4 * f 0x10 4 ≤ 2 ^ 31)) ∨
      (c = 0x03 ∧ ¬ (1 ≤ f 0x14 1 ∧ 1 ≤ f 0x15 1 ∧ 1 ≤ f 0x16 1 ∧ f 0x14 1 * f 0x15 1 * f 0x16 1 ≤ 8 ∧
        f 8 4 % f 0x14 1 = 0 ∧ f 0xC 4 % f 0x15 1 = 0 ∧ f 0x10 4 % f 0x16 1 = 0)) ∨
      (c = 0x04 ∧ ¬ limits (f 0x17 1) 1 16) ∨ (c = 0x05 ∧ ¬ limits (f 0x18 2) 1 256) ∨
      (c = 0x06 ∧ ¬ (f 0x1A 2 ≤ 4096 ∧ f 0x1A 2 % 4 = 0)) ∨ (c = 0x07 ∧ 262144 < f 0x1C 4) ∨ (c = 0x08 ∧ 524288 < f 0x20 4) ∨
      (c = 0x09 ∧ 2 ^ 4 ≤ f 0x24 4) ∨ (c = 0x0A ∧ ¬ (f 0x28 4 = 0 ∨ limits (f 0x28 4) 1024 65536)) ∨
      (c = 0x0B ∧ ¬ (zero 0xAC 4 ∧ zero 0xD0 48)) ∨ (c = 0x0C ∧ rec_.mask = 0) ∨
      (c = 0x0D ∧ Occ.empty.fit false rec_.need none = none) ∨
      (c = 0x0E ∧ ∀ cell, cell < 24 → (Placing.members false rec_.need (fun _ c => rec_.mask.getLsbD c) cell
        (List.range rec_.members) ⟨fun _ => Occ.empty, [], []⟩).waiting ≠ []) ∨
      (c = 0x0F ∧ flagOf bs 0 = true ∧ rec_.wholePlan false (fun _ c => rec_.mask.getLsbD c) (fun _ => Occ.empty) = none) ∨
      (c = 0x10 ∧ f 0x24 4 % 4 = 3)
    let lowest (p : Nat → Prop) (c : Nat) : Prop := p c ∧ ∀ d, p d → c ≤ d
    let answered (a b : Nat) : Prop := ∃ t, exec .runCommand s = .next t ∧ t.ctl.lqHead = s.ctl.lqHead + 1 ∧
      t.launches = s.launches ∧ t.blocks = s.blocks ∧ t.mem = s.mem ∧
      s.Sent t 0x0002 (endpointOf bs) (tagOf bs) (natLe 1 a ++ natLe 1 b ++ [255] ++ List.replicate 13 0)
    (∀ c, lowest bad c → answered c 0) ∧
    (∀ c, (∀ d, ¬ bad d) → lowest wrong c → answered 0 c) ∧
    ((∀ d, ¬ bad d) → (∀ d, ¬ wrong d) → rec_.kx * rec_.ky * rec_.kz ≤ 8 ∧ rec_.waves ≤ 16 ∧ rec_.mask ≠ 0 ∧
      (∀ c, c < 192 → rec_.mask.getLsbD c = true → s.ctl.coreLive.getLsbD c = true) ∧
      ∃ t l, exec .runCommand s = .next t ∧ t.ctl.lqHead = s.ctl.lqHead + 1 ∧ t.takes = s.takes + 1 ∧
        (flagOf bs 1 = false → t.mem = s.mem ∧ t.grants = s.grants ∧ l.outcome = 0) ∧ t.asids.get? (leAt bs 0xA 2) = some (leAt bs 0x10 8) ∧
        t.launches.get? s.takes = some l ∧ l.record = rec_ ∧ l.tag = tagOf bs ∧ l.endpoint = endpointOf bs ∧
        l.asid = leAt bs 0xA 2 ∧ l.root = leAt bs 0x10 8 ∧ l.standing = none ∧ l.dqm = rec_.options.getLsbD 0 ∧
        l.groups = (if flagOf bs 3 then groupsOf (table.getD []) else []) ∧
        l.bounds = 0 ∧ l.tickets = 0))

/-- R251 to R255, R260 to R263, R266, R274: a load command whose own checks, header, slot, room in the residual table
or blocks fail is answered with the lowest code, and for a block's fault the lowest such block, and loads nothing: each item
of a block's lists that can be read is judged though another cannot; an
accepted one takes the lowest free program slot, a run of free residual entries, every block forced with r = +∞, is
answered with its slot after its SETTLING notice, and decisions begin. What counts as unreadable (log entry 35), and the
slot byte 0xFF of a refused load (log entry 40), are the model's readings. -/
def Obligations.LoadsAreTaken : Prop :=
  ∀ (s : State) (bs : List Byte), s.nextCommand = some bs → leAt bs 0 4 = 2 → flagOf bs 0 = false →
    let asid := leAt bs 0xA 2
    let root := leAt bs 0x10 8
    let header := s.sysBytes asid root (leAt bs 0x18 8 % 2 ^ 57) 64
    let refused (a b block : Nat) : Prop := ∃ t, exec .loadCommand s = .next t ∧ t.ctl.lqHead = s.ctl.lqHead + 1 ∧
      t.programs = s.programs ∧ t.launches = s.launches ∧ t.residuals = s.residuals ∧ t.mem = s.mem ∧
      s.Sent t 0x0002 (endpointOf bs) (tagOf bs) (natLe 1 a ++ natLe 1 b ++ [255, 0] ++ natLe 4 block ++ List.replicate 8 0)
    let code := s.loadCode bs header
    (code ≠ 0 → refused code 0 0) ∧
    (code = 0 → ∀ h, header = some h →
      let mask := BitVec.ofNat 192 (leAt h 0x20 24) &&& s.ctl.coreLive
      let st := headerStatus h mask
      let n := leAt h 8 4
      (st ≠ 0 → refused 0 st 0) ∧
      (st = 0 → s.programs.firstFree 8 0 = none → refused 0 9 0) ∧
      (st = 0 → ∀ slot, s.programs.firstFree 8 0 = some slot →
        (s.freeEntries n = none → refused 0 10 0) ∧
        ∀ base, s.freeEntries n = some base →
          let found (i : Nat) : Nat := (s.loadBlock asid root (leAt h 0 8) n i).1
          (∀ i, s.sysBytes asid root (leAt h 0 8 + 64 * i) 64 = none → found i = 0x0E) ∧
          (∀ i e, s.sysBytes asid root (leAt h 0 8 + 64 * i) 64 = some e →
            let item (a size k : Nat) : Option (List Byte) := s.sysBytes asid root (a + size * k) size
            let breaks : Prop :=
              (∃ k c, k < leAt e 0x14 4 ∧ item (leAt e 0x20 8) 8 k = some c ∧ couplingOk n i (leAt c 0 4) (leAt c 4 4) = false) ∨
              (∃ k b, k < leAt e 0x38 4 ∧ item (leAt e 0x28 8) 16 k = some b ∧ subLegal b = false)
            let gap : Prop := (∃ k, k < leAt e 0x14 4 ∧ item (leAt e 0x20 8) 8 k = none) ∨
              (∃ k, k < leAt e 0x38 4 ∧ item (leAt e 0x28 8) 16 k = none)
            let fits := (Occ.empty.fit false (relaxNeed e) none).isSome
            (entryLegal e = false → found i = 0x0B) ∧
            (entryLegal e = true → breaks → found i = 0x0C) ∧
            (entryLegal e = true → ¬ breaks → fits = false → found i = 0x0D) ∧
            (entryLegal e = true → ¬ breaks → fits = true → gap → found i = 0x0E) ∧
            (entryLegal e = true → ¬ breaks → fits = true → ¬ gap → found i = 0)) ∧
          (∀ i, i < n → found i ≠ 0 → (∀ j, j < n → found j ≠ 0 → found i < found j ∨ (found i = found j ∧ i ≤ j)) →
            refused 0 (found i) i) ∧
          ((∀ i, i < n → found i = 0) → ∃ t q, exec .loadCommand s = .next t ∧ t.ctl.lqHead = s.ctl.lqHead + 1 ∧
            t.mem = s.mem ∧ t.takes = s.takes + 1 ∧ t.asids.get? asid = some root ∧
            t.programs.get? slot = some q ∧ q.n = n ∧ q.base = base ∧ q.table.toNat = leAt h 0 8 ∧ q.state = 0b01 ∧
            q.gen = 0 ∧ q.bound = 0 ∧ q.slots = leAt h 0xC 2 ∧ q.fair = leAt h 0xE 2 ∧ q.launch = s.takes ∧ q.jwr = 0 ∧
            (∀ i, i < n → (t.resOf q i).res = 0x7F800000 ∧ ((t.resOf q i).state = 0b11 ∨ (t.resOf q i).state = 0b10) ∧
              (t.resOf q i).kills = 0 ∧ (t.resOf q i).rearm = false) ∧
            t.grants = s.grants ++ (if flagOf bs 1 then [⟨s.portFor ((ownDev + leAt bs 0x40 2 % 4096) % 16), 2,
                ⟨0x0007, BitVec.ofNat 16 (leAt bs 0x40 2), 0, noticeBytes slot 1 0 0 1⟩⟩] else []) ++
              [⟨s.portFor ((ownDev + (endpointOf bs).toNat % 4096) % 16), 2,
                ⟨0x0002, endpointOf bs, tagOf bs, [0, 0] ++ natLe 1 slot ++ List.replicate 13 0⟩⟩])))

/-! ## Pre-emption -/

/-- R383 to R388: writing PECMD with a block that does not exist gives RES 1, with a buffer too short for the image
RES 2 and the length needed in NEED; while the commit of its launch or something of the block is under way the
operation goes on; a boundary that only a paused job holds does not keep it. Else PREEMPT_BLOCK writes the image, stamps it with the next generation, and frees the block's core
of its waves and jobs. RESTORE_BLOCK refuses a buffer whose seal fails (3), an image that is not the block's latest
(4), or one of no saved block (1); it goes on while no core has room; then the block runs on the first core with room,
every wave with its registers and program counter, and the image serves no second time. An operation written while
another runs waits. The sections of open layout, which cores have room, and that a pre-emption waits for a commit under
way, are the model's (log entries 9, 41, 43). -/
def Obligations.BlocksAreSavedAndRestored : Prop :=
  ∀ (s : State), s.TablesRise → s.ctl.ready = true → s.subj.a = 0 →
    (s.ctl.peJob.isSome = true ∨ s.ctl.peWaits ≠ [] →
      exec .preemptBlock s = .next { s with ctl := { s.ctl with peWaits := s.ctl.peWaits ++ [⟨1, 0, none⟩] } } ∧
      ∀ core, exec (.restoreBlock core) s = .next { s with ctl :=
        { s.ctl with peWaits := s.ctl.peWaits ++ [⟨2, core, none⟩] } }) ∧
    (s.ctl.peJob = none → s.ctl.peWaits = [] →
      let ends (i : Instr) (r : Byte) : Prop :=
        exec i s = .next { s with ctl := { s.ctl with peRes := r, peJob := none } }
      let op (n : Nat) (core : BitVec 8) : PeOp := ⟨n, core, s.ctl.peTag, s.ctl.peBlk, s.ctl.peAddr, s.ctl.peLen⟩
      let goesOn (i : Instr) (n : Nat) (core : BitVec 8) : Prop :=
        exec i s = .next { s with ctl := { s.ctl with peJob := some (op n core) } }
      (s.findBlock s.ctl.peTag s.ctl.peBlk = none → ends .preemptBlock 1) ∧
      (∀ b blk l, s.findBlock s.ctl.peTag s.ctl.peBlk = some b → s.blocks.get? b = some blk →
        s.launches.get? blk.launch = some l →
        let need := s.imageNeed b blk l
        let v := s.savedOf b blk l
        let image := v.image l s.generation
        (s.ctl.peLen.toNat < 64 * need → exec .preemptBlock s = .next { s with ctl :=
          { s.ctl with peRes := 2, peJob := none, peNeed := BitVec.ofNat 32 need } }) ∧
        (64 * need ≤ s.ctl.peLen.toNat → l.commitSent = true → goesOn .preemptBlock 1 0) ∧
        (64 * need ≤ s.ctl.peLen.toNat → l.commitSent = false →
          (s.finishHalt b).settleBlock b = s →
          (s.mayImage b = false → goesOn .preemptBlock 1 0) ∧
          (s.mayImage b = true → s.MemCanon → ∃ t, exec .preemptBlock s = .next t ∧ t.ctl.peRes = 0 ∧
            t.ctl.peNeed = BitVec.ofNat 32 need ∧ t.generation = s.generation + 1 ∧ t.blocks.get? b = none ∧
            (∀ j w, t.waves.get? j = some w → w.block ≠ b) ∧ (∀ j ∈ (t.core blk.core).jobs, j.block ≠ b) ∧
            t.saved.get? b = some v ∧ t.gens.get? (genKey l.tag (blockField l blk)) = some s.generation.toNat ∧
            ∀ x, t.rawByte x = if s.ctl.peAddr.toNat ≤ x ∧ x < s.ctl.peAddr.toNat + image.length then
              image.getD (x - s.ctl.peAddr.toNat) 0 else s.rawByte x))) ∧
      ∀ (core : BitVec 8), core.toNat < 192 ∨ core = 0xFF →
        (s.unseal (op 2 core) 1 4 4 = none → ends (.restoreBlock core) 3) ∧
        ∀ bs, s.unseal (op 2 core) 1 4 4 = some bs →
          let tag : Word := BitVec.ofNat 32 (leAt bs 0x10 4)
          let block : Word := BitVec.ofNat 32 (leAt bs 0x14 4)
          (s.gens.get? (genKey tag block) ≠ some (leAt bs 8 8) → ends (.restoreBlock core) 4) ∧
          (s.gens.get? (genKey tag block) = some (leAt bs 8 8) →
            (s.findSaved tag block = none → ends (.restoreBlock core) 1) ∧
            ∀ b v0 l v, s.findSaved tag block = some (b, v0, l) →
              v0.fromSections (leAt bs 8 8) (sectionsOf bs) = some v → (v.waves.map (·.1)).Nodup →
              KMap.wf s.saved = true → KMap.wf s.gens = true → s.NonePublished →
              (∀ e ∈ v.waves, ∀ a ∈ e.2.outst, a.rel = none) →
              let cores := if core = 0xFF then (List.range 192).filter l.inMask else [core.toNat]
              ((∀ c ∈ cores, s.roomFor? v l c = none) → goesOn (.restoreBlock core) 2 core) ∧
              ∀ xs c ys, cores = xs ++ c :: ys → (∀ x ∈ xs, s.roomFor? v l x = none) →
                (s.roomFor? v l c).isSome = true →
                ∃ t b', exec (.restoreBlock core) s = .next t ∧ t.ctl.peRes = 0 ∧ t.mem = s.mem ∧
                  t.saved.get? b = none ∧ t.gens.get? (genKey tag block) = none ∧ t.blocks.get? b = some b' ∧
                  b'.core = c ∧ b'.scr = v.block.scr ∧ b'.acc = v.block.acc ∧
                  ∀ e ∈ v.waves, e.2.blocked = none → ∃ w, t.waves.get? e.1 = some w ∧ w.pc = e.2.pc ∧
                    w.regs = e.2.regs ∧ w.active = e.2.active ∧ w.retired = e.2.retired ∧ w.core = c))

/-- R373, R377, R378, R383, R394: RESUME and DISCARD give RES 1 for a block that does not exist, 5 for one that
nothing has stopped, and go on while its halt is not complete. A resumed block's waves go on at the instruction that
stopped them, past it when it is a software trap, with their registers kept; its jobs and operations go on, and no
lost record of it is posted again (where no wave is at a domain barrier, which the resume could complete). A discarded block of a run has exited in all its waves, and its run's outcome says
so; a relaxation is killed. A rollback, once the jobs issued since the snapshot are over, returns the block to it: its
memories, and every wave's registers and program counter. That a saved block is not there is the model's reading (log entry 42), and so is what a rollback
performs again (log entry 30). -/
def Obligations.StoppedBlocksGoOn : Prop :=
  ∀ (s : State), s.TablesRise → s.NonePublished → s.ctl.ready = true →
    (s.subj.a = 0 → s.ctl.peJob = none → s.ctl.peWaits = [] →
      let ends (i : Instr) (r : Byte) : Prop :=
        exec i s = .next { s with ctl := { s.ctl with peRes := r, peJob := none } }
      (s.findBlock s.ctl.peTag s.ctl.peBlk = none → ends .resume 1 ∧ ends .discard 1) ∧
      ∀ b blk l, s.findBlock s.ctl.peTag s.ctl.peBlk = some b → s.blocks.get? b = some blk →
        s.launches.get? blk.launch = some l →
        (s.stopped b = false → ends .resume 5 ∧ ends .discard 5) ∧
        ∀ h, blk.halt = some h → h.cause ≠ 0x43 →
          (h.done = false → s.blockAtBoundary b = false → ∀ i n, (i = .resume ∧ n = 3) ∨ (i = .discard ∧ n = 4) →
            let op : PeOp := ⟨n, 0, s.ctl.peTag, s.ctl.peBlk, s.ctl.peAddr, s.ctl.peLen⟩
            exec i s = .next { s with ctl := { s.ctl with peJob := some op } }) ∧
          (h.done = true → l.domain = none ∨ (∀ e ∈ s.waves, e.2.blocked ≠ some .barDom) →
            ∃ t b', exec .resume s = .next t ∧ t.ctl.peRes = 0 ∧ t.mem = s.mem ∧
            t.blocks.get? b = some b' ∧ b'.halt = none ∧ b'.scr = blk.scr ∧ b'.acc = blk.acc ∧
            (∀ x ∈ t.lost, x.trap.ofBlock ≠ b) ∧
            (∀ c, ∀ j ∈ (t.core c).jobs, j.block = b → j.paused = false) ∧
            (∀ c, ∀ o ∈ (t.core c).ops, o.block = b → o.held = false) ∧
            ∀ j w, s.waves.get? j = some w → w.block = b → w.exited = false →
              ∃ w', t.waves.get? j = some w' ∧ w'.halted = false ∧ w'.parked = none ∧ w'.regs = w.regs ∧
                (w.blocked = none → w'.pc = (if w.trapped then w.pc + 4 else w.pc) ∧
                  w'.retired = if w.trapped then (w.retired + 1) % 2 ^ 48 else w.retired)) ∧
          (h.done = true → s.performIssued b = s → ∃ t b', exec .discard s = .next t ∧ t.ctl.peRes = 0 ∧
            t.mem = s.mem ∧ t.blocks.get? b = some b' ∧ b'.halt = none ∧ (∀ x ∈ t.lost, x.trap.ofBlock ≠ b) ∧
            (l.standing = none → (∀ j w, t.waves.get? j = some w → w.block = b → w.exited = true ∧ w.live = 0) ∧
              ∃ l', t.launches.get? blk.launch = some l' ∧ l'.outcome = l.outcome ||| 1) ∧
            (l.standing.isSome = true → b'.kill = some (blk.kill.getD h.cause)))) ∧
    ∀ b h n l, s.blocks.get? s.subj.a = some b → b.halt = some h → b.snap = some n → s.launches.get? b.launch = some l →
      (h.cause ≠ 0x43 → exec .rollback s = .next s) ∧
      (h.cause = 0x43 → s.blockAtBoundary s.subj.a = true →
        (∀ j ∈ s.jobsOf s.subj.a, j.2.queued = true ∨ j.2.id < n.seq) →
        (∀ e ∈ s.wavesOf s.subj.a, e.2.outst = []) →
        ∃ t b', exec .rollback s = .next t ∧ t.mem = s.mem ∧ t.blocks.get? s.subj.a = some b' ∧ b'.halt = none ∧
          b'.scr = n.scr ∧ b'.acc = n.acc ∧ b'.queues = n.queues ∧ b'.consumed = b.consumed + 1 ∧
          (∀ w, s.waves.get? h.wave = some w → ∃ r, t.traps = s.traps ++ [r] ∧ r.cause = 0x43 ∧ r.halt = false) ∧
          ∀ j v, s.waves.get? j = some v →
            (v.block ≠ s.subj.a → t.waves.get? j = some v) ∧
            ∀ x, v.block = s.subj.a → n.waves.find? (fun e => decide (e.1 = j)) = some x →
              ∃ w', t.waves.get? j = some w' ∧ w'.regs = x.2.regs ∧ w'.pc = x.2.pc ∧ w'.active = x.2.active ∧
                w'.stack = x.2.stack ∧ w'.halted = false)

/-- R389 to R391: CHECKPOINT_LAUNCH gives RES 1 for no such launch, 2 with NEED for too short a buffer (the launch, which
a checkpoint under way may have stopped, then goes on as after one), and goes on
while something of the launch is under way; then it writes the checkpoint with the next generation, and the launch
goes on with every wave's registers and program counter. RESTORE_LAUNCH gives RES 3 for a seal that fails, its own or
an image's, 4 for an image of another generation, 6 while a launch has its tag; else its launch, its record and tag,
and all its blocks are there again. The sections of open layout are the model's (log entry 9). -/
def Obligations.LaunchesAreCheckpointed : Prop :=
  ∀ (s : State), s.TablesRise → s.ctl.ready = true → s.subj.a = 0 → s.ctl.peJob = none → s.ctl.peWaits = [] →
    let ends (i : Instr) (r : Byte) : Prop :=
      exec i s = .next { s with ctl := { s.ctl with peRes := r, peJob := none } }
    let op (n : Nat) (core : BitVec 8) : PeOp := ⟨n, core, s.ctl.peTag, s.ctl.peBlk, s.ctl.peAddr, s.ctl.peLen⟩
    (s.findLaunch s.ctl.peTag = none → ends .checkpointLaunch 1) ∧
    (∀ k l, s.findLaunch s.ctl.peTag = some (k, l) →
      let keys := (s.blocksOf k).map (·.1)
      let bytes := s.checkpointBytes (s.checkpointOf k l) s.generation
      let need := bytes.length / 64
      keys.foldl (fun s b => (s.finishHalt b).settleBlock b) s = s →
      (s.ctl.peLen.toNat < 64 * need → exec .checkpointLaunch s = .next (State.goOnAfter { s with ctl :=
        { s.ctl with peRes := 2, peJob := none, peNeed := BitVec.ofNat 32 need } } k l)) ∧
      (64 * need ≤ s.ctl.peLen.toNat → (l.dqm = true ∧ l.between = false) ∨ (∃ b ∈ keys, s.mayImage b = false) →
        exec .checkpointLaunch s = .next { s with ctl := { s.ctl with peJob := some (op 5 0) } }) ∧
      (64 * need ≤ s.ctl.peLen.toNat → l.dqm = false ∨ l.between = true → (∀ b ∈ keys, s.mayImage b = true) →
        s.MemCanon →
        ∃ t, exec .checkpointLaunch s = .next t ∧ t.ctl.peRes = 0 ∧ t.ctl.peNeed = BitVec.ofNat 32 need ∧
          t.generation = s.generation + 1 ∧ t.savedLaunches.get? s.generation.toNat = some (s.checkpointOf k l) ∧
          (∀ j w, s.waves.get? j = some w → ∃ w', t.waves.get? j = some w' ∧ w'.regs = w.regs ∧ w'.pc = w.pc ∧
            w'.retired = w.retired ∧ w'.active = w.active) ∧
          ∀ x, t.rawByte x = if s.ctl.peAddr.toNat ≤ x ∧ x < s.ctl.peAddr.toNat + bytes.length then
            bytes.getD (x - s.ctl.peAddr.toNat) 0 else s.rawByte x)) ∧
    ∀ (core : BitVec 8),
      (s.unseal (op 6 core) 2 8 8 = none → ends (.restoreLaunch core) 3) ∧
      ∀ bs, s.unseal (op 6 core) 2 8 8 = some bs →
        let gen := leAt bs 0x10 8
        let tag : Word := BitVec.ofNat 32 (leAt bs 0x18 4)
        let images := imagesOf (leAt bs 0x1C 4) (bs.drop 64)
        (images = none → ends (.restoreLaunch core) 3) ∧
        ∀ ims, images = some ims →
          ((∃ im ∈ ims, leAt im 8 8 ≠ gen) → ends (.restoreLaunch core) 4) ∧
          ((∀ im ∈ ims, leAt im 8 8 = gen) →
            ((s.findLaunch tag).isSome = true → ends (.restoreLaunch core) 6) ∧
            ∀ c vs key, s.findLaunch tag = none → s.savedLaunches.get? gen = some c → c.launch.tag = tag →
              c.blocks.length = leAt bs 0x1C 4 → loadImages gen c.blocks ims = some vs →
              c.blocks.head?.map (fun e => e.2.block.launch) = some key → s.launches.get? key = none →
              let tail := bs.drop (64 + (ims.map List.length).sum)
              s.NonePublished → (∀ e ∈ vs, ∀ x ∈ e.2.waves, ∀ a ∈ x.2.outst, a.rel = none) →
              (s.restoreLaunch c vs key tail = none → exec (.restoreLaunch core) s = .next { s with ctl :=
                { s.ctl with peJob := some (op 6 core) } }) ∧
              ((s.restoreLaunch c vs key tail).isSome = true → ∃ t l', exec (.restoreLaunch core) s = .next t ∧
                t.ctl.peRes = 0 ∧ t.mem = s.mem ∧ t.launches.get? key = some l' ∧ l'.record = c.launch.record ∧
                l'.tag = tag ∧ l'.asid = c.launch.asid ∧ ∀ e ∈ vs, (t.blocks.get? e.1).isSome = true))

/-! ## The module and its control space -/

/-- R13, R154, R334, R345, R395, R400, R401, R403: with power, bring-up takes the measurement of both firmware images,
and, when the firmware's signature is good, writes every section's lane map, clears the LIVE bit of each core with a third
failed lane, and sets READY; with a bad signature it sets FWBAD and READY stays 0. Nothing of an earlier run remains. A
removal of power loses everything. A thermal limit sets THERM and a governor ceiling of 1; THERM clears only with an inlet
of 15 to 40 degrees; firmware holds the power target by FWGOV, which falls while the module draws more than CAP. None of
the last three changes anything else. A single-bit error is only counted, and so is one that drops a clean cached copy;
another poisons the line, die scratchpad word or scratchpad word, marks the register's lanes, makes the two issues of a
word differ, or changes one byte of an accumulator or one element of a tenure while their checksums stay. A module without
power has none. That the machine without power is the reset state is the model's choice (log entry 1); which copy an error
strikes is the step's choice (log entry 69). FWGOV held at 1 while THERM is set (log entry 46), the digests as this SHA-512
(log entry 4) and memory that is empty after bring-up (log entry 5) are the model's too. -/
def Obligations.ModuleLives : Prop :=
  ∀ (s : State),
    exec .powerRemoval s = .next { State.reset with sched := s.sched, ver := s.ver } ∧
    (∀ sigOk lanes dead,
      (s.powered = true → exec (.powerOn sigOk lanes dead) s = .next s) ∧
      (s.powered = false → ∃ t, exec (.powerOn sigOk lanes dead) s = .next t ∧ t.powered = true ∧ t.mem = [] ∧
        t.waves = [] ∧ t.blocks = [] ∧ t.launches = [] ∧ t.programs = [] ∧ t.residuals = [] ∧ t.now = 0 ∧
        t.generation = 1 ∧ t.ctl.measured = true ∧ t.ctl.fwbad = !sigOk ∧ t.ctl.ready = sigOk ∧
        t.ctl.mgmtDigest = sha512 (Config.mgmtImage s.ver) ∧ t.ctl.deviceDigest = sha512 (Config.deviceImage s.ver sigOk) ∧
        (sigOk = true →
          (∀ n, n < 192 → t.ctl.coreLive.getLsbD n = !dead.contains n) ∧
          (144 ≤ Config.dev.toNat → t.cutOff = true) ∧
          ((lanes.map LaneTest.sect).Nodup → ∀ x ∈ lanes, x.sect < 768 →
            let m : BitVec 15 := x.fail2 ++ (0 : BitVec 1) ++ x.fail1
            mapOk m = true → t.lmap x.sect = m)))) ∧
    (s.ctl.ready = false → ∀ a b, exec (.thermalLimit a) s = .next s ∧ exec (.thermalClear a) s = .next s ∧
      exec (.powerCapEnforce a b) s = .next s) ∧
    (s.ctl.ready = true → ∀ (a b : BitVec 16),
      exec (.thermalLimit a) s = .next { s with ctl := { s.ctl with therm := true, fwgov := 1, inlet := a } } ∧
      exec (.thermalClear a) s = .next { s with ctl := { s.ctl with
        therm := s.ctl.therm && !(decide (150 ≤ a.toNat) && decide (a.toNat ≤ 400)), inlet := a } } ∧
      exec (.powerCapEnforce a b) s = .next { s with ctl := { s.ctl with
        watts := b
        fwgov := if s.ctl.therm then 1
          else if s.ctl.cap.toNat < b.toNat ∧ s.ctl.fwgov.toNat ≤ a.toNat then BitVec.ofNat 16 (max 1 (s.ctl.fwgov.toNat - 1))
          else a } }) ∧
    (s.powered = false → ∀ e, exec (.softError e) s = .next s) ∧
    (s.powered = true →
      (∀ n b w r lane,
        let counted : State := { s with ctl := { s.ctl with corrected := s.ctl.corrected + 1 } }
        (s.hit = false ∨ s.cleanHolders n = [] → exec (.softError (.line n true)) s = .next counted) ∧
        exec (.softError (.dieWord n true)) s = .next counted ∧
        exec (.softError (.scratchWord b n true)) s = .next counted ∧
        exec (.softError (.regWord w r lane true)) s = .next counted) ∧
      (∀ n single, s.hit = true → s.cleanHolders n ≠ [] → s.TablesRise → KMap.wf s.l2 = true →
        (∀ e ∈ s.cores, KMap.wf e.2.l1 = true) →
        ∃ t o, exec (.softError (.line n single)) s = .next t ∧ o ∈ s.cleanHolders n ∧
          { t with ctl := s.ctl, l2 := s.l2, views := s.views, cores := s.cores } = s ∧
          t.ctl = { s.ctl with corrected := s.ctl.corrected + 1 } ∧
          (o = none → s.l2.get? n = some false ∧ t.l2.get? n = none ∧ t.cores = s.cores) ∧
          (∀ c, o = some c → (t.core c).l1.get? n = none ∧ t.l2 = s.l2 ∧ t.views = s.views ∧ ∀ d, d ≠ c → t.core d = s.core d) ∧
          (∀ k, k ≠ n → t.l2.get? k = s.l2.get? k) ∧ ∀ c k, k ≠ n → (t.core c).l1.get? k = (s.core c).l1.get? k) ∧
      ((∀ e ∈ s.waves, e.2.outst = []) → ∀ n,
        (s.hit = false ∨ s.cleanHolders n = [] →
          exec (.softError (.line n false)) s = .next { s with poison := s.poison.set n () }) ∧
        exec (.softError (.dieWord n false)) s = .next { s with diePoison := s.diePoison.set n () } ∧
        ∀ b blk, s.blocks.get? b = some blk → exec (.softError (.scratchWord b n false)) s =
          .next { s with blocks := s.blocks.set b { blk with scrPoison := blk.scrPoison.set n () } }) ∧
      (∀ (b n : Nat) (v : Byte) blk, s.blocks.get? b = some blk → KMap.canon 0 blk.acc = true →
        ∃ t b', exec (.softError (.accByte b n v)) s = .next t ∧ { t with blocks := s.blocks } = s ∧
          t.blocks.get? b = some b' ∧ { b' with acc := blk.acc } = blk ∧
          (∀ i, b'.acc.getD i 0 = if i = n then v else blk.acc.getD i 0) ∧
          ∀ k, k ≠ b → t.blocks.get? k = s.blocks.get? k) ∧
      (∀ (core entry n : Nat) v x, (s.core core).tenures.get? entry = some x → KMap.canon 0 x.elems = true →
        ∃ t x', exec (.softError (.tenureWord core entry n v)) s = .next t ∧ { t with cores := s.cores } = s ∧
          (t.core core).tenures.get? entry = some x' ∧ { x' with elems := x.elems } = x ∧
          ∀ i, x'.elems.getD i 0 = if i = n then v else x.elems.getD i 0) ∧
      ∀ k w, s.waves.get? k = some w →
        exec (.softError (.issue k)) s = .next { s with waves := s.waves.set k { w with mismatch := true } } ∧
        ∀ r lane, lane < 64 → ∃ t w', exec (.softError (.regWord k r lane false)) s = .next t ∧
          { t with waves := s.waves } = s ∧ t.waves.get? k = some w' ∧ w'.regs = w.regs ∧ w'.poison = w.poison ∧
          ∀ q i, i < 64 → (w'.struck.getD q 0).getLsbD i =
            ((w.struck.getD q 0).getLsbD i || (decide (q = r) && decide (i = lane))))

/-- R8, R9, R112, R115, R160, R265, R266, R337, R372, R374, R399, R400: a write at a misaligned or unused offset, or, until
READY, of a register that does not answer yet, changes nothing. A peer's write of 8 bytes to the control space is that
register write with an answer, which comes once the write has been performed; its read of 8 bytes gives the register's
value, and one of 16 bytes at an entry of the residual window the whole entry; any other size has status 1 and no effect, and
so has an atomic. An access that comes while an earlier write of its source waits is kept for later. The residual window, the
registers of a program, the ownership table and the halt window read as their tables say, and what is read-only there keeps
its value when it is written. A
written field reads back: LEASE (512 for a value out of range), PWRCAP's CAP (3,000), ATADDR, TRBASE while the ring is
off, the pre-emption registers. TRCTL and FWn CTL act as their rules say, SIZE, LEN and the fields of a window being
kept while it is on; closing a window drops its decoded lines from every cache. The answer to an atomic (log entry 32), that
enabling a window drops nothing (log entry 67), that a write that waits is answered later (log entry 52), which sources have
an order (log entry 68), and the registers of a slot with no program (log entry 83) are the model's. -/
def Obligations.ControlSpaceWrites : Prop :=
  ∀ (s : State) (off : BitVec 25) (val : DWord),
    (off.toNat % 8 ≠ 0 ∨ ctlRegAt off.toNat = none → exec (.registerWrite off val) s = .next s) ∧
    (∀ r, ctlRegAt off.toNat = some r → s.ctl.ready = false →
      s.ctl.measured = false ∨ r.early = false → exec (.registerWrite off val) s = .next s) ∧
    (∀ c i hi, ctlRegAt off.toNat = some (.owner c i hi) ∨ ctlRegAt off.toNat = some (.haltWin c i hi) ∨
      ctlRegAt off.toNat = some (.resWin i hi) → exec (.registerWrite off val) s = .next s) ∧
    (∀ (src : BitVec 16) (tag : Word) (data : List Byte), s.deaf = false → knownType src →
      (∀ x, 0xFF00000000 ≤ x → s.windowAt x = none) →
      let addr : DWord := BitVec.ofNat 64 (0xFF00000000 + off.toNat)
      let bad (t : State) (i : Instr) (kind : BitVec 16) : Prop := exec i s = .next t ∧
        s.Replied t kind src tag addr.toNat 1 [] ∧ { t with grants := s.grants } = s
      let kept (i : Instr) (kind : CtlKind) : Prop := exec i s = .next { s with ctl := { s.ctl with
        behind := s.ctl.behind ++ [⟨off.toNat, kind, ⟨src, tag, addr.toNat⟩⟩] } }
      (s.ctlBusy src = true → (∀ len, kept (.remoteRead src tag addr len) (.read len.toNat)) ∧
        kept (.remoteWrite src tag addr data) (.write data.length (BitVec.ofNat 64 (leNat (data.take 8)))) ∧
        ∀ op, remoteFits op = true → kept (.remoteAtomic src tag addr op) .atomic) ∧
      (s.ctlBusy src = false →
        (data.length ≠ 8 ∨ ctlRegAt off.toNat = none → ∃ t, bad t (.remoteWrite src tag addr data) 0x0013) ∧
        (∀ r, ctlRegAt off.toNat = some r →
          (data = natLe 8 val.toNat → s.writeWaits r val = true → ∃ t, exec (.remoteWrite src tag addr data) s = .next t ∧
            { t with ctl := s.ctl } = s ∧ t.ctlBusy src = true) ∧
          (data = natLe 8 val.toNat → s.writeWaits r val = false → ∃ t u, exec (.registerWrite off val) s = .next u ∧
            exec (.remoteWrite src tag addr data) s = .next t ∧ { t with grants := u.grants } = u ∧
            u.Replied t 0x0013 src tag addr.toNat 0 []) ∧
          ∃ t, exec (.remoteRead src tag addr 8) s = .next t ∧ { t with grants := s.grants } = s ∧
            s.Replied t 0x0011 src tag addr.toNat 0 (natLe 8 (s.ctlValue r).toNat)) ∧
        (ctlRegAt off.toNat = none → ∃ t, bad t (.remoteRead src tag addr 8) 0x0011) ∧
        (∀ e, off.toNat = 0x1000000 + 16 * e → s.ctl.ready = true →
          let x := s.resEntry e
          let flags := x.state.toNat + (if x.rearm then 4 else 0) + 8 * x.kills.toNat + (if x.hold then 64 else 0) +
            if x.fpend then 128 else 0
          let owned : Prop := ∃ q ∈ s.programs, q.2.base ≤ e ∧ e < q.2.base + q.2.n
          ∃ t bs, exec (.remoteRead src tag addr 16) s = .next t ∧ { t with grants := s.grants } = s ∧
            s.Replied t 0x0011 src tag addr.toNat 0 bs ∧ (¬ owned → bs = List.replicate 16 0) ∧
            (owned → bs = natLe 1 flags ++ natLe 1 x.wait.toNat ++ natLe 6 x.seq.toNat ++ natLe 4 x.bump.toNat ++
              natLe 4 x.res.toNat)) ∧
        (∀ (len : BitVec 32), len ≠ 8 → len ≠ 16 ∨ (∀ e, off.toNat ≠ 0x1000000 + 16 * e) →
          ∃ t, bad t (.remoteRead src tag addr len) 0x0011) ∧
        ∀ op, remoteFits op = true → ∃ t, bad t (.remoteAtomic src tag addr op) 0x0015)) ∧
    (s.ctl.ready = true →
      let reads (o : Nat) (x : Nat) : Prop := ∃ r, ctlRegAt o = some r ∧ s.ctlValue r = BitVec.ofNat 64 x
      (∀ p, p < 8 → let at_ (i : Nat) : Nat := 0x120000 + 64 * p + 8 * i
        (s.programs.get? p = none → ∀ i, i < 8 → reads (at_ i) 0) ∧
        ∀ q, s.programs.get? p = some q →
          reads (at_ 0) (q.running.length * 2 ^ 32 + min 255 q.inputs.length * 16 + q.state.toNat) ∧
          reads (at_ 1) q.gen.toNat ∧ reads (at_ 2) (if q.dqm then q.bound else 0) ∧
          reads (at_ 3) (q.n * 2 ^ 32 + q.base) ∧ reads (at_ 4) q.jrd ∧ reads (at_ 5) q.jwr ∧
          reads (at_ 6) q.jref.toNat ∧ reads (at_ 7) 0 ∧
          (off.toNat = at_ 4 → KMap.wf s.programs = true → ∃ t, exec (.registerWrite off val) s = .next t ∧
            { t with programs := s.programs } = s ∧ (∀ k, k ≠ p → t.programs.get? k = s.programs.get? k) ∧
            t.programs.get? p = some { q with jrd := val.toNat % 2 ^ 32 / 64 * 64 }) ∧
          ∀ i, i < 8 → i ≠ 4 → off.toNat = at_ i → exec (.registerWrite off val) s = .next s) ∧
      (∀ core entry, core < 192 → entry < 32 → let at_ := 0x200000 + 512 * core + 16 * entry
        ((s.core core).tenures.get? entry = none → reads at_ 0 ∧ reads (at_ + 8) 0) ∧
        ∀ x, (s.core core).tenures.get? entry = some x →
          reads at_ (1 + x.gcnt * 2 ^ 16 + x.gbase * 2 ^ 32 + x.shape.toNat * 2 ^ 40) ∧
          reads (at_ + 8) (x.tag.toNat + x.handle.toNat * 2 ^ 32)) ∧
      ∀ core slot, core < 192 → slot < 64 → let at_ := 0x170000 + 1024 * core + 16 * slot
        let holds (w : Wave) : Prop := w.exited = false ∧ w.core = core ∧ 16 * w.sect + w.slot = slot ∧
          ∃ b h, s.blocks.get? w.block = some b ∧ b.halt = some h ∧ h.done = true
        ((∀ e ∈ s.waves, ¬ holds e.2) → reads at_ 0 ∧ reads (at_ + 8) 0) ∧
        ∀ e ∈ s.waves, holds e.2 → (∀ d ∈ s.waves, holds d.2 → d = e) →
          reads at_ (2 ^ 63 + min 4 e.2.skid * 2 ^ 48 + e.2.retired % 2 ^ 48) ∧ reads (at_ + 8) e.2.pc.toNat) ∧
    (s.ctl.ready = true →
      let wrote (o : BitVec 25) (r : CtlReg) (x : DWord) : Prop := ∃ t, exec (.registerWrite o val) s = .next t ∧
        { t with ctl := s.ctl } = s ∧ t.ctlValue r = x
      let lo (n : Nat) : Nat := val.toNat % 2 ^ n
      wrote 0x28 .lease (BitVec.ofNat 64 (if 64 ≤ lo 16 ∧ lo 16 ≤ 4096 then lo 16 else 512)) ∧
      wrote 0x38 .pwrcap (BitVec.ofNat 64 (s.ctl.fwgov.toNat * 2 ^ 16 +
        if 500 ≤ lo 16 ∧ lo 16 ≤ 3000 then lo 16 else 3000)) ∧
      wrote 0x160000 .peTag (BitVec.ofNat 64 (lo 32)) ∧ wrote 0x160008 .peBlk (BitVec.ofNat 64 (lo 32)) ∧
      wrote 0x160010 .peAddr (BitVec.ofNat 64 (lo 48 / 4096 * 4096)) ∧ wrote 0x160018 .peLen val ∧
      (s.ctl.atBusy = false → wrote 0x220 .atAddr (BitVec.ofNat 64 (lo 48 / 4096 * 4096))) ∧
      wrote 0x150000 .trBase (if s.ctl.trOn then s.ctl.trBase else BitVec.ofNat 64 (lo 48 / 4096 * 4096)) ∧
      (let n := (val.extractLsb' 0 5).toNat
       ∃ t, exec (.trapRingEnable val) s = .next t ∧ exec (.registerWrite 0x150008 val) s = .next t ∧
        { t with ctl := s.ctl } = s ∧ t.ctl.trOn = val.getLsbD 63 ∧
        t.ctl.trSize = (if s.ctl.trOn then s.ctl.trSize else if 6 ≤ n ∧ n ≤ 16 then n else 12) ∧
        (s.ctl.trOn = false → val.getLsbD 63 = true → t.ctl.trWr = 0 ∧ t.ctl.trRd = 0) ∧
        (s.ctl.trOn = true ∨ val.getLsbD 63 = false → t.ctl.trWr = s.ctl.trWr ∧ t.ctl.trRd = s.ctl.trRd)) ∧
      ∀ (n : Fin 16) (i : Instr), i = .formatWindowEnable n val ∨ i = .formatWindowDisable n val →
        let w := s.ctl.window n.val
        let on : Bool := decide (val.extractLsb' 0 2 = 1)
        ∃ t, exec i s = .next t ∧ exec (.registerWrite (BitVec.ofNat 25 (0x100000 + 32 * n.val)) val) s = .next t ∧
          t.mem = s.mem ∧ t.waves = s.waves ∧ t.blocks = s.blocks ∧
          (KMap.wf s.ctl.windows = true → t.ctl.window n.val =
            { w with on := on, len := if w.on then w.len else (val.extractLsb' 32 32).toNat } ∧
            ∀ k, k ≠ n.val → t.ctl.window k = s.ctl.window k) ∧
          (w.on = true → on = false →
            let out (line : Nat) : Prop := 64 * line + 64 ≤ w.view ∨ w.view + 64 * w.len ≤ 64 * line
            (∀ e ∈ t.views, out e.1) ∧ ∀ c, ∀ e ∈ (t.core c).l1, out e.1) ∧
          (w.on = false ∨ on = true → t.views = s.views ∧ t.cores = s.cores))

/-- R12, R157 to R160, R296, R405, R406: an invalidation, written while none is under way, drops from every core's and
every die's cache the translations it covers (one page of an address space, one address space, or all), keeps the
others, and is BUSY until it completes; one written while BUSY is 1 waits; then no cache holds one, no walk it covers is
under way, an address space covered whole, with no launch resident, is bound no longer, and BUSY is 0 or the first that
waits begins, and its writer is answered. A write of GO makes attestation BUSY, before the measurement sets RES 1, and
waits while BUSY is 1. The report is 1,280 bytes at ATADDR: version, length, MGID, generation, time, nonce, digests,
status, modulus and signature stand at their offsets; BUSY clears once it is complete at system scope. What waits while
BUSY is 1 is the model's form (log entries 52, 68); the images and keys are constants, and SHA-512 and RSA are presumed
(log entry 4). -/
def Obligations.TranslationsAndReports : Prop :=
  ∀ (s : State), s.TablesRise →
    (∀ (i : Instr) (asid : BitVec 12) (scope : Nat),
      (i = .xltInvalidatePage asid ∧ scope = 0) ∨ (i = .xltInvalidateAsid asid ∧ scope = 1) ∨
        (i = .xltInvalidateAll ∧ scope = 2 ∧ asid = 0) → s.ctl.ready = true →
      let covered (x : Xlate) : Prop := scope = 2 ∨ (x.asid = asid.toNat ∧
        (scope = 1 ∨ (x.va ≤ s.ctl.xltVa.toNat ∧ s.ctl.xltVa.toNat < x.va + x.size)))
      (s.ctl.xltBusy = true → exec i s = .next { s with ctl := { s.ctl with
        xltWaits := s.ctl.xltWaits ++ [⟨scope, asid.toNat, s.ctl.xltVa.toNat, none⟩] } }) ∧
      (s.ctl.xltBusy = false → ∃ t, exec i s = .next t ∧ t.ctl.xltBusy = true ∧
        t.ctl.xltJob = some (scope, asid.toNat, s.ctl.xltVa.toNat) ∧ t.mem = s.mem ∧ t.waves = s.waves ∧
        (∀ c x, x ∈ (t.core c).tlb ↔ x ∈ (s.core c).tlb ∧ ¬ covered x) ∧
        ∀ e ∈ t.dieTlb, ∀ x ∈ e.2, ¬ covered x)) ∧
    (s.ctl.xltJob = none → exec .xltInvalidationComplete s = .next s) ∧
    (∀ job, s.ctl.xltJob = some job → KMap.wf s.asids = true →
      ∃ t, exec .xltInvalidationComplete s = .next t ∧ t.mem = s.mem ∧
        (s.ctl.xltWaits = [] → t.ctl.xltBusy = false ∧ t.ctl.xltJob = none ∧ t.grants = s.grants) ∧
        (∀ x rest, s.ctl.xltWaits = x :: rest → t.ctl.xltBusy = true ∧ t.ctl.xltJob = some (x.scope, x.asid, x.va) ∧
          t.ctl.xltWaits = rest ∧ (x.reply = none → t.grants = s.grants) ∧
          ∀ y, x.reply = some y → s.Replied t 0x0013 y.src y.tag y.addr 0 []) ∧
        (∀ c, ∀ x ∈ (t.core c).tlb, x ∈ (s.core c).tlb ∧ xltHit job x = false) ∧
        (∀ k ∈ t.walks, k ∈ s.walks ∧ walkHit job k = false) ∧
        ∀ a, t.asids.get? a =
          if (job.1 = 2 ∨ (job.1 = 1 ∧ a = job.2.1)) ∧ ∀ e ∈ s.launches, e.2.asid ≠ a then none else s.asids.get? a) ∧
    (s.subj.a = 0 →
      (s.ctl.ready = false → s.ctl.measured = false → exec .attestationReport s = .next s) ∧
      (s.ctl.ready = true ∨ s.ctl.measured = true →
        (s.ctl.atBusy = true → exec .attestationReport s =
          .next { s with ctl := { s.ctl with atWaits := s.ctl.atWaits ++ [none] } }) ∧
        (s.ctl.atBusy = false → s.ctl.measured = false → exec .attestationReport s =
          .next { s with ctl := { s.ctl with atRes := 1 } }) ∧
        (s.ctl.atBusy = false → s.ctl.measured = true → exec .attestationReport s =
          .next { s with ctl := { s.ctl with atBusy := true, atEnd := none } }))) ∧
    (s.subj.a ≠ 0 →
      (s.ctl.atBusy = false → exec .attestationReport s = .next s) ∧
      (∀ v, s.ctl.atBusy = true → s.ctl.atEnd = some v →
        (s.now < v → exec .attestationReport s = .next s) ∧
        (v ≤ s.now → s.ctl.atWaits = [] → exec .attestationReport s =
          .next { s with ctl := { s.ctl with atRes := 0, atBusy := false, atEnd := none } }) ∧
        ∀ w rest, v ≤ s.now → s.ctl.atWaits = w :: rest → s.ctl.measured = true → ∃ t, exec .attestationReport s = .next t ∧
          { t with ctl := s.ctl, grants := s.grants } = s ∧
          t.ctl = { s.ctl with atRes := 0, atBusy := true, atEnd := none, atWaits := rest } ∧
          (w = none → t.grants = s.grants) ∧ ∀ y, w = some y → s.Replied t 0x0013 y.src y.tag y.addr 0 []) ∧
      (s.ctl.atBusy = true → s.ctl.atEnd = none → s.MemCanon →
        s.ctl.mgmtDigest.length = 64 → s.ctl.deviceDigest.length = 64 →
        ∃ t bytes v, exec .attestationReport s = .next t ∧ t.ctl = { s.ctl with atEnd := some v } ∧ s.now ≤ v ∧
          t.waves = s.waves ∧ t.blocks = s.blocks ∧ bytes.length = 1280 ∧
          leAt bytes 0 4 = 1 ∧ leAt bytes 4 4 = 1280 ∧
          leAt bytes 8 8 = Config.serial.toNat * 2 ^ 16 + Config.dev.toNat ∧ leAt bytes 0x10 8 = s.generation.toNat ∧
          leAt bytes 0x18 8 = s.now % 2 ^ 64 ∧ (∀ i, i < 4 → leAt bytes (0x20 + 8 * i) 8 = (s.ctl.nonce.getD i 0).toNat) ∧
          (bytes.drop 0x40).take 64 = s.ctl.mgmtDigest ∧ (bytes.drop 0x80).take 64 = s.ctl.deviceDigest ∧
          leAt bytes 0xC0 24 = s.ctl.coreLive.toNat ∧ leAt bytes 0xD8 8 = s.ctl.mgstat ∧
          (rsaModulus < 2 ^ 4096 → beNat ((bytes.drop 0x100).take 512) = rsaModulus) ∧
          (1 < rsaModulus → rsaModulus < 2 ^ 4096 → rsaExponent < 2 ^ 4096 →
            beNat (bytes.drop 0x300) = beNat (pkcsEncode (bytes.take 0x300)) ^ rsaExponent % rsaModulus) ∧
          ∀ x, t.rawByte x = if s.ctl.atAddr.toNat ≤ x ∧ x < s.ctl.atAddr.toNat + 1280 then
            bytes.getD (x - s.ctl.atAddr.toNat) 0 else s.rawByte x))

/-! ## Invariants -/

/-- R150, R401: what the machine is right after reset: memory lists nothing and every canonical form holds; no wave,
block, launch or program is there; the counters and the control registers stand at their reset values: LEASE 512, CAP
3,000, FWGOV and GOVMAX 1,200, generation 1; nothing is ready. That `powered` is false before bring-up (log entry 1), that
the lane maps then name no failed lane (log entry 3), and that an unlisted byte of memory reads 0 (log entry 5) are the
model's choices. -/
def Obligations.ResetIsCanonical : Prop :=
  State.reset.MemCanon ∧ State.reset.OnChipCanon ∧ State.reset.TablesRise ∧ State.reset.mem = [] ∧
  State.reset.waves = [] ∧ State.reset.blocks = [] ∧ State.reset.launches = [] ∧ State.reset.programs = [] ∧
  State.reset.residuals = [] ∧ State.reset.generation = 1 ∧ State.reset.now = 0 ∧ State.reset.powered = false ∧
  State.reset.ctl.ready = false ∧ State.reset.ctl.leaseNs = 512 ∧ State.reset.ctl.cap = 3000 ∧
  State.reset.ctl.fwgov = 1200 ∧ State.reset.ctl.govMax = 1200 ∧ State.reset.ctl.lqOn = false ∧
  State.reset.ctl.trOn = false ∧ (∀ a, State.reset.rawByte a = 0) ∧ ∀ n, State.reset.lmap n = mapNone

/-- R2, R150: memory keeps its canonical form, addresses strictly rising and no entry equal to what an unlisted
address reads as, through every step of the machine, from any state that has it: every instruction, every event, every
choice. The canonical form is the model's own (log entry 5). -/
def Obligations.MemoryStaysCanonical : Prop :=
  ∀ (s t : State), s.MemCanon → step s = .next t → t.MemCanon

/-- R30, R149, R150: through every step the tables of cores, waves, blocks and launches stay listed by strictly rising
number, and the scratchpad and accumulator memories of every block, resident or saved, and of every snapshot, stay in
canonical form. -/
def Obligations.TablesStayCanonical : Prop :=
  ∀ (s t : State), s.OnChipCanon → s.TablesRise → step s = .next t → t.OnChipCanon ∧ t.TablesRise
end

