-- ==== Sys2Proof/Laws/State.lean ====
section
/-! SUPPORT. What each update of the state does to each of its fields: one lemma per field and update. -/

namespace Sys2Proof.Machine

open Sys2Proof

/-! ## `modCtl` -/

section modCtl
variable (s : State) (f : Ctl → Ctl)

@[simp] theorem State.modCtl_powered : (s.modCtl f).powered = s.powered := rfl
@[simp] theorem State.modCtl_now : (s.modCtl f).now = s.now := rfl
@[simp] theorem State.modCtl_ctl : (s.modCtl f).ctl = f s.ctl := rfl
@[simp] theorem State.modCtl_mem : (s.modCtl f).mem = s.mem := rfl
@[simp] theorem State.modCtl_poison : (s.modCtl f).poison = s.poison := rfl
@[simp] theorem State.modCtl_diePoison : (s.modCtl f).diePoison = s.diePoison := rfl
@[simp] theorem State.modCtl_homes : (s.modCtl f).homes = s.homes := rfl
@[simp] theorem State.modCtl_scrStamps : (s.modCtl f).scrStamps = s.scrStamps := rfl
@[simp] theorem State.modCtl_views : (s.modCtl f).views = s.views := rfl
@[simp] theorem State.modCtl_asids : (s.modCtl f).asids = s.asids := rfl
@[simp] theorem State.modCtl_dieTlb : (s.modCtl f).dieTlb = s.dieTlb := rfl
@[simp] theorem State.modCtl_walks : (s.modCtl f).walks = s.walks := rfl
@[simp] theorem State.modCtl_cores : (s.modCtl f).cores = s.cores := rfl
@[simp] theorem State.modCtl_launches : (s.modCtl f).launches = s.launches := rfl
@[simp] theorem State.modCtl_blocks : (s.modCtl f).blocks = s.blocks := rfl
@[simp] theorem State.modCtl_waves : (s.modCtl f).waves = s.waves := rfl
@[simp] theorem State.modCtl_programs : (s.modCtl f).programs = s.programs := rfl
@[simp] theorem State.modCtl_residuals : (s.modCtl f).residuals = s.residuals := rfl
@[simp] theorem State.modCtl_outbox : (s.modCtl f).outbox = s.outbox := rfl
@[simp] theorem State.modCtl_remote : (s.modCtl f).remote = s.remote := rfl
@[simp] theorem State.modCtl_grants : (s.modCtl f).grants = s.grants := rfl
@[simp] theorem State.modCtl_colls : (s.modCtl f).colls = s.colls := rfl
@[simp] theorem State.modCtl_early : (s.modCtl f).early = s.early := rfl
@[simp] theorem State.modCtl_doms : (s.modCtl f).doms = s.doms := rfl
@[simp] theorem State.modCtl_domRoots : (s.modCtl f).domRoots = s.domRoots := rfl
@[simp] theorem State.modCtl_traps : (s.modCtl f).traps = s.traps := rfl
@[simp] theorem State.modCtl_lost : (s.modCtl f).lost = s.lost := rfl
@[simp] theorem State.modCtl_gens : (s.modCtl f).gens = s.gens := rfl
@[simp] theorem State.modCtl_generation : (s.modCtl f).generation = s.generation := rfl
@[simp] theorem State.modCtl_saved : (s.modCtl f).saved = s.saved := rfl
@[simp] theorem State.modCtl_savedLaunches : (s.modCtl f).savedLaunches = s.savedLaunches := rfl
@[simp] theorem State.modCtl_pool : (s.modCtl f).pool = s.pool := rfl
@[simp] theorem State.modCtl_cur : (s.modCtl f).cur = s.cur := rfl
@[simp] theorem State.modCtl_subj : (s.modCtl f).subj = s.subj := rfl
@[simp] theorem State.modCtl_sched : (s.modCtl f).sched = s.sched := rfl
@[simp] theorem State.modCtl_later : (s.modCtl f).later = s.later := rfl
@[simp] theorem State.modCtl_hit : (s.modCtl f).hit = s.hit := rfl
@[simp] theorem State.modCtl_pick : (s.modCtl f).pick = s.pick := rfl
@[simp] theorem State.modCtl_seq : (s.modCtl f).seq = s.seq := rfl
@[simp] theorem State.modCtl_ver : (s.modCtl f).ver = s.ver := rfl
@[simp] theorem State.modCtl_takes : (s.modCtl f).takes = s.takes := rfl
@[simp] theorem State.modCtl_unripe : (s.modCtl f).unripe = s.unripe := rfl
@[simp] theorem State.modCtl_l2 : (s.modCtl f).l2 = s.l2 := rfl
@[simp] theorem State.modCtl_past : (s.modCtl f).past = s.past := rfl

end modCtl

/-! ## `modCore` -/

section modCore
variable (s : State) (c : Nat) (f : Core → Core)

@[simp] theorem State.modCore_powered : (s.modCore c f).powered = s.powered := rfl
@[simp] theorem State.modCore_now : (s.modCore c f).now = s.now := rfl
@[simp] theorem State.modCore_ctl : (s.modCore c f).ctl = s.ctl := rfl
@[simp] theorem State.modCore_mem : (s.modCore c f).mem = s.mem := rfl
@[simp] theorem State.modCore_poison : (s.modCore c f).poison = s.poison := rfl
@[simp] theorem State.modCore_diePoison : (s.modCore c f).diePoison = s.diePoison := rfl
@[simp] theorem State.modCore_homes : (s.modCore c f).homes = s.homes := rfl
@[simp] theorem State.modCore_scrStamps : (s.modCore c f).scrStamps = s.scrStamps := rfl
@[simp] theorem State.modCore_views : (s.modCore c f).views = s.views := rfl
@[simp] theorem State.modCore_asids : (s.modCore c f).asids = s.asids := rfl
@[simp] theorem State.modCore_dieTlb : (s.modCore c f).dieTlb = s.dieTlb := rfl
@[simp] theorem State.modCore_walks : (s.modCore c f).walks = s.walks := rfl
@[simp] theorem State.modCore_cores : (s.modCore c f).cores = s.cores.put Core.reset c (f (s.core c)) := rfl
@[simp] theorem State.modCore_launches : (s.modCore c f).launches = s.launches := rfl
@[simp] theorem State.modCore_blocks : (s.modCore c f).blocks = s.blocks := rfl
@[simp] theorem State.modCore_waves : (s.modCore c f).waves = s.waves := rfl
@[simp] theorem State.modCore_programs : (s.modCore c f).programs = s.programs := rfl
@[simp] theorem State.modCore_residuals : (s.modCore c f).residuals = s.residuals := rfl
@[simp] theorem State.modCore_outbox : (s.modCore c f).outbox = s.outbox := rfl
@[simp] theorem State.modCore_remote : (s.modCore c f).remote = s.remote := rfl
@[simp] theorem State.modCore_grants : (s.modCore c f).grants = s.grants := rfl
@[simp] theorem State.modCore_colls : (s.modCore c f).colls = s.colls := rfl
@[simp] theorem State.modCore_early : (s.modCore c f).early = s.early := rfl
@[simp] theorem State.modCore_doms : (s.modCore c f).doms = s.doms := rfl
@[simp] theorem State.modCore_domRoots : (s.modCore c f).domRoots = s.domRoots := rfl
@[simp] theorem State.modCore_traps : (s.modCore c f).traps = s.traps := rfl
@[simp] theorem State.modCore_lost : (s.modCore c f).lost = s.lost := rfl
@[simp] theorem State.modCore_gens : (s.modCore c f).gens = s.gens := rfl
@[simp] theorem State.modCore_generation : (s.modCore c f).generation = s.generation := rfl
@[simp] theorem State.modCore_saved : (s.modCore c f).saved = s.saved := rfl
@[simp] theorem State.modCore_savedLaunches : (s.modCore c f).savedLaunches = s.savedLaunches := rfl
@[simp] theorem State.modCore_pool : (s.modCore c f).pool = s.pool := rfl
@[simp] theorem State.modCore_cur : (s.modCore c f).cur = s.cur := rfl
@[simp] theorem State.modCore_subj : (s.modCore c f).subj = s.subj := rfl
@[simp] theorem State.modCore_sched : (s.modCore c f).sched = s.sched := rfl
@[simp] theorem State.modCore_later : (s.modCore c f).later = s.later := rfl
@[simp] theorem State.modCore_hit : (s.modCore c f).hit = s.hit := rfl
@[simp] theorem State.modCore_pick : (s.modCore c f).pick = s.pick := rfl
@[simp] theorem State.modCore_seq : (s.modCore c f).seq = s.seq := rfl
@[simp] theorem State.modCore_ver : (s.modCore c f).ver = s.ver := rfl
@[simp] theorem State.modCore_takes : (s.modCore c f).takes = s.takes := rfl
@[simp] theorem State.modCore_unripe : (s.modCore c f).unripe = s.unripe := rfl
@[simp] theorem State.modCore_l2 : (s.modCore c f).l2 = s.l2 := rfl
@[simp] theorem State.modCore_past : (s.modCore c f).past = s.past := rfl

end modCore

/-! ## `modWave` -/

section modWave
variable (s : State) (k : Nat) (f : Wave → Wave)

@[simp] theorem State.modWave_powered : (s.modWave k f).powered = s.powered := rfl
@[simp] theorem State.modWave_now : (s.modWave k f).now = s.now := rfl
@[simp] theorem State.modWave_ctl : (s.modWave k f).ctl = s.ctl := rfl
@[simp] theorem State.modWave_mem : (s.modWave k f).mem = s.mem := rfl
@[simp] theorem State.modWave_poison : (s.modWave k f).poison = s.poison := rfl
@[simp] theorem State.modWave_diePoison : (s.modWave k f).diePoison = s.diePoison := rfl
@[simp] theorem State.modWave_homes : (s.modWave k f).homes = s.homes := rfl
@[simp] theorem State.modWave_scrStamps : (s.modWave k f).scrStamps = s.scrStamps := rfl
@[simp] theorem State.modWave_views : (s.modWave k f).views = s.views := rfl
@[simp] theorem State.modWave_asids : (s.modWave k f).asids = s.asids := rfl
@[simp] theorem State.modWave_dieTlb : (s.modWave k f).dieTlb = s.dieTlb := rfl
@[simp] theorem State.modWave_walks : (s.modWave k f).walks = s.walks := rfl
@[simp] theorem State.modWave_cores : (s.modWave k f).cores = s.cores := rfl
@[simp] theorem State.modWave_launches : (s.modWave k f).launches = s.launches := rfl
@[simp] theorem State.modWave_blocks : (s.modWave k f).blocks = s.blocks := rfl
@[simp] theorem State.modWave_waves : (s.modWave k f).waves = s.waves.modify k f := rfl
@[simp] theorem State.modWave_programs : (s.modWave k f).programs = s.programs := rfl
@[simp] theorem State.modWave_residuals : (s.modWave k f).residuals = s.residuals := rfl
@[simp] theorem State.modWave_outbox : (s.modWave k f).outbox = s.outbox := rfl
@[simp] theorem State.modWave_remote : (s.modWave k f).remote = s.remote := rfl
@[simp] theorem State.modWave_grants : (s.modWave k f).grants = s.grants := rfl
@[simp] theorem State.modWave_colls : (s.modWave k f).colls = s.colls := rfl
@[simp] theorem State.modWave_early : (s.modWave k f).early = s.early := rfl
@[simp] theorem State.modWave_doms : (s.modWave k f).doms = s.doms := rfl
@[simp] theorem State.modWave_domRoots : (s.modWave k f).domRoots = s.domRoots := rfl
@[simp] theorem State.modWave_traps : (s.modWave k f).traps = s.traps := rfl
@[simp] theorem State.modWave_lost : (s.modWave k f).lost = s.lost := rfl
@[simp] theorem State.modWave_gens : (s.modWave k f).gens = s.gens := rfl
@[simp] theorem State.modWave_generation : (s.modWave k f).generation = s.generation := rfl
@[simp] theorem State.modWave_saved : (s.modWave k f).saved = s.saved := rfl
@[simp] theorem State.modWave_savedLaunches : (s.modWave k f).savedLaunches = s.savedLaunches := rfl
@[simp] theorem State.modWave_pool : (s.modWave k f).pool = s.pool := rfl
@[simp] theorem State.modWave_cur : (s.modWave k f).cur = s.cur := rfl
@[simp] theorem State.modWave_subj : (s.modWave k f).subj = s.subj := rfl
@[simp] theorem State.modWave_sched : (s.modWave k f).sched = s.sched := rfl
@[simp] theorem State.modWave_later : (s.modWave k f).later = s.later := rfl
@[simp] theorem State.modWave_hit : (s.modWave k f).hit = s.hit := rfl
@[simp] theorem State.modWave_pick : (s.modWave k f).pick = s.pick := rfl
@[simp] theorem State.modWave_seq : (s.modWave k f).seq = s.seq := rfl
@[simp] theorem State.modWave_ver : (s.modWave k f).ver = s.ver := rfl
@[simp] theorem State.modWave_takes : (s.modWave k f).takes = s.takes := rfl
@[simp] theorem State.modWave_unripe : (s.modWave k f).unripe = s.unripe := rfl
@[simp] theorem State.modWave_l2 : (s.modWave k f).l2 = s.l2 := rfl
@[simp] theorem State.modWave_past : (s.modWave k f).past = s.past := rfl

end modWave

/-! ## `modBlock` -/

section modBlock
variable (s : State) (k : Nat) (f : Block → Block)

@[simp] theorem State.modBlock_powered : (s.modBlock k f).powered = s.powered := rfl
@[simp] theorem State.modBlock_now : (s.modBlock k f).now = s.now := rfl
@[simp] theorem State.modBlock_ctl : (s.modBlock k f).ctl = s.ctl := rfl
@[simp] theorem State.modBlock_mem : (s.modBlock k f).mem = s.mem := rfl
@[simp] theorem State.modBlock_poison : (s.modBlock k f).poison = s.poison := rfl
@[simp] theorem State.modBlock_diePoison : (s.modBlock k f).diePoison = s.diePoison := rfl
@[simp] theorem State.modBlock_homes : (s.modBlock k f).homes = s.homes := rfl
@[simp] theorem State.modBlock_scrStamps : (s.modBlock k f).scrStamps = s.scrStamps := rfl
@[simp] theorem State.modBlock_views : (s.modBlock k f).views = s.views := rfl
@[simp] theorem State.modBlock_asids : (s.modBlock k f).asids = s.asids := rfl
@[simp] theorem State.modBlock_dieTlb : (s.modBlock k f).dieTlb = s.dieTlb := rfl
@[simp] theorem State.modBlock_walks : (s.modBlock k f).walks = s.walks := rfl
@[simp] theorem State.modBlock_cores : (s.modBlock k f).cores = s.cores := rfl
@[simp] theorem State.modBlock_launches : (s.modBlock k f).launches = s.launches := rfl
@[simp] theorem State.modBlock_blocks : (s.modBlock k f).blocks = s.blocks.modify k f := rfl
@[simp] theorem State.modBlock_waves : (s.modBlock k f).waves = s.waves := rfl
@[simp] theorem State.modBlock_programs : (s.modBlock k f).programs = s.programs := rfl
@[simp] theorem State.modBlock_residuals : (s.modBlock k f).residuals = s.residuals := rfl
@[simp] theorem State.modBlock_outbox : (s.modBlock k f).outbox = s.outbox := rfl
@[simp] theorem State.modBlock_remote : (s.modBlock k f).remote = s.remote := rfl
@[simp] theorem State.modBlock_grants : (s.modBlock k f).grants = s.grants := rfl
@[simp] theorem State.modBlock_colls : (s.modBlock k f).colls = s.colls := rfl
@[simp] theorem State.modBlock_early : (s.modBlock k f).early = s.early := rfl
@[simp] theorem State.modBlock_doms : (s.modBlock k f).doms = s.doms := rfl
@[simp] theorem State.modBlock_domRoots : (s.modBlock k f).domRoots = s.domRoots := rfl
@[simp] theorem State.modBlock_traps : (s.modBlock k f).traps = s.traps := rfl
@[simp] theorem State.modBlock_lost : (s.modBlock k f).lost = s.lost := rfl
@[simp] theorem State.modBlock_gens : (s.modBlock k f).gens = s.gens := rfl
@[simp] theorem State.modBlock_generation : (s.modBlock k f).generation = s.generation := rfl
@[simp] theorem State.modBlock_saved : (s.modBlock k f).saved = s.saved := rfl
@[simp] theorem State.modBlock_savedLaunches : (s.modBlock k f).savedLaunches = s.savedLaunches := rfl
@[simp] theorem State.modBlock_pool : (s.modBlock k f).pool = s.pool := rfl
@[simp] theorem State.modBlock_cur : (s.modBlock k f).cur = s.cur := rfl
@[simp] theorem State.modBlock_subj : (s.modBlock k f).subj = s.subj := rfl
@[simp] theorem State.modBlock_sched : (s.modBlock k f).sched = s.sched := rfl
@[simp] theorem State.modBlock_later : (s.modBlock k f).later = s.later := rfl
@[simp] theorem State.modBlock_hit : (s.modBlock k f).hit = s.hit := rfl
@[simp] theorem State.modBlock_pick : (s.modBlock k f).pick = s.pick := rfl
@[simp] theorem State.modBlock_seq : (s.modBlock k f).seq = s.seq := rfl
@[simp] theorem State.modBlock_ver : (s.modBlock k f).ver = s.ver := rfl
@[simp] theorem State.modBlock_takes : (s.modBlock k f).takes = s.takes := rfl
@[simp] theorem State.modBlock_unripe : (s.modBlock k f).unripe = s.unripe := rfl
@[simp] theorem State.modBlock_l2 : (s.modBlock k f).l2 = s.l2 := rfl
@[simp] theorem State.modBlock_past : (s.modBlock k f).past = s.past := rfl

end modBlock

/-! ## `modLaunch` -/

section modLaunch
variable (s : State) (k : Nat) (f : Launch → Launch)

@[simp] theorem State.modLaunch_powered : (s.modLaunch k f).powered = s.powered := rfl
@[simp] theorem State.modLaunch_now : (s.modLaunch k f).now = s.now := rfl
@[simp] theorem State.modLaunch_ctl : (s.modLaunch k f).ctl = s.ctl := rfl
@[simp] theorem State.modLaunch_mem : (s.modLaunch k f).mem = s.mem := rfl
@[simp] theorem State.modLaunch_poison : (s.modLaunch k f).poison = s.poison := rfl
@[simp] theorem State.modLaunch_diePoison : (s.modLaunch k f).diePoison = s.diePoison := rfl
@[simp] theorem State.modLaunch_homes : (s.modLaunch k f).homes = s.homes := rfl
@[simp] theorem State.modLaunch_scrStamps : (s.modLaunch k f).scrStamps = s.scrStamps := rfl
@[simp] theorem State.modLaunch_views : (s.modLaunch k f).views = s.views := rfl
@[simp] theorem State.modLaunch_asids : (s.modLaunch k f).asids = s.asids := rfl
@[simp] theorem State.modLaunch_dieTlb : (s.modLaunch k f).dieTlb = s.dieTlb := rfl
@[simp] theorem State.modLaunch_walks : (s.modLaunch k f).walks = s.walks := rfl
@[simp] theorem State.modLaunch_cores : (s.modLaunch k f).cores = s.cores := rfl
@[simp] theorem State.modLaunch_launches : (s.modLaunch k f).launches = s.launches.modify k f := rfl
@[simp] theorem State.modLaunch_blocks : (s.modLaunch k f).blocks = s.blocks := rfl
@[simp] theorem State.modLaunch_waves : (s.modLaunch k f).waves = s.waves := rfl
@[simp] theorem State.modLaunch_programs : (s.modLaunch k f).programs = s.programs := rfl
@[simp] theorem State.modLaunch_residuals : (s.modLaunch k f).residuals = s.residuals := rfl
@[simp] theorem State.modLaunch_outbox : (s.modLaunch k f).outbox = s.outbox := rfl
@[simp] theorem State.modLaunch_remote : (s.modLaunch k f).remote = s.remote := rfl
@[simp] theorem State.modLaunch_grants : (s.modLaunch k f).grants = s.grants := rfl
@[simp] theorem State.modLaunch_colls : (s.modLaunch k f).colls = s.colls := rfl
@[simp] theorem State.modLaunch_early : (s.modLaunch k f).early = s.early := rfl
@[simp] theorem State.modLaunch_doms : (s.modLaunch k f).doms = s.doms := rfl
@[simp] theorem State.modLaunch_domRoots : (s.modLaunch k f).domRoots = s.domRoots := rfl
@[simp] theorem State.modLaunch_traps : (s.modLaunch k f).traps = s.traps := rfl
@[simp] theorem State.modLaunch_lost : (s.modLaunch k f).lost = s.lost := rfl
@[simp] theorem State.modLaunch_gens : (s.modLaunch k f).gens = s.gens := rfl
@[simp] theorem State.modLaunch_generation : (s.modLaunch k f).generation = s.generation := rfl
@[simp] theorem State.modLaunch_saved : (s.modLaunch k f).saved = s.saved := rfl
@[simp] theorem State.modLaunch_savedLaunches : (s.modLaunch k f).savedLaunches = s.savedLaunches := rfl
@[simp] theorem State.modLaunch_pool : (s.modLaunch k f).pool = s.pool := rfl
@[simp] theorem State.modLaunch_cur : (s.modLaunch k f).cur = s.cur := rfl
@[simp] theorem State.modLaunch_subj : (s.modLaunch k f).subj = s.subj := rfl
@[simp] theorem State.modLaunch_sched : (s.modLaunch k f).sched = s.sched := rfl
@[simp] theorem State.modLaunch_later : (s.modLaunch k f).later = s.later := rfl
@[simp] theorem State.modLaunch_hit : (s.modLaunch k f).hit = s.hit := rfl
@[simp] theorem State.modLaunch_pick : (s.modLaunch k f).pick = s.pick := rfl
@[simp] theorem State.modLaunch_seq : (s.modLaunch k f).seq = s.seq := rfl
@[simp] theorem State.modLaunch_ver : (s.modLaunch k f).ver = s.ver := rfl
@[simp] theorem State.modLaunch_takes : (s.modLaunch k f).takes = s.takes := rfl
@[simp] theorem State.modLaunch_unripe : (s.modLaunch k f).unripe = s.unripe := rfl
@[simp] theorem State.modLaunch_l2 : (s.modLaunch k f).l2 = s.l2 := rfl
@[simp] theorem State.modLaunch_past : (s.modLaunch k f).past = s.past := rfl

end modLaunch

/-! ## `modProgram` -/

section modProgram
variable (s : State) (k : Nat) (f : Program → Program)

@[simp] theorem State.modProgram_powered : (s.modProgram k f).powered = s.powered := rfl
@[simp] theorem State.modProgram_now : (s.modProgram k f).now = s.now := rfl
@[simp] theorem State.modProgram_ctl : (s.modProgram k f).ctl = s.ctl := rfl
@[simp] theorem State.modProgram_mem : (s.modProgram k f).mem = s.mem := rfl
@[simp] theorem State.modProgram_poison : (s.modProgram k f).poison = s.poison := rfl
@[simp] theorem State.modProgram_diePoison : (s.modProgram k f).diePoison = s.diePoison := rfl
@[simp] theorem State.modProgram_homes : (s.modProgram k f).homes = s.homes := rfl
@[simp] theorem State.modProgram_scrStamps : (s.modProgram k f).scrStamps = s.scrStamps := rfl
@[simp] theorem State.modProgram_views : (s.modProgram k f).views = s.views := rfl
@[simp] theorem State.modProgram_asids : (s.modProgram k f).asids = s.asids := rfl
@[simp] theorem State.modProgram_dieTlb : (s.modProgram k f).dieTlb = s.dieTlb := rfl
@[simp] theorem State.modProgram_walks : (s.modProgram k f).walks = s.walks := rfl
@[simp] theorem State.modProgram_cores : (s.modProgram k f).cores = s.cores := rfl
@[simp] theorem State.modProgram_launches : (s.modProgram k f).launches = s.launches := rfl
@[simp] theorem State.modProgram_blocks : (s.modProgram k f).blocks = s.blocks := rfl
@[simp] theorem State.modProgram_waves : (s.modProgram k f).waves = s.waves := rfl
@[simp] theorem State.modProgram_programs : (s.modProgram k f).programs = s.programs.modify k f := rfl
@[simp] theorem State.modProgram_residuals : (s.modProgram k f).residuals = s.residuals := rfl
@[simp] theorem State.modProgram_outbox : (s.modProgram k f).outbox = s.outbox := rfl
@[simp] theorem State.modProgram_remote : (s.modProgram k f).remote = s.remote := rfl
@[simp] theorem State.modProgram_grants : (s.modProgram k f).grants = s.grants := rfl
@[simp] theorem State.modProgram_colls : (s.modProgram k f).colls = s.colls := rfl
@[simp] theorem State.modProgram_early : (s.modProgram k f).early = s.early := rfl
@[simp] theorem State.modProgram_doms : (s.modProgram k f).doms = s.doms := rfl
@[simp] theorem State.modProgram_domRoots : (s.modProgram k f).domRoots = s.domRoots := rfl
@[simp] theorem State.modProgram_traps : (s.modProgram k f).traps = s.traps := rfl
@[simp] theorem State.modProgram_lost : (s.modProgram k f).lost = s.lost := rfl
@[simp] theorem State.modProgram_gens : (s.modProgram k f).gens = s.gens := rfl
@[simp] theorem State.modProgram_generation : (s.modProgram k f).generation = s.generation := rfl
@[simp] theorem State.modProgram_saved : (s.modProgram k f).saved = s.saved := rfl
@[simp] theorem State.modProgram_savedLaunches : (s.modProgram k f).savedLaunches = s.savedLaunches := rfl
@[simp] theorem State.modProgram_pool : (s.modProgram k f).pool = s.pool := rfl
@[simp] theorem State.modProgram_cur : (s.modProgram k f).cur = s.cur := rfl
@[simp] theorem State.modProgram_subj : (s.modProgram k f).subj = s.subj := rfl
@[simp] theorem State.modProgram_sched : (s.modProgram k f).sched = s.sched := rfl
@[simp] theorem State.modProgram_later : (s.modProgram k f).later = s.later := rfl
@[simp] theorem State.modProgram_hit : (s.modProgram k f).hit = s.hit := rfl
@[simp] theorem State.modProgram_pick : (s.modProgram k f).pick = s.pick := rfl
@[simp] theorem State.modProgram_seq : (s.modProgram k f).seq = s.seq := rfl
@[simp] theorem State.modProgram_ver : (s.modProgram k f).ver = s.ver := rfl
@[simp] theorem State.modProgram_takes : (s.modProgram k f).takes = s.takes := rfl
@[simp] theorem State.modProgram_unripe : (s.modProgram k f).unripe = s.unripe := rfl
@[simp] theorem State.modProgram_l2 : (s.modProgram k f).l2 = s.l2 := rfl
@[simp] theorem State.modProgram_past : (s.modProgram k f).past = s.past := rfl

end modProgram

/-! ## `post` -/

section post
variable (s : State) (r : TrapRec)

@[simp] theorem State.post_powered : (s.post r).powered = s.powered := rfl
@[simp] theorem State.post_now : (s.post r).now = s.now := rfl
@[simp] theorem State.post_ctl : (s.post r).ctl = s.ctl := rfl
@[simp] theorem State.post_mem : (s.post r).mem = s.mem := rfl
@[simp] theorem State.post_poison : (s.post r).poison = s.poison := rfl
@[simp] theorem State.post_diePoison : (s.post r).diePoison = s.diePoison := rfl
@[simp] theorem State.post_homes : (s.post r).homes = s.homes := rfl
@[simp] theorem State.post_scrStamps : (s.post r).scrStamps = s.scrStamps := rfl
@[simp] theorem State.post_views : (s.post r).views = s.views := rfl
@[simp] theorem State.post_asids : (s.post r).asids = s.asids := rfl
@[simp] theorem State.post_dieTlb : (s.post r).dieTlb = s.dieTlb := rfl
@[simp] theorem State.post_walks : (s.post r).walks = s.walks := rfl
@[simp] theorem State.post_cores : (s.post r).cores = s.cores := rfl
@[simp] theorem State.post_launches : (s.post r).launches = s.launches := rfl
@[simp] theorem State.post_blocks : (s.post r).blocks = s.blocks := rfl
@[simp] theorem State.post_waves : (s.post r).waves = s.waves := rfl
@[simp] theorem State.post_programs : (s.post r).programs = s.programs := rfl
@[simp] theorem State.post_residuals : (s.post r).residuals = s.residuals := rfl
@[simp] theorem State.post_outbox : (s.post r).outbox = s.outbox := rfl
@[simp] theorem State.post_remote : (s.post r).remote = s.remote := rfl
@[simp] theorem State.post_grants : (s.post r).grants = s.grants := rfl
@[simp] theorem State.post_colls : (s.post r).colls = s.colls := rfl
@[simp] theorem State.post_early : (s.post r).early = s.early := rfl
@[simp] theorem State.post_doms : (s.post r).doms = s.doms := rfl
@[simp] theorem State.post_domRoots : (s.post r).domRoots = s.domRoots := rfl
@[simp] theorem State.post_traps : (s.post r).traps = s.traps ++ [r] := rfl
@[simp] theorem State.post_lost : (s.post r).lost = s.lost := rfl
@[simp] theorem State.post_gens : (s.post r).gens = s.gens := rfl
@[simp] theorem State.post_generation : (s.post r).generation = s.generation := rfl
@[simp] theorem State.post_saved : (s.post r).saved = s.saved := rfl
@[simp] theorem State.post_savedLaunches : (s.post r).savedLaunches = s.savedLaunches := rfl
@[simp] theorem State.post_pool : (s.post r).pool = s.pool := rfl
@[simp] theorem State.post_cur : (s.post r).cur = s.cur := rfl
@[simp] theorem State.post_subj : (s.post r).subj = s.subj := rfl
@[simp] theorem State.post_sched : (s.post r).sched = s.sched := rfl
@[simp] theorem State.post_later : (s.post r).later = s.later := rfl
@[simp] theorem State.post_hit : (s.post r).hit = s.hit := rfl
@[simp] theorem State.post_pick : (s.post r).pick = s.pick := rfl
@[simp] theorem State.post_seq : (s.post r).seq = s.seq := rfl
@[simp] theorem State.post_ver : (s.post r).ver = s.ver := rfl
@[simp] theorem State.post_takes : (s.post r).takes = s.takes := rfl
@[simp] theorem State.post_unripe : (s.post r).unripe = s.unripe := rfl
@[simp] theorem State.post_l2 : (s.post r).l2 = s.l2 := rfl
@[simp] theorem State.post_past : (s.post r).past = s.past := rfl

end post

/-! ## `emit` -/

section emit
variable (s : State) (p : Nat) (m : OutMsg)

@[simp] theorem State.emit_powered : (s.emit p m).powered = s.powered := rfl
@[simp] theorem State.emit_now : (s.emit p m).now = s.now := rfl
@[simp] theorem State.emit_ctl : (s.emit p m).ctl = s.ctl := rfl
@[simp] theorem State.emit_mem : (s.emit p m).mem = s.mem := rfl
@[simp] theorem State.emit_poison : (s.emit p m).poison = s.poison := rfl
@[simp] theorem State.emit_diePoison : (s.emit p m).diePoison = s.diePoison := rfl
@[simp] theorem State.emit_homes : (s.emit p m).homes = s.homes := rfl
@[simp] theorem State.emit_scrStamps : (s.emit p m).scrStamps = s.scrStamps := rfl
@[simp] theorem State.emit_views : (s.emit p m).views = s.views := rfl
@[simp] theorem State.emit_asids : (s.emit p m).asids = s.asids := rfl
@[simp] theorem State.emit_dieTlb : (s.emit p m).dieTlb = s.dieTlb := rfl
@[simp] theorem State.emit_walks : (s.emit p m).walks = s.walks := rfl
@[simp] theorem State.emit_cores : (s.emit p m).cores = s.cores := rfl
@[simp] theorem State.emit_launches : (s.emit p m).launches = s.launches := rfl
@[simp] theorem State.emit_blocks : (s.emit p m).blocks = s.blocks := rfl
@[simp] theorem State.emit_waves : (s.emit p m).waves = s.waves := rfl
@[simp] theorem State.emit_programs : (s.emit p m).programs = s.programs := rfl
@[simp] theorem State.emit_residuals : (s.emit p m).residuals = s.residuals := rfl
@[simp] theorem State.emit_outbox : (s.emit p m).outbox = s.outbox := rfl
@[simp] theorem State.emit_remote : (s.emit p m).remote = s.remote := rfl
@[simp] theorem State.emit_grants : (s.emit p m).grants = s.grants ++ [⟨s.portFor p, msgClass m.kind, m⟩] := rfl
@[simp] theorem State.emit_colls : (s.emit p m).colls = s.colls := rfl
@[simp] theorem State.emit_early : (s.emit p m).early = s.early := rfl
@[simp] theorem State.emit_doms : (s.emit p m).doms = s.doms := rfl
@[simp] theorem State.emit_domRoots : (s.emit p m).domRoots = s.domRoots := rfl
@[simp] theorem State.emit_traps : (s.emit p m).traps = s.traps := rfl
@[simp] theorem State.emit_lost : (s.emit p m).lost = s.lost := rfl
@[simp] theorem State.emit_gens : (s.emit p m).gens = s.gens := rfl
@[simp] theorem State.emit_generation : (s.emit p m).generation = s.generation := rfl
@[simp] theorem State.emit_saved : (s.emit p m).saved = s.saved := rfl
@[simp] theorem State.emit_savedLaunches : (s.emit p m).savedLaunches = s.savedLaunches := rfl
@[simp] theorem State.emit_pool : (s.emit p m).pool = s.pool := rfl
@[simp] theorem State.emit_cur : (s.emit p m).cur = s.cur := rfl
@[simp] theorem State.emit_subj : (s.emit p m).subj = s.subj := rfl
@[simp] theorem State.emit_sched : (s.emit p m).sched = s.sched := rfl
@[simp] theorem State.emit_later : (s.emit p m).later = s.later := rfl
@[simp] theorem State.emit_hit : (s.emit p m).hit = s.hit := rfl
@[simp] theorem State.emit_pick : (s.emit p m).pick = s.pick := rfl
@[simp] theorem State.emit_seq : (s.emit p m).seq = s.seq := rfl
@[simp] theorem State.emit_ver : (s.emit p m).ver = s.ver := rfl
@[simp] theorem State.emit_takes : (s.emit p m).takes = s.takes := rfl
@[simp] theorem State.emit_unripe : (s.emit p m).unripe = s.unripe := rfl
@[simp] theorem State.emit_l2 : (s.emit p m).l2 = s.l2 := rfl
@[simp] theorem State.emit_past : (s.emit p m).past = s.past := rfl

end emit

/-! ## `poke` -/

section poke
variable (s : State) (k : Option Nat) (a : Nat) (bs : List Byte)

@[simp] theorem State.poke_powered : (s.poke k a bs).powered = s.powered := rfl
@[simp] theorem State.poke_now : (s.poke k a bs).now = s.now := rfl
@[simp] theorem State.poke_ctl : (s.poke k a bs).ctl = s.ctl := rfl
@[simp] theorem State.poke_mem : (s.poke k a bs).mem = Memory.putAll s.mem a bs := rfl
@[simp] theorem State.poke_poison : (s.poke k a bs).poison = clearLines s.poison 64 a bs.length := rfl
@[simp] theorem State.poke_diePoison : (s.poke k a bs).diePoison = clearLines s.diePoison 4 a bs.length := rfl
@[simp] theorem State.poke_homes : (s.poke k a bs).homes = s.homes := rfl
@[simp] theorem State.poke_scrStamps : (s.poke k a bs).scrStamps = s.scrStamps := rfl
@[simp] theorem State.poke_views : (s.poke k a bs).views = viewsIn (s.l2Note a bs.length true) s.views := rfl
@[simp] theorem State.poke_asids : (s.poke k a bs).asids = s.asids := rfl
@[simp] theorem State.poke_dieTlb : (s.poke k a bs).dieTlb = s.dieTlb := rfl
@[simp] theorem State.poke_walks : (s.poke k a bs).walks = s.walks := rfl
@[simp] theorem State.poke_cores : (s.poke k a bs).cores = s.cores := rfl
@[simp] theorem State.poke_blocks : (s.poke k a bs).blocks = s.blocks := rfl
@[simp] theorem State.poke_waves : (s.poke k a bs).waves = s.waves := rfl
@[simp] theorem State.poke_programs : (s.poke k a bs).programs = s.programs := rfl
@[simp] theorem State.poke_residuals : (s.poke k a bs).residuals = s.residuals := rfl
@[simp] theorem State.poke_outbox : (s.poke k a bs).outbox = s.outbox := rfl
@[simp] theorem State.poke_remote : (s.poke k a bs).remote = s.remote := rfl
@[simp] theorem State.poke_grants : (s.poke k a bs).grants = s.grants := rfl
@[simp] theorem State.poke_colls : (s.poke k a bs).colls = s.colls := rfl
@[simp] theorem State.poke_early : (s.poke k a bs).early = s.early := rfl
@[simp] theorem State.poke_doms : (s.poke k a bs).doms = s.doms := rfl
@[simp] theorem State.poke_domRoots : (s.poke k a bs).domRoots = s.domRoots := rfl
@[simp] theorem State.poke_traps : (s.poke k a bs).traps = s.traps := rfl
@[simp] theorem State.poke_lost : (s.poke k a bs).lost = s.lost := rfl
@[simp] theorem State.poke_gens : (s.poke k a bs).gens = s.gens := rfl
@[simp] theorem State.poke_generation : (s.poke k a bs).generation = s.generation := rfl
@[simp] theorem State.poke_saved : (s.poke k a bs).saved = s.saved := rfl
@[simp] theorem State.poke_savedLaunches : (s.poke k a bs).savedLaunches = s.savedLaunches := rfl
@[simp] theorem State.poke_pool : (s.poke k a bs).pool = s.pool := rfl
@[simp] theorem State.poke_cur : (s.poke k a bs).cur = s.cur := rfl
@[simp] theorem State.poke_subj : (s.poke k a bs).subj = s.subj := rfl
@[simp] theorem State.poke_sched : (s.poke k a bs).sched = s.sched := rfl
@[simp] theorem State.poke_later : (s.poke k a bs).later = s.later := rfl
@[simp] theorem State.poke_hit : (s.poke k a bs).hit = s.hit := rfl
@[simp] theorem State.poke_pick : (s.poke k a bs).pick = s.pick := rfl
@[simp] theorem State.poke_seq : (s.poke k a bs).seq = s.seq := rfl
@[simp] theorem State.poke_ver : (s.poke k a bs).ver = s.ver := rfl
@[simp] theorem State.poke_takes : (s.poke k a bs).takes = s.takes := rfl
@[simp] theorem State.poke_unripe : (s.poke k a bs).unripe = s.unripe := rfl
@[simp] theorem State.poke_l2 : (s.poke k a bs).l2 = s.l2Note a bs.length true := rfl
@[simp] theorem State.poke_past : (s.poke k a bs).past = s.pastNote (Memory.putAll s.mem a bs) a bs.length := rfl

end poke

end Sys2Proof.Machine
end

