-- ==== Sys2Proof/Laws/Store.lean ====
section
/-! SUPPORT. What the operations on finite maps do: a read after a write, and the canonical form. -/

namespace Sys2Proof.Machine

variable {α : Type}

/-! ## Reading after writing -/

@[simp] theorem KMap.get?_nil (k : Nat) : KMap.get? ([] : KMap α) k = none := rfl

@[simp] theorem KMap.get?_set_self (m : KMap α) (k : Nat) (v : α) : (m.set k v).get? k = some v := by
  induction m with
  | nil => simp [KMap.set, KMap.get?]
  | cons e m ih =>
    obtain ⟨j, u⟩ := e
    unfold KMap.set
    by_cases h1 : k < j
    · simp [h1, KMap.get?]
    · by_cases h2 : k = j
      · simp [h2, KMap.get?]
      · simp [h1, h2, KMap.get?, ih]

theorem KMap.get?_set_ne (m : KMap α) {k j : Nat} (v : α) (h : j ≠ k) : (m.set k v).get? j = m.get? j := by
  induction m with
  | nil => simp [KMap.set, KMap.get?, h]
  | cons e m ih =>
    obtain ⟨i, u⟩ := e
    unfold KMap.set
    by_cases h1 : k < i
    · by_cases h3 : j < k
      · have h4 : j ≠ i := by omega
        have h5 : j < i := by omega
        simp [h1, KMap.get?, h, h3, h4, h5]
      · simp [h1, KMap.get?, h, h3]
    · by_cases h2 : k = i
      · subst h2
        simp [KMap.get?, h]
      · simp [h1, h2, KMap.get?, ih]

theorem KMap.get?_modify_self {m : KMap α} {k : Nat} {v : α} (f : α → α) (h : m.get? k = some v) :
    (m.modify k f).get? k = some (f v) := by
  simp [KMap.modify, h]

theorem KMap.get?_modify_ne (m : KMap α) {k j : Nat} (f : α → α) (h : j ≠ k) :
    (m.modify k f).get? j = m.get? j := by
  unfold KMap.modify
  cases m.get? k with
  | none => rfl
  | some v => exact m.get?_set_ne _ h

theorem KMap.get?_modify_none {m : KMap α} {k : Nat} (f : α → α) (h : m.get? k = none) : m.modify k f = m := by
  simp [KMap.modify, h]

@[simp] theorem KMap.getD_set_self (m : KMap α) (k : Nat) (v d : α) : (m.set k v).getD k d = v := by
  simp [KMap.getD]

theorem KMap.getD_set_ne (m : KMap α) {k j : Nat} (v d : α) (h : j ≠ k) : (m.set k v).getD j d = m.getD j d := by
  simp [KMap.getD, KMap.get?_set_ne m v h]

/-! ## Strictly rising keys -/

/-- The keys of a list of entries lie above a bound. -/
def KMap.over (b : Nat) (m : KMap α) : Bool := KMap.above (some b) m

theorem KMap.above_weaken {m : KMap α} {a b : Nat} (h : a ≤ b) (hm : KMap.above (some b) m = true) :
    KMap.above (some a) m = true := by
  cases m with
  | nil => rfl
  | cons e m =>
    obtain ⟨j, u⟩ := e
    simp only [KMap.above, Bool.and_eq_true, decide_eq_true_eq] at hm ⊢
    exact ⟨by omega, hm.2⟩

theorem KMap.get?_none_of_above {m : KMap α} {b k : Nat} (hm : KMap.above (some b) m = true) (hk : k ≤ b) :
    m.get? k = none := by
  cases m with
  | nil => rfl
  | cons e m =>
    obtain ⟨j, u⟩ := e
    simp only [KMap.above, Bool.and_eq_true, decide_eq_true_eq] at hm
    have h1 : k ≠ j := by omega
    have h2 : k < j := by omega
    simp [KMap.get?, h1, h2]

theorem KMap.above_set {m : KMap α} {b k : Nat} (v : α) (hm : KMap.above (some b) m = true) (hk : b < k) :
    KMap.above (some b) (m.set k v) = true := by
  induction m generalizing b with
  | nil => simp [KMap.set, KMap.above, hk]
  | cons e m ih =>
    obtain ⟨j, u⟩ := e
    simp only [KMap.above, Bool.and_eq_true, decide_eq_true_eq] at hm
    unfold KMap.set
    by_cases h1 : k < j
    · simp [h1, KMap.above, hk, hm.2]
    · by_cases h2 : k = j
      · subst h2
        simp [KMap.above, hk, hm.2]
      · have h3 : j < k := by omega
        simp [h1, h2, KMap.above, hm.1, ih hm.2 h3]

theorem KMap.above_erase {m : KMap α} {b k : Nat} (hm : KMap.above (some b) m = true) :
    KMap.above (some b) (m.erase k) = true := by
  induction m generalizing b with
  | nil => rfl
  | cons e m ih =>
    obtain ⟨j, u⟩ := e
    simp only [KMap.above, Bool.and_eq_true, decide_eq_true_eq] at hm
    unfold KMap.erase
    by_cases h1 : k < j
    · simp [h1, KMap.above, hm.1, hm.2]
    · by_cases h2 : k = j
      · subst h2
        have h4 : KMap.above (some b) m = true := KMap.above_weaken (by omega) hm.2
        simp [h4]
      · simp [h1, h2, KMap.above, hm.1, ih hm.2]

theorem KMap.wf_set {m : KMap α} {k : Nat} (v : α) (hm : m.wf = true) : (m.set k v).wf = true := by
  cases m with
  | nil => simp [KMap.wf, KMap.set, KMap.above]
  | cons e m =>
    obtain ⟨j, u⟩ := e
    simp only [KMap.wf, KMap.above] at hm
    unfold KMap.wf KMap.set
    by_cases h1 : k < j
    · simp [h1, KMap.above, hm]
    · by_cases h2 : k = j
      · subst h2
        simp [KMap.above, hm]
      · simp [h1, h2, KMap.above, KMap.above_set v hm (by omega : j < k)]

theorem KMap.wf_erase {m : KMap α} {k : Nat} (hm : m.wf = true) : (m.erase k).wf = true := by
  cases m with
  | nil => rfl
  | cons e m =>
    obtain ⟨j, u⟩ := e
    simp only [KMap.wf, KMap.above] at hm
    unfold KMap.wf KMap.erase
    by_cases h1 : k < j
    · simp [h1, KMap.above, hm]
    · by_cases h2 : k = j
      · subst h2
        cases m with
        | nil => simp [KMap.above]
        | cons e m =>
          obtain ⟨i, w⟩ := e
          simp only [KMap.above, Bool.and_eq_true, decide_eq_true_eq] at hm
          simp [KMap.above, hm.2]
      · simp [h1, h2, KMap.above, KMap.above_erase hm]

theorem KMap.get?_erase_of_above {m : KMap α} {b k j : Nat} (hm : KMap.above (some b) m = true) :
    (m.erase k).get? j = if j = k then none else m.get? j := by
  induction m generalizing b with
  | nil => simp [KMap.erase, KMap.get?]
  | cons e m ih =>
    obtain ⟨i, u⟩ := e
    simp only [KMap.above, Bool.and_eq_true, decide_eq_true_eq] at hm
    unfold KMap.erase
    by_cases h1 : k < i
    · by_cases h3 : j = k
      · subst h3
        have h4 : j ≠ i := by omega
        simp [h1, KMap.get?, h4]
      · simp [h1, h3]
    · by_cases h2 : k = i
      · subst h2
        by_cases h3 : j = k
        · subst h3
          simp [KMap.get?_none_of_above hm.2 (Nat.le_refl j)]
        · by_cases h4 : j < k
          · simp [h3, KMap.get?, h4, KMap.get?_none_of_above hm.2 (Nat.le_of_lt h4)]
          · simp [h3, KMap.get?, h4]
      · by_cases h3 : j = k
        · subst h3
          have h5 : ¬ j < i := by omega
          simp [h5, h2, KMap.get?, ih hm.2]
        · by_cases h6 : j = i
          · simp [h1, h2, KMap.get?, h6]
            intro h7
            exact absurd h7.symm h2
          · by_cases h7 : j < i
            · simp [h1, h2, h3, KMap.get?, h6, h7]
            · simp [h1, h2, h3, KMap.get?, h6, h7, ih hm.2]

theorem KMap.get?_erase {m : KMap α} {k j : Nat} (hm : m.wf = true) :
    (m.erase k).get? j = if j = k then none else m.get? j := by
  cases m with
  | nil => simp [KMap.erase, KMap.get?]
  | cons e m =>
    obtain ⟨i, u⟩ := e
    simp only [KMap.wf, KMap.above] at hm
    unfold KMap.erase
    by_cases h1 : k < i
    · by_cases h3 : j = k
      · subst h3
        have h4 : j ≠ i := by omega
        simp [h1, KMap.get?, h4]
      · simp [h1, h3]
    · by_cases h2 : k = i
      · subst h2
        by_cases h3 : j = k
        · subst h3
          simp [KMap.get?_none_of_above hm (Nat.le_refl j)]
        · by_cases h4 : j < k
          · simp [h3, KMap.get?, h4, KMap.get?_none_of_above hm (Nat.le_of_lt h4)]
          · simp [h3, KMap.get?, h4]
      · by_cases h3 : j = k
        · subst h3
          have h5 : ¬ j < i := by omega
          simp [h5, h2, KMap.get?, KMap.get?_erase_of_above hm]
        · by_cases h6 : j = i
          · simp [h1, h2, KMap.get?, h6]
            intro h7
            exact absurd h7.symm h2
          · by_cases h7 : j < i
            · simp [h1, h2, h3, KMap.get?, h6, h7]
            · simp [h1, h2, h3, KMap.get?, h6, h7, KMap.get?_erase_of_above hm]

/-! ## The canonical form -/

variable [DecidableEq α]

theorem KMap.lean_set {d : α} {m : KMap α} {k : Nat} {v : α} (hm : m.lean d = true) (hv : v ≠ d) :
    (m.set k v).lean d = true := by
  induction m with
  | nil => simp [KMap.set, KMap.lean, hv]
  | cons e m ih =>
    obtain ⟨j, u⟩ := e
    simp only [KMap.lean, List.all_cons, Bool.and_eq_true, decide_eq_true_eq] at hm ih ⊢
    unfold KMap.set
    by_cases h1 : k < j
    · simp [h1, hv, hm.1]
      simpa using hm.2
    · by_cases h2 : k = j
      · subst h2
        simp [hv]
        simpa using hm.2
      · simp [h1, h2, hm.1]
        simpa using ih hm.2

theorem KMap.lean_erase {d : α} {m : KMap α} {k : Nat} (hm : m.lean d = true) : (m.erase k).lean d = true := by
  induction m with
  | nil => rfl
  | cons e m ih =>
    obtain ⟨j, u⟩ := e
    simp only [KMap.lean, List.all_cons, Bool.and_eq_true, decide_eq_true_eq] at hm ih ⊢
    unfold KMap.erase
    by_cases h1 : k < j
    · simp [h1, hm.1]
      simpa using hm.2
    · by_cases h2 : k = j
      · subst h2
        simpa using hm.2
      · simp [h1, h2, hm.1]
        simpa using ih hm.2

/-- A write keeps the canonical form. -/
theorem KMap.canon_put {d : α} {m : KMap α} (k : Nat) (v : α) (hm : m.canon d = true) :
    (m.put d k v).canon d = true := by
  simp only [KMap.canon, Bool.and_eq_true] at hm ⊢
  unfold KMap.put
  by_cases h : v = d
  · simp [h, KMap.wf_erase hm.1, KMap.lean_erase hm.2]
  · simp [h, KMap.wf_set v hm.1, KMap.lean_set hm.2 h]

@[simp] theorem KMap.canon_nil (d : α) : KMap.canon d ([] : KMap α) = true := rfl

/-- A read after a write, on a map whose keys rise. -/
theorem KMap.getD_put {d : α} {m : KMap α} (k j : Nat) (v : α) (hm : m.wf = true) :
    (m.put d k v).getD j d = if j = k then v else m.getD j d := by
  unfold KMap.put KMap.getD
  by_cases hv : v = d
  · simp only [hv, if_true, KMap.get?_erase hm]
    by_cases h : j = k <;> simp [h]
  · simp only [hv, if_false]
    by_cases h : j = k
    · subst h
      simp
    · simp [h, KMap.get?_set_ne m v h]

end Sys2Proof.Machine
end

