-- ==== Sys2Proof/Laws/Exception.lean ====
section
/-! SUPPORT. What taking an exception does, and what it leaves alone (R371, R376, R378, R380, R382). -/

namespace Sys2Proof.Machine

open Sys2Proof

/-! ## Halts -/

/-- A halting cause in a block of a run, or in a free-mode relaxation for a cause that is no error of data (R371): the
wave stops, its block begins to halt, and a record is queued. -/
theorem State.takeHaltAs_block {s : State} {key : Nat} {w : Wave} {b : Block} {l : Launch}
    (hw : s.waves.get? key = some w) (hb : s.blocks.get? w.block = some b) (hl : s.launches.get? b.launch = some l)
    (mk : TrapRec → TrapRec) (cause : Nat) (addr : DWord) (mask : Mask) (detail : Word)
    (hk : (l.standing.isSome && (l.dqm || cause == 0x17 || cause == 0x41)) = false) :
    s.takeHaltAs mk key cause addr mask detail =
      ((s.modWave key fun w => { w.dropWord with halted := true, trapped := (w.halted && w.trapped) || cause == 0x08 }).modBlock w.block
        fun b => { b with halt := some (b.halt.getD ⟨cause, key, false, false⟩) }).post
          (mk { waveRec l key w b cause addr mask detail with halt := true }) := by
  simp only [State.takeHaltAs, hw, hb, hl, hk]
  rfl

/-- A halting cause that kills a relaxation (R271, R370): no record is queued, and the block is marked. -/
theorem State.takeHaltAs_kill {s : State} {key : Nat} {w : Wave} {b : Block} {l : Launch}
    (hw : s.waves.get? key = some w) (hb : s.blocks.get? w.block = some b) (hl : s.launches.get? b.launch = some l)
    (mk : TrapRec → TrapRec) (cause : Nat) (addr : DWord) (mask : Mask) (detail : Word)
    (hk : (l.standing.isSome && (l.dqm || cause == 0x17 || cause == 0x41)) = true) :
    s.takeHaltAs mk key cause addr mask detail =
      (s.modWave key fun w => { w.dropWord with halted := true, trapped := false, qend := true }).modBlock w.block
        fun b => { b with kill := some (b.kill.getD cause) } := by
  simp only [State.takeHaltAs, hw, hb, hl, hk]
  rfl

section frames
variable (s : State) (mk : TrapRec → TrapRec) (key cause lane : Nat) (addr : DWord) (mask : Mask) (detail : Word)

/-- A halt is one of three states: nothing has changed, a wave and its block have, or a record is queued too. -/
theorem State.takeHaltAs_cases : ∃ f g rs, s.takeHaltAs mk key cause addr mask detail =
    { s with waves := f, blocks := g, traps := s.traps ++ rs } := by
  unfold State.takeHaltAs
  split
  · exact ⟨s.waves, s.blocks, [], by simp⟩
  · split
    · exact ⟨s.waves, s.blocks, [], by simp⟩
    · split
      · exact ⟨s.waves, s.blocks, [], by simp⟩
      · split
        · exact ⟨_, _, [], by rw [List.append_nil]; rfl⟩
        · exact ⟨_, _, [_], rfl⟩

@[simp] theorem State.takeHalt_mem : (s.takeHalt key cause addr mask detail).mem = s.mem := by
  obtain ⟨f, g, rs, h⟩ := s.takeHaltAs_cases id key cause addr mask detail
  rw [State.takeHalt, h]

@[simp] theorem State.takeHalt_ctl : (s.takeHalt key cause addr mask detail).ctl = s.ctl := by
  obtain ⟨f, g, rs, h⟩ := s.takeHaltAs_cases id key cause addr mask detail
  rw [State.takeHalt, h]

@[simp] theorem State.takeHalt_cores : (s.takeHalt key cause addr mask detail).cores = s.cores := by
  obtain ⟨f, g, rs, h⟩ := s.takeHaltAs_cases id key cause addr mask detail
  rw [State.takeHalt, h]

@[simp] theorem State.takeHalt_launches : (s.takeHalt key cause addr mask detail).launches = s.launches := by
  obtain ⟨f, g, rs, h⟩ := s.takeHaltAs_cases id key cause addr mask detail
  rw [State.takeHalt, h]

@[simp] theorem State.takeHalt_programs : (s.takeHalt key cause addr mask detail).programs = s.programs := by
  obtain ⟨f, g, rs, h⟩ := s.takeHaltAs_cases id key cause addr mask detail
  rw [State.takeHalt, h]

@[simp] theorem State.takeHalt_grants : (s.takeHalt key cause addr mask detail).grants = s.grants := by
  obtain ⟨f, g, rs, h⟩ := s.takeHaltAs_cases id key cause addr mask detail
  rw [State.takeHalt, h]

/-- A park changes one wave and queues one record, or nothing (R378). -/
theorem State.takePark_cases : ∃ f rs, s.takePark key addr mask lane =
    { s with waves := f, traps := s.traps ++ rs } := by
  unfold State.takePark
  split
  · exact ⟨s.waves, [], by simp⟩
  · split
    · exact ⟨s.waves, [], by simp⟩
    · split
      · exact ⟨s.waves, [], by simp⟩
      · exact ⟨_, [_], rfl⟩

@[simp] theorem State.takePark_mem : (s.takePark key addr mask lane).mem = s.mem := by
  obtain ⟨f, rs, h⟩ := s.takePark_cases key lane addr mask
  rw [h]

@[simp] theorem State.takePark_blocks : (s.takePark key addr mask lane).blocks = s.blocks := by
  obtain ⟨f, rs, h⟩ := s.takePark_cases key lane addr mask
  rw [h]

end frames

/-! ## Timer traps -/

/-- A timer trap through a handler (R380): the program counter, the stack's depth and the level are saved, and the wave
is in supervisor state at the handler. -/
theorem State.takeTimer_handler {s : State} {key : Nat} {w : Wave} {b : Block} {l : Launch} {pc : DWord}
    (hw : s.waves.get? key = some w) (hb : s.blocks.get? w.block = some b) (hl : s.launches.get? b.launch = some l)
    (hh : s.handler l.asid = some pc) :
    (s.takeTimer key).waves.get? key = some { w with
      wtcmp := 0, sup := true, tepc := w.pc, tcause := 0x09, tdepth := w.stack.length, tlevel := w.level, level := 7,
      pc := pc } := by
  have h1 : (s.modWave key fun w => { w with wtcmp := 0 }).handler l.asid = some pc := hh
  have h2 := KMap.get?_modify_self (fun w : Wave => { w with wtcmp := 0 }) hw
  have h3 := KMap.get?_modify_self (fun w : Wave => { w with
    sup := true, tepc := w.pc, tcause := 0x09, tdepth := w.stack.length, tlevel := w.level, level := 7, pc := pc }) h2
  simp only [State.takeTimer, hw, hb, hl, h1]
  exact h3

/-- The return undoes what the entry did to the program counter, the level and the state. -/
theorem Wave.trapReturn_entry (w : Wave) (pc : DWord) (h : w.pc &&& 0x01FFFFFFFFFFFFFC = w.pc) (hs : w.sup = false) :
    ({ w with sup := true, tepc := w.pc, tlevel := w.level, level := 7, pc := pc } : Wave).trapReturn =
      { w with tepc := w.pc, tlevel := w.level } := by
  simp only [Wave.trapReturn, h, ← hs]

/-! ## Retirement -/

section retire
variable (w : Wave) (l : Launch) (now : Nat) (x : Series)

@[simp] theorem Wave.retire_retired : (w.retire l now x).retired = (w.retired + 1) % 2 ^ 48 := by
  cases x <;> rfl

@[simp] theorem Wave.retire_pc : (w.retire l now x).pc = w.pc := by
  cases x <;> rfl

@[simp] theorem Wave.retire_regs : (w.retire l now x).regs = w.regs := by
  cases x <;> rfl

@[simp] theorem Wave.retire_active : (w.retire l now x).active = w.active := by
  cases x <;> rfl

@[simp] theorem Wave.retire_stack : (w.retire l now x).stack = w.stack := by
  cases x <;> rfl

@[simp] theorem Wave.retire_blocked : (w.retire l now x).blocked = none := by
  cases x <;> rfl

@[simp] theorem Wave.retire_outst : (w.retire l now x).outst = w.outst := by
  cases x <;> rfl

end retire

end Sys2Proof.Machine
end

