-- ==== Sys2Proof/Laws/Memory.lean ====
section
/-! SUPPORT. What the operations on memory and on the byte memories of a block do: the bytes that stand there
afterwards, and the canonical form. -/

namespace Sys2Proof.Machine

open Sys2Proof

/-! ## Memory -/

/-- A write of one byte keeps the canonical form. -/
theorem Memory.wf_put {m : List Host.Cell} (a : Nat) (b : Byte) (h : Memory.wf m = true) :
    Memory.wf (Memory.put m a b) = true := KMap.canon_put a b h

/-- A write of bytes keeps the canonical form. -/
theorem Memory.wf_putAll {m : List Host.Cell} (a : Nat) (bs : List Byte) (h : Memory.wf m = true) :
    Memory.wf (Memory.putAll m a bs) = true := by
  induction bs generalizing m a with
  | nil => exact h
  | cons b bs ih => exact ih (a + 1) (Memory.wf_put a b h)

theorem Memory.rises {m : List Host.Cell} (h : Memory.wf m = true) : KMap.wf m = true := by
  simp only [Memory.wf, KMap.canon, Bool.and_eq_true] at h
  exact h.1

/-- A byte read after bytes were written. -/
theorem Memory.getD_putAll {m : List Host.Cell} (a x : Nat) (bs : List Byte) (h : Memory.wf m = true) :
    KMap.getD (Memory.putAll m a bs) x memDefault =
      if a ≤ x ∧ x < a + bs.length then bs.getD (x - a) 0 else KMap.getD m x memDefault := by
  induction bs generalizing m a with
  | nil =>
    simp [Memory.putAll]
  | cons b bs ih =>
    unfold Memory.putAll
    rw [ih (a + 1) (Memory.wf_put a b h), Memory.put, KMap.getD_put a x b (Memory.rises h)]
    by_cases hx : x = a
    · subst hx
      simp
    · by_cases hr : a + 1 ≤ x ∧ x < a + 1 + bs.length
      · have h2 : a ≤ x ∧ x < a + (b :: bs).length := by simp only [List.length_cons]; omega
        obtain ⟨d, hd⟩ : ∃ d, x - a = d + 1 := ⟨x - a - 1, by omega⟩
        have h3 : x - (a + 1) = d := by omega
        rw [if_pos hr, if_pos h2, hd, h3, List.getD_cons_succ]
      · have h2 : ¬ (a ≤ x ∧ x < a + (b :: bs).length) := by simp only [List.length_cons]; omega
        rw [if_neg hr, if_neg h2, if_neg hx]

/-- A write of memory keeps its canonical form. -/
theorem State.memCanon_poke {s : State} (k : Option Nat) (a : Nat) (bs : List Byte) (h : s.MemCanon) :
    (s.poke k a bs).MemCanon := Memory.wf_putAll a bs h

/-- What a byte of memory reads as after a write. -/
theorem State.rawByte_poke {s : State} (k : Option Nat) (a x : Nat) (bs : List Byte) (h : s.MemCanon) :
    (s.poke k a bs).rawByte x = if a ≤ x ∧ x < a + bs.length then bs.getD (x - a) 0 else s.rawByte x :=
  Memory.getD_putAll a x bs h

/-- Memory at reset is in canonical form. -/
theorem State.memCanon_reset : State.reset.MemCanon := rfl

/-! ## The byte memories of a block -/

/-- A write of bytes keeps the canonical form of a byte memory. -/
theorem putBytes_canon {m : KMap Byte} (a : Nat) (bs : List Byte) (h : KMap.canon 0 m = true) :
    KMap.canon 0 (putBytes m a bs) = true := by
  induction bs generalizing m a with
  | nil => exact h
  | cons b bs ih => exact ih (a + 1) (KMap.canon_put a b h)

/-- A byte read after bytes were written. -/
theorem putBytes_getD {m : KMap Byte} (a x : Nat) (bs : List Byte) (h : KMap.canon 0 m = true) :
    (putBytes m a bs).getD x 0 = if a ≤ x ∧ x < a + bs.length then bs.getD (x - a) 0 else m.getD x 0 := by
  induction bs generalizing m a with
  | nil =>
    simp [putBytes]
  | cons b bs ih =>
    have hw : m.wf = true := by
      simp only [KMap.canon, Bool.and_eq_true] at h
      exact h.1
    unfold putBytes
    rw [ih (a + 1) (KMap.canon_put a b h), KMap.getD_put a x b hw]
    by_cases hx : x = a
    · subst hx
      simp
    · by_cases hr : a + 1 ≤ x ∧ x < a + 1 + bs.length
      · have h2 : a ≤ x ∧ x < a + (b :: bs).length := by simp only [List.length_cons]; omega
        obtain ⟨d, hd⟩ : ∃ d, x - a = d + 1 := ⟨x - a - 1, by omega⟩
        have h3 : x - (a + 1) = d := by omega
        rw [if_pos hr, if_pos h2, hd, h3, List.getD_cons_succ]
      · have h2 : ¬ (a ≤ x ∧ x < a + (b :: bs).length) := by simp only [List.length_cons]; omega
        rw [if_neg hr, if_neg h2, if_neg hx]

/-- A write of a block's scratchpad keeps the canonical forms of the block. -/
theorem Block.canon_pokeScr {b : Block} (off : Nat) (bs : List Byte) (h : b.Canon) : (b.pokeScr off bs).Canon :=
  ⟨putBytes_canon off bs h.1, h.2.1, h.2.2⟩

/-- Updates of a wave, block, launch or core keep the keys of the tables rising. -/
theorem KMap.wf_modify {α : Type} {m : KMap α} (k : Nat) (f : α → α) (h : m.wf = true) : (m.modify k f).wf = true := by
  unfold KMap.modify
  cases m.get? k with
  | none => exact h
  | some v => exact KMap.wf_set _ h

theorem State.tablesRise_modWave {s : State} (k : Nat) (f : Wave → Wave) (h : s.TablesRise) :
    (s.modWave k f).TablesRise := ⟨h.1, KMap.wf_modify k f h.2.1, h.2.2.1, h.2.2.2⟩

theorem State.tablesRise_modBlock {s : State} (k : Nat) (f : Block → Block) (h : s.TablesRise) :
    (s.modBlock k f).TablesRise := ⟨h.1, h.2.1, KMap.wf_modify k f h.2.2.1, h.2.2.2⟩

theorem State.tablesRise_modLaunch {s : State} (k : Nat) (f : Launch → Launch) (h : s.TablesRise) :
    (s.modLaunch k f).TablesRise := ⟨h.1, h.2.1, h.2.2.1, KMap.wf_modify k f h.2.2.2⟩

theorem KMap.wf_put {α : Type} [DecidableEq α] {d : α} {m : KMap α} (k : Nat) (v : α) (h : m.wf = true) :
    (m.put d k v).wf = true := by
  unfold KMap.put
  by_cases hv : v = d
  · simp [hv, KMap.wf_erase h]
  · simp [hv, KMap.wf_set v h]

theorem State.tablesRise_modCore {s : State} (c : Nat) (f : Core → Core) (h : s.TablesRise) :
    (s.modCore c f).TablesRise := ⟨KMap.wf_put c _ h.1, h.2.1, h.2.2.1, h.2.2.2⟩

/-- A core after it was changed; the others are as they were. -/
theorem State.core_modCore {s : State} (c d : Nat) (f : Core → Core) (h : KMap.wf s.cores = true) :
    (s.modCore c f).core d = if d = c then f (s.core c) else s.core d :=
  KMap.getD_put c d (f (s.core c)) h

end Sys2Proof.Machine
end

