-- ==== Sys2Proof/Laws/Image.lean ====
section
/-! SUPPORT. Lengths of block images and checkpoints: an image is as long as its header says (R386), and the parts of a
section are as long as R387 says; and reading an image, or a
sealed buffer in memory, gives back what was written. -/

namespace Sys2Proof.Machine

open Sys2Proof

theorem length_natLe (n x : Nat) : (natLe n x).length = n := by
  induction n generalizing x with
  | zero => rfl
  | succ n ih => simp [natLe, ih]

theorem length_flatMap_const {α : Type} (xs : List α) (f : α → List Byte) (n : Nat) (h : ∀ x, (f x).length = n) :
    (xs.flatMap f).length = xs.length * n := by
  induction xs with
  | nil => simp
  | cons x xs ih => simp [ih, h, Nat.add_mul]; omega

theorem length_vecBytes (v : LaneVec) : (vecBytes v).length = 256 :=
  (length_flatMap_const _ _ 4 fun _ => length_natLe _ _).trans (by simp)

theorem length_padTo {n : Nat} {bs : List Byte} (h : bs.length ≤ n) : (padTo n bs).length = n := by
  simp [padTo]; omega

theorem length_sealed (bs : List Byte) : (sealed bs).length = roundUpTo (bs.length + 4) 64 := by
  have h : bs.length ≤ roundUpTo (bs.length + 4) 64 - 4 := by unfold roundUpTo; omega
  have h4 : 4 ≤ roundUpTo (bs.length + 4) 64 := by unfold roundUpTo; omega
  simp only [sealed, List.length_append, length_padTo h, length_natLe]
  omega

theorem length_directory (off : Nat) (xs : List Section) : (directory off xs).length = 16 * xs.length := by
  induction xs generalizing off with
  | nil => rfl
  | cons x xs ih => obtain ⟨t, i, bs⟩ := x; simp [directory, length_natLe, ih]; omega

theorem length_sections (xs : List Section) : (xs.flatMap fun x => x.2.2).length = (xs.map fun x => x.2.2.length).sum := by
  induction xs with
  | nil => rfl
  | cons x xs ih => simp [ih]

/-- An image is as long as its header says. -/
theorem Saved.length_image (v : Saved) (l : Launch) (gen : DWord) :
    (v.image l gen).length = imageLength (v.sections gen.toNat) := by
  unfold Saved.image imageLength
  simp only [length_sealed, List.length_append, length_natLe, length_directory, length_sections]

/-- The section of a wave whose stacks are empty: 576 bytes, and 264 for each of its registers and six more (R387). -/
theorem length_waveBytes (b : Block) (w : Wave) (h1 : w.stack = []) (h2 : w.rets = []) :
    (waveBytes b w).length = 576 + (imageSlots w.regCount).length * 264 := by
  have p1 := length_padTo (n := 256) (bs := []) (Nat.zero_le _)
  have p2 := length_padTo (n := 64) (bs := []) (Nat.zero_le _)
  have q1 := length_flatMap_const (imageSlots w.regCount) (fun k => vecBytes (w.slotVec k)) 256 fun _ => length_vecBytes _
  have q2 := length_flatMap_const (imageSlots w.regCount) (fun k => natLe 8 (w.poison.getD k 0).toNat) 8
    fun _ => length_natLe _ _
  unfold waveBytes Wave.mxBytes
  rw [h1, h2]
  simp only [List.length_append, length_natLe]
  simp only [List.reverse_nil, List.flatMap_nil, p1, p2, q1, q2, List.length_map, List.length_range]
  omega

/-! ## Reading back -/

theorem leNat_natLe (n x : Nat) : leNat (natLe n x) = x % 256 ^ n := by
  induction n generalizing x with
  | zero => simp [natLe, leNat, Nat.mod_one]
  | succ n ih =>
    have h : (BitVec.ofNat 8 x).toNat = x % 256 := by simp
    rw [natLe, leNat, ih, h, Nat.pow_succ, Nat.mul_comm (256 ^ n), Nat.mod_mul]

/-- A number that stands at an offset. -/
theorem leAt_mid (xs ys : List Byte) (off n x : Nat) (h : xs.length = off) (hx : x < 256 ^ n) :
    leAt (xs ++ (natLe n x ++ ys)) off n = x := by
  subst h
  have e : (natLe n x ++ ys).take n = natLe n x := by
    rw [List.take_append_of_le_length (length_natLe n x).ge, List.take_of_length_le (length_natLe n x).le]
  rw [leAt, List.drop_left, e, leNat_natLe, Nat.mod_eq_of_lt hx]

/-- A number does not see what stands behind it. -/
theorem leAt_left (xs ys : List Byte) (off n : Nat) (h : off + n ≤ xs.length) : leAt (xs ++ ys) off n = leAt xs off n := by
  rw [leAt, leAt, List.drop_append_of_le_length (by omega), List.take_append_of_le_length (by simp; omega)]

/-- A number behind a prefix. -/
theorem leAt_right (xs ys : List Byte) (off n : Nat) : leAt (xs ++ ys) (xs.length + off) n = leAt ys off n := by
  rw [leAt, leAt, List.drop_append, List.drop_of_length_le (by omega), List.nil_append, Nat.add_sub_cancel_left]

/-- A sealed buffer begins with the bytes it seals, and its last 4 bytes are the CRC of all before. -/
theorem sealed_split (bs : List Byte) : ∃ pad, sealed bs = bs ++ pad ∧
    leAt (sealed bs) ((sealed bs).length - 4) 4 = (crc32c ((sealed bs).take ((sealed bs).length - 4))).toNat := by
  have h : bs.length ≤ roundUpTo (bs.length + 4) 64 - 4 := by unfold roundUpTo; omega
  have hl := length_padTo h
  refine ⟨_, by rw [sealed, padTo, List.append_assoc], ?_⟩
  have e : (sealed bs).length - 4 = (padTo (roundUpTo (bs.length + 4) 64 - 4) bs).length := by
    simp only [sealed, List.length_append, length_natLe]; omega
  have t : (sealed bs).take (padTo (roundUpTo (bs.length + 4) 64 - 4) bs).length =
      padTo (roundUpTo (bs.length + 4) 64 - 4) bs := by rw [sealed, List.take_left]
  rw [e, t]
  have hm := leAt_mid (padTo (roundUpTo (bs.length + 4) 64 - 4) bs) [] _ 4
    (crc32c (padTo (roundUpTo (bs.length + 4) 64 - 4) bs)).toNat rfl (BitVec.isLt _)
  rwa [List.append_nil] at hm

theorem bytesFrom_eq {rd : Nat → Byte} {a : Nat} {bs : List Byte} (h : ∀ i, i < bs.length → rd (a + i) = bs.getD i 0) :
    bytesFrom rd a bs.length = bs := by
  refine List.ext_getElem (by simp [bytesFrom]) fun i h1 h2 => ?_
  have e : bs.getD i 0 = bs[i] := by simp [List.getD_eq_getElem?_getD, h2]
  simp only [bytesFrom, List.getElem_map, List.getElem_range]
  rw [h i h2, e]

theorem bytesFrom_part {rd : Nat → Byte} {a off n : Nat} {bs : List Byte}
    (h : ∀ i, i < bs.length → rd (a + i) = bs.getD i 0) (hn : off + n ≤ bs.length) :
    leNat (bytesFrom rd (a + off) n) = leAt bs off n := by
  have hl : ((bs.drop off).take n).length = n := by simp; omega
  have e : bytesFrom rd (a + off) n = (bs.drop off).take n := by
    have := bytesFrom_eq (rd := rd) (a := a + off) (bs := (bs.drop off).take n) fun i hi => by
      rw [hl] at hi
      rw [Nat.add_assoc, h (off + i) (by omega)]
      simp [List.getD_eq_getElem?_getD, hi]
    rwa [hl] at this
  rw [e, leAt]

/-- What was sealed and stands in memory is read back, when its version and its length stand where the reader looks. -/
theorem State.unseal_sealed {s : State} {j : PeOp} {version at_ n : Nat} {bs : List Byte}
    (h : ∀ i, i < (sealed bs).length → s.homeByte (j.addr.toNat + i) = (sealed bs).getD i 0)
    (h0 : leAt (sealed bs) 0 4 = version) (h1 : leAt (sealed bs) at_ n = (sealed bs).length)
    (ha : at_ + n ≤ (sealed bs).length) (hb : 64 ≤ bs.length) (hl : (sealed bs).length ≤ j.len.toNat)
    (hp : s.poisoned (.mem j.addr.toNat) (sealed bs).length = false) :
    s.unseal j version at_ n = some (sealed bs) := by
  have hlen := length_sealed bs
  have h64 : 68 ≤ (sealed bs).length ∧ (sealed bs).length % 64 = 0 := by rw [hlen]; unfold roundUpTo; omega
  have e1 : s.homeNat (j.addr.toNat + at_) n = (sealed bs).length := (bytesFrom_part h ha).trans h1
  have e0 : s.homeNat j.addr.toNat 4 = version := by
    have := bytesFrom_part (off := 0) (n := 4) h (by omega)
    exact this.trans h0
  obtain ⟨_, _, hc⟩ := sealed_split bs
  simp only [State.unseal, e1, e0, bytesFrom_eq h, hp, hl, h64, hc, and_self, if_true, Bool.false_eq_true, if_false]

/-! ## The sections of an image -/

theorem directory_drop (off k : Nat) (xs : List Section) :
    (directory off xs).drop (16 * k) = directory (off + ((xs.take k).map fun x => x.2.2.length).sum) (xs.drop k) := by
  induction k generalizing off xs with
  | zero => simp
  | succ k ih =>
    match xs with
    | [] => simp [directory]
    | (t, i, bs) :: xs =>
      have e : 16 * (k + 1) = (natLe 4 t ++ natLe 4 i ++ natLe 4 off ++ natLe 4 bs.length).length + 16 * k := by
        simp only [List.length_append, length_natLe]; omega
      rw [directory, e, List.drop_append]
      simp only [Nat.add_sub_cancel_left, ih, List.take_succ_cons, List.map_cons, List.sum_cons, List.drop_succ_cons,
        Nat.add_assoc]
      simp [length_natLe]

theorem contents_drop (k : Nat) (xs : List Section) :
    (xs.flatMap fun x => x.2.2).drop ((xs.take k).map fun x => x.2.2.length).sum = (xs.drop k).flatMap fun x => x.2.2 := by
  induction k generalizing xs with
  | zero => simp
  | succ k ih =>
    match xs with
    | [] => simp
    | x :: xs =>
      rw [List.flatMap_cons, List.take_succ_cons, List.map_cons, List.sum_cons, List.drop_append,
        List.drop_of_length_le (by omega), List.nil_append, Nat.add_sub_cancel_left, ih, List.drop_succ_cons]

/-- The directory of an image names its sections: what an image of 64 bytes of header, a directory and the sections'
bytes holds is read back (R386). -/
theorem sectionsOf_parts (head rest : List Byte) (xs : List Section) (hh : head.length = 64)
    (hn : leAt head 0x20 4 = xs.length) (hx : ∀ x ∈ xs, x.1 < 2 ^ 32 ∧ x.2.1 < 2 ^ 32)
    (hl : 64 + 16 * xs.length + (xs.map fun x => x.2.2.length).sum < 2 ^ 32) :
    sectionsOf (head ++ (directory (64 + 16 * xs.length) xs ++ ((xs.flatMap fun x => x.2.2) ++ rest))) = xs := by
  have hc : leAt (head ++ (directory (64 + 16 * xs.length) xs ++ ((xs.flatMap fun x => x.2.2) ++ rest))) 0x20 4 = xs.length := by
    rw [leAt_left _ _ _ _ (by omega), hn]
  unfold sectionsOf
  rw [hc]
  refine List.ext_getElem (by simp) fun k h1 h2 => ?_
  simp only [List.getElem_map, List.getElem_range]
  obtain ⟨⟨t, i, bs⟩, hk⟩ : ∃ x, xs[k] = x := ⟨_, rfl⟩
  have hd : xs.drop k = (t, i, bs) :: xs.drop (k + 1) := by rw [List.drop_eq_getElem_cons h2, hk]
  have hm : t < 2 ^ 32 ∧ i < 2 ^ 32 := hx (t, i, bs) (hk ▸ List.getElem_mem h2)
  have hsum : ((xs.take k).map fun x => x.2.2.length).sum + (bs.length + ((xs.drop (k + 1)).map fun x => x.2.2.length).sum) =
      (xs.map fun x => x.2.2.length).sum := by
    conv_rhs => rw [← List.take_append_drop k xs, List.map_append, List.sum_append, hd, List.map_cons, List.sum_cons]
  generalize hS : ((xs.take k).map fun x => x.2.2.length).sum = S at hsum
  have hdir : (directory (64 + 16 * xs.length) xs ++ ((xs.flatMap fun x => x.2.2) ++ rest)).drop (16 * k) =
      natLe 4 t ++ (natLe 4 i ++ (natLe 4 (64 + 16 * xs.length + S) ++ (natLe 4 bs.length ++
        (directory (64 + 16 * xs.length + S + bs.length) (xs.drop (k + 1)) ++ ((xs.flatMap fun x => x.2.2) ++ rest))))) := by
    rw [List.drop_append_of_le_length (by rw [length_directory]; omega), directory_drop, hd, hS, directory]
    simp only [List.append_assoc]
  have hat (off n : Nat) : leAt (head ++ (directory (64 + 16 * xs.length) xs ++ ((xs.flatMap fun x => x.2.2) ++ rest)))
      (64 + off + 16 * k) n = leAt ((directory (64 + 16 * xs.length) xs ++ ((xs.flatMap fun x => x.2.2) ++ rest)).drop (16 * k))
        off n := by
    have e : 64 + off + 16 * k = head.length + (16 * k + off) := by omega
    rw [e, leAt_right, leAt, leAt, List.drop_drop]
  have a0 := hat 0 4
  have a1 := hat 4 4
  have a2 := hat 8 4
  have a3 := hat 12 4
  simp only [Nat.add_zero, Nat.reduceAdd] at a0 a1 a2 a3
  rw [a0, a1, a2, a3, hdir]
  have b0 := leAt_mid [] (natLe 4 i ++ (natLe 4 (64 + 16 * xs.length + S) ++ (natLe 4 bs.length ++
        (directory (64 + 16 * xs.length + S + bs.length) (xs.drop (k + 1)) ++ ((xs.flatMap fun x => x.2.2) ++ rest))))) 0 4 t rfl
    (by omega)
  have b1 := leAt_mid (natLe 4 t) (natLe 4 (64 + 16 * xs.length + S) ++ (natLe 4 bs.length ++
        (directory (64 + 16 * xs.length + S + bs.length) (xs.drop (k + 1)) ++ ((xs.flatMap fun x => x.2.2) ++ rest)))) 4 4 i
    (length_natLe _ _) (by omega)
  have b2 := leAt_mid (natLe 4 t ++ natLe 4 i) (natLe 4 bs.length ++
        (directory (64 + 16 * xs.length + S + bs.length) (xs.drop (k + 1)) ++ ((xs.flatMap fun x => x.2.2) ++ rest))) 8 4
    (64 + 16 * xs.length + S) (by simp only [List.length_append, length_natLe]) (by omega)
  have b3 := leAt_mid (natLe 4 t ++ natLe 4 i ++ natLe 4 (64 + 16 * xs.length + S))
        (directory (64 + 16 * xs.length + S + bs.length) (xs.drop (k + 1)) ++ ((xs.flatMap fun x => x.2.2) ++ rest)) 12 4
    bs.length (by simp only [List.length_append, length_natLe]) (by omega)
  rw [List.nil_append] at b0
  simp only [List.append_assoc] at b1 b2 b3
  rw [b0, b1, b2, b3, hk]
  have hb : ((head ++ (directory (64 + 16 * xs.length) xs ++ ((xs.flatMap fun x => x.2.2) ++ rest))).drop
      (64 + 16 * xs.length + S)).take bs.length = bs := by
    have hp : (head ++ directory (64 + 16 * xs.length) xs).length = 64 + 16 * xs.length := by
      simp [hh, length_directory]
    have hs : (xs.flatMap fun x => x.2.2).length = (xs.map fun x => x.2.2.length).sum := length_sections xs
    rw [← List.append_assoc, List.drop_append, List.drop_of_length_le (by omega), List.nil_append, hp,
      Nat.add_sub_cancel_left, List.drop_append_of_le_length (by omega), ← hS, contents_drop, hd, List.flatMap_cons,
      List.append_assoc, List.take_left]
  rw [hb]

/-- The parts of a sealed image, whatever its header's other fields. -/
theorem image_parts (gen tag blk asid nw nt flags cause bnd : Nat) (xs : List Section) (hg : gen < 2 ^ 64)
    (ht : tag < 2 ^ 32) (hk : blk < 2 ^ 32) (hl : imageLength xs < 2 ^ 32) (hx : ∀ x ∈ xs, x.1 < 2 ^ 32 ∧ x.2.1 < 2 ^ 32) :
    let bs := sealed (natLe 4 1 ++ natLe 4 (imageLength xs) ++ natLe 8 gen ++ natLe 4 tag ++ natLe 4 blk ++ natLe 2 asid ++
      natLe 1 nw ++ natLe 1 nt ++ natLe 4 flags ++ natLe 4 xs.length ++ natLe 4 cause ++ natLe 8 bnd ++ natLe 16 0 ++
      directory (64 + 16 * xs.length) xs ++ xs.flatMap fun x => x.2.2)
    leAt bs 0 4 = 1 ∧ leAt bs 4 4 = imageLength xs ∧ leAt bs 8 8 = gen ∧ leAt bs 0x10 4 = tag ∧ leAt bs 0x14 4 = blk ∧
      sectionsOf bs = xs := by
  intro bs
  obtain ⟨pad, hp, -⟩ := sealed_split (natLe 4 1 ++ natLe 4 (imageLength xs) ++ natLe 8 gen ++ natLe 4 tag ++ natLe 4 blk ++
    natLe 2 asid ++ natLe 1 nw ++ natLe 1 nt ++ natLe 4 flags ++ natLe 4 xs.length ++ natLe 4 cause ++ natLe 8 bnd ++
    natLe 16 0 ++ directory (64 + 16 * xs.length) xs ++ xs.flatMap fun x => x.2.2)
  have hn : xs.length < 256 ^ 4 := by
    have : 64 + 16 * xs.length ≤ imageLength xs := by unfold imageLength roundUpTo; omega
    omega
  have hc := leAt_mid (natLe 4 1 ++ natLe 4 (imageLength xs) ++ natLe 8 gen ++ natLe 4 tag ++ natLe 4 blk ++
    natLe 2 asid ++ natLe 1 nw ++ natLe 1 nt ++ natLe 4 flags) (natLe 4 cause ++ (natLe 8 bnd ++ natLe 16 0)) 0x20 4 xs.length
    (by simp only [List.length_append, length_natLe]) hn
  have hd := sectionsOf_parts (natLe 4 1 ++ natLe 4 (imageLength xs) ++ natLe 8 gen ++ natLe 4 tag ++ natLe 4 blk ++
    natLe 2 asid ++ natLe 1 nw ++ natLe 1 nt ++ natLe 4 flags ++ natLe 4 xs.length ++ natLe 4 cause ++ natLe 8 bnd ++
    natLe 16 0) pad xs (by simp only [List.length_append, length_natLe]) (by simpa only [List.append_assoc] using hc) hx
    (by unfold imageLength roundUpTo at hl; omega)
  have f0 (r : List Byte) := leAt_mid [] r 0 4 1 rfl (by decide)
  have f1 (r : List Byte) := leAt_mid (natLe 4 1) r 4 4 (imageLength xs) (length_natLe _ _) (by omega)
  have f2 (r : List Byte) := leAt_mid (natLe 4 1 ++ natLe 4 (imageLength xs)) r 8 8 gen
    (by simp only [List.length_append, length_natLe]) (by omega)
  have f3 (r : List Byte) := leAt_mid (natLe 4 1 ++ natLe 4 (imageLength xs) ++ natLe 8 gen) r 0x10 4 tag
    (by simp only [List.length_append, length_natLe]) (by omega)
  have f4 (r : List Byte) := leAt_mid (natLe 4 1 ++ natLe 4 (imageLength xs) ++ natLe 8 gen ++ natLe 4 tag) r 0x14 4 blk
    (by simp only [List.length_append, length_natLe]) (by omega)
  simp only [List.append_assoc, List.nil_append] at f0 f1 f2 f3 f4 hd hp
  simp only [bs, List.append_assoc, hp]
  exact ⟨f0 _, f1 _, f2 _, f3 _, f4 _, hd⟩

/-- An image carries its version, its length, its generation and the names of its launch and block (R386), and its
directory names its sections. -/
theorem Saved.image_reads (v : Saved) (l : Launch) (gen : DWord) (hl : imageLength (v.sections gen.toNat) < 2 ^ 32)
    (hx : ∀ x ∈ v.sections gen.toNat, x.1 < 2 ^ 32 ∧ x.2.1 < 2 ^ 32) :
    leAt (v.image l gen) 0 4 = 1 ∧ leAt (v.image l gen) 4 4 = imageLength (v.sections gen.toNat) ∧
    leAt (v.image l gen) 8 8 = gen.toNat ∧ leAt (v.image l gen) 0x10 4 = l.tag.toNat ∧
    leAt (v.image l gen) 0x14 4 = (blockField l v.block).toNat ∧
    sectionsOf (v.image l gen) = v.sections gen.toNat := by
  unfold Saved.image
  exact image_parts _ _ _ _ _ _ _ _ _ _ gen.isLt l.tag.isLt (blockField l v.block).isLt hl hx

/-- An image that stands whole in memory is read back (R385, R386). -/
theorem State.unseal_image {s : State} {j : PeOp} {v : Saved} {l : Launch} {gen : DWord}
    (h : ∀ i, i < (v.image l gen).length → s.homeByte (j.addr.toNat + i) = (v.image l gen).getD i 0)
    (hb : imageLength (v.sections gen.toNat) < 2 ^ 32) (hx : ∀ x ∈ v.sections gen.toNat, x.1 < 2 ^ 32 ∧ x.2.1 < 2 ^ 32)
    (hl : imageLength (v.sections gen.toNat) ≤ j.len.toNat)
    (hp : s.poisoned (.mem j.addr.toNat) (imageLength (v.sections gen.toNat)) = false) :
    s.unseal j 1 4 4 = some (v.image l gen) := by
  have hlen := v.length_image l gen
  obtain ⟨r0, r1, -⟩ := v.image_reads l gen hb hx
  rw [← hlen] at hl hp r1
  have h64 : 64 ≤ (v.image l gen).length := by rw [hlen]; unfold imageLength roundUpTo; omega
  obtain ⟨bs, e, hbs⟩ : ∃ bs, v.image l gen = sealed bs ∧ 64 ≤ bs.length :=
    ⟨_, rfl, by simp only [List.length_append, length_natLe]; omega⟩
  rw [e] at h hl hp r0 r1 h64 ⊢
  exact State.unseal_sealed h r0 r1 (by omega) hbs hl hp

/-- An image at the head of a checkpoint's images is found (R390, R391). -/
theorem imagesOf_image (m : Nat) (v : Saved) (l : Launch) (gen : DWord) (rest : List Byte)
    (hb : imageLength (v.sections gen.toNat) < 2 ^ 32) (hx : ∀ x ∈ v.sections gen.toNat, x.1 < 2 ^ 32 ∧ x.2.1 < 2 ^ 32) :
    imagesOf (m + 1) (v.image l gen ++ rest) = (imagesOf m rest).map fun xs => v.image l gen :: xs := by
  have hlen := v.length_image l gen
  obtain ⟨-, r1, -⟩ := v.image_reads l gen hb hx
  have h64 : 68 ≤ (v.image l gen).length ∧ (v.image l gen).length % 64 = 0 := by
    rw [hlen]; unfold imageLength roundUpTo; omega
  have hc : leAt (v.image l gen) ((v.image l gen).length - 4) 4 =
      (crc32c ((v.image l gen).take ((v.image l gen).length - 4))).toNat := by
    unfold Saved.image
    exact (sealed_split _).choose_spec.2
  rw [← hlen] at r1
  have e1 : leAt (v.image l gen ++ rest) 4 4 = (v.image l gen).length := by rw [leAt_left _ _ _ _ (by omega), r1]
  have e2 : leAt (v.image l gen ++ rest) ((v.image l gen).length - 4) 4 =
      (crc32c ((v.image l gen ++ rest).take ((v.image l gen).length - 4))).toNat := by
    rw [leAt_left _ _ _ _ (by omega), List.take_append_of_le_length (by omega), hc]
  simp only [imagesOf, e1, e2, h64, List.length_append, Nat.le_add_right, and_self, if_true, List.take_left, List.drop_left]

/-- The parts of a checkpoint (R390). -/
theorem checkpoint_parts (total gen tag m n : Nat) (images tail : List Byte) (h1 : total < 2 ^ 64) (h2 : gen < 2 ^ 64)
    (h3 : tag < 2 ^ 32) (h4 : m < 2 ^ 32) :
    let bs := sealed (natLe 8 2 ++ natLe 8 total ++ natLe 8 gen ++ natLe 4 tag ++ natLe 4 m ++ natLe 4 n ++ natLe 28 0 ++
      images ++ tail)
    leAt bs 0 4 = 2 ∧ leAt bs 8 8 = total ∧ leAt bs 0x10 8 = gen ∧ leAt bs 0x18 4 = tag ∧ leAt bs 0x1C 4 = m ∧
      ∃ pad, bs.drop 64 = images ++ (tail ++ pad) := by
  intro bs
  obtain ⟨pad, hp, -⟩ := sealed_split (natLe 8 2 ++ natLe 8 total ++ natLe 8 gen ++ natLe 4 tag ++ natLe 4 m ++ natLe 4 n ++
    natLe 28 0 ++ images ++ tail)
  have f0 (r : List Byte) : leAt (natLe 8 2 ++ r) 0 4 = 2 := by rw [leAt_left _ _ _ _ (by rw [length_natLe]; omega)]; decide
  have f1 (r : List Byte) := leAt_mid (natLe 8 2) r 8 8 total (length_natLe _ _) (by omega)
  have f2 (r : List Byte) := leAt_mid (natLe 8 2 ++ natLe 8 total) r 0x10 8 gen
    (by simp only [List.length_append, length_natLe]) (by omega)
  have f3 (r : List Byte) := leAt_mid (natLe 8 2 ++ natLe 8 total ++ natLe 8 gen) r 0x18 4 tag
    (by simp only [List.length_append, length_natLe]) (by omega)
  have f4 (r : List Byte) := leAt_mid (natLe 8 2 ++ natLe 8 total ++ natLe 8 gen ++ natLe 4 tag) r 0x1C 4 m
    (by simp only [List.length_append, length_natLe]) (by omega)
  have f5 : (natLe 8 2 ++ natLe 8 total ++ natLe 8 gen ++ natLe 4 tag ++ natLe 4 m ++ natLe 4 n ++ natLe 28 0 ++
      (images ++ (tail ++ pad))).drop 64 = images ++ (tail ++ pad) :=
    List.drop_left' (by simp only [List.length_append, length_natLe])
  simp only [List.append_assoc] at f0 f1 f2 f3 f4 f5 hp
  simp only [bs, List.append_assoc, hp]
  exact ⟨f0 _, f1 _, f2 _, f3 _, f4 _, pad, f5⟩

end Sys2Proof.Machine
end

