-- ==== Sys2Proof/Laws/Issue.lean ====
section
/-! SUPPORT. What the issue of a word comes to when nothing holds it back (R62), said once. -/

namespace Sys2Proof.Machine
open Sys2Proof

theorem State.issuing_parties {s : State} {f : Form} {c : Ctx} (h : s.issuing f = some c) :
    s.parties = some (c.key, c.w, c.b, c.l) ∧ c.t = c.w.lanesFor f.g f.u ∧
      c.hl = (if f.u then 0 else f.helperLanes c.w) ∧ c.u = f.u := by
  unfold State.issuing at h
  cases hp : s.parties with
  | none => rw [hp] at h; cases h
  | some p =>
    rw [hp] at h
    simp only [Option.map_some, Option.some.injEq] at h
    subst h
    exact ⟨rfl, rfl, rfl, rfl⟩

theorem struckIn_sound {w : Wave} (f : Form) (t : Mask) (hs : w.struck = []) (hp : w.poison = []) :
    struckIn w f t = (false, []) := by
  simp [struckIn, hs, hp]

theorem contains_false_of {xs : List Nat} {k : Nat} (h : k ∉ xs) : xs.contains k = false := by
  simpa using h

/-- What an unhindered word comes to. -/
theorem issue_unhindered {f : Form} {body : Ctx → List (List LaneVec) → State → Res} {s : State} {c : Ctx}
    (h : Unhindered s f c) :
    issue f body s =
      match s.roomFor c f.writes with
      | .fault k => .next (s.takeHalt c.key k 0 c.t 0)
      | .wait n => .next (s.blockWave c.key (.queue n))
      | .ok () =>
        match s.readFields c f.reads with
        | .fault k => .next (s.takeHalt c.key k 0 c.t 0)
        | .wait n => .next (s.blockWave c.key (.queue n))
        | .ok (ops, s1) => .next (s.settle c f.size (body c ops s1)) := by
  obtain ⟨hp, ht, hhl, hu⟩ := State.issuing_parties h.ctx
  have hg : ((guardSlots f.g).any fun k => (s.pendingSlots c.key c.w).contains k) = false := by
    rw [List.any_eq_false]
    intro k hk
    simpa using h.settled k (List.mem_append_left _ hk)
  have hf : ((f.slots c.w).any fun k => (s.pendingSlots c.key c.w).contains k) = false := by
    rw [List.any_eq_false]
    intro k hk
    simpa using h.settled k (List.mem_append_right _ hk)
  have hc : (⟨c.key, c.w, c.b, c.l, c.t, if f.u then 0 else f.helperLanes c.w, f.u⟩ : Ctx) = c := by
    rw [← hhl, ← hu]
  have hst : struckIn c.w f c.t = (false, []) := struckIn_sound f c.t h.sound.1 h.sound.2
  unfold issue
  simp only [hp, hg, ← ht, hc, hf, h.some_lane, h.in_range, h.agrees, hst, State.latent]
  simp only [Bool.false_eq_true, if_false, Bool.not_true, Bool.false_and]
  all_goals (rcases s.roomFor c f.writes with x | n | k <;> rfl)


theorem roomFor_plain {s : State} {c : Ctx} : ∀ {ws : List (Reg × Nat)},
    (∀ x ∈ ws, ∀ n, c.w.slotOf x.1.toNat ≠ .qout n) → s.roomFor c ws = .ok ()
  | [], _ => rfl
  | (r, n) :: ws, h => by
    have h1 := h (r, n) (by simp)
    have h2 := roomFor_plain (s := s) (c := c) (ws := ws) fun x hx => h x (by simp [hx])
    unfold State.roomFor
    cases hs : c.w.slotOf r.toNat <;> simp_all

theorem readFields_plain {s : State} {c : Ctx} : ∀ {rs : List (Reg × Nat)},
    (∀ x ∈ rs, ∀ n, c.w.slotOf x.1.toNat ≠ .qin n) → s.readFields c rs = .ok (c.operands rs, s)
  | [], _ => rfl
  | (r, n) :: rs, h => by
    have h1 := h (r, n) (by simp)
    have h2 := readFields_plain (s := s) (c := c) (rs := rs) fun x hx => h x (by simp [hx])
    have h3 : s.readRun c r n = .ok ((List.range n).map fun i => c.w.readReg (r.toNat + i), s) := by
      unfold State.readRun
      split
      · next hn =>
        subst hn
        have : s.readField c r.toNat = .ok (c.w.readReg r.toNat, s) := by
          unfold State.readField
          cases hs : c.w.slotOf r.toNat <;> simp_all
        simp [this]
      · rfl
    simp [State.readFields, h3, h2, Ctx.operands]

theorem not_queued {f : Form} {w : Wave} (h : f.queued w = false) {x : Reg × Nat} (hx : x ∈ f.reads ++ f.writes) (n : Nat) :
    w.slotOf x.1.toNat ≠ .qin n ∧ w.slotOf x.1.toNat ≠ .qout n := by
  unfold Form.queued at h
  rw [List.any_eq_false] at h
  have := h x hx
  constructor <;> intro e <;> simp [e] at this

/-- A clear word does what its form does to the registers it names. -/
theorem issue_clear {f : Form} {body : Ctx → List (List LaneVec) → State → Res} {s : State} {c : Ctx}
    (h : Clear s f c) : issue f body s = .next (s.settle c f.size (body c (c.operands f.reads) s)) := by
  rw [issue_unhindered h.toUnhindered,
    roomFor_plain fun x hx n => (not_queued h.no_queue (List.mem_append_right _ hx) n).2,
    readFields_plain fun x hx n => (not_queued h.no_queue (List.mem_append_left _ hx) n).1]

end Sys2Proof.Machine
end

