-- ==== Sys2Proof/Laws/PerInstr.lean ====
section
/-! SUPPORT. Statements about every instruction as syntax, one lemma per constructor. -/

namespace Sys2Proof.Laws.Words

open Sys2Proof

/-- A step has no word (an event), one word, or two (a literal pair, R53). -/
def Statement (i : Instr) : Prop := (encode i).length ≤ 2

theorem powerOn (sigOk : Bool) (lanes : List LaneTest) (dead : List Nat) : Statement (.powerOn sigOk lanes dead) := Nat.le_of_ble_eq_true rfl
theorem thermalLimit (inlet : BitVec 16) : Statement (.thermalLimit inlet) := Nat.le_of_ble_eq_true rfl
theorem thermalClear (inlet : BitVec 16) : Statement (.thermalClear inlet) := Nat.le_of_ble_eq_true rfl
theorem powerCapEnforce (fwgov : BitVec 16) (watts : BitVec 16) : Statement (.powerCapEnforce fwgov watts) := Nat.le_of_ble_eq_true rfl
theorem registerWrite (off : BitVec 25) (val : BitVec 64) : Statement (.registerWrite off val) := Nat.le_of_ble_eq_true rfl
theorem launchQueueEnable (val : BitVec 64) : Statement (.launchQueueEnable val) := Nat.le_of_ble_eq_true rfl
theorem trapRingEnable (val : BitVec 64) : Statement (.trapRingEnable val) := Nat.le_of_ble_eq_true rfl
theorem formatWindowEnable (n : Fin 16) (val : BitVec 64) : Statement (.formatWindowEnable n val) := Nat.le_of_ble_eq_true rfl
theorem formatWindowDisable (n : Fin 16) (val : BitVec 64) : Statement (.formatWindowDisable n val) := Nat.le_of_ble_eq_true rfl
theorem xltInvalidatePage (asid : BitVec 12) : Statement (.xltInvalidatePage asid) := Nat.le_of_ble_eq_true rfl
theorem xltInvalidateAsid (asid : BitVec 12) : Statement (.xltInvalidateAsid asid) := Nat.le_of_ble_eq_true rfl
theorem rnsfailWrite (core : Nat) (bits : BitVec 8) : Statement (.rnsfailWrite core bits) := Nat.le_of_ble_eq_true rfl
theorem restoreBlock (core : BitVec 8) : Statement (.restoreBlock core) := Nat.le_of_ble_eq_true rfl
theorem restoreLaunch (core : BitVec 8) : Statement (.restoreLaunch core) := Nat.le_of_ble_eq_true rfl
theorem notify (src : BitVec 16) (tail : BitVec 32) : Statement (.notify src tail) := Nat.le_of_ble_eq_true rfl
theorem inputWrite (msg : InputMsg) : Statement (.inputWrite msg) := Nat.le_of_ble_eq_true rfl
theorem snapshotRequest (msg : SnapMsg) : Statement (.snapshotRequest msg) := Nat.le_of_ble_eq_true rfl
theorem subscribe (msg : SubMsg) : Statement (.subscribe msg) := Nat.le_of_ble_eq_true rfl
theorem remoteRead (src : BitVec 16) (tag : BitVec 32) (addr : BitVec 64) (len : BitVec 32) : Statement (.remoteRead src tag addr len) := Nat.le_of_ble_eq_true rfl
theorem remoteWrite (src : BitVec 16) (tag : BitVec 32) (addr : BitVec 64) (data : List Byte) : Statement (.remoteWrite src tag addr data) := Nat.le_of_ble_eq_true rfl
theorem remoteAtomic (src : BitVec 16) (tag : BitVec 32) (addr : BitVec 64) (op : RemoteOp) : Statement (.remoteAtomic src tag addr op) := Nat.le_of_ble_eq_true rfl
theorem readResponse (tag : BitVec 32) (status : BitVec 8) (data : List Byte) : Statement (.readResponse tag status data) := Nat.le_of_ble_eq_true rfl
theorem writeResponse (tag : BitVec 32) (status : BitVec 8) : Statement (.writeResponse tag status) := Nat.le_of_ble_eq_true rfl
theorem atomicResponse (tag : BitVec 32) (status : BitVec 8) (old : List Byte) : Statement (.atomicResponse tag status old) := Nat.le_of_ble_eq_true rfl
theorem collectiveData (msg : CollMsg) : Statement (.collectiveData msg) := Nat.le_of_ble_eq_true rfl
theorem barrierArrive (src : BitVec 16) (msg : BarMsg) : Statement (.barrierArrive src msg) := Nat.le_of_ble_eq_true rfl
theorem barrierRelease (msg : BarMsg) : Statement (.barrierRelease msg) := Nat.le_of_ble_eq_true rfl
theorem undefinedWord (pfx : Option (BitVec 25)) (w : BitVec 32) : Statement (.undefinedWord pfx w) := by cases pfx <;> exact Nat.le_of_ble_eq_true rfl
theorem exit (g : Guard) : Statement (.exit g) := Nat.le_of_ble_eq_true rfl
theorem nop (g : Guard) : Statement (.nop g) := Nat.le_of_ble_eq_true rfl
theorem j (off : BitVec 21) (g : Guard) (u : Bool) : Statement (.j off g u) := Nat.le_of_ble_eq_true rfl
theorem call (off : BitVec 21) (g : Guard) (u : Bool) : Statement (.call off g u) := Nat.le_of_ble_eq_true rfl
theorem joinSet (off : BitVec 21) (g : Guard) : Statement (.joinSet off g) := Nat.le_of_ble_eq_true rfl
theorem join (g : Guard) : Statement (.join g) := Nat.le_of_ble_eq_true rfl
theorem yield (g : Guard) : Statement (.yield g) := Nat.le_of_ble_eq_true rfl
theorem jr (a : Reg) (g : Guard) (u : Bool) : Statement (.jr a g u) := Nat.le_of_ble_eq_true rfl
theorem callr (a : Reg) (g : Guard) (u : Bool) : Statement (.callr a g u) := Nat.le_of_ble_eq_true rfl
theorem ret (g : Guard) : Statement (.ret g) := Nat.le_of_ble_eq_true rfl
theorem trap (imm : BitVec 14) (g : Guard) : Statement (.trap imm g) := Nat.le_of_ble_eq_true rfl
theorem trret (g : Guard) : Statement (.trret g) := Nat.le_of_ble_eq_true rfl
theorem lmapLd (g : Guard) : Statement (.lmapLd g) := Nat.le_of_ble_eq_true rfl
theorem add (d : Reg) (a : Reg) (b : Reg) (g : Guard) (u : Bool) : Statement (.add d a b g u) := Nat.le_of_ble_eq_true rfl
theorem sub (d : Reg) (a : Reg) (b : Reg) (g : Guard) (u : Bool) : Statement (.sub d a b g u) := Nat.le_of_ble_eq_true rfl
theorem addi (d : Reg) (a : Reg) (imm : BitVec 7) (g : Guard) (u : Bool) : Statement (.addi d a imm g u) := Nat.le_of_ble_eq_true rfl
theorem addiP (d : Reg) (a : Reg) (imm : BitVec 32) (g : Guard) (u : Bool) : Statement (.addiP d a imm g u) := Nat.le_of_ble_eq_true rfl
theorem mul (d : Reg) (a : Reg) (b : Reg) (g : Guard) (u : Bool) : Statement (.mul d a b g u) := Nat.le_of_ble_eq_true rfl
theorem mulh (d : Reg) (a : Reg) (b : Reg) (g : Guard) (u : Bool) : Statement (.mulh d a b g u) := Nat.le_of_ble_eq_true rfl
theorem mulhu (d : Reg) (a : Reg) (b : Reg) (g : Guard) (u : Bool) : Statement (.mulhu d a b g u) := Nat.le_of_ble_eq_true rfl
theorem and (d : Reg) (a : Reg) (b : Reg) (g : Guard) (u : Bool) : Statement (.and d a b g u) := Nat.le_of_ble_eq_true rfl
theorem andi (d : Reg) (a : Reg) (imm : BitVec 7) (g : Guard) (u : Bool) : Statement (.andi d a imm g u) := Nat.le_of_ble_eq_true rfl
theorem andiP (d : Reg) (a : Reg) (imm : BitVec 32) (g : Guard) (u : Bool) : Statement (.andiP d a imm g u) := Nat.le_of_ble_eq_true rfl
theorem or (d : Reg) (a : Reg) (b : Reg) (g : Guard) (u : Bool) : Statement (.or d a b g u) := Nat.le_of_ble_eq_true rfl
theorem ori (d : Reg) (a : Reg) (imm : BitVec 7) (g : Guard) (u : Bool) : Statement (.ori d a imm g u) := Nat.le_of_ble_eq_true rfl
theorem oriP (d : Reg) (a : Reg) (imm : BitVec 32) (g : Guard) (u : Bool) : Statement (.oriP d a imm g u) := Nat.le_of_ble_eq_true rfl
theorem xor (d : Reg) (a : Reg) (b : Reg) (g : Guard) (u : Bool) : Statement (.xor d a b g u) := Nat.le_of_ble_eq_true rfl
theorem xori (d : Reg) (a : Reg) (imm : BitVec 7) (g : Guard) (u : Bool) : Statement (.xori d a imm g u) := Nat.le_of_ble_eq_true rfl
theorem xoriP (d : Reg) (a : Reg) (imm : BitVec 32) (g : Guard) (u : Bool) : Statement (.xoriP d a imm g u) := Nat.le_of_ble_eq_true rfl
theorem shli (d : Reg) (a : Reg) (sh : BitVec 5) (g : Guard) (u : Bool) : Statement (.shli d a sh g u) := Nat.le_of_ble_eq_true rfl
theorem shri (d : Reg) (a : Reg) (sh : BitVec 5) (g : Guard) (u : Bool) : Statement (.shri d a sh g u) := Nat.le_of_ble_eq_true rfl
theorem srai (d : Reg) (a : Reg) (sh : BitVec 5) (g : Guard) (u : Bool) : Statement (.srai d a sh g u) := Nat.le_of_ble_eq_true rfl
theorem shl (d : Reg) (a : Reg) (b : Reg) (g : Guard) (u : Bool) : Statement (.shl d a b g u) := Nat.le_of_ble_eq_true rfl
theorem shr (d : Reg) (a : Reg) (b : Reg) (g : Guard) (u : Bool) : Statement (.shr d a b g u) := Nat.le_of_ble_eq_true rfl
theorem sra (d : Reg) (a : Reg) (b : Reg) (g : Guard) (u : Bool) : Statement (.sra d a b g u) := Nat.le_of_ble_eq_true rfl
theorem seteq (d : Reg) (a : Reg) (b : Reg) (g : Guard) (u : Bool) : Statement (.seteq d a b g u) := Nat.le_of_ble_eq_true rfl
theorem setlt (d : Reg) (a : Reg) (b : Reg) (g : Guard) (u : Bool) : Statement (.setlt d a b g u) := Nat.le_of_ble_eq_true rfl
theorem setltu (d : Reg) (a : Reg) (b : Reg) (g : Guard) (u : Bool) : Statement (.setltu d a b g u) := Nat.le_of_ble_eq_true rfl
theorem sel (d : Reg) (a : Reg) (b : Reg) (g : Guard) (u : Bool) : Statement (.sel d a b g u) := Nat.le_of_ble_eq_true rfl
theorem min (d : Reg) (a : Reg) (g : Guard) (u : Bool) : Statement (.min d a g u) := Nat.le_of_ble_eq_true rfl
theorem max (d : Reg) (a : Reg) (g : Guard) (u : Bool) : Statement (.max d a g u) := Nat.le_of_ble_eq_true rfl
theorem minu (d : Reg) (a : Reg) (g : Guard) (u : Bool) : Statement (.minu d a g u) := Nat.le_of_ble_eq_true rfl
theorem maxu (d : Reg) (a : Reg) (g : Guard) (u : Bool) : Statement (.maxu d a g u) := Nat.le_of_ble_eq_true rfl
theorem rol (d : Reg) (a : Reg) (g : Guard) (u : Bool) : Statement (.rol d a g u) := Nat.le_of_ble_eq_true rfl
theorem ror (d : Reg) (a : Reg) (g : Guard) (u : Bool) : Statement (.ror d a g u) := Nat.le_of_ble_eq_true rfl
theorem addD (d : Reg) (a : Reg) (g : Guard) (u : Bool) : Statement (.addD d a g u) := Nat.le_of_ble_eq_true rfl
theorem subD (d : Reg) (a : Reg) (g : Guard) (u : Bool) : Statement (.subD d a g u) := Nat.le_of_ble_eq_true rfl
theorem adda (d : Reg) (a : Reg) (g : Guard) (u : Bool) : Statement (.adda d a g u) := Nat.le_of_ble_eq_true rfl
theorem bfx (d : Reg) (a : Reg) (g : Guard) (u : Bool) : Statement (.bfx d a g u) := Nat.le_of_ble_eq_true rfl
theorem bfi (d : Reg) (a : Reg) (g : Guard) (u : Bool) : Statement (.bfi d a g u) := Nat.le_of_ble_eq_true rfl
theorem popc (d : Reg) (a : Reg) (g : Guard) (u : Bool) : Statement (.popc d a g u) := Nat.le_of_ble_eq_true rfl
theorem clz (d : Reg) (a : Reg) (g : Guard) (u : Bool) : Statement (.clz d a g u) := Nat.le_of_ble_eq_true rfl
theorem ctz (d : Reg) (a : Reg) (g : Guard) (u : Bool) : Statement (.ctz d a g u) := Nat.le_of_ble_eq_true rfl
theorem brev (d : Reg) (a : Reg) (g : Guard) (u : Bool) : Statement (.brev d a g u) := Nat.le_of_ble_eq_true rfl
theorem bswap (d : Reg) (a : Reg) (g : Guard) (u : Bool) : Statement (.bswap d a g u) := Nat.le_of_ble_eq_true rfl
theorem neg (d : Reg) (a : Reg) (g : Guard) (u : Bool) : Statement (.neg d a g u) := Nat.le_of_ble_eq_true rfl
theorem not (d : Reg) (a : Reg) (g : Guard) (u : Bool) : Statement (.not d a g u) := Nat.le_of_ble_eq_true rfl
theorem abs (d : Reg) (a : Reg) (g : Guard) (u : Bool) : Statement (.abs d a g u) := Nat.le_of_ble_eq_true rfl
theorem sextB (d : Reg) (a : Reg) (g : Guard) (u : Bool) : Statement (.sextB d a g u) := Nat.le_of_ble_eq_true rfl
theorem sextH (d : Reg) (a : Reg) (g : Guard) (u : Bool) : Statement (.sextH d a g u) := Nat.le_of_ble_eq_true rfl
theorem movi (d : Reg) (imm : BitVec 14) (g : Guard) (u : Bool) : Statement (.movi d imm g u) := Nat.le_of_ble_eq_true rfl
theorem moviP (d : Reg) (imm : BitVec 32) (g : Guard) (u : Bool) : Statement (.moviP d imm g u) := Nat.le_of_ble_eq_true rfl
theorem mov (d : Reg) (a : Reg) (g : Guard) (u : Bool) : Statement (.mov d a g u) := Nat.le_of_ble_eq_true rfl
theorem movD (d : Reg) (a : Reg) (g : Guard) (u : Bool) : Statement (.movD d a g u) := Nat.le_of_ble_eq_true rfl
theorem maskAny (d : Reg) (a : Reg) (g : Guard) : Statement (.maskAny d a g) := Nat.le_of_ble_eq_true rfl
theorem maskAll (d : Reg) (a : Reg) (g : Guard) : Statement (.maskAll d a g) := Nat.le_of_ble_eq_true rfl
theorem maskLo (d : Reg) (a : Reg) (g : Guard) : Statement (.maskLo d a g) := Nat.le_of_ble_eq_true rfl
theorem maskHi (d : Reg) (a : Reg) (g : Guard) : Statement (.maskHi d a g) := Nat.le_of_ble_eq_true rfl
theorem maskCnt (d : Reg) (a : Reg) (g : Guard) : Statement (.maskCnt d a g) := Nat.le_of_ble_eq_true rfl
theorem movS (d : Reg) (sr : SReg) (g : Guard) (u : Bool) : Statement (.movS d sr g u) := Nat.le_of_ble_eq_true rfl
theorem movSW (d : Reg) (sr : SReg) (g : Guard) (u : Bool) : Statement (.movSW d sr g u) := Nat.le_of_ble_eq_true rfl
theorem wbase (imm : BitVec 14) (g : Guard) : Statement (.wbase imm g) := Nat.le_of_ble_eq_true rfl
theorem qxH (d : Reg) (a : Reg) (g : Guard) : Statement (.qxH d a g) := Nat.le_of_ble_eq_true rfl
theorem qxV (d : Reg) (a : Reg) (g : Guard) : Statement (.qxV d a g) := Nat.le_of_ble_eq_true rfl
theorem qxD (d : Reg) (a : Reg) (g : Guard) : Statement (.qxD d a g) := Nat.le_of_ble_eq_true rfl
theorem qxB0 (d : Reg) (a : Reg) (g : Guard) : Statement (.qxB0 d a g) := Nat.le_of_ble_eq_true rfl
theorem qxB1 (d : Reg) (a : Reg) (g : Guard) : Statement (.qxB1 d a g) := Nat.le_of_ble_eq_true rfl
theorem qxB2 (d : Reg) (a : Reg) (g : Guard) : Statement (.qxB2 d a g) := Nat.le_of_ble_eq_true rfl
theorem qxB3 (d : Reg) (a : Reg) (g : Guard) : Statement (.qxB3 d a g) := Nat.le_of_ble_eq_true rfl
theorem shflPick (d : Reg) (a : Reg) (b : Reg) (g : Guard) : Statement (.shflPick d a b g) := Nat.le_of_ble_eq_true rfl
theorem shflXor (d : Reg) (a : Reg) (k : BitVec 6) (g : Guard) : Statement (.shflXor d a k g) := Nat.le_of_ble_eq_true rfl
theorem addF32 (d : Reg) (a : Reg) (b : Reg) (g : Guard) (u : Bool) : Statement (.addF32 d a b g u) := Nat.le_of_ble_eq_true rfl
theorem subF32 (d : Reg) (a : Reg) (b : Reg) (g : Guard) (u : Bool) : Statement (.subF32 d a b g u) := Nat.le_of_ble_eq_true rfl
theorem mulF32 (d : Reg) (a : Reg) (b : Reg) (g : Guard) (u : Bool) : Statement (.mulF32 d a b g u) := Nat.le_of_ble_eq_true rfl
theorem fmaF32 (d : Reg) (a : Reg) (b : Reg) (g : Guard) (u : Bool) : Statement (.fmaF32 d a b g u) := Nat.le_of_ble_eq_true rfl
theorem minF32 (d : Reg) (a : Reg) (b : Reg) (g : Guard) (u : Bool) : Statement (.minF32 d a b g u) := Nat.le_of_ble_eq_true rfl
theorem maxF32 (d : Reg) (a : Reg) (b : Reg) (g : Guard) (u : Bool) : Statement (.maxF32 d a b g u) := Nat.le_of_ble_eq_true rfl
theorem seteqF32 (d : Reg) (a : Reg) (b : Reg) (g : Guard) (u : Bool) : Statement (.seteqF32 d a b g u) := Nat.le_of_ble_eq_true rfl
theorem setltF32 (d : Reg) (a : Reg) (b : Reg) (g : Guard) (u : Bool) : Statement (.setltF32 d a b g u) := Nat.le_of_ble_eq_true rfl
theorem setleF32 (d : Reg) (a : Reg) (b : Reg) (g : Guard) (u : Bool) : Statement (.setleF32 d a b g u) := Nat.le_of_ble_eq_true rfl
theorem setunF32 (d : Reg) (a : Reg) (b : Reg) (g : Guard) (u : Bool) : Statement (.setunF32 d a b g u) := Nat.le_of_ble_eq_true rfl
theorem rcpF32 (d : Reg) (a : Reg) (g : Guard) (u : Bool) : Statement (.rcpF32 d a g u) := Nat.le_of_ble_eq_true rfl
theorem rsqrtF32 (d : Reg) (a : Reg) (g : Guard) (u : Bool) : Statement (.rsqrtF32 d a g u) := Nat.le_of_ble_eq_true rfl
theorem sqrtF32 (d : Reg) (a : Reg) (g : Guard) (u : Bool) : Statement (.sqrtF32 d a g u) := Nat.le_of_ble_eq_true rfl
theorem exp2F32 (d : Reg) (a : Reg) (g : Guard) (u : Bool) : Statement (.exp2F32 d a g u) := Nat.le_of_ble_eq_true rfl
theorem log2F32 (d : Reg) (a : Reg) (g : Guard) (u : Bool) : Statement (.log2F32 d a g u) := Nat.le_of_ble_eq_true rfl
theorem sinF32 (d : Reg) (a : Reg) (g : Guard) (u : Bool) : Statement (.sinF32 d a g u) := Nat.le_of_ble_eq_true rfl
theorem cosF32 (d : Reg) (a : Reg) (g : Guard) (u : Bool) : Statement (.cosF32 d a g u) := Nat.le_of_ble_eq_true rfl
theorem rintF32 (d : Reg) (a : Reg) (g : Guard) (u : Bool) : Statement (.rintF32 d a g u) := Nat.le_of_ble_eq_true rfl
theorem floorF32 (d : Reg) (a : Reg) (g : Guard) (u : Bool) : Statement (.floorF32 d a g u) := Nat.le_of_ble_eq_true rfl
theorem ceilF32 (d : Reg) (a : Reg) (g : Guard) (u : Bool) : Statement (.ceilF32 d a g u) := Nat.le_of_ble_eq_true rfl
theorem truncF32 (d : Reg) (a : Reg) (g : Guard) (u : Bool) : Statement (.truncF32 d a g u) := Nat.le_of_ble_eq_true rfl
theorem classF32 (d : Reg) (a : Reg) (g : Guard) (u : Bool) : Statement (.classF32 d a g u) := Nat.le_of_ble_eq_true rfl
theorem fabsF32 (d : Reg) (a : Reg) (g : Guard) (u : Bool) : Statement (.fabsF32 d a g u) := Nat.le_of_ble_eq_true rfl
theorem fnegF32 (d : Reg) (a : Reg) (g : Guard) (u : Bool) : Statement (.fnegF32 d a g u) := Nat.le_of_ble_eq_true rfl
theorem addBf16x2 (d : Reg) (a : Reg) (b : Reg) (g : Guard) (u : Bool) : Statement (.addBf16x2 d a b g u) := Nat.le_of_ble_eq_true rfl
theorem mulBf16x2 (d : Reg) (a : Reg) (b : Reg) (g : Guard) (u : Bool) : Statement (.mulBf16x2 d a b g u) := Nat.le_of_ble_eq_true rfl
theorem fmaBf16x2 (d : Reg) (a : Reg) (b : Reg) (g : Guard) (u : Bool) : Statement (.fmaBf16x2 d a b g u) := Nat.le_of_ble_eq_true rfl
theorem addF16x2 (d : Reg) (a : Reg) (b : Reg) (g : Guard) (u : Bool) : Statement (.addF16x2 d a b g u) := Nat.le_of_ble_eq_true rfl
theorem mulF16x2 (d : Reg) (a : Reg) (b : Reg) (g : Guard) (u : Bool) : Statement (.mulF16x2 d a b g u) := Nat.le_of_ble_eq_true rfl
theorem fmaF16x2 (d : Reg) (a : Reg) (b : Reg) (g : Guard) (u : Bool) : Statement (.fmaF16x2 d a b g u) := Nat.le_of_ble_eq_true rfl
theorem minBf16x2 (d : Reg) (a : Reg) (g : Guard) (u : Bool) : Statement (.minBf16x2 d a g u) := Nat.le_of_ble_eq_true rfl
theorem maxBf16x2 (d : Reg) (a : Reg) (g : Guard) (u : Bool) : Statement (.maxBf16x2 d a g u) := Nat.le_of_ble_eq_true rfl
theorem minF16x2 (d : Reg) (a : Reg) (g : Guard) (u : Bool) : Statement (.minF16x2 d a g u) := Nat.le_of_ble_eq_true rfl
theorem maxF16x2 (d : Reg) (a : Reg) (g : Guard) (u : Bool) : Statement (.maxF16x2 d a g u) := Nat.le_of_ble_eq_true rfl
theorem redAddF32 (d : Reg) (a : Reg) (g : Guard) : Statement (.redAddF32 d a g) := Nat.le_of_ble_eq_true rfl
theorem redMinF32 (d : Reg) (a : Reg) (g : Guard) : Statement (.redMinF32 d a g) := Nat.le_of_ble_eq_true rfl
theorem redMaxF32 (d : Reg) (a : Reg) (g : Guard) : Statement (.redMaxF32 d a g) := Nat.le_of_ble_eq_true rfl
theorem redAdd (d : Reg) (a : Reg) (g : Guard) : Statement (.redAdd d a g) := Nat.le_of_ble_eq_true rfl
theorem redMin (d : Reg) (a : Reg) (g : Guard) : Statement (.redMin d a g) := Nat.le_of_ble_eq_true rfl
theorem redMax (d : Reg) (a : Reg) (g : Guard) : Statement (.redMax d a g) := Nat.le_of_ble_eq_true rfl
theorem scanAddF32 (d : Reg) (a : Reg) (g : Guard) : Statement (.scanAddF32 d a g) := Nat.le_of_ble_eq_true rfl
theorem scanAdd (d : Reg) (a : Reg) (g : Guard) : Statement (.scanAdd d a g) := Nat.le_of_ble_eq_true rfl
theorem cvt (k : CvtKind) (r : Rnd) (d : Reg) (a : Reg) (g : Guard) (u : Bool) : Statement (.cvt k r d a g u) := Nat.le_of_ble_eq_true rfl
theorem pack (k : PackKind) (r : Rnd) (d : Reg) (a : Reg) (g : Guard) (u : Bool) : Statement (.pack k r d a g u) := Nat.le_of_ble_eq_true rfl
theorem unpack (k : UnpackKind) (e : BitVec 3) (d : Reg) (a : Reg) (g : Guard) (u : Bool) : Statement (.unpack k e d a g u) := Nat.le_of_ble_eq_true rfl
theorem packB4 (t : B4Type) (e : BitVec 3) (sr : Bool) (d : Reg) (a : Reg) (g : Guard) (u : Bool) : Statement (.packB4 t e sr d a g u) := Nat.le_of_ble_eq_true rfl
theorem ldW (d : Reg) (a : Reg) (imm : BitVec 7) (g : Guard) (u : Bool) : Statement (.ldW d a imm g u) := Nat.le_of_ble_eq_true rfl
theorem ldWP (d : Reg) (a : Reg) (imm : BitVec 32) (g : Guard) (u : Bool) : Statement (.ldWP d a imm g u) := Nat.le_of_ble_eq_true rfl
theorem ldD (d : Reg) (a : Reg) (imm : BitVec 7) (g : Guard) (u : Bool) : Statement (.ldD d a imm g u) := Nat.le_of_ble_eq_true rfl
theorem ldDP (d : Reg) (a : Reg) (imm : BitVec 32) (g : Guard) (u : Bool) : Statement (.ldDP d a imm g u) := Nat.le_of_ble_eq_true rfl
theorem ldQ (d : Reg) (a : Reg) (imm : BitVec 7) (g : Guard) (u : Bool) : Statement (.ldQ d a imm g u) := Nat.le_of_ble_eq_true rfl
theorem ldQP (d : Reg) (a : Reg) (imm : BitVec 32) (g : Guard) (u : Bool) : Statement (.ldQP d a imm g u) := Nat.le_of_ble_eq_true rfl
theorem ldH (d : Reg) (a : Reg) (imm : BitVec 7) (g : Guard) (u : Bool) : Statement (.ldH d a imm g u) := Nat.le_of_ble_eq_true rfl
theorem ldHP (d : Reg) (a : Reg) (imm : BitVec 32) (g : Guard) (u : Bool) : Statement (.ldHP d a imm g u) := Nat.le_of_ble_eq_true rfl
theorem stW (d : Reg) (a : Reg) (imm : BitVec 7) (g : Guard) (u : Bool) : Statement (.stW d a imm g u) := Nat.le_of_ble_eq_true rfl
theorem stWP (d : Reg) (a : Reg) (imm : BitVec 32) (g : Guard) (u : Bool) : Statement (.stWP d a imm g u) := Nat.le_of_ble_eq_true rfl
theorem stD (d : Reg) (a : Reg) (imm : BitVec 7) (g : Guard) (u : Bool) : Statement (.stD d a imm g u) := Nat.le_of_ble_eq_true rfl
theorem stDP (d : Reg) (a : Reg) (imm : BitVec 32) (g : Guard) (u : Bool) : Statement (.stDP d a imm g u) := Nat.le_of_ble_eq_true rfl
theorem stQ (d : Reg) (a : Reg) (imm : BitVec 7) (g : Guard) (u : Bool) : Statement (.stQ d a imm g u) := Nat.le_of_ble_eq_true rfl
theorem stQP (d : Reg) (a : Reg) (imm : BitVec 32) (g : Guard) (u : Bool) : Statement (.stQP d a imm g u) := Nat.le_of_ble_eq_true rfl
theorem stH (d : Reg) (a : Reg) (imm : BitVec 7) (g : Guard) (u : Bool) : Statement (.stH d a imm g u) := Nat.le_of_ble_eq_true rfl
theorem stHP (d : Reg) (a : Reg) (imm : BitVec 32) (g : Guard) (u : Bool) : Statement (.stHP d a imm g u) := Nat.le_of_ble_eq_true rfl
theorem ldHu (d : Reg) (a : Reg) (imm : BitVec 7) (g : Guard) (u : Bool) : Statement (.ldHu d a imm g u) := Nat.le_of_ble_eq_true rfl
theorem ldHuP (d : Reg) (a : Reg) (imm : BitVec 32) (g : Guard) (u : Bool) : Statement (.ldHuP d a imm g u) := Nat.le_of_ble_eq_true rfl
theorem ldB (d : Reg) (a : Reg) (imm : BitVec 7) (g : Guard) (u : Bool) : Statement (.ldB d a imm g u) := Nat.le_of_ble_eq_true rfl
theorem ldBP (d : Reg) (a : Reg) (imm : BitVec 32) (g : Guard) (u : Bool) : Statement (.ldBP d a imm g u) := Nat.le_of_ble_eq_true rfl
theorem ldBu (d : Reg) (a : Reg) (imm : BitVec 7) (g : Guard) (u : Bool) : Statement (.ldBu d a imm g u) := Nat.le_of_ble_eq_true rfl
theorem ldBuP (d : Reg) (a : Reg) (imm : BitVec 32) (g : Guard) (u : Bool) : Statement (.ldBuP d a imm g u) := Nat.le_of_ble_eq_true rfl
theorem stB (d : Reg) (a : Reg) (imm : BitVec 7) (g : Guard) (u : Bool) : Statement (.stB d a imm g u) := Nat.le_of_ble_eq_true rfl
theorem stBP (d : Reg) (a : Reg) (imm : BitVec 32) (g : Guard) (u : Bool) : Statement (.stBP d a imm g u) := Nat.le_of_ble_eq_true rfl
theorem pfL1 (a : Reg) (imm : BitVec 7) (g : Guard) (u : Bool) : Statement (.pfL1 a imm g u) := Nat.le_of_ble_eq_true rfl
theorem pfL1P (a : Reg) (imm : BitVec 32) (g : Guard) (u : Bool) : Statement (.pfL1P a imm g u) := Nat.le_of_ble_eq_true rfl
theorem pfL2 (a : Reg) (imm : BitVec 7) (g : Guard) (u : Bool) : Statement (.pfL2 a imm g u) := Nat.le_of_ble_eq_true rfl
theorem pfL2P (a : Reg) (imm : BitVec 32) (g : Guard) (u : Bool) : Statement (.pfL2P a imm g u) := Nat.le_of_ble_eq_true rfl
theorem cinv (a : Reg) (g : Guard) (u : Bool) : Statement (.cinv a g u) := Nat.le_of_ble_eq_true rfl
theorem cinvAll (g : Guard) (u : Bool) : Statement (.cinvAll g u) := Nat.le_of_ble_eq_true rfl
theorem ldAcqW (d : Reg) (a : Reg) (sc : Scope) (g : Guard) (u : Bool) : Statement (.ldAcqW d a sc g u) := Nat.le_of_ble_eq_true rfl
theorem ldAcqD (d : Reg) (a : Reg) (sc : Scope) (g : Guard) (u : Bool) : Statement (.ldAcqD d a sc g u) := Nat.le_of_ble_eq_true rfl
theorem stRelW (d : Reg) (a : Reg) (sc : Scope) (g : Guard) (u : Bool) : Statement (.stRelW d a sc g u) := Nat.le_of_ble_eq_true rfl
theorem stRelD (d : Reg) (a : Reg) (sc : Scope) (g : Guard) (u : Bool) : Statement (.stRelD d a sc g u) := Nat.le_of_ble_eq_true rfl
theorem ldScW (d : Reg) (a : Reg) (sc : Scope) (g : Guard) (u : Bool) : Statement (.ldScW d a sc g u) := Nat.le_of_ble_eq_true rfl
theorem ldScD (d : Reg) (a : Reg) (sc : Scope) (g : Guard) (u : Bool) : Statement (.ldScD d a sc g u) := Nat.le_of_ble_eq_true rfl
theorem stScW (d : Reg) (a : Reg) (sc : Scope) (g : Guard) (u : Bool) : Statement (.stScW d a sc g u) := Nat.le_of_ble_eq_true rfl
theorem stScD (d : Reg) (a : Reg) (sc : Scope) (g : Guard) (u : Bool) : Statement (.stScD d a sc g u) := Nat.le_of_ble_eq_true rfl
theorem atom (o : AtomOp) (d : Reg) (a : Reg) (sc : Scope) (g : Guard) (u : Bool) : Statement (.atom o d a sc g u) := Nat.le_of_ble_eq_true rfl
theorem atomD (o : AtomOp) (d : Reg) (a : Reg) (sc : Scope) (g : Guard) (u : Bool) : Statement (.atomD o d a sc g u) := Nat.le_of_ble_eq_true rfl
theorem atomF32 (o : AtomFOp) (d : Reg) (a : Reg) (sc : Scope) (g : Guard) (u : Bool) : Statement (.atomF32 o d a sc g u) := Nat.le_of_ble_eq_true rfl
theorem casW (d : Reg) (a : Reg) (sc : Scope) (g : Guard) (u : Bool) : Statement (.casW d a sc g u) := Nat.le_of_ble_eq_true rfl
theorem casD (d : Reg) (a : Reg) (sc : Scope) (g : Guard) (u : Bool) : Statement (.casD d a sc g u) := Nat.le_of_ble_eq_true rfl
theorem fence (sc : Scope) (g : Guard) : Statement (.fence sc g) := Nat.le_of_ble_eq_true rfl
theorem poll (c : PollCond) (d : Reg) (a : Reg) (sc : Scope) (g : Guard) (u : Bool) : Statement (.poll c d a sc g u) := Nat.le_of_ble_eq_true rfl
theorem barB (g : Guard) : Statement (.barB g) := Nat.le_of_ble_eq_true rfl
theorem barC (g : Guard) : Statement (.barC g) := Nat.le_of_ble_eq_true rfl
theorem barDev (g : Guard) : Statement (.barDev g) := Nat.le_of_ble_eq_true rfl
theorem barDom (g : Guard) : Statement (.barDom g) := Nat.le_of_ble_eq_true rfl
theorem tktTake (g : Guard) : Statement (.tktTake g) := Nat.le_of_ble_eq_true rfl
theorem tktWait (d : Reg) (g : Guard) : Statement (.tktWait d g) := Nat.le_of_ble_eq_true rfl
theorem qcfg (a : Reg) (g : Guard) : Statement (.qcfg a g) := Nat.le_of_ble_eq_true rfl
theorem copy1d (a : Reg) (g : Guard) : Statement (.copy1d a g) := Nat.le_of_ble_eq_true rfl
theorem copy2d (a : Reg) (g : Guard) : Statement (.copy2d a g) := Nat.le_of_ble_eq_true rfl
theorem copyG (a : Reg) (g : Guard) : Statement (.copyG a g) := Nat.le_of_ble_eq_true rfl
theorem batch (d : Reg) (g : Guard) : Statement (.batch d g) := Nat.le_of_ble_eq_true rfl
theorem waitB (a : Reg) (g : Guard) : Statement (.waitB a g) := Nat.le_of_ble_eq_true rfl
theorem waitC (l : BitVec 5) (st : BitVec 5) (t : BitVec 4) (g : Guard) : Statement (.waitC l st t g) := Nat.le_of_ble_eq_true rfl
theorem coll (k : CollKind) (a : Reg) (g : Guard) : Statement (.coll k a g) := Nat.le_of_ble_eq_true rfl
theorem mma (t : MmaType) (d : Reg) (a : Reg) (g : Guard) : Statement (.mma t d a g) := Nat.le_of_ble_eq_true rfl
theorem mmaPair (t : MmaType) (d : Reg) (a : Reg) (g : Guard) : Statement (.mmaPair t d a g) := Nat.le_of_ble_eq_true rfl
theorem tld (a : Reg) (g : Guard) : Statement (.tld a g) := Nat.le_of_ble_eq_true rfl
theorem tst (a : Reg) (g : Guard) : Statement (.tst a g) := Nat.le_of_ble_eq_true rfl
theorem accZero (a : Reg) (g : Guard) : Statement (.accZero a g) := Nat.le_of_ble_eq_true rfl
theorem accRd (d : Reg) (a : Reg) (g : Guard) : Statement (.accRd d a g) := Nat.le_of_ble_eq_true rfl
theorem accWr (d : Reg) (a : Reg) (g : Guard) : Statement (.accWr d a g) := Nat.le_of_ble_eq_true rfl
theorem accChkTile (a : Reg) (g : Guard) : Statement (.accChkTile a g) := Nat.le_of_ble_eq_true rfl
theorem accChkTen (a : Reg) (g : Guard) : Statement (.accChkTen a g) := Nat.le_of_ble_eq_true rfl
theorem pin (d : Reg) (a : Reg) (g : Guard) : Statement (.pin d a g) := Nat.le_of_ble_eq_true rfl
theorem unpin (d : Reg) (a : Reg) (g : Guard) : Statement (.unpin d a g) := Nat.le_of_ble_eq_true rfl
theorem fwupd (d : Reg) (a : Reg) (g : Guard) : Statement (.fwupd d a g) := Nat.le_of_ble_eq_true rfl
theorem fwrd (d : Reg) (a : Reg) (g : Guard) : Statement (.fwrd d a g) := Nat.le_of_ble_eq_true rfl
theorem rnsfI16 (d : Reg) (a : Reg) (g : Guard) : Statement (.rnsfI16 d a g) := Nat.le_of_ble_eq_true rfl
theorem rnsfI32 (d : Reg) (a : Reg) (g : Guard) : Statement (.rnsfI32 d a g) := Nat.le_of_ble_eq_true rfl
theorem rnsr (d : Reg) (a : Reg) (g : Guard) : Statement (.rnsr d a g) := Nat.le_of_ble_eq_true rfl
theorem rnsChk (d : Reg) (a : Reg) (g : Guard) : Statement (.rnsChk d a g) := Nat.le_of_ble_eq_true rfl
theorem rset (a : Reg) (g : Guard) : Statement (.rset a g) := Nat.le_of_ble_eq_true rfl
theorem rpost (a : Reg) (g : Guard) : Statement (.rpost a g) := Nat.le_of_ble_eq_true rfl
theorem rget (d : Reg) (a : Reg) (g : Guard) : Statement (.rget d a g) := Nat.le_of_ble_eq_true rfl
theorem qend (g : Guard) : Statement (.qend g) := Nat.le_of_ble_eq_true rfl
theorem rand (d : Reg) (g : Guard) (u : Bool) : Statement (.rand d g u) := Nat.le_of_ble_eq_true rfl
theorem eqId (d : Reg) (g : Guard) (u : Bool) : Statement (.eqId d g u) := Nat.le_of_ble_eq_true rfl
theorem eqGen (d : Reg) (g : Guard) (u : Bool) : Statement (.eqGen d g u) := Nat.le_of_ble_eq_true rfl
theorem eqTheta (d : Reg) (g : Guard) (u : Bool) : Statement (.eqTheta d g u) := Nat.le_of_ble_eq_true rfl
theorem softError (where_ : SoftError) : Statement (.softError where_) := Nat.le_of_ble_eq_true rfl
theorem powerRemoval : Statement (.powerRemoval) := Nat.le_of_ble_eq_true rfl
theorem xltInvalidateAll : Statement (.xltInvalidateAll) := Nat.le_of_ble_eq_true rfl
theorem xltInvalidationComplete : Statement (.xltInvalidationComplete) := Nat.le_of_ble_eq_true rfl
theorem rnsfailEffect : Statement (.rnsfailEffect) := Nat.le_of_ble_eq_true rfl
theorem attestationReport : Statement (.attestationReport) := Nat.le_of_ble_eq_true rfl
theorem preemptBlock : Statement (.preemptBlock) := Nat.le_of_ble_eq_true rfl
theorem resume : Statement (.resume) := Nat.le_of_ble_eq_true rfl
theorem discard : Statement (.discard) := Nat.le_of_ble_eq_true rfl
theorem checkpointLaunch : Statement (.checkpointLaunch) := Nat.le_of_ble_eq_true rfl
theorem runCommand : Statement (.runCommand) := Nat.le_of_ble_eq_true rfl
theorem loadCommand : Statement (.loadCommand) := Nat.le_of_ble_eq_true rfl
theorem unloadCommand : Statement (.unloadCommand) := Nat.le_of_ble_eq_true rfl
theorem clusterPlacement : Statement (.clusterPlacement) := Nat.le_of_ble_eq_true rfl
theorem drain : Statement (.drain) := Nat.le_of_ble_eq_true rfl
theorem blockRetirement : Statement (.blockRetirement) := Nat.le_of_ble_eq_true rfl
theorem runCompletion : Statement (.runCompletion) := Nat.le_of_ble_eq_true rfl
theorem quantumBoundary : Statement (.quantumBoundary) := Nat.le_of_ble_eq_true rfl
theorem standingBoundary : Statement (.standingBoundary) := Nat.le_of_ble_eq_true rfl
theorem deferredJournalEntry : Statement (.deferredJournalEntry) := Nat.le_of_ble_eq_true rfl
theorem relaxationPlacement : Statement (.relaxationPlacement) := Nat.le_of_ble_eq_true rfl
theorem relaxationRetirement : Statement (.relaxationRetirement) := Nat.le_of_ble_eq_true rfl
theorem relaxationKill : Statement (.relaxationKill) := Nat.le_of_ble_eq_true rfl
theorem inputLanding : Statement (.inputLanding) := Nat.le_of_ble_eq_true rfl
theorem snapshotServe : Statement (.snapshotServe) := Nat.le_of_ble_eq_true rfl
theorem unloadCompletion : Statement (.unloadCompletion) := Nat.le_of_ble_eq_true rfl
theorem residualEntryError : Statement (.residualEntryError) := Nat.le_of_ble_eq_true rfl
theorem reservedMessage : Statement (.reservedMessage) := Nat.le_of_ble_eq_true rfl
theorem messageGrant : Statement (.messageGrant) := Nat.le_of_ble_eq_true rfl
theorem portDown : Statement (.portDown) := Nat.le_of_ble_eq_true rfl
theorem remoteRequestTimeout : Statement (.remoteRequestTimeout) := Nat.le_of_ble_eq_true rfl
theorem loadDataReturn : Statement (.loadDataReturn) := Nat.le_of_ble_eq_true rfl
theorem storeAcknowledgement : Statement (.storeAcknowledgement) := Nat.le_of_ble_eq_true rfl
theorem l1LeaseEnd : Statement (.l1LeaseEnd) := Nat.le_of_ble_eq_true rfl
theorem pageWalk : Statement (.pageWalk) := Nat.le_of_ble_eq_true rfl
theorem copyJobStart : Statement (.copyJobStart) := Nat.le_of_ble_eq_true rfl
theorem copyJobFault : Statement (.copyJobFault) := Nat.le_of_ble_eq_true rfl
theorem copyJobCompletion : Statement (.copyJobCompletion) := Nat.le_of_ble_eq_true rfl
theorem matrixOperationRetirement : Statement (.matrixOperationRetirement) := Nat.le_of_ble_eq_true rfl
theorem pairOperationFollowerStart : Statement (.pairOperationFollowerStart) := Nat.le_of_ble_eq_true rfl
theorem pinAllocation : Statement (.pinAllocation) := Nat.le_of_ble_eq_true rfl
theorem pressureSpill : Statement (.pressureSpill) := Nat.le_of_ble_eq_true rfl
theorem governorWindow : Statement (.governorWindow) := Nat.le_of_ble_eq_true rfl
theorem backoffExpiry : Statement (.backoffExpiry) := Nat.le_of_ble_eq_true rfl
theorem starvation : Statement (.starvation) := Nat.le_of_ble_eq_true rfl
theorem timerTrap : Statement (.timerTrap) := Nat.le_of_ble_eq_true rfl
theorem blockHalt : Statement (.blockHalt) := Nat.le_of_ble_eq_true rfl
theorem trapRecordPosting : Statement (.trapRecordPosting) := Nat.le_of_ble_eq_true rfl
theorem repost : Statement (.repost) := Nat.le_of_ble_eq_true rfl
theorem rollback : Statement (.rollback) := Nat.le_of_ble_eq_true rfl
theorem reservedCommand : Statement (.reservedCommand) := Nat.le_of_ble_eq_true rfl

end Sys2Proof.Laws.Words
end

