-- ==== Sys2Proof/Tests/World.lean ====
section
/-! SUPPORT. The small machine that the tests and the witnesses of the statements use: one block of one wave on core
0, or a few more, with the page at address 0 mapped; and a check that decides when nothing holds a word back. -/

namespace Sys2Proof.Tests

open Sys2Proof Sys2Proof.Machine

/-- A launch in free mode of one block. -/
def run : Launch := { fetchLaunch with startedRanks := [(0, ())], begun := true, cpos := 1, starts := 1 }

/-- Its block. -/
def block : Block := freshBlock 0 fetchLaunch 0 0 ⟨0, 0, [(0, 0)]⟩ ⟨0, 0, [(0, 0)]⟩ 0

/-- Its wave: 256 registers, `v(k)` holding the listed value in every lane. -/
def wave (regs : List (Nat × Word)) : Wave :=
  { freshWave fetchLaunch 0 0 false 0 0 0 0 0 0 0 with regs := regs.map fun x => (x.1, List.replicate 64 x.2) }

/-- The module is up; nothing is resident. -/
def idle : State :=
  { State.reset with
    powered := true
    ctl := { Ctl.reset with ready := true, measured := true, coreLive := BitVec.allOnes 192 } }

/-- The wave stands at its word. -/
def world (regs : List (Nat × Word)) : State :=
  { idle with launches := [(0, run)], blocks := [(0, block)], waves := [(0, wave regs)], cur := some 0 }

/-- The world with another wave, another block, another launch. -/
def withWave (s : State) (f : Wave → Wave) : State := { s with waves := s.waves.map fun e => (e.1, f e.2) }

/-- The world with another block. -/
def withBlock (s : State) (f : Block → Block) : State := { s with blocks := s.blocks.map fun e => (e.1, f e.2) }

/-- The world with another launch. -/
def withRun (s : State) (f : Launch → Launch) : State := { s with launches := s.launches.map fun e => (e.1, f e.2) }

/-- The world with the page at address 0 mapped to physical 0x20000. -/
def paged (s : State) : State :=
  { s with
    mem := fetchTables.foldl (fun (m : List Host.Cell) (x : Nat × List Byte) => Memory.putAll m x.1 x.2) []
    asids := [(0, 0x10000)] }

/-- The core holds the translation of that page. -/
def warm (s : State) : State :=
  { paged s with cores := [(0, { Core.reset with tlb := [⟨0, 0, 0x2000, 0x20000, true, true, false, none⟩] })] }

/-- The accesses of a word are performed later. -/
def late (s : State) : State := { s with later := true }

/-- The context of a word, whatever its form finds. -/
def ctxOf (s : State) (f : Form) : Ctx :=
  (s.issuing f).getD ⟨0, wave [], block, run, 0, 0, false⟩

/-- A decision of `Unhindered`. -/
def free (s : State) (f : Form) : Bool :=
  (s.issuing f).isSome && decide ((ctxOf s f).t ≠ 0) && f.inRange (ctxOf s f).w (ctxOf s f).l &&
  (guardSlots f.g ++ f.slots (ctxOf s f).w).all (fun k => !(s.pendingSlots (ctxOf s f).key (ctxOf s f).w).contains k) &&
  !(ctxOf s f).w.mismatch && (ctxOf s f).w.struck.isEmpty && (ctxOf s f).w.poison.isEmpty

theorem unhindered_of {s : State} {f : Form} (h : free s f = true) : Unhindered s f (ctxOf s f) := by
  simp only [free, Bool.and_eq_true, decide_eq_true_eq, Bool.not_eq_true', List.isEmpty_iff] at h
  obtain ⟨⟨⟨⟨⟨⟨h1, h2⟩, h3⟩, h4⟩, h5⟩, h6⟩, h7⟩ := h
  refine ⟨?_, h2, h3, ?_, h5, h6, h7⟩
  · obtain ⟨c, hc⟩ := Option.isSome_iff_exists.mp h1
    simp [ctxOf, hc]
  · intro k hk
    have := List.all_eq_true.mp h4 k hk
    simpa using this

/-- A decision of `Clear`. -/
def clear (s : State) (f : Form) : Bool := free s f && !f.queued (ctxOf s f).w && !(ctxOf s f).atEdge f.size

theorem clear_of {s : State} {f : Form} (h : clear s f = true) : Clear s f (ctxOf s f) := by
  simp only [clear, Bool.and_eq_true, Bool.not_eq_true'] at h
  exact ⟨unhindered_of h.1.1, h.1.2, h.2⟩

/-- A clear word reads its operand fields and has room. -/
theorem fed_of {s : State} {f : Form} (h : clear s f = true) :
    Fed s f (ctxOf s f) ((ctxOf s f).operands f.reads) s := by
  have hc := clear_of h
  exact ⟨hc.toUnhindered,
    roomFor_plain fun x hx n => (not_queued hc.no_queue (List.mem_append_right _ hx) n).2,
    readFields_plain fun x hx n => (not_queued hc.no_queue (List.mem_append_left _ hx) n).1, hc.inside⟩

/-- A check of where the checks of an access lead. -/
def gated (s : State) (c : Ctx) (as hs : List (Nat × DWord)) (n : Nat) (p : Purpose) (k : Takes)
    (good : List Reach → List Reach → State → Bool) : Bool :=
  match s.gate c as hs n p k with
  | .go rs hs t => good rs hs t
  | .stop _ => false

theorem gated_of {s : State} {c : Ctx} {as hs : List (Nat × DWord)} {n : Nat} {p : Purpose} {k : Takes}
    {good : List Reach → List Reach → State → Bool} (h : gated s c as hs n p k good = true) :
    ∃ rs gs t, s.gate c as hs n p k = .go rs gs t ∧ good rs gs t = true := by
  unfold gated at h
  split at h
  · exact ⟨_, _, _, ‹_›, h⟩
  · cases h

/-- Every access lies on this device. -/
def here (rs : List Reach) : Bool := rs.all fun r => !r.remote

theorem here_of {rs : List Reach} (h : here rs = true) : allHere rs := by
  intro r hr
  simpa using List.all_eq_true.mp h r hr

/-- A check of what reading the fields of a word gives. -/
def readsTo (s : State) (c : Ctx) (rs : List (Reg × Nat)) (good : List (List LaneVec) → State → Bool) : Bool :=
  match s.readFields c rs with
  | .ok x => good x.1 x.2
  | _ => false

theorem readsTo_of {s : State} {c : Ctx} {rs : List (Reg × Nat)} {good : List (List LaneVec) → State → Bool}
    (h : readsTo s c rs good = true) : ∃ ops t, s.readFields c rs = .ok (ops, t) ∧ good ops t = true := by
  unfold readsTo at h
  split at h
  · exact ⟨_, _, ‹_›, h⟩
  · cases h

/-- A queue has room for the word. -/
def roomy (s : State) (c : Ctx) (ws : List (Reg × Nat)) : Bool :=
  match s.roomFor c ws with
  | .ok () => true
  | _ => false

theorem roomy_of {s : State} {c : Ctx} {ws : List (Reg × Nat)} (h : roomy s c ws = true) : s.roomFor c ws = .ok () := by
  unfold roomy at h
  split at h
  · assumption
  · cases h

/-! ## Machines that several witnesses use -/

/-- A machine with nothing saved, whose blocks hold nothing on chip, has its on-chip memories in canonical form. -/
theorem onChip_of {s : State} (hb : ∀ e ∈ s.blocks, e.2.scr = [] ∧ e.2.acc = [] ∧ e.2.snap = none)
    (hs : s.saved = []) (hl : s.savedLaunches = []) : s.OnChipCanon := by
  refine ⟨fun e he => ?_, by simp [hs], by simp [hl]⟩
  obtain ⟨h1, h2, h3⟩ := hb e he
  exact ⟨by rw [h1]; rfl, by rw [h2]; rfl, by simp [h3]⟩

/-- A store of the wave is outstanding. -/
def owing : State :=
  withWave (world []) fun w => { w with outst := [⟨0, true, 4, false, [], 0, [⟨0, .here (.mem 0x20000), 0, 7, 0⟩], none, none, none, none, none, []⟩] }

/-- A job of batch 1 of the wave. -/
def oneJob : Job :=
  ⟨0, 0, 0, 0, .d1, [0x40, 0, 0x80, 0, 4, 0, 0, 0], 1, [(0x40, 4)], [(0x80, 4)], [], [], [], 0, false, false, 0, false,
    [], [], 0, false, 0, [], [], [], []⟩

/-- The wave waits for it. -/
def awaiting : State :=
  { withWave (paged (world [(7, 1)])) (fun w => { w with batch := 1 }) with
    cores := [(0, { Core.reset with jobs := [oneJob] })] }

/-- A standing program of two blocks in free mode, with its launch. -/
def program : Program :=
  { launch := 0, table := 0x1000, n := 2, slots := 1, fair := 2, dqm := false, quantum := 0, seed := 0, mask := 1,
    base := 0, eqs := [(0, ⟨0x3F800000, 0, 0, 0, [], 0⟩), (1, ⟨0x40000000, 0, 0, 0, [], 0⟩)], state := 0b01, gen := 3,
    bound := 0, jbase := 0, jsize := 0, jrd := 0, jwr := 0, jref := 0, jindex := 0, late := [], replay := none, seqNo := 5,
    snapNo := 0, noticeNo := 1, readers := [7], inputs := [], snaps := [], waiting := [], running := [], stopped := false,
    unloadTag := 0, unloadEp := 0 }

/-- An entry of the residual table. -/
def entry (res : Word) (state : BitVec 2) : ResEntry := ⟨res, 0, 0, 0, false, false, 0, false, state⟩

/-- The wave belongs to a relaxation of block 0 of that program. -/
def relaxing : State :=
  { withBlock (withRun (paged (world [(2, 1)])) fun l => { l with standing := some 0 }) (fun b => { b with ticket := none }) with
    programs := [(0, program)], residuals := [(0, entry 0x40000000 0b10), (1, entry 0x3F000000 0b00)] }

/-- A tenure of shape 0 on core 0, and its handle in register 0. -/
def tenure : Tenure :=
  ⟨0x001, 0, 0, 0, 4, shapeGran 0, 0, 4, [], [], [], 0, false, 1, 0, false⟩

/-- Its machine. -/
def pinned : State :=
  { paged (world [(0, 1), (20, 0x40)]) with cores := [(0, { Core.reset with tenures := [(0, tenure)] })] }

/-- The accumulator has room for a pin. -/
def hasRoom (s : State) (launch core im gran : Nat) : Bool :=
  match s.accRoom launch false core im gran none none with
  | .at_ _ _ => true
  | _ => false

/-- The handle names a tenure on the core. -/
def namedHere (s : State) (launch : Nat) (h : Word) (core e : Nat) (n : Tenure) : Bool :=
  match s.named launch h with
  | .on c k t => decide (c = core) && decide (k = e) && decide (t = n)
  | _ => false

theorem named_of {s : State} {launch : Nat} {h : Word} {core e : Nat} {n : Tenure}
    (x : namedHere s launch h core e n = true) : s.named launch h = .on core e n := by
  unfold namedHere at x
  split at x
  · next h =>
    simp only [Bool.and_eq_true, decide_eq_true_eq] at x
    obtain ⟨⟨rfl, rfl⟩, rfl⟩ := x
    exact h
  · cases x

end Sys2Proof.Tests
end

