-- ==== Sys2Proof/Tests/Accesses.lean ====
section
/-! SUPPORT. For the statements about memory, synchronisation, engines, standing words and the matrix engine: concrete
states and operands that meet their hypotheses. -/

namespace Sys2Proof.Tests

set_option Elab.async false

open Sys2Proof Sys2Proof.Machine

/-! ## Memory instructions -/

/-- Lanes 0 and 1 meet p1; the page at address 0 is mapped. -/
def duo (regs : List (Nat × Word)) : State :=
  paged (withWave (world regs) fun w => { w with regs := w.regs.set 259 ([1, 1] ++ List.replicate 62 0) })

/-- A load of the two lanes at 0x40. -/
def loadForm : Form := ⟨.p1, false, 1, [(10, 2)], [(4, 4)], true, false, id⟩

theorem witness_LoadsGiveBytes : ∃ r, loadRow (.ldQ 4 10 1 .p1 false) = some r ∧
    Clear (duo [(10, 0x40)]) r.loadForm (ctxOf (duo [(10, 0x40)]) loadForm) ∧
    ∃ rs hs s1, (duo [(10, 0x40)]).gate (ctxOf (duo [(10, 0x40)]) loadForm)
        (addrsOf ((ctxOf (duo [(10, 0x40)]) loadForm).operands [(r.a, 2)]) 0 r.off (ctxOf (duo [(10, 0x40)]) loadForm).t)
        (addrsOf ((ctxOf (duo [(10, 0x40)]) loadForm).operands [(r.a, 2)]) 0 r.off (ctxOf (duo [(10, 0x40)]) loadForm).hl)
        r.size .read .copy = .go rs hs s1 ∧
      (here (rs ++ hs) && !s1.later && decide (rs.length = 2)) = true :=
  ⟨_, rfl, clear_of (by decide), gated_of (by decide)⟩

/-- The same, performed later. -/
theorem witness_LoadsGiveBytes_late :
    let s := late (warm (duo [(10, 0x40)]))
    ∃ r, loadRow (.ldQ 4 10 1 .p1 false) = some r ∧ Clear s r.loadForm (ctxOf s loadForm) ∧
    (ctxOf s loadForm).l.dqm = false ∧
    ∃ rs hs s1, s.gate (ctxOf s loadForm)
        (addrsOf ((ctxOf s loadForm).operands [(r.a, 2)]) 0 r.off (ctxOf s loadForm).t)
        (addrsOf ((ctxOf s loadForm).operands [(r.a, 2)]) 0 r.off (ctxOf s loadForm).hl)
        r.size .read .copy = .go rs hs s1 ∧ (here (rs ++ hs) && s1.later && decide (rs.length = 2)) = true :=
  ⟨_, rfl, clear_of (by decide), by decide, gated_of (by decide)⟩

theorem witness_LoadsGiveBytes_lanes :
    let rs : List Reach := [⟨0, 0x40, .here (.mem 0x20040)⟩, ⟨3, 0x50, .here (.scr 0 16)⟩]
    (∀ r ∈ rs, r.remote = false) ∧ rs.Pairwise (fun x y => x.lane ≠ y.lane) ∧ run.dqm = false ∧
    (wave []).share = [] ∧ ((duo []).core 0).l1 = [] ∧ (duo []).hit = false ∧
    0x20040 / 64 = (0x20040 + 16 - 1) / 64 ∧ (duo []).blocks.get? 0 = some block ∧ { run with dqm := true }.dqm = true := by
  refine ⟨by decide, by simp, by decide⟩

/-- A pair of waves whose compute wave produces queue 1. -/
def pushing : State :=
  paged { withBlock (withRun (world [(10, 0x40)]) fun l => { l with record := { l.record with options := 2 } })
      (fun b => { b with dirs := [(0, 2)] }) with
    waves := [(0, wave [(10, 0x40)]), (16, { wave [] with shadow := true, pc := 4 })] }

/-- `ld.w` into that queue, once. -/
def pushForm : Form := ⟨.always, true, 1, [(10, 2)], [(117, 1)], true, false, id⟩

theorem pushing_room : ∀ x : QRes Unit, x = pushing.mayPush (ctxOf pushing pushForm) 1 →
    (match x with | .ok () => true | _ => false) = true → pushing.mayPush (ctxOf pushing pushForm) 1 = .ok () := by
  intro x h
  subst h
  split
  · intro; assumption
  · intro h; cases h

theorem witness_LoadsIntoQueues : ∃ r, loadRow (.ldW 117 10 0 .always true) = some r ∧ r.regs = 1 ∧
    Unhindered pushing r.loadForm (ctxOf pushing pushForm) ∧ (ctxOf pushing pushForm).atEdge r.words = false ∧
    (ctxOf pushing pushForm).w.slotOf r.d.toNat = .qout 1 ∧ pushing.mayPush (ctxOf pushing pushForm) 1 = .ok () ∧
    pushing.blocks.get? (ctxOf pushing pushForm).w.block = some (ctxOf pushing pushForm).b ∧
    ∃ rs hs s1, pushing.gate (ctxOf pushing pushForm)
        (addrsOf ((ctxOf pushing pushForm).operands [(r.a, 2)]) 0 r.off (ctxOf pushing pushForm).t)
        (addrsOf ((ctxOf pushing pushForm).operands [(r.a, 2)]) 0 r.off (ctxOf pushing pushForm).hl)
        r.size .read .copy = .go rs hs s1 ∧ here (rs ++ hs) = true :=
  ⟨_, rfl, rfl, unhindered_of (by decide), by decide, by decide, pushing_room _ rfl (by decide), by decide,
    gated_of (by decide)⟩

/-- The same, whose data returns later. -/
theorem witness_LoadsIntoQueues_later :
    let s := late (warm pushing)
    let c := ctxOf s pushForm
    Unhindered s pushForm c ∧ c.l.dqm = false ∧ c.w.slotOf 117 = .qout 1 ∧
    ∃ rs hs s1, s.gate c (addrsOf (c.operands [(10, 2)]) 0 0 c.t) (addrsOf (c.operands [(10, 2)]) 0 0 c.hl) 4 .read .copy =
        .go rs hs s1 ∧ (here (rs ++ hs) && s1.later && decide (rs.length = 1)) = true :=
  ⟨unhindered_of (by decide), by decide, by decide, gated_of (by decide)⟩

/-- A store of the two lanes. -/
def storeForm : Form := ⟨.p1, false, 1, [(5, 1), (10, 2)], [], false, false, id⟩

/-- Its machine. -/
def storing : State := duo [(5, 0x11223344), (10, 0x40)]

theorem witness_StoresWriteOrBuffer : ∃ r, storeRow (.stW 5 10 1 .p1 false) = some r ∧
    Unhindered storing r.storeForm (ctxOf storing storeForm) ∧ (ctxOf storing storeForm).atEdge r.words = false ∧
    storing.MemCanon ∧ storing.OnChipCanon ∧ (ctxOf storing storeForm).l.dqm = false ∧
    storing.readFields (ctxOf storing storeForm) [(r.d, r.regs), (r.a, 2)] =
      .ok ((ctxOf storing storeForm).operands [(r.d, r.regs), (r.a, 2)], storing) ∧
    ∃ rs hs s1, storing.gate (ctxOf storing storeForm)
        (addrsOf ((ctxOf storing storeForm).operands [(r.d, r.regs), (r.a, 2)]) 1 r.off (ctxOf storing storeForm).t) []
        r.size .write .nothing = .go rs hs s1 ∧ (here rs && !s1.later && decide (rs.length = 2)) = true :=
  ⟨_, rfl, unhindered_of (by decide), by decide, by unfold State.MemCanon; decide, onChip_of (by decide) rfl rfl,
    by decide, (fed_of (s := storing) (f := storeForm) (by decide)).read, gated_of (by decide)⟩

/-- The same in DQM, with the share nearly full or full. -/
def buffering (used : Nat) : State :=
  withRun (withWave storing fun w => { w with shareUsed := used }) fun l => { l with dqm := true }

theorem witness_StoresWriteOrBuffer_share : ∃ r, storeRow (.stW 5 10 1 .p1 false) = some r ∧
    Clear (buffering 1016) r.storeForm (ctxOf (buffering 1016) storeForm) ∧
    (ctxOf (buffering 1016) storeForm).l.dqm = true ∧ (ctxOf (buffering 1016) storeForm).w.hold = none ∧
    (ctxOf (buffering 1016) storeForm).w.holdOn = none ∧ (buffering 1016).OnChipCanon ∧
    ∃ rs hs s1, (buffering 1016).gate (ctxOf (buffering 1016) storeForm)
        (addrsOf ((ctxOf (buffering 1016) storeForm).operands [(r.d, r.regs), (r.a, 2)]) 1 r.off
          (ctxOf (buffering 1016) storeForm).t) [] r.size .write .nothing = .go rs hs s1 ∧
      (decide (rs ≠ []) && rs.all (fun x => !(ctxOf (buffering 1016) storeForm).ownScr x.tgt) &&
        decide (1016 + r.size * rs.length ≤ 1024) && decide (1024 < 1020 + r.size * rs.length)) = true :=
  ⟨_, rfl, clear_of (by decide), by decide, by decide, by decide, onChip_of (by decide) rfl rfl, gated_of (by decide)⟩

/-- A release store of DQM into the block's own scratchpad. -/
theorem witness_StoresWriteOrBuffer_own :
    let s := withRun (paged (world [(5, 9), (10, 0x40), (11, 0xC0000000)])) fun l => { l with dqm := true }
    ∃ q, releaseRow (.stRelW 5 10 .system .always true) = some q ∧ Clear s q.row.storeForm (ctxOf s q.row.storeForm) ∧
    (ctxOf s q.row.storeForm).NoRollback ∧ (ctxOf s q.row.storeForm).l.dqm = true ∧
    ∃ rs hs s1, s.gate (ctxOf s q.row.storeForm)
        (addrsOf ((ctxOf s q.row.storeForm).operands [(q.row.d, q.row.regs), (q.row.a, 2)]) 1 q.row.off
          (ctxOf s q.row.storeForm).t) [] q.row.size .write .nothing = .go rs hs s1 ∧
      (here rs && decide (rs ≠ []) && rs.all fun x => (ctxOf s q.row.storeForm).ownScr x.tgt) = true :=
  ⟨_, rfl, clear_of (by decide), by unfold Ctx.NoRollback; decide, by decide, gated_of (by decide)⟩

/-- A store whose homes apply it later. -/
theorem witness_StoresWriteOrBuffer_late :
    let s := late (warm storing)
    Clear s storeForm (ctxOf s storeForm) ∧ s.MemCanon ∧ s.OnChipCanon ∧ (ctxOf s storeForm).l.dqm = false ∧
    ∃ rs hs s1, s.gate (ctxOf s storeForm)
        (addrsOf ((ctxOf s storeForm).operands [(5, 1), (10, 2)]) 1 4 (ctxOf s storeForm).t) [] 4 .write .nothing =
          .go rs hs s1 ∧ (here rs && s1.later) = true :=
  ⟨clear_of (by decide), by unfold State.MemCanon; decide, onChip_of (by decide) rfl rfl, by decide,
    gated_of (by decide)⟩

/-- The second page's entry is malformed, the third is absent, the fourth may not be written; a window's view lies over
the first half of the page at 0x20000, and its line 0x20040 is poisoned. -/
def probing (s : State) : State :=
  { paged s with
    mem := Memory.putAll (Memory.putAll (paged s).mem 0x18008 (natLe 8 0x22021)) 0x18018 (natLe 8 0x26003)
    ctl := { s.ctl with windows := [(0, ⟨16, true, 0x20000, 0, 0⟩)] }
    poison := [(0x21000 / 64, ())] }

/-- A check that stops an access, and its cause; 0x13 is a park. -/
def stops (s : State) (c : Ctx) (as : List (Nat × DWord)) (size : Nat) (p : Purpose) (k : Takes) (cause : Nat) : Bool :=
  match s.check c as size p k with
  | .fault j _ _ => decide (j = cause)
  | .park _ _ => decide (cause = 0x13)
  | _ => false

/-- The hypotheses of the checks of one global address. -/
def Probed (s : State) (c : Ctx) (a : DWord) : Prop :=
  spaceOf a = 0 ∧ s.spaceOk c a = true ∧ a.toNat % 4 = 0 ∧ offsetOf a + 4 ≤ 2 ^ 57 ∧ s.later = false ∧
    s.cached c.w.core c.l.asid (offsetOf a) = none ∧ s.mustQueue c.l.asid (offsetOf a) = false ∧
    (s.waves.get? c.key).elim true (fun w => w.walkOut.isEmpty) = true

theorem witness_AddressesAreChecked_walks :
    let s := probing (world [])
    let c := ctxOf s ⟨.always, true, 1, [], [], false, false, id⟩
    (∀ a ∈ [0x40, 0x1000, 0x1800, 0x2000, 0x4000, 0x6000], Probed s c (BitVec.ofNat 64 a)) ∧
    stops s c [(0, 0x4000)] 4 .read .copy 0x13 = true ∧ stops s c [(0, 0x2000)] 4 .read .copy 0x14 = true ∧
    stops s c [(0, 0x6000)] 4 .write .home 0x15 = true ∧ stops s c [(0, 0x40)] 4 .write .home 0x16 = true ∧
    stops s c [(0, 0x1000)] 4 .read .copy 0x17 = true ∧ stops s c [(0, 0x1800)] 4 .write .home 0 = false :=
  ⟨by unfold Probed; decide +kernel, by decide +kernel, by decide +kernel, by decide +kernel, by decide +kernel,
    by decide +kernel, by decide +kernel⟩

/-- A store whose lane is not aligned halts, and one to an absent page parks. -/
theorem witness_AddressesAreChecked_words :
    let s := probing (world [(5, 1), (10, 0x4002), (12, 0x4000)])
    (∃ r, checkRow (.stW 5 10 0 .always true) = some r ∧ Clear s r.form (ctxOf s r.form) ∧
      stops s (ctxOf s r.form) (addrsOf ((ctxOf s r.form).operands r.form.reads) r.operand r.off (ctxOf s r.form).t)
        r.size r.p (r.takes false) 0x11 = true) ∧
    (∃ r, checkRow (.atom .add 5 12 .block .always true) = some r ∧ Clear s r.form (ctxOf s r.form) ∧
      stops s (ctxOf s r.form) (addrsOf ((ctxOf s r.form).operands r.form.reads) r.operand r.off (ctxOf s r.form).t)
        r.size r.p (r.takes false) 0x13 = true ∧ (ctxOf s r.form).w.hold = none ∧ (ctxOf s r.form).w.holdOn = none ∧
      (ctxOf s r.form).w.partDone = 0) :=
  ⟨⟨_, rfl, clear_of (by decide), by decide +kernel⟩, ⟨_, rfl, clear_of (by decide), by decide +kernel⟩⟩

theorem witness_AddressesAreChecked :
    let c := ctxOf (duo []) loadForm
    (duo []).spaceOk c 0x1000000000000000 = false ∧ (duo []).spaceOk c 6 = true ∧ (6 : DWord).toNat % 4 ≠ 0 ∧
    (duo []).spaceOk c 0xC000000000001000 = true ∧ (0xC000000000001000 : DWord).toNat % 4 = 0 ∧
    c.spaceSize 0xC000000000001000 < offsetOf 0xC000000000001000 + 4 := by decide

/-- A word of no operands, one of an address pair, and a fence. -/
def addrForm : Form := ⟨.always, true, 1, [(10, 2)], [], false, false, id⟩

theorem witness_FencesAndCacheWords :
    Clear (duo [(10, 0x40)]) addrForm (ctxOf (duo [(10, 0x40)]) addrForm) ∧
    Clear (duo [(10, 0x40)]) ⟨.always, true, 2, [(10, 2)], [], false, false, id⟩
      (ctxOf (duo [(10, 0x40)]) ⟨.always, true, 2, [(10, 2)], [], false, false, id⟩) ∧
    (∀ x ∈ addrsOf ((ctxOf (duo [(10, 0x40)]) addrForm).operands [(10, 2)]) 0 0 (ctxOf (duo [(10, 0x40)]) addrForm).t,
      (duo [(10, 0x40)]).spaceOk (ctxOf (duo [(10, 0x40)]) addrForm) x.2 = true) ∧
    Clear (duo []) ⟨.always, true, 1, [], [], false, false, id⟩
      (ctxOf (duo []) ⟨.always, true, 1, [], [], false, false, id⟩) ∧ (duo []).TablesRise :=
  ⟨clear_of (by decide), clear_of (by decide), by decide, clear_of (by decide), by unfold State.TablesRise; decide⟩

/-- A prefetch of a line whose translation the core holds; a `cinv` of an address of no space. -/
theorem witness_FencesAndCacheWords_lines :
    let s := warm (world [(10, 0x40)])
    let c := ctxOf s addrForm
    let bad := paged (world [(11, 0x10000000)])
    Clear s addrForm c ∧ addrsOf (c.operands [(10, 2)]) 0 0 c.t = [(0, 0x40)] ∧ s.spaceOk c 0x40 = true ∧
    (∃ m, s.cached c.w.core c.l.asid 0x40 = some m ∧ m.permits .read c.w.sup = true ∧
      s.route (m.target 0x40) = .here (.mem 0x20040)) ∧
    s.poisoned (.mem 0x20040) 1 = false ∧ s.TablesRise ∧ s.hit = false ∧ KMap.wf (s.core c.w.core).l1 = true ∧
    Clear bad addrForm (ctxOf bad addrForm) ∧
    addrsOf ((ctxOf bad addrForm).operands [(10, 2)]) 0 0 (ctxOf bad addrForm).t = [(0, 0x1000000000000000)] ∧
    bad.spaceOk (ctxOf bad addrForm) 0x1000000000000000 = false :=
  ⟨clear_of (by decide), by decide, by decide, ⟨_, rfl, by decide, by decide⟩, by decide,
    by unfold State.TablesRise; decide, by decide, by decide, clear_of (by decide), by decide, by decide⟩

theorem witness_FencesAndCacheWords_fence :
    let f := controlForm .always false []
    Clear (world []) f (ctxOf (world []) f) ∧ (world []).released (ctxOf (world []) f).w .system = true ∧
    (world []).NonePublished ∧ Clear owing f (ctxOf owing f) ∧ (ctxOf owing f).l.dqm = false ∧
    owing.released (ctxOf owing f).w .wave = false ∧ owing.later = false :=
  ⟨clear_of (by decide), by decide, by unfold State.NonePublished; decide, clear_of (by decide), by decide⟩

/-- An acquire load of one lane. -/
def acquiring : State := paged (world [(10, 0x40)])

theorem witness_AcquireAndRelease : ∃ r, acquireRow (.ldScD 4 10 .device .always true) = some r ∧
    Clear acquiring r.row.loadForm (ctxOf acquiring r.row.loadForm) ∧ acquiring.NonePublished ∧
    (ctxOf acquiring r.row.loadForm).w.holdOn = none ∧
    ∃ rs hs s1, acquiring.gate (ctxOf acquiring r.row.loadForm)
        (addrsOf ((ctxOf acquiring r.row.loadForm).operands [(r.row.a, 2)]) 0 0 (ctxOf acquiring r.row.loadForm).t)
        (addrsOf ((ctxOf acquiring r.row.loadForm).operands [(r.row.a, 2)]) 0 0 (ctxOf acquiring r.row.loadForm).hl)
        r.row.size .read (if r.stamped && !(ctxOf acquiring r.row.loadForm).l.dqm then .home else .copy) = .go rs hs s1 ∧
      (here (rs ++ hs) && !s1.later) = true :=
  ⟨_, rfl, clear_of (by decide), by unfold State.NonePublished; decide, by decide, gated_of (by decide)⟩

/-- The wave's word is held by an access that is still to be performed, or has been. -/
def heldOn (s : State) (done : Bool) : State :=
  withWave s fun w =>
    { w with holdOn := some 3, outst := if done then [] else [⟨3, false, 4, false, [], 0, [], none, none, none, none, none, []⟩] }

theorem witness_AcquireAndRelease_later : ∃ r, acquireRow (.ldAcqW 4 10 .device .always true) = some r ∧
    (∀ done ∈ [false, true], (heldOn acquiring done).NonePublished ∧
      (ctxOf (heldOn acquiring done) r.row.loadForm).w.holdOn = some 3 ∧
      (done = decide (∀ a ∈ (ctxOf (heldOn acquiring done) r.row.loadForm).w.outst, a.id ≠ 3))) ∧
    Clear (heldOn acquiring false) r.row.loadForm (ctxOf (heldOn acquiring false) r.row.loadForm) ∧
    Clear (heldOn acquiring true) r.row.loadForm (ctxOf (heldOn acquiring true) r.row.loadForm) :=
  ⟨_, rfl, by unfold State.NonePublished; decide, clear_of (by decide), clear_of (by decide)⟩

/-- Another wave of the block has published a store at block scope. -/
def publishedBy : Wave :=
  { wave [] with index := 1, outst := [⟨7, true, 4, false, [], 0, [⟨0, .here (.mem 0x20000), 0, 5, 0⟩], none, none, none,
    some .block, none, []⟩] }

theorem witness_AcquireAndRelease_published :
    let s := { acquiring with waves := [(0, wave []), (1, publishedBy)] }
    s.waves.get? 0 = some (wave []) ∧ KMap.wf s.waves = true ∧ s.waves.get? 1 = some publishedBy ∧
    (∃ a ∈ publishedBy.outst, a.rel = some .block) ∧ publishedBy.includes (wave []) .block = true ∧
    (wave []).includes publishedBy .block = true ∧
    (∀ e ∈ s.waves, (e.2.outst.map fun x => x.id).Pairwise (· ≠ ·)) := by decide

/-- A release store of one lane, before and after it has been performed. -/
def releaseForm : Form := ⟨.always, true, 1, [(5, 1), (10, 2)], [], false, false, id⟩

theorem witness_AcquireAndRelease_store : ∃ r, releaseRow (.stRelW 5 10 .system .always true) = some r ∧
    r.row.storeForm = releaseForm ∧
    Clear (paged (world [(5, 9), (10, 0x40)])) releaseForm (ctxOf (paged (world [(5, 9), (10, 0x40)])) releaseForm) ∧
    (paged (world [(5, 9), (10, 0x40)])).MemCanon ∧ run.dqm = false ∧ run.record.options.getLsbD 2 = false ∧
    block.snap = none ∧ (wave []).hold = none ∧ (wave []).holdOn = none ∧
    ∃ rs hs s1, (paged (world [(5, 9), (10, 0x40)])).gate (ctxOf (paged (world [(5, 9), (10, 0x40)])) releaseForm)
        (addrsOf ((ctxOf (paged (world [(5, 9), (10, 0x40)])) releaseForm).operands [(r.row.d, r.row.regs), (r.row.a, 2)])
          1 0 (ctxOf (paged (world [(5, 9), (10, 0x40)])) releaseForm).t) [] r.row.size .write .nothing = .go rs hs s1 ∧
      (here rs && !s1.later && s1.released (ctxOf (paged (world [(5, 9), (10, 0x40)])) releaseForm).w r.sc) = true :=
  ⟨_, rfl, rfl, clear_of (by decide), by unfold State.MemCanon; decide, rfl, by decide, rfl, rfl, rfl, gated_of (by decide)⟩

theorem witness_AcquireAndRelease_held :
    let s := withWave (paged (world [(5, 9), (10, 0x40)])) fun w => { w with hold := some 0 }
    let done := heldOn (paged (world [(5, 9), (10, 0x40)])) true
    Clear s releaseForm (ctxOf s releaseForm) ∧ (ctxOf s releaseForm).w.hold = some 0 ∧ 0 ≤ s.now ∧
    Clear done releaseForm (ctxOf done releaseForm) ∧ (ctxOf done releaseForm).w.holdOn = some 3 ∧
    (∀ a ∈ (ctxOf done releaseForm).w.outst, a.id ≠ 3) ∧ (ctxOf done releaseForm).w.horizon ≤ done.now :=
  ⟨clear_of (by decide), by decide, by decide, clear_of (by decide), by decide⟩

/-- A `cas.d` of one lane. -/
def casState : State := paged (world [(6, 1), (7, 9), (10, 0x40)])

theorem witness_AtomicsReadModifyWrite : ∃ r, rmwRow (.casD 4 10 .block .always true) = some r ∧
    Clear casState r.form (ctxOf casState r.form) ∧ casState.MemCanon ∧ (ctxOf casState r.form).l.dqm = false ∧
    (ctxOf casState r.form).NoRollback ∧ (ctxOf casState r.form).w.hold = none ∧
    (ctxOf casState r.form).w.holdOn = none ∧ (ctxOf casState r.form).w.partDone = 0 ∧ casState.OnChipCanon ∧
    casState.NonePublished ∧ wideScope r.sc = false ∧
    (∀ j, j < r.op.width → casState.windowAt (0x20040 + j) = none) ∧
    ∃ rs hs s1, casState.gate (ctxOf casState r.form)
        (addrsOf ((ctxOf casState r.form).operands [(r.d, r.op.reads), (r.a, 2)]) 1 0 (ctxOf casState r.form).t) []
        r.op.width .write .home = .go rs hs s1 ∧
      (decide (rs.map Reach.tgt = [.here (.mem 0x20040)]) && decide (rs.map Reach.lane = (ctxOf casState r.form).lanes) &&
        !s1.later && s1.released (ctxOf casState r.form).w r.sc) = true :=
  ⟨_, rfl, clear_of (by decide), by unfold State.MemCanon; decide, by decide, by unfold Ctx.NoRollback; decide,
    by decide, by decide, by decide, onChip_of (by decide) rfl rfl, by unfold State.NonePublished; decide, rfl,
    by decide, gated_of (by decide)⟩

/-- A held atomic whose time has come. -/
theorem witness_AtomicsReadModifyWrite_held : ∃ r, rmwRow (.casD 4 10 .device .always true) = some r ∧
    let s := withWave casState fun w => { w with hold := some 0 }
    Clear s r.form (ctxOf s r.form) ∧ (ctxOf s r.form).l.dqm = false ∧ (ctxOf s r.form).w.hold = some 0 ∧ 0 ≤ s.now :=
  ⟨_, rfl, clear_of (by decide), by decide⟩

/-- DQM: `atom.f32.add` of the block's own scratchpad; of memory with room in the share, and with none. -/
def atomic (hi : Word) (used : Nat) : State :=
  withRun (withWave (paged (world [(4, 0x3F800000), (10, 0x40), (11, hi)])) fun w => { w with shareUsed := used }) fun l =>
    { l with dqm := true }

theorem witness_AtomicsReadModifyWrite_dqm : ∃ r, rmwRow (.atomF32 .add 4 10 .block .always true) = some r ∧
    (∀ x ∈ ([(0xC0000000, 0), (0, 1008), (0, 1009)] : List (Word × Nat)),
      (ctxOf (atomic x.1 x.2) r.form).l.dqm = true ∧
      gated (atomic x.1 x.2) (ctxOf (atomic x.1 x.2) r.form)
        (addrsOf ((ctxOf (atomic x.1 x.2) r.form).operands [(r.d, r.op.reads), (r.a, 2)]) 1 0
          (ctxOf (atomic x.1 x.2) r.form).t) [] r.op.width .write .home (fun rs _ _ => here rs &&
            decide (rs.map Reach.lane = (ctxOf (atomic x.1 x.2) r.form).lanes) &&
            rs.all (fun y => (ctxOf (atomic x.1 x.2) r.form).ownScr y.tgt == decide (x.1 ≠ 0)) &&
            (decide (x.1 ≠ 0) || decide (x.2 + 16 * rs.length ≤ 1024) == decide (x.2 = 1008))) = true) ∧
    Clear (atomic 0xC0000000 0) r.form (ctxOf (atomic 0xC0000000 0) r.form) ∧
    Clear (atomic 0 1008) r.form (ctxOf (atomic 0 1008) r.form) ∧
    Clear (atomic 0 1009) r.form (ctxOf (atomic 0 1009) r.form) :=
  ⟨_, rfl, by decide +kernel, clear_of (by decide), clear_of (by decide), clear_of (by decide)⟩

/-- DQM: a `cas.d` of 40 lanes, lane 0 in the block's own scratchpad and the others in memory, with an empty share. -/
def mixed (lanes : Nat) : State :=
  withRun (withWave (paged (world [(6, 1), (7, 9)])) fun w =>
    { w with
      active := maskOf fun i => decide (i < lanes)
      regs := (w.regs.set 10 (vecOf fun i => if i = 0 then 0x80 else BitVec.ofNat 32 (8 * i))).set 11
        (vecOf fun i => if i = 0 then 0xC0000000 else 0) }) fun l => { l with dqm := true }

theorem witness_AtomicsReadModifyWrite_mixed : ∃ r, rmwRow (.casD 4 10 .block .always false) = some r ∧
    (∀ lanes ∈ [3, 40],
      let s := mixed lanes
      let c := ctxOf s r.form
      clear s r.form = true ∧ c.l.dqm = true ∧ c.w.hold = none ∧ c.w.holdOn = none ∧ c.w.partDone = 0 ∧
      gated s c (addrsOf (c.operands [(r.d, r.op.reads), (r.a, 2)]) 1 0 c.t) [] r.op.width .write .home (fun rs _ _ =>
        here rs && decide (rs.map Reach.lane = c.lanes) && decide ((rs.filter fun y => c.ownScr y.tgt).length = 1) &&
        (decide (lanes = 3) || decide (1024 < 32 * (rs.filter fun y => !c.ownScr y.tgt).length))) = true) :=
  ⟨_, rfl, by decide +kernel⟩

/-- A `poll` of one lane. -/
def pollForm : Form := ⟨.always, true, 1, [(4, 1), (10, 2)], [(4, 1)], true, true, id⟩

theorem witness_PollCompares : Clear acquiring pollForm (ctxOf acquiring pollForm) ∧
    ∃ rs hs s1, acquiring.gate (ctxOf acquiring pollForm)
        (addrsOf ((ctxOf acquiring pollForm).operands [(4, 1), (10, 2)]) 1 0 (ctxOf acquiring pollForm).t)
        (addrsOf ((ctxOf acquiring pollForm).operands [(4, 1), (10, 2)]) 1 0 (ctxOf acquiring pollForm).hl)
        4 .read .copy = .go rs hs s1 ∧ (here (rs ++ hs) && !s1.later) = true :=
  ⟨clear_of (by decide), gated_of (by decide)⟩

theorem witness_PollCompares_later :
    (∀ done ∈ [false, true], (heldOn acquiring done).NonePublished ∧
      (ctxOf (heldOn acquiring done) pollForm).w.holdOn = some 3 ∧
      (done = decide (∀ a ∈ (ctxOf (heldOn acquiring done) pollForm).w.outst, a.id ≠ 3))) ∧
    Clear (heldOn acquiring false) pollForm (ctxOf (heldOn acquiring false) pollForm) ∧
    Clear (heldOn acquiring true) pollForm (ctxOf (heldOn acquiring true) pollForm) :=
  ⟨by unfold State.NonePublished; decide, clear_of (by decide), clear_of (by decide)⟩

/-! ## Synchronisation -/

/-- A block of two waves, of which the other waits at its `bar.b`. -/
def meeting : State :=
  { withBlock (world []) (fun b => { b with waves := 2 }) with
    waves := [(0, wave []), (1, { wave [] with index := 1, blocked := some .barB })] }

/-- The word of a barrier, a ticket or a wait with no operand. -/
def plainForm : Form := controlForm .always false []

theorem witness_BarriersMeet : barRow (.barB .always) = some (.barB, .always) ∧ Blocked.barB ≠ .barDom ∧
    Clear meeting plainForm (ctxOf meeting plainForm) ∧ (ctxOf meeting plainForm).w.blocked ≠ some .barB ∧
    meeting.TablesRise ∧ meeting.NonePublished ∧ BarAllowed .barB (ctxOf meeting plainForm).l ∧ (ctxOf meeting plainForm).l.dqm = false ∧
    meeting.released (ctxOf meeting plainForm).w (barScope .barB) = true ∧
    meeting.allArrived .barB (ctxOf meeting plainForm).b.launch (ctxOf meeting plainForm).l
      (ctxOf meeting plainForm).w.block (ctxOf meeting plainForm).b (some 0) = true ∧
    (1 ∈ meeting.waves.map (·.1)) ∧ (ctxOf meeting plainForm).w.block ∈ meeting.barBlocks .barB
      (ctxOf meeting plainForm).b.launch (ctxOf meeting plainForm).l (ctxOf meeting plainForm).w.block
      (ctxOf meeting plainForm).b :=
  ⟨rfl, by decide, clear_of (by decide), by decide, by unfold State.TablesRise; decide,
    by unfold State.NonePublished; decide, by unfold BarAllowed; trivial, by decide, by decide, by decide, by decide, by decide⟩

/-- The other wave has not arrived; an access is outstanding; the launch may not use `bar.dev`; DQM. -/
theorem witness_BarriersMeet_others :
    let apart := { meeting with waves := [(0, wave []), (1, { wave [] with index := 1 })] }
    Clear apart plainForm (ctxOf apart plainForm) ∧
    apart.allArrived .barB (ctxOf apart plainForm).b.launch (ctxOf apart plainForm).l (ctxOf apart plainForm).w.block
      (ctxOf apart plainForm).b (some 0) = false ∧
    Clear owing plainForm (ctxOf owing plainForm) ∧ owing.released (ctxOf owing plainForm).w (barScope .barB) = false ∧
    ¬ BarAllowed .barDev (ctxOf owing plainForm).l ∧
    Clear (buffering 0) plainForm (ctxOf (buffering 0) plainForm) ∧ (ctxOf (buffering 0) plainForm).l.dqm = true ∧
    barAtBoundary .barC = true ∧ owing.NonePublished ∧ owing.later = false ∧ owing.TablesRise :=
  ⟨clear_of (by decide), by decide, clear_of (by decide), by decide, by unfold BarAllowed; decide,
    clear_of (by decide), by decide, by decide, by unfold State.NonePublished; decide, by decide,
    by unfold State.TablesRise; decide⟩

/-- The ticket words. -/
def ticketForm : Form := ⟨.always, true, 1, [], [(2, 1)], false, false, id⟩

theorem witness_TicketsAndDirections :
    Clear (world []) (controlForm .always true []) (ctxOf (world []) (controlForm .always true [])) ∧
    block.ticket = some 0 ∧ run.standing = none ∧ run.dqm = false ∧ (world []).blockReleased 0 = true ∧
    run.takenAhead = [] ∧ owing.blockReleased 0 = false ∧
    (∃ ops s1, Fed (world []) ticketForm (ctxOf (world []) ticketForm) ops s1 ∧ ops = [] ∧ s1 = world []) ∧
    0 ≤ run.tickets ∧ run.tickets < 1 ∧ (world []).NonePublished :=
  ⟨clear_of (by decide), rfl, rfl, rfl, by decide, rfl, by decide,
    ⟨_, _, fed_of (f := ticketForm) (by decide), rfl, rfl⟩, by decide, by decide, by unfold State.NonePublished; decide⟩

theorem witness_TicketsAndDirections_none :
    let s := withBlock (world []) fun b => { b with ticket := none }
    Clear s (controlForm .always true []) (ctxOf s (controlForm .always true [])) ∧
    Fed s ticketForm (ctxOf s ticketForm) ((ctxOf s ticketForm).operands []) s ∧
    (ctxOf s ticketForm).b.ticket = none ∧
    ((withRun (world []) fun l => { l with standing := some 0 }).launches.get? 0).elim false
      (fun l => l.standing.isSome) = true :=
  ⟨clear_of (by decide), fed_of (f := ticketForm) (by decide), by decide, by decide⟩

/-- `qcfg` in a launch that pairs its waves. -/
def configuring : State :=
  { withRun (world [(3, 5)]) fun l => { l with record := { l.record with options := 2 } } with
    waves := [(0, wave [(3, 5)]), (16, { wave [] with shadow := true, pc := 4 })] }

theorem witness_TicketsAndDirections_qcfg :
    let f := controlForm .always true [(3, 1)]
    let c := ctxOf configuring f
    Fed configuring f c (c.operands [(3, 1)]) configuring ∧ KMap.wf c.b.dirs = true ∧
    c.l.record.options.getLsbD 1 = true ∧ (opLane (c.operands [(3, 1)]) 0 c.src) = 5 ∧
    (∀ n, n < 4 → c.b.queue c.w.index n = [] ∧ configuring.blockedOn c.partner n = false) ∧
    (ctxOf (world [(3, 5)]) f).l.record.options.getLsbD 1 = false :=
  ⟨fed_of (f := controlForm .always true [(3, 1)]) (by decide), by decide⟩

/-! ## Engines -/

/-- A copy of 16 bytes from 0x40 to 0x80. -/
def copying : State := paged (world [(16, 0x40), (18, 0x80), (20, 16)])

theorem witness_JobWordsGiveJobs : copyRow (.copy1d 16 .always) = some (.d1, 16, .always) ∧
    Clear copying (descForm 16 .always) (ctxOf copying (descForm 16 .always)) ∧
    (let c := ctxOf copying (descForm 16 .always)
     let desc := c.desc 16
     let f := footprints .d1 desc (c.footprintAddr (descSrc desc)) (c.footprintAddr (descDst desc))
     descOk .d1 desc = true ∧ copying.descAddrOk c (descSrc desc) = true ∧
       copying.descAddrOk c (descDst desc) = true ∧ anyMeet f.1 f.2 = false ∧ c.l.dqm = false ∧
       (copying.core c.w.core).engaged < 64) ∧
    descOk .d1 ((ctxOf (world []) (descForm 16 .always)).desc 16) = false :=
  ⟨rfl, clear_of (by decide), by decide, by decide⟩

/-- The same in DQM, with the last 32 bytes of the share free, or fewer. -/
def copyingShare (used : Nat) : State :=
  withRun (withWave copying fun w => { w with shareUsed := used }) fun l => { l with dqm := true }

theorem witness_JobWordsGiveJobs_share :
    (∀ used ∈ [992, 993], (ctxOf (copyingShare used) (descForm 16 .always)).l.dqm = true ∧
      (ctxOf (copyingShare used) (descForm 16 .always)).w.shareUsed = used) ∧
    Clear (copyingShare 992) (descForm 16 .always) (ctxOf (copyingShare 992) (descForm 16 .always)) ∧
    Clear (copyingShare 993) (descForm 16 .always) (ctxOf (copyingShare 993) (descForm 16 .always)) ∧
    992 + 32 ≤ 1024 ∧ 1024 < 993 + 32 :=
  ⟨by decide, clear_of (by decide), clear_of (by decide), by decide⟩

/-- An `all-gather` of a group of devices 0 and 1. -/
def gathering : State :=
  withRun (paged (world [(16, 0x40), (18, 0x80), (20, 4)])) fun l =>
    { l with flags := 8, groups := [⟨3, true, 0⟩] }

theorem witness_JobWordsGiveJobs_coll :
    Clear gathering (descForm 16 .always) (ctxOf gathering (descForm 16 .always)) ∧
    (let c := ctxOf gathering (descForm 16 .always)
     let desc := c.desc 16
     dw desc 5 < 16 ∧ c.l.groupAt (dw desc 5) = some ⟨3, true, 0⟩ ∧
       collOk .ag desc (Group.list ⟨3, true, 0⟩).length = true ∧
       (gathering.descAddrOk c (descSrc desc) && (spaceOf (descSrc desc) == 0 || spaceOf (descSrc desc) == 0xE)) = true ∧
       (gathering.descAddrOk c (descDst desc) && (spaceOf (descDst desc) == 0 || spaceOf (descDst desc) == 0xE)) = true ∧
       c.l.dqm = false ∧ (gathering.core c.w.core).engaged < 64) ∧
    (ctxOf copying (descForm 16 .always)).l.groupAt 0 = none :=
  ⟨clear_of (by decide), by decide, by decide⟩

/-- A deferred fault of batch 1, and one of the wave's first tile operation. -/
def failed : State :=
  withWave (world [(7, 1)]) fun w =>
    { w with batch := 1, tiles := 1, deferred := [⟨0, 5, 0x18, 0, 0, 1, true⟩, ⟨1, 6, 0x34, 0, 0, 0, false⟩] }

theorem witness_BatchesAndWaits :
    let f := controlForm .always true [(7, 1)]
    Fed (world []) ticketForm (ctxOf (world []) ticketForm) [] (world []) ∧
    Fed awaiting f (ctxOf awaiting f) ((ctxOf awaiting f).operands [(7, 1)]) awaiting ∧
    (∃ j ∈ (awaiting.core (ctxOf awaiting f).w.core).jobs, j.wave = (ctxOf awaiting f).key ∧ j.batch ≤ 1) ∧
    Fed failed f (ctxOf failed f) ((ctxOf failed f).operands [(7, 1)]) failed ∧
    (failed.core (ctxOf failed f).w.core).jobs = [] ∧
    (∃ x ∈ (ctxOf failed f).w.deferred, x.job = true ∧ x.batch ≤ 1) ∧ (ctxOf failed f).l.standing = none ∧
    (ctxOf failed f).b.snap = none :=
  ⟨fed_of (f := ticketForm) (by decide), fed_of (f := controlForm .always true [(7, 1)]) (by decide), by decide,
    fed_of (f := controlForm .always true [(7, 1)]) (by decide), by decide⟩

theorem witness_BatchesAndWaits_c :
    Clear owing plainForm (ctxOf owing plainForm) ∧
    (0 : BitVec 5).toNat < ((ctxOf owing plainForm).w.outst.filter fun a => a.store).length +
      (ctxOf owing plainForm).w.peerOut.length ∧
    Clear failed plainForm (ctxOf failed plainForm) ∧
    (∃ x ∈ (ctxOf failed plainForm).w.deferred, x.job = false ∧ (ctxOf failed plainForm).w.required 0 x.seq = true) ∧
    (∀ x ∈ (ctxOf failed plainForm).w.deferred, x.job = true ∨ (ctxOf failed plainForm).w.required 1 x.seq = false) :=
  ⟨clear_of (by decide), by decide, clear_of (by decide), by decide⟩

/-! ## Standing words -/

theorem witness_StandingWords :
    let f := controlForm .always true [(2, 1)]
    let g : Form := ⟨.always, true, 1, [(2, 1)], [(3, 1)], false, false, id⟩
    Fed relaxing f (ctxOf relaxing f) ((ctxOf relaxing f).operands [(2, 1)]) relaxing ∧
    Fed relaxing g (ctxOf relaxing g) ((ctxOf relaxing g).operands [(2, 1)]) relaxing ∧
    (opLane ((ctxOf relaxing g).operands [(2, 1)]) 0 (ctxOf relaxing g).src).toNat = 1 ∧
    (ctxOf relaxing g).l.standing = some 0 ∧ relaxing.programs.get? 0 = some program ∧ 1 < program.n ∧
    relaxing.residuals.get? (program.base + 1) = some (entry 0x3F000000 0b00) ∧
    program.eqs.get? (ctxOf relaxing g).b.rank = some ⟨0x3F800000, 0, 0, 0, [], 0⟩ :=
  ⟨fed_of (f := controlForm .always true [(2, 1)]) (by decide),
    fed_of (f := ⟨.always, true, 1, [(2, 1)], [(3, 1)], false, false, id⟩) (by decide), by decide⟩

theorem witness_StandingWords_others :
    let f : Form := ⟨.always, false, 1, [], [(2, 1)], true, false, id⟩
    let g : Form := ⟨.always, false, 1, [], [(2, 2)], true, false, id⟩
    Clear relaxing (controlForm .always true []) (ctxOf relaxing (controlForm .always true [])) ∧
    Fed relaxing f (ctxOf relaxing f) [] relaxing ∧ Clear relaxing g (ctxOf relaxing g) ∧
    (ctxOf (world []) g).l.standing = none :=
  ⟨clear_of (by decide), fed_of (f := ⟨.always, false, 1, [], [(2, 1)], true, false, id⟩) (by decide),
    clear_of (by decide), by decide⟩

/-! ## The matrix engine -/

/-- `mma.bf16` of 1 row, 64 columns and k = 1, its A in register 40, its B at register 0. -/
def multiplying : State := world [(16, 0x00010000), (17, 0x00400001), (18, 0x00280001)]

theorem witness_MatrixWordsQueue :
    let c := ctxOf multiplying (tileForm .always [(16, 8)] [])
    let x := mmaDesc (c.desc 16)
    let brun := quarterRuns c 0 ((x.n + 63) / 64) ((x.k + 31) / 32) (chunkRegs .bf16)
    let arun : List RegRun := [(c.key, x.areg, (x.k + 31) / 32 * ((x.m + 63) / 64) * chunkRegs .bf16)]
    let us := tileUnits c.w.block x.coff x.cpitch (min x.m 128) ((x.n * accElem .bf16 + 255) / 256)
    Clear multiplying (tileForm .always [(16, 8)] []) c ∧ multiplying.runsOk (brun ++ arun) = true ∧
    c.w.shadow = false ∧ mmaDescOk .bf16 false (c.desc 16) = true ∧ x.asrc = 0 ∧
    multiplying.kindFits (mmaKind .bf16) us = true ∧ multiplying.unitsIn us = true ∧
    (multiplying.runStop c (quarterReads .bf16 x.n x.k brun ++ arun.map (rowsRead .bf16 x.m x.k)) []).isNone = true ∧
    multiplying.slotsRead (quarterReads .bf16 x.n x.k brun ++ arun.map (rowsRead .bf16 x.m x.k)) = [] ∧
    multiplying.pairHolds c.w.core = false ∧ (∀ k ∈ issueCores c.w.core false, multiplying.govSpent k = false) ∧
    mmaDescOk .bf16 false ((ctxOf (world []) (tileForm .always [(16, 8)] [])).desc 16) = false :=
  ⟨clear_of (by decide), by decide⟩

/-- The same with its A, of 2 bytes, in memory at an address of the page at 0, performed at once; in DQM or not. -/
def fetching (dqm : Bool) (addr : Word) : State :=
  withRun (paged (world [(16, 0x00010000), (17, 0x00400001), (18, 0x1001), (19, addr)])) fun l => { l with dqm := dqm }

/-- How a fetch of rows ends: with bytes, or with a cause. -/
def fetchesRows (s : State) (c : Ctx) (gran : Nat) (rows : List (DWord × Nat)) (n : Nat) : Bool :=
  match s.fetchRuns c gran [] rows with
  | .ok bs _ => decide (bs.length = n)
  | .bad k _ => decide (k = n)
  | _ => false

theorem witness_MatrixWordsQueue_memory : ∀ dqm ∈ [false, true],
    let s := fetching dqm 0x40
    let bad := probing (fetching dqm 0x2000)
    let c := ctxOf s (tileForm .always [(16, 8)] [])
    let e := ctxOf bad (tileForm .always [(16, 8)] [])
    let x := mmaDesc (c.desc 16)
    let y := mmaDesc (e.desc 16)
    clear s (tileForm .always [(16, 8)] []) = true ∧ c.l.dqm = dqm ∧ x.asrc = 1 ∧
    mmaDescOk .bf16 false (c.desc 16) = true ∧ s.FetchFree c 2 (x.rows .bf16) ∧ s.later = false ∧
    fetchesRows s c 2 (x.rows .bf16) 2 = true ∧ s.hit = false ∧ (s.core c.w.core).l1 = [] ∧ c.w.share = [] ∧
    clear bad (tileForm .always [(16, 8)] []) = true ∧ mmaDescOk .bf16 false (e.desc 16) = true ∧
    bad.FetchFree e 2 (y.rows .bf16) ∧ fetchesRows bad e 2 (y.rows .bf16) 0x14 = true := by
  unfold State.FetchFree; decide +kernel

/-- A tile of 1 row and 64 FP32 columns at address 0x40. -/
def tiling (later : Bool) : State :=
  { paged (world [(16, 0x00010000), (17, 0x00400001), (19, 0x40)]) with later := later }

theorem witness_MatrixWordsQueue_tiles :
    let c := ctxOf (tiling true) (tileForm .always [(16, 8)] [])
    let x := tileDesc (c.desc 16)
    let as := (x.runs.flatMap (runAddrs (memElem x.fmt))).map fun p => (0, p)
    Clear (tiling true) (tileForm .always [(16, 8)] []) c ∧ c.w.shadow = false ∧ x.fmt = 0 ∧
    tileDescOk false (c.desc 16) = true ∧ tileDescOk true (c.desc 16) = true ∧
    (tiling true).unitsIn (x.units c.w.block) = true ∧ (tiling true).pairHolds c.w.core = false ∧
    (tiling true).later = true ∧ c.l.dqm = false ∧
    (tiling true).kindFits (fmtKind x.fmt) (x.units c.w.block) = true ∧
    (tiling true).heldByJob c as (memElem x.fmt) false = false ∧
    (tiling true).heldByTile c x.runs [] false = false ∧
    (tiling true).outMeets c (tiling true).seq false x.runs = false ∧ (∀ p ∈ as, (tiling true).unstarted c p.2 = false) ∧
    (tiling true).heldByJob c as (memElem x.fmt) true = false ∧
    (tiling true).heldByTile c x.runs [] true = false :=
  ⟨clear_of (by decide), by decide +kernel⟩

/-- A unit word: one FP32 unit, unit 3. -/
def unitState : State := world [(25, 0x02000803)]

theorem witness_UnitAndTenureWordsQueue : ∃ r, unitRow (.accRd 24 25 .always) = some r ∧
    Fed unitState (tileForm r.g [(r.a, 1)] []) (ctxOf unitState (tileForm .always [(25, 1)] []))
      ((ctxOf unitState (tileForm .always [(25, 1)] [])).operands [(25, 1)]) unitState ∧
    r.Admits unitState (ctxOf unitState (tileForm .always [(25, 1)] [])) (unitWord 0x02000803) ∧
    opLane ((ctxOf unitState (tileForm .always [(25, 1)] [])).operands [(25, 1)]) 0
      (ctxOf unitState (tileForm .always [(25, 1)] [])).src = 0x02000803 :=
  ⟨_, rfl, fed_of (f := tileForm .always [(25, 1)] []) (by decide),
    ⟨by decide, by decide, by decide, by decide, by decide, by decide, Option.isNone_iff_eq_none.mp (by decide),
      by decide⟩, by decide⟩

theorem witness_UnitAndTenureWordsQueue_residues :
    let c := ctxOf (world []) (tileForm .always [] [])
    Clear (world []) (tileForm .always [] []) c ∧
    (world []).runsOk (((List.range 8).map fun p => (c.key, 40 + 8 * p, 1)) ++ [(c.key, 4, 4)]) = true ∧
    c.w.shadow = false ∧ (world []).rnsDead c.w.core = false ∧
    ((world []).runStop c [((c.key, 4, 4), fun _ => some c.w.active)] ((List.range 8).map fun p => (c.key, 40 + 8 * p, 1))).isNone = true ∧
    (world []).runsOk [(c.key, 24, 1)] = true ∧ ((world []).runStop c [] [(c.key, 24, 1)]).isNone = true ∧
    (world []).pairHolds c.w.core = false :=
  ⟨clear_of (by decide), by decide⟩

theorem witness_UnitAndTenureWordsQueue_pin :
    let c := ctxOf (world []) (tileForm .always [(7, 1)] [])
    Fed (world []) (tileForm .always [(7, 1)] []) c (c.operands [(7, 1)]) (world []) ∧
    (world []).runsOk [(c.key, 0, 1)] = true ∧ c.w.shadow = false ∧ (0 : Word).toNat < 16 ∧ c.b.rank < 2 ^ 24 ∧
    (world []).pinsOf c.b c.l < 255 ∧ ((world []).runStop c [] [(c.key, 0, 1)]).isNone = true ∧
    (world []).pairHolds c.w.core = false ∧
    hasRoom (world []) c.b.launch c.w.core c.b.imCore (shapeGran (BitVec.ofNat 4 0)) = true ∧
    16 ≤ (0x10 : Word).toNat :=
  ⟨fed_of (f := tileForm .always [(7, 1)] []) (by decide), by decide⟩

theorem witness_UnitAndTenureWordsQueue_tenures :
    let f := tileForm .always [(0, 1)] []
    let c := ctxOf pinned f
    Fed pinned f c (c.operands [(0, 1)]) pinned ∧ opLane (c.operands [(0, 1)]) 0 c.src = 1 ∧
    pinned.named c.b.launch 1 = .on c.w.core 0 tenure ∧ tenure.failed = false ∧ c.l.dqm = false ∧
    pinned.tenureBusy c.b.launch 1 = false ∧ pinned.pairHolds c.w.core = false ∧ c.w.shadow = false ∧
    pinned.govSpent c.w.core = false ∧
    pinned.runsOk [(c.key, 0, 1 + shapeK 0 / 64 + shapeV 0 / 64), (c.key, 30, 2)] = true ∧
    (pinned.runStop c ([(c.key, 0, 1 + shapeK 0 / 64 + shapeV 0 / 64), (c.key, 30, 2)].map wholeRun) []).isNone = true ∧
    pinned.runsOk [(c.key, 0, 1 + shapeK 0 / 64), (c.key, 60, shapeV 0 / 64)] = true ∧
    (pinned.runStop c [wholeRun (c.key, 0, 1 + shapeK 0 / 64)] [(c.key, 60, shapeV 0 / 64)]).isNone = true :=
  ⟨fed_of (f := tileForm .always [(0, 1)] []) (by decide), by decide, named_of (by decide), by decide⟩

theorem witness_UnitAndTenureWordsQueue_unpin :
    let f := tileForm .always [(0, 1), (20, 2)] []
    let c := ctxOf pinned f
    let p := opPair (c.operands [(0, 1), (20, 2)]) 1 c.src
    Fed pinned f c (c.operands [(0, 1), (20, 2)]) pinned ∧ p ≠ 0 ∧ spaceOf p = 0 ∧ pinned.spaceOk c p = true ∧
    p.toNat % 64 = 0 ∧
    pinned.heldByJob c [(0, p)] (0x40 + 4 * shapeV tenure.shape * shapeK tenure.shape + 8 * shapeV tenure.shape) true =
      false ∧
    pinned.heldByTile c [(p, 0x40 + 4 * shapeV tenure.shape * shapeK tenure.shape + 8 * shapeV tenure.shape)] [] true =
      false :=
  ⟨fed_of (f := tileForm .always [(0, 1), (20, 2)] []) (by decide), by decide⟩

/-- Handle 1 names nothing where no tenure is. -/
theorem witness_UnitAndTenureWordsQueue_nowhere :
    let s := world [(0, 1)]
    let f := tileForm .always [(0, 1)] []
    let u := tileForm .always [(0, 1), (20, 2)] []
    s.named 0 1 = .nowhere ∧ (ctxOf s f).w.shadow = false ∧ (ctxOf s f).b.launch = 0 ∧
    opLane ((ctxOf s f).operands [(0, 1)]) 0 (ctxOf s f).src = 1 ∧
    opLane ((ctxOf s u).operands [(0, 1), (20, 2)]) 0 (ctxOf s u).src = 1 ∧
    Fed s f (ctxOf s f) ((ctxOf s f).operands [(0, 1)]) s ∧
    Fed s u (ctxOf s u) ((ctxOf s u).operands [(0, 1), (20, 2)]) s :=
  ⟨rfl, by decide, by decide, by decide, by decide, fed_of (f := tileForm .always [(0, 1)] []) (by decide),
    fed_of (f := tileForm .always [(0, 1), (20, 2)] []) (by decide)⟩

theorem witness_tenure_sound : tenure.firstBad = none := by decide +kernel

end Sys2Proof.Tests
end

