-- ==== Sys2Proof/Tests/Events.lean ====
section
/-! SUPPORT. For the statements about events: concrete machines that meet their hypotheses. -/

namespace Sys2Proof.Tests

set_option Elab.async false

open Sys2Proof Sys2Proof.Machine

/-- The machine with a subject and at a time. -/
def about (s : State) (a b c now : Nat) : State := { s with subj := ⟨a, b, c⟩, now := now }

/-! ## Accesses and timers -/

/-- A load of lane 2 into register 9. -/
def oneLoad : Access := ⟨4, false, 4, false, [9], 0, [⟨2, .here (.mem 0x20000), 0, 0, 0⟩], none, none, none, none, none, []⟩

/-- It is outstanding, and its data returns. -/
def returning : State := about (withWave (paged (world [])) fun w => { w with outst := [oneLoad] }) 0 4 4 0

/-- A store of lane 2. -/
def oneStore : Access := ⟨4, true, 4, false, [], 0, [⟨2, .here (.mem 0x20000), 0, 7, 0⟩], none, none, none, none, none, []⟩

/-- It is acknowledged. -/
def acknowledging : State := about (withWave (paged (world [])) fun w => { w with outst := [oneStore] }) 0 4 4 0

theorem witness_AccessesAndTimers :
    returning.waves.get? 0 = some { wave [] with outst := [oneLoad] } ∧ returning.blocks.get? 0 = some block ∧
    returning.launches.get? block.launch = some run ∧
    [oneLoad].find? (fun x => decide (x.id = returning.subj.b)) = some oneLoad ∧
    returning.subj.c = 2 ^ 2 ∧ oneLoad.store = false ∧ oneLoad.dest.Nodup := by decide

theorem witness_AccessesAndTimers_store :
    acknowledging.waves.get? 0 = some { wave [] with outst := [oneStore] } ∧ oneStore.store = true ∧
    acknowledging.MemCanon ∧ oneStore.parts.map Part.tgt = [.here (.mem 0x20000)] := by
  unfold State.MemCanon; decide

/-- A `poll` and an atomic addition of lane 2 that are performed later. -/
theorem witness_AccessesAndTimers_later :
    let poll : Access := { oneLoad with poll := some .eq, dest := [9] }
    let add : Access := { oneStore with rmw := some (.int .add 4), dest := [9] }
    (poll.store = false ∧ poll.dest.Nodup ∧ poll.parts.map Part.lane = [2]) ∧
    (add.store = true ∧ add.dest.Nodup ∧ add.rmw = some (.int .add 4) ∧ add.queue = none ∧
      ∀ x, x < (Rmw.int .add 4).width → acknowledging.windowAt (0x20000 + x) = none) := by decide

/-- A load of a word into queue 1 whose first lane's word has come. -/
theorem witness_AccessesAndTimers_queue :
    let a : Access := { oneLoad with dest := [], queue := some 1, got := [(0, 7)] }
    let s := withWave returning fun w => { w with outst := [a] }
    (s.waves.get? 0).map Wave.outst = some [a] ∧ s.TablesRise ∧ a.store = false ∧ a.poll = none ∧
    (∀ y ∈ a.got, y.1 < 64 ∧ y.1 ≠ 2) ∧ a.got.Pairwise (fun y z => y.1 ≠ z.1) ∧ a.parts.map Part.lane = [2] := by
  unfold State.TablesRise; decide

/-- A copy in L1 whose lease has ended; a walk that a wave has joined; a back-off; a wave ready for 112 cycles. -/
def waiting : State :=
  { about (withWave (paged (world [])) fun w => { w with walking := [walkKey 0 0x2000, walkKey 0 0x4000] }) 0 1 0 600 with
    cores := [(0, { Core.reset with l1 := [(1, ⟨[], 512, 0⟩)] })], walks := [⟨0, 1, [0]⟩] }

theorem witness_AccessesAndTimers_waits : waiting.TablesRise ∧ KMap.wf (waiting.core 0).l1 = true ∧
    (waiting.core 0).l1.get? 1 = some ⟨[], 512, 0⟩ ∧ 512 ≤ waiting.now ∧
    ((waiting.walks.take 32).find? (fun k => k.at_ waiting.subj.a waiting.subj.b)).isSome = true ∧
    (∀ k ∈ (world []).walks.take 32, ¬ (k.asid = (world []).subj.a ∧ k.page = (world []).subj.b)) ∧
    (∃ w, waiting.waves.get? 0 = some w ∧ walkKey waiting.subj.a (waiting.subj.b * 2 ^ 13) ∈ w.walking) := by
  refine ⟨by unfold State.TablesRise; decide, by decide, by decide, by decide, by decide, by decide, _, rfl, by decide⟩

theorem witness_AccessesAndTimers_timers :
    (about (world []) 0 0 0 112).mayIssue (wave []) = true ∧ (wave []).readyFrom + 112 ≤ 112 ∧
    (some 40 : Option Nat) = ({ wave [] with backoff := some 40 }).backoff ∧ 40 ≤ 112 ∧
    ((about (world []) 0 0 0 112).ready { wave [] with wtcmp := 100 } &&
      (about (world []) 0 0 0 112).trapsNow { wave [] with wtcmp := 100 }) = true := by decide

/-! ## Halts and records -/

/-- A block that a halting cause has stopped. -/
def halting (cause : Nat) : State := withBlock (world []) fun b => { b with halt := some ⟨cause, 0, false, false⟩ }

theorem witness_HaltsAndRecords : (halting 0x11).TablesRise ∧ (halting 0x11).subj.a = 0 ∧
    (halting 0x11).blocks.get? 0 = some { block with halt := some ⟨0x11, 0, false, false⟩ } ∧
    (halting 0x11).launches.get? block.launch = some run ∧ (halting 0x11).drainList 0 = [] ∧
    (∀ e ∈ (halting 0x11).wavesOf 0, e.2.outst = [] ∧ e.2.hold = none ∧ e.2.holdOn = none ∧ e.2.remote = []) ∧
    (∀ e ∈ (halting 0x11).wavesOf 0, e.2.horizon ≤ (halting 0x11).now ∧ e.2.peerOut = []) ∧
    (let s := withWave (halting 0x11) fun w => { w with horizon := 9 }
     ∃ e ∈ s.wavesOf 0, s.now < e.2.horizon ∨ e.2.peerOut ≠ []) ∧
    run.standing = none ∧ block.ticket = some 0 ∧ run.dqm = false := by unfold State.TablesRise; decide

/-- A record. -/
def record : TrapRec := ⟨0x11, false, true, false, false, false, 0, 0, 0, 0, 0, 0, 0, 2, 1, 5, 0, 0, 0, 0⟩

/-- One record waits to be posted and one to be posted again; the ring is on. -/
def posting : State :=
  { about (withBlock (world []) fun b => { b with halt := some ⟨0x11, 0, true, false⟩ }) 0 0 0 13000 with
    traps := [record], lost := [⟨record, 12000⟩]
    ctl := { idle.ctl with trOn := true, trBase := 0x40000 } }

theorem witness_HaltsAndRecords_post : posting.nextRecord posting.traps = some (record, []) ∧
    posting.dueRecord posting.lost = some (record, []) ∧ posting.MemCanon ∧ posting.ctl.trOn = true ∧
    (posting.ctl.trWr - posting.ctl.trRd).toNat < 2 ^ posting.ctl.trSize ∧ posting.TablesRise ∧
    2 ^ posting.ctl.trSize ≤ ((4096 : Word) - posting.ctl.trRd).toNat := by
  unfold State.MemCanon State.TablesRise; decide

/-! ## Jobs -/

/-- A job of core 0, all of its units moved, or none. -/
def jobState (j : Job) : State :=
  { about (paged (world [])) 0 0 1 0 with cores := [(0, { Core.reset with jobs := [j] })] }

theorem witness_JobsRun_done : (jobState { oneJob with moved := 1 }).TablesRise ∧
    (jobState { oneJob with moved := 1 }).job 0 0 = some { oneJob with moved := 1 } ∧
    ((jobState { oneJob with moved := 1 }).core 0).jobs = [{ oneJob with moved := 1 }] ∧
    jobUnits oneJob.kind oneJob.desc ≤ 1 ∧
    (jobState { oneJob with moved := 1 }).answers oneJob.acks = some [] ∧ oneJob.vtime ≤ 0 ∧
    (jobState oneJob).now < ({ oneJob with vtime := 7 }).vtime := by
  unfold State.TablesRise; decide

/-- What moving a unit comes to. -/
def moves (s : State) (j : Job) : Nat :=
  match s.moveUnit 0 j with
  | .ok _ _ => 0
  | .pending _ => 1
  | .pause _ => 2
  | .fault _ _ => 3

theorem moves_of (s : State) (j : Job) : (moves s j = 0 → ∃ t, s.moveUnit 0 j = .ok () t) ∧
    (moves s j = 1 → ∃ t, s.moveUnit 0 j = .pending t) ∧ (moves s j = 2 → ∃ a, s.moveUnit 0 j = .pause a) ∧
    (moves s j = 3 → ∃ k a, s.moveUnit 0 j = .fault k a) := by
  unfold moves
  cases s.moveUnit 0 j <;> simp

/-- The source is poisoned; nothing is mapped; the job waits for an earlier store. -/
theorem witness_JobsRun : oneJob.moved < jobUnits oneJob.kind oneJob.desc ∧ (jobState oneJob).subj.c = 1 ∧
    moves (jobState oneJob) oneJob = 0 ∧ ((jobState oneJob).jobCtx oneJob).isSome = true ∧
    moves { jobState oneJob with poison := [(0x20040 / 64, ())] } oneJob = 3 ∧
    ((jobState oneJob).waves.get? oneJob.wave).isSome = true ∧
    moves { jobState oneJob with mem := [], asids := [] } oneJob = 2 ∧
    moves (jobState { oneJob with queued := true }) { oneJob with queued := true } = 1 := by decide

/-- The index of a job's unit, and the places of its words, as a unit finds them. -/
def unitPlaces (s : State) (c : Ctx) (j : Job) (x : Nat) (ss ds : List Nat) : Bool :=
  match (if j.kind = .g then s.gatherIndex 0 c j else .ok 0 s) with
  | .ok y s0 => decide (y = x) &&
    (let u := jobUnit j.kind j.desc j.moved x
     match s0.jobTargets 0 j.id c .write (wordAddrs u.2.1 u.2.2) with
     | .ok t1 s1 => decide (t1 = ds.map fun q => .here (.mem q)) && (match s1.jobTargets 0 j.id c .read (wordAddrs u.1 u.2.2) with
       | .ok t2 s2 => decide (t2 = ss.map fun q => .here (.mem q)) && (match s2.jobTargets 0 j.id c .write (wordAddrs u.2.1 u.2.2) with
         | .ok t3 _ => decide (t3 = ds.map fun q => .here (.mem q))
         | _ => false)
       | _ => false)
     | _ => false)
  | _ => false

theorem places_of {s : State} {c : Ctx} {j : Job} {x : Nat} {ss ds : List Nat} (h : unitPlaces s c j x ss ds = true) :
    let u := jobUnit j.kind j.desc j.moved x
    ∃ s0 s1 s2 s3, (if j.kind = .g then s.gatherIndex 0 c j else .ok 0 s) = .ok x s0 ∧
      s0.jobTargets 0 j.id c .write (wordAddrs u.2.1 u.2.2) = .ok (ds.map fun p => .here (.mem p)) s1 ∧
      s1.jobTargets 0 j.id c .read (wordAddrs u.1 u.2.2) = .ok (ss.map fun p => .here (.mem p)) s2 ∧
      s2.jobTargets 0 j.id c .write (wordAddrs u.2.1 u.2.2) = .ok (ds.map fun p => .here (.mem p)) s3 := by
  unfold unitPlaces at h
  split at h
  next y s0 h0 =>
    simp only [Bool.and_eq_true, decide_eq_true_eq] at h
    obtain ⟨rfl, h⟩ := h
    split at h
    next t1 s1 h1 =>
      simp only [Bool.and_eq_true, decide_eq_true_eq] at h
      obtain ⟨rfl, h⟩ := h
      split at h
      next t2 s2 h2 =>
        simp only [Bool.and_eq_true, decide_eq_true_eq] at h
        obtain ⟨rfl, h⟩ := h
        split at h
        next t3 s3 h3 =>
          simp only [decide_eq_true_eq] at h
          subst h
          exact ⟨s0, s1, s2, s3, h0, h1, h2, h3⟩
        all_goals cases h
      all_goals cases h
    all_goals cases h
  all_goals cases h

/-- The wave's context. -/
def jobCtxOf : Ctx := ⟨0, wave [], block, run, 0, 0, false⟩

theorem witness_JobsRun_copy : (∀ k, oneJob.kind ≠ .coll k) ∧ (jobState oneJob).MemCanon ∧
    [0x20080].Pairwise (fun (x y : Nat) => x + 4 ≤ y ∨ y + 4 ≤ x) ∧
    unitPlaces (jobState oneJob) jobCtxOf oneJob 0 [0x20040] [0x20080] = true := by
  unfold State.MemCanon
  exact ⟨fun _ => nofun, by decide, by simp, by decide⟩

/-- A gather of two elements of 4 bytes whose list of indices, in the block's scratchpad, names elements 3 and 65,536. -/
def gatherJob (moved : Nat) : Job := { oneJob with kind := .g, desc := [0x40, 0, 0x80, 0, 4, 2, 0, 0], moved := moved }

/-- Its machine. -/
def gathers (moved : Nat) : State :=
  withBlock (jobState (gatherJob moved)) fun b => { b with scr := [(0, 3), (6, 1)] }

theorem witness_JobsRun_gather :
    unitPlaces (gathers 0) { jobCtxOf with b := { block with scr := [(0, 3), (6, 1)] } } (gatherJob 0) 3 [0x2004C]
      [0x20080] = true ∧
    moves (gathers 1) (gatherJob 1) = 3 := by decide

/-- An all-gather of devices 0 and 1, and a segment of device 1. -/
def collJob1 : Job := { oneJob with kind := .coll .ag, desc := [0x40, 0, 0x80, 0, 4, 0, 0, 0], seq := 1 }

/-- Its machine. -/
def collecting : State := withRun (jobState collJob1) fun l => { l with flags := 8, groups := [⟨3, true, 0⟩] }

theorem witness_JobsRun_segments :
    collecting.collJob ⟨1, 0, 2, 0, 0, 1, 0, [1, 2, 3, 4]⟩ =
      some (0, collJob1, { run with flags := 8, groups := [⟨3, true, 0⟩] }) ∧
    ({ run with flags := 8, groups := [⟨3, true, 0⟩] } : Launch).groupAt 0 = some ⟨3, true, 0⟩ ∧
    (collecting.core 0).jobs = [collJob1] ∧ (collBits .ag).toNat / 16 % 8 = (2 : Byte).toNat ∧
    (collBits .ag).toNat % 16 = (0 : Byte).toNat ∧ (0 : Word).toNat < transferLen .ag 4 2 ∧
    (collBits .ag).toNat / 16 % 8 ≠ (0 : Byte).toNat ∧ (jobState oneJob).collJob ⟨1, 0, 2, 0, 0, 1, 0, []⟩ = none ∧
    collecting.deaf = false ∧ ((1 : BitVec 16).extractLsb' 12 4).toNat < 2 ∧
    segmentOf .ag 4 0 [1, 2, 3, 4] = some [1, 2, 3, 4] ∧ segmentOf .ag 4 0 [1, 2, 3] = none ∧
    (collecting.waves.get? collJob1.wave).isSome = true := by
  decide

/-- A broadcast from device 1, at which every other member is silent: the word that one of them sends once it has been issued;
and a word that differs. -/
def silentJob : Job := { oneJob with kind := .coll .bc, desc := [0x40, 0, 0x80, 0, 4, 0, 1, 0], seq := 1 }

theorem witness_JobsRun_silent :
    let s := withRun (jobState silentJob) fun l => { l with flags := 8, groups := [⟨7, true, 0⟩] }
    let bits := (collBits .bc).toNat
    let m : CollMsg := ⟨2, 0, BitVec.ofNat 8 (bits / 16 % 8), BitVec.ofNat 8 (bits % 16), 0, 1, 4, []⟩
    (s.collJob m).map (fun x => x.2.1) = some silentJob ∧ (⟨7, true, 0⟩ : Group).rankOf 2 ≠ dw silentJob.desc 6 ∧
    m.offset.toNat = dw silentJob.desc 4 ∧ m.elems = [] ∧ (s.core 0).jobs = [silentJob] ∧ silentJob.moved = 0 ∧
    (s.collJob { m with offset := 0 }).map (fun x => x.2.1) = some silentJob := by decide

/-- Two members' contributions of two FP32 elements each. -/
theorem witness_JobsRun_results :
    let got : KMap (List Byte) := [(0, natLe 4 0x3F800000 ++ natLe 4 1), (1, natLe 4 0x40000000 ++ natLe 4 2)]
    (∀ r, r < 2 → (got.getD r []).length = 4 * 2) ∧ 2 % 2 = 0 := by decide

/-! ## The matrix engine -/

/-- An operation of the wave on unit 3 of its block. -/
def oneOp (kind : TileKind) (dest : List Nat) (units : List (Nat × Nat)) (tenure : Option Word) : TileOp :=
  { id := 9, launch := 0, block := 0, wave := 0, lane := 0, lanes := 3, pc := 0, sup := false, fpmode := 1, seed := 0,
    seqNo := 1, kind := kind, a := [], b := [], rows := [], gran := 4, tags := [], held := false, spans := [], out := none,
    dest := dest, units := units, okind := none, tenure := tenure, follower := none, started := true, replayed := false, flags := 0,
    src := [], walking := [], walkOut := [] }

/-- It is in flight on core 0. -/
def opState (o : TileOp) (cores : Core) : State :=
  { about (world []) 0 9 0 0 with cores := [(0, { cores with ops := [o] })] }

/-- What every operation that retires meets. -/
def retires (o : TileOp) (s : State) : Bool :=
  decide (s.tileOp 0 9 = some o) && (s.opCtx o).isSome && o.follower.isNone && !s.opHeld 0 o && !o.held && o.started &&
    o.rows.isEmpty && o.spans.isEmpty && o.out.isNone && o.walking.isEmpty

theorem witness_OperationsRetire :
    retires (oneOp (.zero 1) [] [(0, 3)] none) (opState (oneOp (.zero 1) [] [(0, 3)] none) Core.reset) = true ∧
    KMap.wf block.sums = true ∧ KMap.wf block.kinds = true ∧ KMap.wf block.acc = true ∧ block.halt = none ∧
    retires (oneOp .rd [24] [(0, 3)] none) (opState (oneOp .rd [24] [(0, 3)] none) Core.reset) = true ∧
    (opState (oneOp .rd [24] [(0, 3)] none) Core.reset).badUnit [(0, 3)] = none ∧
    retires (oneOp (.pin 0) [0] [] (some 1)) (opState (oneOp (.pin 0) [0] [] (some 1)) Core.reset) = true ∧
    (opState (oneOp (.zero 1) [] [(0, 3)] none) Core.reset).TablesRise := by unfold State.TablesRise; decide

/-- `acc.wr` of a unit; a `tld` and an `mma.i8` of one row that fills it; `acc.chk`, `rnsr` and `rns.chk`. -/
def wrOp : TileOp := { oneOp (.wr 1) [] [(0, 3)] none with a := [List.replicate 64 5] }

/-- The `tld`. -/
def tldOp : TileOp := { oneOp (.tld 3 1 64 1 0) [] [(0, 3)] none with a := [List.replicate 64 5] }

/-- The `mma`. -/
def mmaOp : TileOp := { oneOp (.mma .i8 3 1 64 1 1) [] [(0, 3)] none with a := [[5]], b := List.replicate 64 [3] }

theorem witness_OperationsRetire_writes :
    (∀ o ∈ [wrOp, tldOp, mmaOp, oneOp .chkTile [] [(0, 3)] none, oneOp .rnsr [24, 25, 26, 27] [(0, 3)] none,
      oneOp (.rnsChk 9) [24] [] none], retires o (opState o Core.reset) = true ∧ ∀ u ∈ o.units, u.1 = o.block) ∧
    (wrOp.units.Nodup ∧ wrOp.a.length = wrOp.units.length ∧ ∀ r ∈ wrOp.a, r.length = 64 ∧ ∀ x ∈ r, x < 2 ^ 32) ∧
    (64 * tileElem 0 % 256 = 0 ∧ 64 * tileElem 0 ≤ 256 * 1 ∧
      tldOp.units = tileUnits tldOp.block 3 1 tldOp.a.length (64 * tileElem 0 / 256) ∧
      ∀ r ∈ tldOp.a, r.length = 64 ∧ ∀ x ∈ r, x < 2 ^ (8 * tileElem 0)) ∧
    (mmaOp.a.length ≤ 128 ∧ (∀ r ∈ mmaOp.a, r.length = 1) ∧ mmaOp.b.length = 64 ∧ (∀ r ∈ mmaOp.b, r.length = 1) ∧
      64 * accElem .i8 % 256 = 0 ∧ 64 * accElem .i8 ≤ 256 * 1 ∧
      mmaOp.units = tileUnits mmaOp.block 3 1 mmaOp.a.length (64 * accElem .i8 / 256)) ∧
    (opState (oneOp .chkTile [] [(0, 3)] none) Core.reset).badUnit [(0, 3)] = none := by decide +kernel

/-- What settles an operation that has written its units: it finds them sound. -/
theorem witness_OperationsRetire_sound :
    let s := opState wrOp Core.reset
    let u := (s.modBlock 0 fun b => (wrOp.units.zip wrOp.a).foldl (fun b x => b.writeUnit x.1.2 1 x.2) b).resealAll
      wrOp.units
    u.badUnit wrOp.units = none := by decide +kernel

/-- An `mma` on a unit that does not pass, before it is replayed and after. -/
theorem witness_OperationsRetire_replay :
    let s := withBlock (opState mmaOp Core.reset) fun b => { b with acc := [(768, 1)], kinds := [(3, 1)] }
    (s.applyMma 0 mmaOp .i8 3 1 64 1).1.badUnit mmaOp.units = some (0, 3) ∧ mmaOp.replayed = false ∧
    ({ mmaOp with replayed := true }).replayed = true := by decide +kernel

/-- An `rnsr` whose every lane has a value. -/
theorem witness_OperationsRetire_values :
    let o := oneOp .rnsr [24, 25, 26, 27] [(0, 3)] none
    (opState o Core.reset).badUnit o.units = none ∧ o.dest.Nodup ∧ (match reverse 0 0 with
      | .value _ _ _ => true
      | .mismatch _ _ => false) = true ∧ o.lanes.getLsbD 0 = true ∧ 0 / 32 < o.units.length := by decide +kernel

/-- A `tst` of one row of one FP32 element, at 0x40. -/
def tstOp : TileOp :=
  { oneOp (.tst 3 1 1 1 0 .rne 0 0) [] [(0, 3)] none with spans := [(0x40, 4)] }

/-- Its machine. -/
def tileStoring : State := { paged (opState tstOp Core.reset) with cores := (opState tstOp Core.reset).cores }

/-- A check that passes, to one place in memory. -/
def passesTo (s : State) (c : Ctx) (as : List (Nat × DWord)) (n : Nat) (p : Nat) : Bool :=
  match s.check c as n .write .nothing with
  | .ok rs _ => decide (rs.map Reach.tgt = [.here (.mem p)])
  | _ => false

theorem witness_OperationsRetire_tst : tileStoring.tileOp 0 9 = some tstOp ∧ (tileStoring.opCtx tstOp).isSome = true ∧
    tileStoring.opHeld 0 tstOp = false ∧ tileStoring.outMeets jobCtxOf 9 true tstOp.spans = false ∧ tstOp.gran = memElem 0 ∧ tileStoring.badUnit tstOp.units = none ∧
    tileStoring.MemCanon ∧ tileStoring.TablesRise ∧
    passesTo { tileStoring with later := false } jobCtxOf ((runAddrs 4 (0x40, 1 * 4)).map fun x => (0, x)) 4 0x20040 =
      true := by unfold State.MemCanon State.TablesRise; decide

/-- One product of BF16 elements, 1.5 × 2 onto 1.5. -/
theorem witness_OperationsRetire_float :
    (extOf 0x3FC00000).isFin = true ∧ (elemExt .bf16 0x3FC0).1.isFin = true ∧ (elemExt .bf16 0x4000).1.isFin = true ∧
    -200 ≤ (elemExt .bf16 0x3FC0).1.dy.e ∧ -200 ≤ (elemExt .bf16 0x4000).1.dy.e ∧
    (fp32.num 0x3FC00000 + 3 * 2 ^ 400) * 2 ^ 400 = fp32.num 0x3FC00000 * 2 ^ 400 + codeNum .bf16 0x3FC0 * codeNum .bf16 0x4000 := by
  decide +kernel

/-- A unit whose bytes do not match its checksum pair. -/
def unsound : State :=
  withBlock (opState (oneOp .rd [24] [(0, 3)] none) Core.reset) fun b => { b with acc := [(768, 1)], kinds := [(3, 2)] }

theorem witness_OperationsRetire_unsound : retires (oneOp .rd [24] [(0, 3)] none) unsound = true ∧
    unsound.badUnit [(0, 3)] = some (0, 3) ∧ unsound.TablesRise := by
  unfold State.TablesRise; decide +kernel

/-- An update of the tenure. -/
def updating : State :=
  opState (oneOp (.upd 0x3F800000 0x3F800000) [] [] (some 1)) { Core.reset with tenures := [(0, tenure)] }

theorem witness_OperationsRetire_update :
    retires (oneOp (.upd 0x3F800000 0x3F800000) [] [] (some 1)) updating = true ∧
    updating.named 0 1 = .on 0 0 tenure ∧ KMap.wf (updating.core 0).tenures = true ∧
    (updating.core 0).tenures.get? 0 = some tenure ∧ tenure.failed = false ∧
    (∀ o ∈ [oneOp .frd [24] [] (some 1), oneOp .chkTen [] [] (some 1), oneOp (.unpin 0) [] [] (some 1)],
      retires o (opState o { Core.reset with tenures := [(0, tenure)] }) = true) :=
  ⟨by decide, named_of (by decide), by decide, by decide, rfl, by decide⟩

/-- A tenure with a row whose sum does not match. -/
theorem witness_OperationsRetire_failed : ({ tenure with elems := [(0, 1)] } : Tenure).firstBad = some 0 := by
  decide +kernel

/-- A pair operation whose follower, on core 1, has not begun it. -/
def pairOp : TileOp := { oneOp (.mma .bf16 0 1 64 1 1) [] [(0, 0)] none with follower := some 1, started := false }

/-- Its machine: a cluster of two blocks on cores 0 and 1. -/
def pairing : State :=
  { opState pairOp Core.reset with
    blocks := [(0, block), (1, { block with core := 1, rank := 1 })],
    waves := [(0, wave []), (32, { wave [] with block := 1, core := 1 })] }

theorem witness_EngineEvents_pair : pairing.tileOp 0 9 = some pairOp ∧ pairing.mayStartPair 0 pairOp = true ∧
    (withBlock pairing fun b => { b with core := 0 }).mayStartPair 0 pairOp = false ∧ pairing.TablesRise := by
  unfold State.TablesRise; decide

/-- A `pin` of shape 0 that waits for room, which has come. -/
def pinning : State := withWave (about (world []) 0 0 0 0) fun w => { w with blocked := some (.pin 7 0) }

theorem witness_EngineEvents_pin : ((pinning.waveCtx 0).map fun c => (c.w.qend, c.w.halted, c.w.blocked, c.atEdge 1)) =
      some (false, false, some (.pin 7 0), false) ∧
    hasRoom pinning 0 0 block.imCore (shapeGran (BitVec.ofNat 4 0)) = true ∧ run.dqm = false ∧
    pinning.pinsOf block run < 255 ∧ 255 ≤ pinning.pinsOf { block with pins := 255 } run := by decide

theorem witness_EngineEvents_core : (about idle 0 0 0 2500).core 0 = Core.reset ∧
    (Core.reset).govWin < 2500 / 1200 ∧ idle.ctl.ready = true ∧ (∀ o ∈ (idle.core 0).ops, o.isRns = false) ∧
    (∃ o ∈ ((opState (oneOp (.rnsChk 0) [] [] none) Core.reset).core 0).ops, o.isRns = true) ∧
    (let o := { pairOp with kind := .mma .rns 0 1 32 1 1 }
     ∃ p ∈ ((opState o Core.reset).core (1 - 1)).ops, p.isRns = true ∧ p.follower.isSome = true) := by decide

/-- A tenure, and a pool of room for it. -/
def spilling : State :=
  { pinned with
    ctl := { idle.ctl with tspBase := 0x100000, tspSize := 0x4000000 } }

theorem witness_EngineEvents_spill : spilling.MemCanon ∧ KMap.wf (spilling.core 0).tenures = true ∧
    (spilling.core 0).tenures.get? 0 = some tenure ∧ spilling.poolFit (spillUnits tenure.shape) = some 0 ∧
    (spilling.pool.filter fun p => p.live).length < 4096 := by unfold State.MemCanon; decide

/-- Two tenures of other launches fill the accumulator of core 0; a wave in DQM waits for room. -/
def pressing : State :=
  { withRun (withWave spilling fun w => { w with blocked := some (.pin 7 0) }) (fun l => { l with dqm := true }) with
    cores := [(0, { Core.reset with tenures :=
      [(0, { tenure with launch := 9, gbase := 1, gcnt := accTotal - 1 })] })] }

/-- A spill gives a machine with room. -/
def relieves (s : State) (core e g : Nat) : Bool :=
  match s.spill core e false with
  | some u => decide ((u.core core).tenures.length < 32) && (freeRun (u.accUsed core) g accTotal).isSome
  | none => false

theorem witness_EngineEvents_pressure : (pressing.pinWaiters 0 (fun l _ => !l.dqm) false).length < 2 ∧
    (pressing.starvedFor 0).isNone = true ∧ pressing.roomTaken 0 = some (0, shapeGran 0) ∧
    freeRun (pressing.accUsed 0) (shapeGran 0) accTotal = none ∧
    (pressing.lastTenure 0 (fun t => decide (t.launch ≠ 0))).map (·.1) = some 0 ∧
    relieves pressing 0 0 (shapeGran 0) = true ∧ pressing.tenureBusy 9 tenure.handle = false := by decide +kernel

/-! ## Launches -/

/-- A run of one block that has not started. -/
def taken : Launch := fetchLaunch

/-- Its machine. -/
def placing : State := { idle with launches := [(0, taken)] }

theorem witness_LaunchEvents : placing.TablesRise ∧ placing.launches.get? 0 = some taken ∧
    placing.firstOffer 0 = true ∧ (placing.placeOne 0 taken).isSome = true ∧ taken.standing = none ∧
    taken.flags.getLsbD 1 = false ∧ taken.record.options.getLsbD 1 = false ∧
    ((world []).placeOne 0 { run with offered := true }).isNone = true ∧ (world []).runOver 0 run = false := by
  unfold State.TablesRise; decide +kernel

/-- A run whose block needs 20 granules of the accumulator, and a core on which 14 are free on either side of another's. -/
def tearing : State :=
  { placing with
    launches := [(0, { taken with record := { taken.record with acc := 327680 }, offered := true, waitFrom := [(0, 0)] })]
    blocks := [(99, { block with launch := 9, accBase := 14, accGran := 4, scrGran := 1 })], now := 4096 }

theorem witness_LaunchEvents_drain :
    (tearing.launches.get? 0).map (fun l => ((tearing.torn l).map fun x => (x.rank, x.core), l.waitFrom.get? 0)) =
      some ([(0, 0)], some 0) ∧ 0 + 4096 ≤ tearing.now ∧
    (tearing.core 0).drains = none ∧ (placing.launches.get? 0).map placing.torn = some [] := by decide +kernel

/-- A section with a run of 8 granules taken, and a wave of 8 that finds its place beside it or in another section. -/
theorem witness_LaunchEvents_fit :
    let o : Occ := { Occ.empty with waves := [(0, 0, 8), (1, 0, 8), (2, 0, 8), (3, 0, 8), (3, 8, 8)] }
    (∀ k, k < 4 → (o.inSect k).length ≤ 16) ∧
    (Occ.fit false ⟨1, 8, false, 2, 1⟩ none o).map (·.2) = some ⟨0, 0, [(0, 8)]⟩ := by decide +kernel

/-- Two members of a cluster on one cell, of which the second waits for a core of its mask. -/
theorem witness_LaunchEvents_members :
    let x : Placing := { occ := fun _ => Occ.empty, spots := [], waiting := [] }
    let ok (_ c : Nat) : Bool := decide (c = 1)
    let need : Need := ⟨1, 1, false, 0, 0⟩
    ok 0 1 = true ∧ ((x.occ 1).fit false need none).isSome = true ∧ 1 / 8 = 0 ∧ (∀ d, d < 1 → ok 0 d = false) ∧
    (∀ c, c / 8 = 5 → ok 0 c = false) := by
  refine ⟨by decide, by decide +kernel, by decide, by decide, ?_⟩
  intro c hc
  simp only [decide_eq_false_iff_not]
  omega

/-- Core 5 enters among those that have freed. -/
theorem witness_LaunchEvents_freed :
    let l : Launch := { taken with freed := [(3, 9), (7, 2)] }
    l.freed.Pairwise (fun x y => x.1 < y.1 ∨ (x.1 = y.1 ∧ x.2 < y.2)) ∧ 5 ∉ l.freed.map (·.2) := by decide

/-- A cluster for a core that has freed, a member that waits on its cell, and the last cluster as a run is launched. -/
def refilling : Launch := { taken with record := { taken.record with mask := BitVec.allOnes 192 }, offered := true, freed := [(3, 9), (7, 2)] }

theorem witness_LaunchEvents_refill :
    let s := { idle with launches := [(0, refilling)] }
    refilling.waiting = [] ∧ refilling.record.members = 1 ∧ refilling.cpos < refilling.record.clusters ∧
    refilling.freed.map (·.2) = [] ++ 9 :: [2] ∧ s.mayUse 0 refilling 0 9 = true ∧
    ((s.physOcc 9).fit false refilling.record.need none).isSome = true ∧
    ({ refilling with waiting := [(0, 1)] }).waiting = [(0, 1)] ∧ 9 / 8 = 1 ∧ s.mayUse 0 refilling 0 8 = true ∧
    taken.offered = false ∧ taken.cpos + 1 = taken.record.clusters := by decide +kernel

/-- A run with a placement log at 0x40. -/
theorem witness_LaunchEvents_log :
    let l : Launch := { taken with flags := 2, log := 0x40 }
    let s := paged { idle with launches := [(0, l)] }
    l.flags.getLsbD 1 = true ∧ (l.log.toNat + 8 * 0) % 2 ^ 57 = 0x40 ∧ s.MemCanon ∧ s.inView (.here (.mem 0x20040)) = false ∧
    (match s.walk l.asid l.root 0x40 with
      | .leaf x => decide (s.route (x.target 0x40) = .here (.mem 0x20040)) && x.permits .write false
      | _ => false) = true := by unfold State.MemCanon; decide +kernel

/-- A run whose one block has retired. -/
def finished : Launch := { run with retiredRanks := [(0, ())] }

theorem witness_LaunchEvents_end : ({ idle with launches := [(0, finished)] }).runOver 0 finished = true ∧
    finished.domain.isNone = true := by decide

/-- Its wave has exited. -/
def exited (fs : List Deferred) : State :=
  withWave (world []) fun w => { w with exited := true, live := 0, active := 0, deferred := fs }

theorem witness_LaunchEvents_retire : (world []).allExited 0 = false ∧ (exited []).allExited 0 = true ∧
    (exited []).exitFault 0 = none ∧ (exited []).blockDone 0 = true ∧ block.halt = none ∧
    (exited [⟨0, 5, 0x17, 0x40, 0, 0, false⟩]).exitFault 0 = some (0, ⟨0, 5, 0x17, 0x40, 0, 0, false⟩) ∧
    (exited [⟨0, 5, 0x17, 0x40, 0, 0, false⟩]).blockDone 0 = true ∧
    (withWave (exited []) fun w => { w with horizon := 9 }).blockDone 0 = false := by decide

/-- A run in DQM whose wave has ended its quantum with one store buffered. -/
def committing : State :=
  withRun (withWave (paged (world [])) fun w =>
    { w with qend := true, qcount := 3, share := [.store (.here (.mem 0x20040)) 4 7 0 0x40], shareUsed := 4 }) fun l =>
    { l with dqm := true, quantumOpen := true }

theorem witness_BoundariesCommit : committing.TablesRise ∧ committing.MemCanon ∧
    (committing.launches.get? 0).map (fun l => (l.standing, l.dqm, l.committed, l.commitSent, committing.mayClose 0 l)) =
      some (none, true, false, false, true) ∧
    (∀ e ∈ committing.wavesIn 0, e.2.outst = [] ∧ committing.killedWave e.2 = false) ∧ committing.saved = [] ∧
    committing.poison = [] ∧ committing.diePoison = [] ∧ run.flags.getLsbD 1 = false ∧
    (∀ e ∈ committing.wavesIn 0, e.2.blocked = none) ∧
    (committing.commitList 0).map (fun e => e.2.2) = [.store (.here (.mem 0x20040)) 4 7 0 0x40] ∧
    (((world []).launches.get? 0).map fun l => l.dqm) = some false := by
  unfold State.TablesRise State.MemCanon; decide

/-- A store into another block's scratchpad is buffered too, and one to a peer stands behind it. -/
def sharing (dev : Nat) : State :=
  { withWave committing fun w => { w with share :=
      [.store (.here (.scr 1 16)) 4 9 0 0x40, .store (.peer dev 0x80) 4 5 0 0x80] } with
    blocks := [(0, block), (1, { block with launch := 9, rank := 1 })] }

theorem witness_BoundariesCommit_others : (sharing 1).TablesRise ∧ (sharing 1).MemCanon ∧
    (∀ e ∈ (sharing 1).blocks, e.2.scrPoison = [] ∧ KMap.wf e.2.scr = true) ∧
    ((sharing 1).commitList 0).map (fun e => e.2.2) =
      [.store (.here (.scr 1 16)) 4 9 0 0x40] ++ .store (.peer 1 0x80) 4 5 0 0x80 :: [] ∧
    ((sharing 1).blocks.get? 1).isSome = true ∧
    ((sharing 1).launches.get? 0).map (fun l => (l.committed, l.commitSent, (sharing 1).mayClose 0 l)) =
      some (false, false, true) := by
  unfold State.TablesRise State.MemCanon; decide +kernel

/-- The peer has answered, or has not. -/
theorem witness_BoundariesCommit_answered : ∀ st ∈ ([none, some 0] : List (Option Byte)),
    let s := { withRun (sharing 1) (fun l => { l with commitSent := true, commitPos := 1, commitReqs := [5] }) with
      remote := [(5, ⟨1, 0, 0, 0x80, 100, st, [], 0, true, 4, 0x80⟩)] }
    (s.commitList 0).drop 1 = [(0, 0, .store (.peer 1 0x80) 4 5 0 0x80)] ∧ (s.remote.get? 5).map (fun r => r.status) = some st ∧
    (s.launches.get? 0).map (fun l => (l.committed, l.commitSent, l.commitPos, l.commitReqs)) = some (false, true, 1, [5]) := by
  decide +kernel

/-- Two jobs of the quantum, once what was buffered has taken effect. -/
theorem witness_BoundariesCommit_jobs :
    let j (id : Nat) : Job := { oneJob with id := id, queued := true }
    let s := { withRun (withWave (paged (world [])) fun w => { w with qend := true, share := [.job 0 0, .job 0 1] })
        (fun l => { l with dqm := true, committed := true }) with
      cores := [(0, { Core.reset with jobs := [j 0, j 1] })] }
    s.quantumJobs 0 = [(0, 0), (0, 1)] ∧ s.job 0 0 = some (j 0) ∧ s.saved = [] ∧
    (s.launches.get? 0).map (fun l => (l.dqm, l.committed, l.commitSent)) = some (true, true, false) := by decide

/-- A boundary with a write ends later, when the write is complete; one with none ends at once. -/
theorem witness_BoundariesCommit_done :
    ((withWave committing fun w => { w with share := [], shareUsed := 0 }).boundaryFront 0).2 = true ∧
    (committing.boundaryFront 0).2 = false := by decide +kernel

/-- A boundary that has committed, before its writes are complete and once they are. -/
def committed (now : Nat) : State :=
  { withRun (withWave (paged (world [])) fun w => { w with qend := true }) (fun l =>
      { l with dqm := true, committed := true, commitEnd := 600 }) with now := now }

theorem witness_BoundariesCommit_waits :
    (committed 0).TablesRise ∧ (committed 0).MemCanon ∧ (committed 0).quantumJobs 0 = [] ∧ (committed 0).saved = [] ∧
    ((committed 0).launches.get? 0).map (fun l => (l.dqm, l.committed, l.commitSent, l.commitEnd)) =
      some (true, true, false, 600) ∧ ¬ 600 ≤ (committed 0).now ∧ 600 ≤ (committed 600).now ∧
    (∀ e ∈ (committed 600).blocksOf 0, (committed 600).allExited e.1 = false) := by
  unfold State.TablesRise State.MemCanon; decide

/-! ## Peers, ports and domains -/

/-- A request of this device that a wave's store waits for. -/
def requested (exited : Bool) : State :=
  { withWave (world []) (fun w => { w with peerOut := [5], exited := exited }) with
    remote := [(5, ⟨1, 0, 2, 0x40, 100, none, [], 9, true, 4, 0x40⟩)], subj := ⟨5, 0, 0⟩, now := 200 }

/-- The address range is the module's; a range past 2^48 is no one's. -/
theorem witness_PeersAndPorts_range : idle.inRange 0x20040 8 = true ∧ idle.inRange (2 ^ 48) 8 = false ∧
    idle.meetsView 0x20040 8 = false := by decide

theorem witness_PeersAndPorts : idle.deaf = false ∧ knownType 0x1007 ∧ ctlOffset 0x20040 = none ∧
    idle.poisoned (.mem 0x20040) 8 = false ∧ idle.inView (.here (.mem 0x20040)) = false ∧
    idle.healsAll 0x20040 8 = true ∧ idle.MemCanon ∧
    ({ idle with poison := [(0x20040 / 64, ())] }).poisoned (.mem 0x20040) 8 = true ∧
    remoteFits ⟨0x60, 0, [1, 0, 0, 0]⟩ = true ∧ remoteFits ⟨0x7F, 0, [1, 0, 0, 0]⟩ = true ∧
    (remoteRmw ⟨0x60, 0, [1, 0, 0, 0]⟩).isSome = true ∧ (remoteRmw ⟨0x7F, 0, [1, 0, 0, 0]⟩).isNone = true := by
  unfold State.MemCanon knownType; decide

/-- A message of a reserved source type, one whose data and length disagree, and modules that hear none. -/
theorem witness_PeersAndPorts_dropped :
    messageRow idle (.notify 0x2000 0) = some (0x2000, true) ∧ ¬ knownType 0x2000 ∧
    messageRow idle (.inputWrite ⟨7, 0, 0, true, 4, 0x40, [1, 2, 3]⟩) = some (7, false) ∧
    State.reset.deaf = true ∧ State.reset.powered = false ∧
    ({ idle with ctl := { idle.ctl with portDown := BitVec.allOnes 16 } }).deaf = true := by
  unfold knownType; decide

theorem witness_PeersAndPorts_answers : (requested false).remote.get? 5 = some ⟨1, 0, 2, 0x40, 100, none, [], 9, true, 4, 0x40⟩ ∧
    ((requested false).waves.get? 0).map (fun w => (w.peerOut, w.exited)) = some ([5], false) ∧
    ((requested true).waves.get? 0).map (fun w => (w.peerOut, w.exited)) = some ([5], true) ∧
    (requested false).remote.get? 6 = none ∧ (requested false).subj.a < 2 ^ 32 ∧ 100 ≤ (requested false).now := by decide

/-- An answer that fits, one whose data do not, one that comes in time, and waves that have a word under way or may be
killed. -/
theorem witness_PeersAndPorts_late :
    let r : RemoteReq := ⟨1, 0, 2, 0x40, 300, none, [], 9, false, 4, 0x40⟩
    let s := { requested false with remote := [(5, r)] }
    s.answerFits 5 0 [1, 2, 3, 4] = true ∧ s.answerFits 5 0 [1, 2, 3] = false ∧ ¬ r.deadline < s.now ∧
    (100 : Nat) < s.now ∧ KMap.wf s.remote = true ∧ knownType (BitVec.ofNat 16 s.subj.b) ∧
    (withWave s fun w => { w with hold := some 9 }).waves.get? 0 = some { wave [] with peerOut := [5], hold := some 9 } ∧
    ({ wave [] with hold := some 9 }).underWay = true ∧ (wave []).underWay = false := by
  unfold knownType; decide

/-- A memory message that this device sends to itself comes back to it. -/
theorem witness_PeersAndPorts_back :
    let m : OutMsg := ⟨0x10, BitVec.ofNat 16 ownDev, 0, natLe 8 0xFF00000000 ++ natLe 4 8 ++ natLe 4 0⟩
    let s := { about idle 3 0 0 0 with grants := [⟨3, 0, m⟩] }
    s.grants = [] ++ ⟨3, 0, m⟩ :: [] ∧ m.dst.toNat = ownDev ∧ 0x10 ≤ m.kind.toNat ∧ m.kind.toNat ≤ 0x15 ∧
    s.ctl.portDown.getLsbD 3 = false ∧ leAt m.payload 0 8 = 0xFF00000000 :=
  ⟨rfl, by have := Config.dev.isLt; simp [ownDev]; omega, by decide, by decide, by decide, by decide⟩

/-- Port 3 has two requests. -/
def porting : State :=
  { about idle 3 2 0 0 with grants := [⟨4, 2, ⟨7, 1, 0, []⟩⟩, ⟨3, 2, ⟨7, 2, 0, []⟩⟩, ⟨3, 1, ⟨0x11, 2, 0, []⟩⟩] }

theorem witness_PeersAndPorts_ports : porting.powered = true ∧ porting.subj.a < 16 ∧ porting.ctl.portDown.getLsbD porting.subj.a = false ∧
    porting.grants = [⟨4, 2, ⟨7, 1, 0, []⟩⟩] ++ ⟨3, 2, ⟨7, 2, 0, []⟩⟩ :: [⟨3, 1, ⟨0x11, 2, 0, []⟩⟩] ∧
    (∀ x ∈ [(⟨4, 2, ⟨7, 1, 0, []⟩⟩ : GrantReq)], ¬ (x.port = porting.subj.a ∧ x.cls = porting.subj.b)) ∧
    (∀ x ∈ (about idle 3 2 0 0).grants, ¬ (x.port = 3 ∧ x.cls = 2)) ∧
    ({ idle.ctl with portDown := 8 }).portDown.getLsbD 3 = true := by decide

/-- A domain group: devices 0 and 1, or this device alone. -/
def pairGroup : Group := ⟨3, true, 5⟩

/-- A run with that group, whose wave is at `bar.dom`. -/
def domained (d : Group) : State := withRun (world []) fun l => { l with flags := 8, groups := [d] }

theorem witness_DomainBarrier : (domained pairGroup).TablesRise ∧ (domained pairGroup).NonePublished ∧
    Clear (domained pairGroup) (controlForm .always false [])
      (ctxOf (domained pairGroup) (controlForm .always false [])) ∧
    (let c := ctxOf (domained pairGroup) (controlForm .always false [])
     c.l.standing = none ∧ c.l.dqm = false ∧ c.l.domain = some (0, pairGroup) ∧ c.w.blocked ≠ some .barDom ∧
       c.w.halted = false ∧ c.w.parked = none ∧ (domained pairGroup).released c.w .system = true ∧ c.l.domSent = false ∧
       (domained pairGroup).runArrived .barDom c.b.launch c.l (some c.key) = true) ∧
    (owing.released ((ctxOf owing (controlForm .always false [])).w) .system = false) :=
  ⟨by unfold State.TablesRise; decide, by unfold State.NonePublished; decide, clear_of (by decide), by decide, by decide⟩

/-- Where the device's number is that of a member, a group of this device alone is one. -/
theorem witness_DomainBarrier_alone (h : ownDev = 0) : Group.list ⟨1, true, 5⟩ = [ownDev] ∧
    (domained ⟨1, true, 5⟩).doms = [] ∧
    (∀ e ∈ (domained ⟨1, true, 5⟩).launches, e.2.tag = 0 → e.1 = 0) := by
  rw [h]; decide

/-- And where it is not, the root of the pair is a peer. -/
theorem witness_DomainBarrier_peer (h : ownDev ≠ 0) : pairGroup.root ≠ ownDev := by
  have : pairGroup.root = 0 := by decide
  omega

theorem witness_DomainBarrier_root :
    let s : State := { idle with domRoots := [(0, pairGroup)] }
    let m : BarMsg := ⟨0, 0, 0, 1, 5⟩
    m.gen ≠ 0xFFFFFFFF ∧ s.domRoots.get? (16 * m.tag.toNat + m.group.toNat) = some pairGroup ∧
    pairGroup.list = [0, 1] ∧ s.deaf = false ∧ knownType 0 ∧ ({ m with gen := 0xFFFFFFFF } : BarMsg).gen = 0xFFFFFFFF ∧
    s.doms = [] := by unfold knownType; decide

theorem witness_DomainBarrier_release :
    (∀ e ∈ (world []).launches, ¬ (e.2.tag = 0 ∧ e.2.flags.getLsbD 3 = true ∧ BitVec.ofNat 32 (e.2.domGen + 1) = 1)) ∧
    ((domained pairGroup).launches.get? 0).map (fun l => (l.tag, l.flags.getLsbD 3, l.standing, l.dqm,
      BitVec.ofNat 32 (l.domGen + 1))) = some (0, true, none, false, (1 : Word)) ∧
    (∀ e ∈ (domained pairGroup).launches, e.2.tag = 0 → e.1 = 0) := by decide

/-! ## Standing programs -/

/-- A program in free mode that nothing runs of. -/
def thresher (q : Program) (es : List (Nat × ResEntry)) : State :=
  { paged (about idle 0 0 0 0) with
    programs := [(0, q)], residuals := es, launches := [(0, { run with standing := some 0 })] }

/-- The residuals of a program that has settled. -/
def settled : List (Nat × ResEntry) := [(0, entry 0 0b00), (1, entry 0 0b00)]

theorem witness_ProgramsTakeMessages :
    (thresher program settled).deaf = false ∧ (thresher program settled).programs.get? 0 = some program ∧
    (thresher program settled).programs.get? 7 = none ∧ program.state ≠ 0b11 ∧ program.replay.isNone = true ∧
    (let m : InputMsg := ⟨7, 0, 0, true, 4, 0x40, [1, 2, 3, 4] ++ List.replicate 12 0⟩
     knownType m.src ∧ inputAgrees m = true ∧ ¬ (m.len = 0 ∨ 65536 < m.len.toNat ∨ m.clean = false ∨ 2 ^ 57 ≤ m.target.toNat)) ∧
    ({ program with replay := some (0, 0, 0) }).replay.isSome = true ∧ (0 : Word) = 0 ∧ program.readers.length < 16 ∧
    (thresher program settled).launches.get? program.launch = some { run with standing := some 0 } ∧
    (let m : SnapMsg := ⟨7, 0, 0, true, 64, 0⟩
     ¬ (m.len.toNat < 4 ∨ 65536 < m.len.toNat ∨ m.len.toNat % 4 ≠ 0 ∨ m.start.toNat % 4 ≠ 0 ∨ m.clean = false)) ∧
    program.dqm = false ∧ ({ program with dqm := true, state := 0b10 }).snaps = [] ∧ run.quantumOpen = false ∧
    run.commitSent = false ∧ run.committed = false ∧ program.inputs = [] ∧
    (∀ i ∈ program.overlapping ⟨7, 0, 0, true, 64, 0⟩, program.running.get? i = none) := by
  unfold knownType; decide

/-- An input to the mapped page, and one to nowhere. -/
def landing (target : DWord) : Program := { program with inputs := [⟨7, 0, 0, true, 4, target, [1, 2, 3, 4]⟩] }

theorem witness_InputsAndSnapshots :
    (thresher (landing 0x40) settled).programs.get? 0 = some (landing 0x40) ∧ (landing 0x40).dqm = false ∧
    (landing 0x40).replay.isNone = true ∧ (landing 0x40).late = [] ∧ (thresher (landing 0x40) settled).MemCanon ∧
    ((thresher (landing 0x40) settled).landPieces { run with standing := some 0 } 2 0x40 [1, 2, 3, 4]).isSome = true ∧
    ((thresher (landing 0x4000) settled).landPieces { run with standing := some 0 } 2 0x4000 [1, 2, 3, 4]).isNone = true ∧
    ({ program with dqm := true }).dqm = true := by unfold State.MemCanon; decide

/-- A pending snapshot of the first 64 bytes. -/
def snapping : Program := { program with snaps := [⟨⟨7, 0, 0, true, 64, 0⟩, false, false⟩] }

theorem witness_InputsAndSnapshots_serve : snapping.clear ⟨7, 0, 0, true, 64, 0⟩ 0 = true ∧
    (⟨⟨7, 0, 0, true, 64, 0⟩, false, false⟩ : PendSnap).replayed = false ∧
    ((∀ x ∈ program.snaps, program.clear x.msg 0 = false)) ∧ (thresher snapping settled).launches.get? 0 =
      some { run with standing := some 0 } := by decide

/-- A running relaxation of block 0. -/
def dispatched : Dispatched := ⟨0, 1, 8, 0, 3, 0x40000000, false, 0, 0, false⟩

/-- A block of that relaxation whose wave has exited. -/
def relaxed (q : Program) : State :=
  { withBlock (withRun (paged (exited [])) fun l => { l with standing := some 0 }) (fun b => { b with ticket := none }) with
    programs := [(0, q)], residuals := [(0, entry 0x40000000 0b10), (1, entry 0 0b00)] }

/-- Its program. -/
def running : Program := { program with running := [(0, dispatched)] }

theorem witness_RelaxationsRetire : (relaxed running).TablesRise ∧ KMap.wf running.running = true ∧
    (relaxed running).programs.get? 0 = some running ∧
    ((relaxed running).blocks.get? (blockKey 0 0)).map (fun b => (b.halt, b.kill)) = some (none, none) ∧
    (relaxed running).allExited 0 = true ∧ (relaxed running).exitFault 0 = none ∧ (relaxed running).blockDone 0 = true ∧
    (relaxed running).sysBytes 0 0x10000 (running.entryAddr 0) 64 = some (List.replicate 64 0) ∧
    leAt (List.replicate 64 0) 0x14 4 = 0 ∧ leAt (List.replicate 64 0) 0x20 8 % 8 = 0 := by
  unfold State.TablesRise; decide +kernel

/-- The same with a fault of its exited wave; and with a write that is not complete. -/
theorem witness_RelaxationsRetire_fault :
    let d : Deferred := ⟨0, 5, 0x17, 0x40, 0, 0, false⟩
    let s := withWave (relaxed running) fun w => { w with deferred := [d] }
    let h : Deferred := ⟨0, 5, 0x11, 0x40, 0, 0, false⟩
    s.exitFault 0 = some (0, d) ∧ s.allExited 0 = true ∧ s.blockDone 0 = true ∧
    (let t := withWave (relaxed running) fun w => { w with deferred := [h] }
     t.exitFault 0 = some (0, h) ∧ t.allExited 0 = true ∧ t.blockDone 0 = true ∧
     (t.blocks.get? (blockKey 0 0)).map (fun b => b.snap) = some none) ∧
    (withWave (relaxed running) fun w => { w with horizon := 9 }).blockDone 0 = false := by decide +kernel

/-- A relaxation that is killed. -/
def killing : State := withBlock (relaxed running) fun b => { b with kill := some 0x11 }

theorem witness_RelaxationsRetire_kill : running.running.get? 0 = some dispatched ∧ running.dqm = false ∧
    (killing.blocks.get? (blockKey 0 0)).any (fun b => b.kill.isSome) = true ∧ (∀ j ∈ killing.jobsOf 0, j.2.paused = true) ∧
    dispatched.forced = false := by decide

theorem witness_RelaxationsRetire_quiet : killing.performIssued 0 = killing := by decide +kernel

/-- A dispatched block that waits for room, which there is. -/
def offered : State := thresher { running with waiting := [0] } [(0, entry 0x40000000 0b10), (1, entry 0 0b00)]

theorem witness_RelaxationsRetire_place : offered.firstOffer 0 = true ∧
    (offered.placeOne 0 { run with standing := some 0 }).isSome = true ∧
    ((thresher program settled).placeOne 0 { run with standing := some 0 }).isNone = true ∧
    ({ run with standing := some 0 } : Launch).dqm = false := by decide +kernel

theorem witness_DecisionsTaken :
    (thresher program [(0, entry 1 0b01), (1, entry 0x7F800000 0b11)]).decide257 program = some 1 ∧
    (thresher program [(0, entry 1 0b01), (1, entry 2 0b01)]).decide257 program = some 1 ∧
    (thresher program [(0, { entry 1 0b01 with wait := 2 }), (1, entry 2 0b01)]).decide257 program = some 0 ∧
    (thresher program settled).decide257 program = none ∧
    (thresher program settled).programs.get? 0 = some program ∧ 1 < program.n ∧ program.state = 0b01 ∧
    program.running = [] ∧ program.inputs = [] ∧
    (∀ i, i < program.n → ((thresher program settled).resOf program i).state ≠ 0b01 ∧
      ((thresher program settled).resOf program i).state ≠ 0b11) := by decide

/-- A program that unloads, with nothing left. -/
def unloading : Program := { program with state := 0b11 }

theorem witness_ProgramsEndAndJournal : (thresher unloading settled).TablesRise ∧
    KMap.wf (thresher unloading settled).programs = true ∧ unloading.state = 0b11 ∧ unloading.running = [] ∧
    unloading.inputs = [] ∧ unloading.snaps = [] ∧ unloading.late = [] ∧ run.commitSent = false ∧ run.committed = false ∧
    0 < program.n ∧
    (∀ e ∈ (thresher program settled).programs, e.2.base ≤ program.base + 0 → program.base + 0 < e.2.base + e.2.n →
      e.1 = 0) := by unfold State.TablesRise; decide

/-- A journal entry that waits, with room for it. -/
def journal : Program :=
  { program with jbase := 0x1000, jsize := 4096, late := [⟨1, 3, 1, 4, 0x40, 0, 0, [1, 2, 3, 4]⟩] }

theorem witness_ProgramsEndAndJournal_late : journal.journalFits 128 = true ∧ journal.jwr + 128 ≤ journal.jsize ∧
    ({ journal with jwr := 128, jrd := 128, jsize := 64 }).journalFits 128 = false ∧
    ((thresher journal settled).sysStore 0 0x10000 3 0x1000 (List.replicate 128 1)).isSome = true := by decide

/-- A program in DQM that has an input and nothing running. -/
def bounding (inputs : List InputMsg) : Program := { program with dqm := true, inputs := inputs }

theorem witness_ProgramsEndAndJournal_boundary :
    let l : Launch := { run with standing := some 0, dqm := true }
    let s := withRun (thresher (bounding [⟨7, 0, 0, true, 4, 0x40, [1, 2, 3, 4]⟩]) settled) fun _ => l
    l.commitSent = false ∧ l.committed = false ∧ s.mayClose 0 l = false ∧
    s.emptyBoundary l (bounding [⟨7, 0, 0, true, 4, 0x40, [1, 2, 3, 4]⟩]) = true ∧
    (withRun (thresher (bounding []) settled) fun _ => l).emptyBoundary l (bounding []) = false := by decide

/-- A relaxation in DQM whose wave has exited, at the end of its quantum, with what it wrote. -/
def closing (q : Program) (share : List Buffered) : State :=
  withRun (withWave (relaxed { q with dqm := true }) fun w => { w with share := share })
    fun l => { l with dqm := true, quantumOpen := true }

theorem witness_ProgramsEndAndJournal_quantum :
    ((closing running []).launches.get? 0).map (fun l => (l.commitSent, l.committed, (closing running []).mayClose 0 l)) =
      some (false, false, true) ∧ running.replay.isNone = true ∧
    ((closing running []).boundaryFront 0).2 = true ∧
    ((closing running [.store (.here (.mem 0x20040)) 4 7 0 0x40]).boundaryFront 0).2 = false ∧
    (let u := ((closing running []).boundaryFront 0).1
     KMap.wf u.programs = true ∧ u.TablesRise ∧ u.MemCanon ∧
       (u.programs.get? 0).map Program.running = some running.running) := by
  unfold State.TablesRise State.MemCanon; decide +kernel

end Sys2Proof.Tests
end

