-- ==== Sys2Proof/Tests/Control.lean ====
section
/-! SUPPORT. For the statements about commands, pre-emption, the control space and the invariants: states that meet
their hypotheses. -/

namespace Sys2Proof.Tests

set_option Elab.async false

open Sys2Proof Sys2Proof.Machine

/-! ## Commands -/

/-- Bytes laid at an address: only those that differ from 0 are listed. -/
def laid (a : Nat) (bs : List Byte) : List Host.Cell :=
  bs.zipIdx.filterMap fun x => if x.1 = 0 then none else some (a + x.2, x.1)

/-- Bytes from their fields: offset, length, value. -/
def bytesOf (n : Nat) (fields : List (Nat × Nat × Nat)) : List Byte :=
  fields.foldl (fun (bs : List Byte) f => bs.take f.1 ++ natLe f.2.1 f.2.2 ++ bs.drop (f.1 + f.2.1)) (List.replicate n 0)

/-- A machine that is up, with the page at address 0 mapped. -/
def up : State := paged (about idle 0 0 0 0)

/-- A machine with a command waiting. -/
def asked (s : State) (bs : List Byte) : State :=
  { s with mem := s.mem ++ laid 0x30000 bs
           ctl := { s.ctl with lqOn := true, lqSize := 4, lqBase := 0x30000, lqHead := 0, lqTail := 1 } }

/-- A run command of one block of one wave of 8 registers on core 0, with some fields set otherwise. -/
def runWords (fields : List (Nat × Nat × Nat)) : List Byte :=
  bytesOf 256 ([(0, 4, 1), (4, 4, 7), (8, 2, 9), (0xA, 2, 3), (0x10, 8, 0x10000), (0x88, 4, 1), (0x8C, 4, 1), (0x90, 4, 1),
    (0x94, 1, 1), (0x95, 1, 1), (0x96, 1, 1), (0x97, 1, 1), (0x98, 2, 8), (0xB8, 8, 1)] ++ fields)

/-- A command of another kind. -/
def kindWords (kind : Nat) (fields : List (Nat × Nat × Nat)) : List Byte := bytesOf 256 ([(0, 4, kind)] ++ fields)

/-- A check of the command that waits. -/
def waitsFor (s : State) (good : List Byte → Bool) : Bool := s.nextCommand.any good

theorem waitsFor_of {s : State} {good : List Byte → Bool} (h : waitsFor s good = true) :
    ∃ bs, s.nextCommand = some bs ∧ good bs = true := by
  simpa [waitsFor, Option.any_eq_true] using h

theorem witness_CommandsAndRuns_queue : up.ctl.ready = true ∧ up.ctl.lqOn = false ∧ (0x8000000000000004 : DWord).getLsbD 63 = true ∧
    (asked up []).ctl.lqOn = true ∧ (asked up []).deaf = false ∧ knownType 0x1003 ∧
    ((256 : Word) - (asked up []).ctl.lqHead).toNat ≤ 2 ^ ((asked up []).ctl.lqSize + 4) ∧
    2 ^ ((asked up []).ctl.lqSize + 4) < ((257 : Word) - (asked up []).ctl.lqHead).toNat := by
  unfold knownType; decide

theorem witness_CommandsAndRuns_kinds : ∀ kind ∈ [0, 1, 2, 3, 4, 0xFFFFFFFF],
    ∃ bs, (asked up (kindWords kind [])).nextCommand = some bs ∧ decide (leAt bs 0 4 = kind) = true := by
  have h : [0, 1, 2, 3, 4, 0xFFFFFFFF].all (fun kind =>
    waitsFor (asked up (kindWords kind [])) fun bs => decide (leAt bs 0 4 = kind)) = true := by decide +kernel
  intro kind hk
  exact waitsFor_of (List.all_eq_true.mp h kind hk)

/-- The machine with a program, and an unload waiting. -/
def unloads (q : Program) (fields : List (Nat × Nat × Nat)) : State :=
  asked { thresher q settled with ctl := idle.ctl } (kindWords 3 fields)

theorem witness_CommandsAndRuns_unload :
    (∃ bs, (unloads program []).nextCommand = some bs ∧ (unloadReserved bs && decide (leAt bs 0x18 1 = 0) &&
      decide (leAt bs 0xA 2 = 0)) = true) ∧
    (∃ bs, (unloads program [(0x19, 1, 1)]).nextCommand = some bs ∧ (!unloadReserved bs) = true) ∧
    (∃ bs, (unloads program [(0x18, 1, 8)]).nextCommand = some bs ∧
      (unloadReserved bs && ((unloads program []).programs.get? (leAt bs 0x18 1)).isNone) = true) ∧
    (unloads program []).programs.get? 0 = some program ∧
    (unloads program []).launches.get? program.launch = some { run with standing := some 0 } ∧ run.asid = 0 ∧
    program.state ≠ 0b11 :=
  ⟨waitsFor_of (by decide +kernel), waitsFor_of (by decide +kernel), waitsFor_of (by decide +kernel), by decide, by decide,
    by decide, by decide⟩

/-- What a run command's checks give: its code and its status. -/
def verdict (s : State) (bs : List Byte) : Nat × Nat :=
  (s.runCode bs none, runStatus (recordOf (bs.drop 0x80) s.ctl.coreLive) (bs.drop 0x80) (flagOf bs 0))

theorem witness_CommandsAndRuns_run :
    (∃ bs, (asked up (runWords [])).nextCommand = some bs ∧ (decide (leAt bs 0 4 = 1) && !flagOf bs 1 && !flagOf bs 3 &&
      runReserved bs && decide (verdict (asked up (runWords [])) bs = (0, 0))) = true) ∧
    (∃ bs, (asked up (runWords [(0x98, 2, 0)])).nextCommand = some bs ∧
      decide (verdict (asked up (runWords [])) bs = (0, 5)) = true) ∧
    (∃ bs, (asked up (runWords [(0x28, 1, 1)])).nextCommand = some bs ∧
      (!runReserved bs && decide (verdict (asked up (runWords [])) bs = (2, 0))) = true) ∧
    (∃ bs, (asked { up with asids := [(3, 0x14000)] } (runWords [])).nextCommand = some bs ∧
      (runReserved bs && ({ up with asids := [(3, 0x14000)] } : State).boundElse (leAt bs 0xA 2) (leAt bs 0x10 8)) = true) :=
  ⟨waitsFor_of (by decide +kernel), waitsFor_of (by decide +kernel), waitsFor_of (by decide +kernel),
    waitsFor_of (by decide +kernel)⟩

/-- Whether a run command that waits, with some fields set otherwise, has that code and that status. -/
def judged (code status : Nat) (fields : List (Nat × Nat × Nat)) : Bool :=
  decide (verdict up (runWords fields) = (code, status))

/-- R14, R294 to R296: one command for each code of a run command that the machine's bindings do not decide. -/
theorem witness_CommandsAndRuns_codes :
    judged 2 0 [(0xC, 4, 8)] = true ∧ judged 4 0 [(0x10, 8, 0x10001)] = true ∧
    judged 5 0 [(0xC, 4, 9), (0x20, 8, 0x40000000)] = true ∧ judged 7 0 [(0xC, 4, 6), (0x18, 8, 0x1000), (0xA4, 4, 1)] = true := by
  decide +kernel

/-- R34, R35: one record for each status. -/
theorem witness_CommandsAndRuns_statuses :
    ([(1, [(0x80, 8, 2)]), (2, [(0x88, 4, 0)]), (3, [(0x94, 1, 0)]), (4, [(0x97, 1, 17)]), (6, [(0x9A, 2, 2)]),
      (7, [(0x9C, 4, 262145)]), (8, [(0xA0, 4, 524289)]), (9, [(0xA4, 4, 16)]), (0xA, [(0xA8, 4, 1)]), (0xB, [(0xAC, 4, 1)]),
      (0xC, [(0xB8, 8, 0)]), (0xD, [(0x97, 1, 16), (0x9A, 2, 4096), (0x9C, 4, 262144)]), (0xE, [(0x88, 4, 8), (0x94, 1, 8), (0x97, 1, 16)]),
      (0xF, [(0xC, 4, 1), (0x88, 4, 9), (0x97, 1, 16)]), (0x10, [(0xA4, 4, 3)])]
      : List (Nat × List (Nat × Nat × Nat))).all (fun x => judged 0 x.1 x.2) = true := by decide +kernel

/-- A load command of a program of one block; its header, and its block's entry. -/
def loadWords (fields : List (Nat × Nat × Nat)) : List Byte :=
  bytesOf 256 ([(0, 4, 2), (4, 4, 7), (8, 2, 9), (0x10, 8, 0x10000), (0x18, 8, 0x400), (0x20, 8, 0x1000), (0x28, 8, 0x1000)] ++
    fields)

/-- The header. -/
def headWords (fields : List (Nat × Nat × Nat)) : List Byte :=
  bytesOf 64 ([(0, 8, 0x800), (8, 4, 1), (0xC, 2, 1), (0xE, 2, 2), (0x20, 8, 1)] ++ fields)

/-- The entry. -/
def entryWords (fields : List (Nat × Nat × Nat)) : List Byte :=
  bytesOf 64 ([(8, 1, 1), (0xA, 2, 8), (0x10, 4, 0x3F800000), (0x34, 4, 4)] ++ fields)

/-- The machine that has them, with a load waiting. -/
def loads (ps : List (Nat × Program)) (bs h e : List Byte) : State :=
  asked { up with mem := up.mem ++ laid 0x20400 h ++ laid 0x20800 e, programs := ps } bs

/-- What a load finds: its code, its header's status, a slot, room, and its block's code. -/
def found (s : State) (bs : List Byte) : Option (List (Option Nat)) :=
  (s.sysBytes (leAt bs 0xA 2) (leAt bs 0x10 8) (leAt bs 0x18 8 % 2 ^ 57) 64).map fun h =>
    [some (s.loadCode bs (some h)), some (headerStatus h (BitVec.ofNat 192 (leAt h 0x20 24) &&& s.ctl.coreLive)),
      s.programs.firstFree 8 0, s.freeEntries (leAt h 8 4),
      some (s.loadBlock (leAt bs 0xA 2) (leAt bs 0x10 8) (leAt h 0 8) (leAt h 8 4) 0).1]

theorem witness_LoadsAreTaken : ∃ bs, (loads [] (loadWords []) (headWords []) (entryWords [])).nextCommand = some bs ∧
    (decide (leAt bs 0 4 = 2) && !flagOf bs 0 && decide (found (loads [] (loadWords []) (headWords []) (entryWords [])) bs =
      some [some 0, some 0, some 0, some 0, some 0])) = true := waitsFor_of (by decide +kernel)

theorem witness_LoadsAreTaken_refused :
    found (loads [] (loadWords []) (headWords []) (entryWords [(8, 1, 0)])) (loadWords []) =
      some [some 0, some 0, some 0, some 0, some 0x0B] ∧
    found (loads [] (loadWords []) (headWords [(0xC, 2, 0)]) (entryWords [])) (loadWords []) =
      some [some 0, some 3, some 0, some 0, some 0] ∧
    found (loads [(0, { program with n := 2 ^ 20 })] (loadWords []) (headWords []) (entryWords [])) (loadWords []) =
      some [some 0, some 0, some 1, none, some 0] ∧
    found (loads ((List.range 8).map fun i => (i, { program with base := 2 * i })) (loadWords []) (headWords []) (entryWords []))
      (loadWords []) = some [some 0, some 0, none, some 16, some 0] ∧
    found (loads [] (loadWords [(0x20, 8, 0x40)]) (headWords []) (entryWords [])) (loadWords [(0x20, 8, 0x40)]) =
      some [some 4, some 0, some 0, some 0, some 0] := by decide +kernel

/-- A coupling list that cannot be read; and one beside a subscription that breaks its rule, which is found all the same. -/
theorem witness_LoadsAreTaken_lists :
    (found (loads [] (loadWords []) (headWords []) (entryWords [(0x14, 4, 1), (0x20, 8, 0x4000)])) (loadWords [])).map
      (·.getLast?) = some (some (some 0x0E)) ∧
    (found (loads [] (loadWords []) (headWords []) (entryWords [(0x14, 4, 1), (0x20, 8, 0x4000), (0x38, 4, 1),
      (0x28, 8, 0x100)])) (loadWords [])).map (·.getLast?) = some (some (some 0x0C)) := by decide +kernel

/-! ## Pre-emption -/

/-- A block of one wave of one register, with nothing on chip. -/
def small : State :=
  withWave (withBlock (world []) fun b => { b with scrGran := 0, accGran := 0 }) fun w => { w with regCount := 1, pc := 0x40 }

/-- The same with an operation's buffer. -/
def buffer (s : State) (a len : DWord) : State := about { s with ctl := { s.ctl with peAddr := a, peLen := len } } 0 0 0 0

/-- Its block. -/
def smallBlock : Block := (small.blocks.get? 0).getD block

/-- Its wave. -/
def smallWave : Wave := (small.waves.get? 0).getD (wave [])

/-- What its image carries. -/
def kept : Saved := small.savedOf 0 smallBlock run

theorem kept_sections : kept.sections 1 =
    [(1, 0, waveBytes smallBlock (small.savedWave run smallWave)), (2, 0, []), (3, 0, []), (7, 0, innerSection 1 7 0)] := by
  unfold kept
  rfl

theorem kept_length : imageLength (kept.sections 1) < 2 ^ 21 := by
  rw [kept_sections]
  have hr : (small.savedWave run smallWave).regCount = 1 := by decide
  have hw := length_waveBytes smallBlock (small.savedWave run smallWave) (by decide) (by decide)
  have hs : (imageSlots 1).length = 7 := by decide
  rw [hr, hs] at hw
  have hi : (innerSection 1 7 0).length < 2 ^ 20 := by simp [innerSection]; omega
  generalize waveBytes smallBlock (small.savedWave run smallWave) = ws at hw ⊢
  generalize innerSection 1 7 0 = xs at hi ⊢
  simp only [imageLength, List.map_cons, List.map_nil, List.sum_cons, List.sum_nil, hw, List.length_nil,
    List.length_cons, roundUpTo]
  omega

theorem kept_numbers : ∀ x ∈ kept.sections 1, x.1 < 2 ^ 32 ∧ x.2.1 < 2 ^ 32 := by
  rw [kept_sections]
  simp

theorem saved_buffer (a len : DWord) : (buffer small a len).savedOf 0 smallBlock run = kept := by
  unfold kept
  rfl

/-- An image of 2 MiB holds the block. -/
theorem witness_BlocksAreSavedAndRestored :
    let s := buffer small 0x40000 0x200000
    s.TablesRise ∧ s.MemCanon ∧ s.ctl.ready = true ∧ s.subj.a = 0 ∧ s.ctl.peJob = none ∧ s.ctl.peWaits = [] ∧
    s.findBlock s.ctl.peTag s.ctl.peBlk = some 0 ∧ s.blocks.get? 0 = some smallBlock ∧
    s.launches.get? smallBlock.launch = some run ∧ 64 * s.imageNeed 0 smallBlock run ≤ s.ctl.peLen.toNat ∧
    run.commitSent = false ∧ run.committed = false ∧ s.mayImage 0 = true ∧ s.NonePublished := by
  refine ⟨by unfold State.TablesRise; decide, by unfold State.MemCanon; decide, by decide, by decide, by decide, by decide,
    by decide, by decide, by decide, ?_, by decide, by decide, by decide, by unfold State.NonePublished; decide⟩
  have h := kept_length
  have hg : (buffer small 0x40000 0x200000).generation.toNat = 1 := by decide
  have hl : (buffer small 0x40000 0x200000).ctl.peLen.toNat = 0x200000 := by decide
  rw [State.imageNeed, hg, hl, saved_buffer]
  omega

theorem witness_BlocksAreSavedAndRestored_settled :
    let s := buffer small 0x40000 0x200000
    (s.finishHalt 0).settleBlock 0 = s := by decide +kernel

theorem witness_BlocksAreSavedAndRestored_short :
    let s := buffer small 0x40000 0
    s.ctl.peLen.toNat < 64 * s.imageNeed 0 smallBlock run := by
  have h : 64 ≤ imageLength (kept.sections 1) := by
    unfold imageLength roundUpTo; omega
  have hg : (buffer small 0x40000 0).generation.toNat = 1 := by decide
  have hl : (buffer small 0x40000 0).ctl.peLen.toNat = 0 := by decide
  simp only [State.imageNeed, hg, hl, saved_buffer]
  omega

/-- A block that no launch has, an operation that waits behind another, and a wave that holds. -/
theorem witness_BlocksAreSavedAndRestored_other :
    ({ small.ctl with peJob := some ⟨5, 0, 0, 0, 0, 0⟩ } : Ctl).peJob.isSome = true ∧
    small.findBlock 1 0 = none ∧ (withWave small fun w => { w with hold := some 4 }).mayImage 0 = false ∧
    (withRun small fun l => { l with commitSent := true }).findBlock 0 0 = some 0 := by decide

/-- Bytes at 0x40000 in an otherwise empty memory. -/
def stored (s : State) (bs : List Byte) (len : DWord) : State := buffer { s with mem := Memory.putAll [] 0x40000 bs } 0x40000 len

theorem stored_reads {s : State} {bs : List Byte} {len : DWord} (h : s.ctl.windows = []) (i : Nat) (hi : i < bs.length) :
    (stored s bs len).homeByte (0x40000 + i) = bs.getD i 0 := by
  have hw : (stored s bs len).windowAt (0x40000 + i) = none := by
    simp [State.windowAt, stored, buffer, about, h]
  rw [State.homeByte, State.byteVia, hw]
  show KMap.getD (Memory.putAll [] 0x40000 bs) (0x40000 + i) memDefault = _
  rw [Memory.getD_putAll _ _ _ rfl, if_pos (by omega), Nat.add_sub_cancel_left]

/-- A machine with no block resident, some blocks saved, and the generations of their images. -/
def ashore (gens : List (Nat × Nat)) (saved : List (Nat × Saved)) : State :=
  { idle with launches := [(0, run)], gens := gens, saved := saved }

/-- The image of the saved block is read back, as the latest of that block. -/
theorem witness_BlocksAreSavedAndRestored_seal :
    let s := stored (ashore [(0, 1)] [(0, kept)]) (kept.image run 1) 0x200000
    s.unseal ⟨2, 0xFF, 0, 0, 0x40000, 0x200000⟩ 1 4 4 = some (kept.image run 1) ∧
    leAt (kept.image run 1) 8 8 = 1 ∧ leAt (kept.image run 1) 0x10 4 = 0 ∧ leAt (kept.image run 1) 0x14 4 = 0 ∧
    sectionsOf (kept.image run 1) = kept.sections 1 := by
  have r := kept.image_reads run 1 (by have := kept_length; exact Nat.lt_trans this (by decide)) kept_numbers
  refine ⟨State.unseal_image (fun i hi => stored_reads rfl i hi) (Nat.lt_trans kept_length (by decide)) kept_numbers
    (Nat.le_trans kept_length.le (by decide)) rfl, r.2.2.1, r.2.2.2.1.trans (by decide), r.2.2.2.2.1.trans (by decide),
    r.2.2.2.2.2⟩

theorem stored_findSaved (s : State) (bs : List Byte) (len : DWord) (t b : Word) :
    (stored s bs len).findSaved t b = s.findSaved t b := rfl

theorem stored_roomFor (s : State) (bs : List Byte) (len : DWord) (v : Saved) (l : Launch) (c : Nat) :
    (stored s bs len).roomFor? v l c = s.roomFor? v l c := rfl

theorem witness_BlocksAreSavedAndRestored_names (bs : List Byte) :
    let s := stored (ashore [(0, 1)] [(0, kept)]) bs 0x200000
    s.TablesRise ∧ s.ctl.ready = true ∧ s.subj.a = 0 ∧ s.ctl.peJob = none ∧ s.ctl.peWaits = [] ∧
    s.gens.get? (genKey 0 0) = some 1 ∧ (stored (ashore [(0, 2)] []) bs 0).gens.get? (genKey 0 0) ≠ some 1 ∧
    s.findSaved 0 0 = some (0, kept, run) ∧ (stored (ashore [(0, 1)] []) bs 0).findSaved 0 0 = none ∧
    KMap.wf s.saved = true ∧ KMap.wf s.gens = true := by
  have hf : (ashore [(0, 1)] [(0, kept)]).findSaved 0 0 = some (0, kept, run) := by decide +kernel
  have hn : (ashore [(0, 1)] []).findSaved 0 0 = none := by decide
  have hg : (ashore [(0, 2)] []).gens.get? (genKey 0 0) ≠ some 1 := by decide
  have h1 : (ashore [(0, 1)] [(0, kept)]).gens.get? (genKey 0 0) = some 1 := by decide
  refine ⟨⟨rfl, rfl, rfl, rfl⟩, rfl, rfl, rfl, rfl, h1, hg, ?_, ?_, rfl, rfl⟩
  · rw [stored_findSaved, hf]
  · rw [stored_findSaved, hn]

/-- A buffer of zeros holds no image. -/
theorem witness_BlocksAreSavedAndRestored_unsealed :
    (stored (ashore [] []) [] 0x200000).unseal ⟨2, 0xFF, 0, 0, 0x40000, 0x200000⟩ 1 4 4 = none := by decide

/-- What the image of the saved block holds. -/
def back : Saved :=
  { kept with
    block := kept.block.fromSections (kept.sections 1)
    waves := kept.waves.zipIdx.map fun x => match pick (kept.sections 1) 1 x.2 with
      | some bs => (x.1.1, x.1.2.fromBytes bs)
      | none => x.1
    tenures := kept.tenures.zipIdx.filterMap fun x => (pick (kept.sections 1) 4 x.2).map x.1.fromSection }

theorem kept_back : kept.fromSections 1 (kept.sections 1) = some back := by
  simp only [Saved.fromSections, BEq.rfl, if_true]
  rfl

/-- It fits on core 0, and not on a core that there is not. -/
theorem witness_BlocksAreSavedAndRestored_room :
    back.waves.map (·.1) = [0] ∧ (∀ e ∈ back.waves, ∀ a ∈ e.2.outst, a.rel = none) ∧ ((ashore [(0, 1)] [(0, kept)]).roomFor? back run 0).isSome = true ∧
    (ashore [(0, 1)] [(0, kept)]).roomFor? back run 192 = none ∧
    (List.range 192).filter run.inMask = [] ++ 0 :: [] := by decide +kernel

/-- The block has halted for a fault of its wave. -/
def stoppedAt (h : Halt) (f : Wave → Wave) (snap : Option Snapshot) : State :=
  buffer (withWave (withBlock small fun b => { b with halt := some h, snap := snap }) f) 0x40000 0

theorem witness_StoppedBlocksGoOn :
    let s := stoppedAt ⟨0x11, 0, true, false⟩ (fun w => { w with halted := true }) none
    s.TablesRise ∧ (∀ e ∈ s.waves, ∀ a ∈ e.2.outst, a.rel = none) ∧ s.ctl.ready = true ∧ s.subj.a = 0 ∧
    s.ctl.peJob = none ∧ s.ctl.peWaits = [] ∧
    s.findBlock s.ctl.peTag s.ctl.peBlk = some 0 ∧ s.launches.get? 0 = some run ∧ run.standing = none ∧
    run.domain = none ∧ (∀ e ∈ s.waves, e.2.blocked ≠ some .barDom) ∧ s.stopped 0 = true ∧ small.stopped 0 = false ∧ small.findBlock 1 0 = none ∧
    (s.waves.get? 0).map (fun w => (w.block, w.exited, w.blocked)) = some (0, false, none) ∧ s.performIssued 0 = s ∧
    (let t := stoppedAt ⟨0x11, 0, false, false⟩ (fun w => { w with hold := some 4 }) none
     t.stopped 0 = true ∧ t.blockAtBoundary 0 = false) := by unfold State.TablesRise; decide +kernel

/-- A machine that rolls back to a snapshot of its wave. -/
theorem witness_StoppedBlocksGoOn_rollback :
    let n : Snapshot := ⟨[(0, smallWave)], [], [], [], [], [], [], [], 0, []⟩
    let s := stoppedAt ⟨0x43, 0, true, false⟩ (fun w => { w with halted := true }) (some n)
    s.TablesRise ∧ s.ctl.ready = true ∧ (s.blocks.get? 0).map (fun b => (b.halt, b.snap, b.launch)) =
      some (some ⟨0x43, 0, true, false⟩, some n, 0) ∧ s.launches.get? 0 = some run ∧ s.blockAtBoundary 0 = true ∧
    s.jobsOf 0 = [] ∧ (∀ e ∈ s.wavesOf 0, e.2.outst = []) ∧ (s.waves.get? 0).map (fun w => w.block) = some 0 ∧
    n.waves.find? (fun e => decide (e.1 = 0)) = some (0, smallWave) := by unfold State.TablesRise; decide +kernel

/-- A checkpoint of the launch of that block, and of generation 1. -/
def ark : List Byte := (ashore [] []).checkpointBytes ⟨run, none, [(0, kept)]⟩ 1

theorem ark_length : 64 ≤ ark.length ∧ ark.length < 2 ^ 22 ∧
    ark.length = roundUpTo (64 + (kept.image run 1).length + 0 + 4) 64 := by
  have h := kept_length
  have hi : (kept.image run 1).length = imageLength (kept.sections 1) := kept.length_image run 1
  have e : ark.length = roundUpTo (64 + (kept.image run 1).length + 0 + 4) 64 := by
    simp only [ark, State.checkpointBytes, length_sealed, List.length_append, length_natLe, List.flatMap_cons,
      List.flatMap_nil, List.append_nil, State.programPart, List.length_nil]
  rw [e, hi]
  refine ⟨?_, ?_, rfl⟩ <;> unfold roundUpTo <;> omega

theorem small_checkpoint (a len : DWord) :
    (buffer small a len).checkpointBytes ((buffer small a len).checkpointOf 0 run) (buffer small a len).generation = ark := by
  have h : (buffer small a len).checkpointOf 0 run = ⟨run, none, [(0, kept)]⟩ := by
    have := saved_buffer a len
    show (⟨run, none, [(0, (buffer small a len).savedOf 0 smallBlock run)]⟩ : SavedLaunch) = _
    rw [this]
  have g : (buffer small a len).generation = 1 := rfl
  rw [h, g]
  rfl

theorem witness_LaunchesAreCheckpointed :
    let s := buffer small 0x40000 0x400000
    let keys := (s.blocksOf 0).map (·.1)
    s.TablesRise ∧ s.MemCanon ∧ s.findLaunch s.ctl.peTag = some (0, run) ∧ keys = [0] ∧
    keys.foldl (fun s b => (s.finishHalt b).settleBlock b) s = s ∧ run.dqm = false ∧
    (∀ b ∈ keys, s.mayImage b = true) ∧ s.findLaunch 1 = none ∧
    ((withWave s fun w => { w with hold := some 4 }).mayImage 0 = false) := by
  unfold State.TablesRise State.MemCanon; decide +kernel

theorem witness_LaunchesAreCheckpointed_room :
    let s := buffer small 0x40000 0x400000
    let t := buffer small 0x40000 0
    64 * ((s.checkpointBytes (s.checkpointOf 0 run) s.generation).length / 64) ≤ s.ctl.peLen.toNat ∧
    t.ctl.peLen.toNat < 64 * ((t.checkpointBytes (t.checkpointOf 0 run) t.generation).length / 64) := by
  have h := ark_length
  have l1 : (buffer small 0x40000 0x400000).ctl.peLen.toNat = 0x400000 := by decide
  have l2 : (buffer small 0x40000 0).ctl.peLen.toNat = 0 := by decide
  dsimp only
  rw [small_checkpoint, small_checkpoint, l1, l2]
  omega

/-- The checkpoint is read back, and its image. -/
theorem witness_LaunchesAreCheckpointed_seal :
    let s := stored (ashore [] []) ark 0x400000
    s.unseal ⟨6, 0, 0, 0, 0x40000, 0x400000⟩ 2 8 8 = some ark ∧
    leAt ark 0x10 8 = 1 ∧ leAt ark 0x18 4 = 0 ∧ leAt ark 0x1C 4 = 1 ∧ imagesOf 1 (ark.drop 64) = some [kept.image run 1] ∧
    leAt (kept.image run 1) 8 8 = 1 := by
  have hl := ark_length
  have hk : imageLength (kept.sections (1 : DWord).toNat) < 2 ^ 32 := Nat.lt_trans kept_length (by decide)
  obtain ⟨bs, e, hbs⟩ : ∃ bs, ark = sealed bs ∧ 64 ≤ bs.length :=
    ⟨_, rfl, by simp only [List.length_append, length_natLe]; omega⟩
  obtain ⟨p0, p1, p2, p3, p4, pad, p5⟩ := checkpoint_parts ark.length 1 0 1 0 (kept.image run 1) [] (by omega) (by decide)
    (by decide) (by decide)
  have hark : ark = sealed (natLe 8 2 ++ natLe 8 ark.length ++ natLe 8 1 ++ natLe 4 0 ++ natLe 4 1 ++ natLe 4 0 ++ natLe 28 0 ++
      kept.image run 1 ++ []) := by
    conv_lhs => rw [ark]
    simp only [State.checkpointBytes, List.flatMap_cons, List.flatMap_nil, List.append_nil, State.programPart,
      List.length_nil, hl.2.2]
    rfl
  rw [← hark] at p0 p1 p2 p3 p4 p5
  refine ⟨?_, p2, p3, p4, ?_, (kept.image_reads run 1 hk kept_numbers).2.2.1⟩
  · have h (i : Nat) (hi : i < ark.length) := stored_reads (s := ashore [] []) (len := 0x400000) rfl i hi
    rw [e] at h p0 p1 hl ⊢
    exact State.unseal_sealed h p0 p1 (by omega) hbs (by show _ ≤ 0x400000; omega) rfl
  · rw [p5, List.nil_append, imagesOf_image 0 kept run 1 pad hk kept_numbers]
    rfl

/-- A machine that made that checkpoint. -/
def harbour (runs : List (Nat × Launch)) (bs : List Byte) : State :=
  stored { ashore [] [] with launches := runs, savedLaunches := [(1, ⟨run, none, [(0, kept)]⟩)] } bs 0x400000

theorem witness_LaunchesAreCheckpointed_names (bs : List Byte) :
    (harbour [] bs).TablesRise ∧ (harbour [] bs).ctl.ready = true ∧ (harbour [] bs).subj.a = 0 ∧
    (harbour [] bs).ctl.peJob = none ∧ (harbour [] bs).ctl.peWaits = [] ∧ (harbour [] bs).findLaunch 0 = none ∧
    ((harbour [(0, run)] bs).findLaunch 0).isSome = true ∧
    (harbour [] bs).savedLaunches.get? 1 = some ⟨run, none, [(0, kept)]⟩ ∧ run.tag = 0 ∧
    (harbour [] bs).launches.get? 0 = none ∧ (harbour [] bs).NonePublished :=
  ⟨⟨rfl, rfl, rfl, rfl⟩, rfl, rfl, rfl, rfl, rfl, rfl, rfl, rfl, rfl, fun _ h => nomatch h⟩

/-- Zeros hold no checkpoint, and no image. -/
theorem witness_LaunchesAreCheckpointed_unsealed :
    (harbour [] []).unseal ⟨6, 0, 0, 0, 0x40000, 0x400000⟩ 2 8 8 = none ∧ imagesOf 1 (List.replicate 192 0) = none := by
  decide

theorem kept_load : loadImages 1 [(0, kept)] [kept.image run 1] = some [(0, back)] := by
  simp only [loadImages, witness_BlocksAreSavedAndRestored_seal.2.2.2.2, kept_back]

/-- Its block finds room where the core mask has a core. -/
theorem witness_LaunchesAreCheckpointed_restore :
    ((harbour [] []).restoreLaunch ⟨run, none, [(0, kept)]⟩ [(0, back)] 0 []).isSome = true ∧
    ((harbour [] []).restoreLaunch ⟨{ run with record := { run.record with mask := 0 } }, none, [(0, kept)]⟩ [(0, back)] 0
      []).isNone = true := by decide +kernel

/-! ## The module -/

theorem witness_ModuleLives : State.reset.powered = false ∧ up.powered = true ∧ up.ctl.ready = true ∧
    State.reset.ctl.ready = false ∧ ([⟨0, 3, 127⟩, ⟨767, 127, 127⟩].map LaneTest.sect).Nodup ∧
    (let x : LaneTest := ⟨767, 3, 64⟩
     x.sect < 768 ∧ mapOk (x.fail2 ++ (0 : BitVec 1) ++ x.fail1) = true) ∧
    mapOk (((127 : BitVec 7) ++ (0 : BitVec 1)) ++ (127 : BitVec 7)) = true ∧
    (world []).blocks.get? 0 = some block ∧ ((world []).waves.get? 0).isSome = true ∧ (world []).powered = true ∧
    (∀ e ∈ (world []).waves, e.2.outst = []) ∧ KMap.canon 0 block.acc = true ∧ KMap.canon 0 tenure.elems = true ∧
    (pinned.core 0).tenures.get? 0 = some tenure := by decide

/-- A core has a copy of a line, and L2 holds it clean; an error strikes the copy, or the line. -/
def copied : State :=
  { up with hit := true, cores := [(0, { Core.reset with l1 := [(5, ⟨List.replicate 64 0, 600, 0⟩)] })], l2 := [(5, false)] }

theorem witness_ModuleLives_copy : copied.hit = true ∧ copied.cleanHolders 5 ≠ [] ∧ copied.powered = true ∧
    (∀ e ∈ copied.cores, KMap.wf e.2.l1 = true) ∧ KMap.wf copied.l2 = true ∧
    copied.cleanHolders 6 = [] ∧ copied.TablesRise := by unfold State.TablesRise; decide

theorem witness_ControlSpaceWrites : up.ctl.ready = true ∧ State.reset.ctl.ready = false ∧
    State.reset.ctl.measured = false ∧ ctlRegAt 0x28 = some .lease ∧ ctlRegAt 0x160018 = some .peLen ∧
    ctlRegAt 4 = none ∧ ctlRegAt 0x2F8 = none ∧ CtlReg.early .lease = false ∧ up.deaf = false ∧ knownType 0 ∧ up.ctl.atBusy = false ∧
   
    (natLe 8 0).length = 8 ∧ remoteRmw ⟨0x60, 9, []⟩ = none ∧ up.ctl.trOn = false ∧ KMap.wf up.ctl.windows = true ∧
    (up.ctl.window 15).on = false ∧ up.writeWaits .lease 5 = false ∧
    ({ up with ctl := { up.ctl with xltBusy := true } }).writeWaits .xltC 1 = true := by unfold knownType; decide

/-- An atomic request of 32 bits that adds. -/
theorem witness_ControlSpaceWrites_atomic :
    ∃ o v w, remoteRmw ⟨0x60, 0, [1, 0, 0, 0]⟩ = some (o, v, w) := ⟨.int .add 4, 1, 0, by decide⟩

/-- No window stands over the control space; a source with an access that waits, and one without; the operands of an atomic. -/
theorem witness_ControlSpaceWrites_busy :
    (∀ x, 0xFF00000000 ≤ x → up.windowAt x = none) ∧ up.ctlBusy 5 = false ∧
    ({ up with ctl := { up.ctl with behind := [⟨0, .atomic, ⟨5, 0, 0⟩⟩] } } : State).ctlBusy 5 = true ∧
    remoteFits ⟨0x60, 0, [1, 0, 0, 0]⟩ = true := by
  refine ⟨fun x _ => ?_, by decide, by decide, by decide⟩
  have h : up.ctl.windows = [] := by decide
  simp [State.windowAt, h]

/-- An entry of the residual table that a program has, and one that none has; an entry of the ownership table; a wave that
has halted. -/
theorem witness_ControlSpaceWrites_tables :
    (∃ q ∈ (thresher program settled).programs, q.2.base ≤ 1 ∧ 1 < q.2.base + q.2.n) ∧
    (¬ ∃ q ∈ (thresher program settled).programs, q.2.base ≤ 2 ∧ 2 < q.2.base + q.2.n) ∧
    (thresher program settled).ctl.ready = true ∧ KMap.wf (thresher program settled).programs = true ∧
    (thresher program settled).programs.get? 0 = some program ∧ (thresher program settled).programs.get? 1 = none ∧
    (pinned.core 0).tenures.get? 0 = some tenure ∧ (pinned.core 0).tenures.get? 1 = none ∧
    (let s := stoppedAt ⟨0x11, 0, true, false⟩ (fun w => { w with halted := true }) none
     ∃ e ∈ s.waves, e.2.exited = false ∧ e.2.core = 0 ∧ 16 * e.2.sect + e.2.slot = 0 ∧
       ∃ b h, s.blocks.get? e.2.block = some b ∧ b.halt = some h ∧ h.done = true ∧ ∀ d ∈ s.waves, d = e) := by
  refine ⟨⟨_, List.mem_cons_self, by decide⟩, by decide, by decide, by decide, by decide, by decide, by decide, by decide, ?_⟩
  exact ⟨_, List.mem_cons_self, by decide, by decide, by decide, _, _, rfl, rfl, rfl, by decide⟩

/-- A translation in a core's and in a die's cache. -/
def cached : Xlate := ⟨0, 0, 8192, 0x20000, true, true, false, none⟩

/-- The machine that holds it, and one with an invalidation under way. -/
def caching (job : Option (Nat × Nat × Nat)) : State :=
  { about up 0 0 0 0 with
    cores := [(0, { Core.reset with tlb := [cached] })], dieTlb := [(0, [cached])],
    ctl := { up.ctl with xltJob := job, xltBusy := job.isSome } }

theorem witness_TranslationsAndReports : (caching none).TablesRise ∧ (caching none).ctl.ready = true ∧
    (caching none).ctl.xltBusy = false ∧ (caching (some (1, 0, 0))).ctl.xltBusy = true ∧
    (caching (some (1, 0, 0))).ctl.xltJob = some (1, 0, 0) ∧ (caching none).ctl.xltJob = none ∧
    KMap.wf (caching (some (1, 0, 0))).asids = true ∧ xltHit (1, 0, 0) cached = true ∧ xltHit (1, 1, 0) cached = false ∧
    xltHit (0, 0, 8191) cached = true ∧ xltHit (0, 0, 8192) cached = false ∧ State.reset.powered = false ∧
    ({ up with ctl := { up.ctl with measured := false } } : State).ctl.measured = false ∧ up.powered = true ∧
    up.ctl.measured = true ∧ up.MemCanon := by
  unfold State.TablesRise State.MemCanon; decide

/-- Invalidations that wait, one of them of a peer's write. -/
def invalidating : State :=
  { caching (some (1, 0, 0)) with
    ctl := { (caching (some (1, 0, 0))).ctl with xltWaits := [⟨0, 0, 0, some ⟨3, 7, 0xFF00000440⟩⟩, ⟨2, 0, 0, none⟩] } }

/-- A report under way: not yet written, or written and complete at time 600; GO written again. -/
def attesting (end_ : Option Nat) (waits : List (Option WriteReply)) (now : Nat) : State :=
  about { up with ctl := { up.ctl with
    atBusy := true, atEnd := end_, atWaits := waits, mgmtDigest := List.replicate 64 1, deviceDigest := List.replicate 64 2 } }
    1 0 0 now

theorem witness_TranslationsAndReports_busy :
    (∃ x rest, invalidating.ctl.xltWaits = x :: rest ∧ x.reply.isSome = true) ∧
    ((attesting none [] 0).ctl.atBusy = true ∧ (attesting none [] 0).ctl.atEnd = none ∧ (attesting none [] 0).subj.a ≠ 0 ∧
      (attesting none [] 0).MemCanon ∧ (attesting none [] 0).ctl.mgmtDigest.length = 64 ∧
      (attesting none [] 0).ctl.deviceDigest.length = 64) ∧
    ((attesting (some 600) [] 599).ctl.atEnd = some 600 ∧ (attesting (some 600) [] 599).now < 600 ∧
      600 ≤ (attesting (some 600) [] 600).now) ∧
    ((attesting (some 600) [none] 600).ctl.atWaits = none :: [] ∧ (attesting (some 600) [none] 600).ctl.measured = true) ∧
    (up.subj.a = 0 ∧ up.ctl.atBusy = false) :=
  ⟨⟨_, _, rfl, rfl⟩, by unfold State.MemCanon; decide, by decide, by decide, by decide⟩

/-! ## Invariants -/

/-- A machine that keeps the invariants, and steps on: it runs a `nop`. -/
theorem witness_MemoryStaysCanonical :
    (State.reset.withFetchWord 32 0x06000000).MemCanon ∧ (State.reset.withFetchWord 32 0x06000000).TablesRise ∧
    (match step (State.reset.withFetchWord 32 0x06000000) with
     | .next t => (t.waves.get? 0).any fun w => decide (w.pc = 4)
     | _ => false) = true := by
  unfold State.MemCanon State.TablesRise; decide +kernel

theorem witness_TablesStayCanonical : (State.reset.withFetchWord 32 0x06000000).OnChipCanon :=
  onChip_of (by decide) (by decide) (by decide)

end Sys2Proof.Tests
end

