-- ==== Sys2Proof/Tests/Slice0.lean ====
section
/-! SUPPORT. Tests: ill-formed terms that the check of well-formedness refuses, words written out from the encoding
tables and the worked examples of the specification, and single steps with results from its rules. -/

namespace Sys2Proof.Tests

set_option Elab.async false

open Sys2Proof Sys2Proof.Machine

/-! ## Ill-formed terms -/

theorem test_ill_formed_registers :
    wellFormed (.jr 11 .always false) = false ∧ wellFormed (.jr 112 .always false) = false ∧
    wellFormed (.ldQ 10 16 0 .always false) = false ∧ wellFormed (.ldQ 112 16 0 .always false) = false ∧
    wellFormed (.copy1d 12 .always) = false ∧ wellFormed (.tld 112 .always) = false ∧
    wellFormed (.accRd 112 0 .always) = false ∧ wellFormed (.unpin 122 0 .always) = false ∧
    wellFormed (.unpin 7 0 .always) = false ∧ wellFormed (.qxH 1 112 .always) = false ∧
    wellFormed (.casW 9 16 .block .always false) = false ∧ wellFormed (.rnsr 6 0 .always) = false := by decide

theorem test_ill_formed_fields :
    wellFormed (.wbase 4 .always) = false ∧ wellFormed (.cvt .f32bf16 .rne 1 2 .always false) = false ∧
    wellFormed (.pack .i8 .rtz 1 2 .always false) = false ∧ wellFormed (.unpack .bf16 2 1 2 .always false) = false ∧
    wellFormed (.unpack .i8 4 1 2 .always false) = false ∧ wellFormed (.unpack .b4 0 1 3 .always false) = false ∧
    wellFormed (.rnsfailWrite 192 0) = false := by decide

theorem test_well_formed :
    wellFormed (.jr 122 .always false) = true ∧ wellFormed (.ldQ 108 110 0 .always false) = true ∧
    wellFormed (.copy1d 104 .always) = true ∧ wellFormed (.unpack .b4 7 1 122 .always false) = true ∧
    wellFormed (.wbase 9000 .always) = true ∧ wellFormed (.rnsfailWrite 191 0) = true := by decide

/-! ## Words

A word is the pattern of its row in the opcode table plus each field at its place (R51). -/

/-- A word: the pattern of its row, and each field's value with the number of its lowest bit. -/
def word (pattern : Nat) : List (Nat × Nat) → Nat
  | [] => pattern
  | f :: fs => word (pattern + f.1 * 2 ^ f.2) fs

/-- Every word decodes to its instruction, in four bytes. -/
def Decodes (ws : List (Nat × Instr)) : Prop :=
  ws.map (fun x => decodeTwo (BitVec.ofNat 32 x.1) 0) = ws.map fun x => (x.2, 4)

/-- Every word, after the literal word of `lit`, decodes to its instruction, in eight bytes. -/
def DecodesPair (lit : Nat) (ws : List (Nat × Instr)) : Prop :=
  ws.map (fun x => decodeTwo (BitVec.ofNat 32 (0x02000000 + lit)) (BitVec.ofNat 32 x.1)) = ws.map fun x => (x.2, 8)

theorem test_decode_control : Decodes [
  (word 0x04000000 [(1, 1)], .exit .p1),
  (word 0x06000000 [(2, 1)], .nop .p2),
  (word 0x08000000 [(2096852, 4), (3, 1), (1, 0)], .j (-300) .p3 true),
  (word 0x0A000000 [(2096852, 4), (5, 1), (1, 0)], .call (-300) .np1 true),
  (word 0x0C000000 [(2096852, 4), (6, 1)], .joinSet (-300) .np2),
  (word 0x0E000000 [(7, 1)], .join .np3),
  (word 0x0E000010 [], .yield .always),
  (word 0x10000000 [(16, 11), (1, 1), (1, 0)], .jr 16 .p1 true),
  (word 0x10000010 [(16, 11), (2, 1), (1, 0)], .callr 16 .p2 true),
  (word 0x10000020 [(3, 1)], .ret .p3),
  (word 0x12000000 [(9001, 4), (5, 1)], .trap 9001 .np1),
  (word 0x14000000 [(6, 1)], .trret .np2),
  (word 0x14000010 [(7, 1)], .lmapLd .np3)] := rfl

theorem test_decode_integer_1 : Decodes [
  (word 0x20000000 [(8, 18), (16, 11), (41, 4), (1, 0)], .add 8 16 41 .always true),
  (word 0x22000000 [(8, 18), (16, 11), (41, 4), (1, 1), (1, 0)], .sub 8 16 41 .p1 true),
  (word 0x24000000 [(8, 18), (16, 11), (93, 4), (2, 1), (1, 0)], .addi 8 16 93 .p2 true),
  (word 0x26000000 [(8, 18), (16, 11), (41, 4), (3, 1), (1, 0)], .mul 8 16 41 .p3 true),
  (word 0x28000000 [(8, 18), (16, 11), (41, 4), (5, 1), (1, 0)], .mulh 8 16 41 .np1 true),
  (word 0x2A000000 [(8, 18), (16, 11), (41, 4), (6, 1), (1, 0)], .mulhu 8 16 41 .np2 true),
  (word 0x2C000000 [(8, 18), (16, 11), (41, 4), (7, 1), (1, 0)], .and 8 16 41 .np3 true),
  (word 0x2E000000 [(8, 18), (16, 11), (93, 4), (1, 0)], .andi 8 16 93 .always true),
  (word 0x30000000 [(8, 18), (16, 11), (41, 4), (1, 1), (1, 0)], .or 8 16 41 .p1 true),
  (word 0x32000000 [(8, 18), (16, 11), (93, 4), (2, 1), (1, 0)], .ori 8 16 93 .p2 true),
  (word 0x34000000 [(8, 18), (16, 11), (41, 4), (3, 1), (1, 0)], .xor 8 16 41 .p3 true),
  (word 0x36000000 [(8, 18), (16, 11), (93, 4), (5, 1), (1, 0)], .xori 8 16 93 .np1 true),
  (word 0x38000000 [(8, 18), (16, 11), (21, 4), (6, 1), (1, 0)], .shli 8 16 21 .np2 true),
  (word 0x3A000000 [(8, 18), (16, 11), (21, 4), (7, 1), (1, 0)], .shri 8 16 21 .np3 true),
  (word 0x3C000000 [(8, 18), (16, 11), (21, 4), (1, 0)], .srai 8 16 21 .always true),
  (word 0x3E000000 [(8, 18), (16, 11), (41, 4), (1, 1), (1, 0)], .shl 8 16 41 .p1 true),
  (word 0x40000000 [(8, 18), (16, 11), (41, 4), (2, 1), (1, 0)], .shr 8 16 41 .p2 true),
  (word 0x42000000 [(8, 18), (16, 11), (41, 4), (3, 1), (1, 0)], .sra 8 16 41 .p3 true),
  (word 0x44000000 [(8, 18), (16, 11), (41, 4), (5, 1), (1, 0)], .seteq 8 16 41 .np1 true),
  (word 0x46000000 [(8, 18), (16, 11), (41, 4), (6, 1), (1, 0)], .setlt 8 16 41 .np2 true),
  (word 0x48000000 [(8, 18), (16, 11), (41, 4), (7, 1), (1, 0)], .setltu 8 16 41 .np3 true),
  (word 0x4A000000 [(8, 18), (16, 11), (41, 4), (1, 0)], .sel 8 16 41 .always true),
  (word 0x4C000000 [(8, 18), (16, 11), (1, 1), (1, 0)], .min 8 16 .p1 true),
  (word 0x4C000010 [(8, 18), (16, 11), (2, 1), (1, 0)], .max 8 16 .p2 true)] := rfl

theorem test_decode_integer_2 : Decodes [
  (word 0x4C000020 [(8, 18), (16, 11), (3, 1), (1, 0)], .minu 8 16 .p3 true),
  (word 0x4C000030 [(8, 18), (16, 11), (5, 1), (1, 0)], .maxu 8 16 .np1 true),
  (word 0x4C000040 [(8, 18), (16, 11), (6, 1), (1, 0)], .rol 8 16 .np2 true),
  (word 0x4C000050 [(8, 18), (16, 11), (7, 1), (1, 0)], .ror 8 16 .np3 true),
  (word 0x4C000060 [(8, 18), (16, 11), (1, 0)], .addD 8 16 .always true),
  (word 0x4C000070 [(8, 18), (16, 11), (1, 1), (1, 0)], .subD 8 16 .p1 true),
  (word 0x4C000080 [(8, 18), (16, 11), (2, 1), (1, 0)], .adda 8 16 .p2 true),
  (word 0x4C000090 [(8, 18), (16, 11), (3, 1), (1, 0)], .bfx 8 16 .p3 true),
  (word 0x4C0000A0 [(8, 18), (16, 11), (5, 1), (1, 0)], .bfi 8 16 .np1 true),
  (word 0x4E000000 [(8, 18), (16, 11), (6, 1), (1, 0)], .popc 8 16 .np2 true),
  (word 0x4E000010 [(8, 18), (16, 11), (7, 1), (1, 0)], .clz 8 16 .np3 true),
  (word 0x4E000020 [(8, 18), (16, 11), (1, 0)], .ctz 8 16 .always true),
  (word 0x4E000030 [(8, 18), (16, 11), (1, 1), (1, 0)], .brev 8 16 .p1 true),
  (word 0x4E000040 [(8, 18), (16, 11), (2, 1), (1, 0)], .bswap 8 16 .p2 true),
  (word 0x4E000050 [(8, 18), (16, 11), (3, 1), (1, 0)], .neg 8 16 .p3 true),
  (word 0x4E000060 [(8, 18), (16, 11), (5, 1), (1, 0)], .not 8 16 .np1 true),
  (word 0x4E000070 [(8, 18), (16, 11), (6, 1), (1, 0)], .abs 8 16 .np2 true),
  (word 0x4E000080 [(8, 18), (16, 11), (7, 1), (1, 0)], .sextB 8 16 .np3 true),
  (word 0x4E000090 [(8, 18), (16, 11), (1, 0)], .sextH 8 16 .always true),
  (word 0x50000000 [(8, 18), (9001, 4), (1, 1), (1, 0)], .movi 8 9001 .p1 true),
  (word 0x52000000 [(8, 18), (16, 11), (2, 1), (1, 0)], .mov 8 16 .p2 true),
  (word 0x52000010 [(8, 18), (16, 11), (3, 1), (1, 0)], .movD 8 16 .p3 true),
  (word 0x52000020 [(8, 18), (16, 11), (5, 1)], .maskAny 8 16 .np1),
  (word 0x52000030 [(8, 18), (16, 11), (6, 1)], .maskAll 8 16 .np2)] := rfl

theorem test_decode_integer_3 : Decodes [
  (word 0x52000040 [(8, 18), (16, 11), (7, 1)], .maskLo 8 16 .np3),
  (word 0x52000050 [(8, 18), (16, 11)], .maskHi 8 16 .always),
  (word 0x52000060 [(8, 18), (16, 11), (1, 1)], .maskCnt 8 16 .p1)] := rfl

theorem test_decode_special : Decodes [
  (word 0x54000000 [(8, 18), (35, 4), (2, 1), (1, 0)], .movS 8 .tcause .p2 true),
  (word 0x56000000 [(8, 18), (16, 4), (3, 1), (1, 0)], .movSW 8 .seedHi .p3 true),
  (word 0x58000000 [(1125, 7), (5, 1)], .wbase 9000 .np1)] := rfl

theorem test_decode_lanes : Decodes [
  (word 0x5A000000 [(8, 18), (16, 11), (6, 1)], .qxH 8 16 .np2),
  (word 0x5A000010 [(8, 18), (16, 11), (7, 1)], .qxV 8 16 .np3),
  (word 0x5A000020 [(8, 18), (16, 11)], .qxD 8 16 .always),
  (word 0x5A000030 [(8, 18), (16, 11), (1, 1)], .qxB0 8 16 .p1),
  (word 0x5A000040 [(8, 18), (16, 11), (2, 1)], .qxB1 8 16 .p2),
  (word 0x5A000050 [(8, 18), (16, 11), (3, 1)], .qxB2 8 16 .p3),
  (word 0x5A000060 [(8, 18), (16, 11), (5, 1)], .qxB3 8 16 .np1),
  (word 0x5C000000 [(8, 18), (16, 11), (41, 4), (6, 1)], .shflPick 8 16 41 .np2),
  (word 0x5E000000 [(8, 18), (16, 11), (37, 4), (7, 1)], .shflXor 8 16 37 .np3)] := rfl

theorem test_decode_float_1 : Decodes [
  (word 0x60000000 [(8, 18), (16, 11), (41, 4), (1, 0)], .addF32 8 16 41 .always true),
  (word 0x62000000 [(8, 18), (16, 11), (41, 4), (1, 1), (1, 0)], .subF32 8 16 41 .p1 true),
  (word 0x64000000 [(8, 18), (16, 11), (41, 4), (2, 1), (1, 0)], .mulF32 8 16 41 .p2 true),
  (word 0x66000000 [(8, 18), (16, 11), (41, 4), (3, 1), (1, 0)], .fmaF32 8 16 41 .p3 true),
  (word 0x68000000 [(8, 18), (16, 11), (41, 4), (5, 1), (1, 0)], .minF32 8 16 41 .np1 true),
  (word 0x6A000000 [(8, 18), (16, 11), (41, 4), (6, 1), (1, 0)], .maxF32 8 16 41 .np2 true),
  (word 0x6C000000 [(8, 18), (16, 11), (41, 4), (7, 1), (1, 0)], .seteqF32 8 16 41 .np3 true),
  (word 0x6E000000 [(8, 18), (16, 11), (41, 4), (1, 0)], .setltF32 8 16 41 .always true),
  (word 0x70000000 [(8, 18), (16, 11), (41, 4), (1, 1), (1, 0)], .setleF32 8 16 41 .p1 true),
  (word 0x72000000 [(8, 18), (16, 11), (41, 4), (2, 1), (1, 0)], .setunF32 8 16 41 .p2 true),
  (word 0x74000000 [(8, 18), (16, 11), (3, 1), (1, 0)], .rcpF32 8 16 .p3 true),
  (word 0x74000010 [(8, 18), (16, 11), (5, 1), (1, 0)], .rsqrtF32 8 16 .np1 true),
  (word 0x74000020 [(8, 18), (16, 11), (6, 1), (1, 0)], .sqrtF32 8 16 .np2 true),
  (word 0x74000030 [(8, 18), (16, 11), (7, 1), (1, 0)], .exp2F32 8 16 .np3 true),
  (word 0x74000040 [(8, 18), (16, 11), (1, 0)], .log2F32 8 16 .always true),
  (word 0x74000050 [(8, 18), (16, 11), (1, 1), (1, 0)], .sinF32 8 16 .p1 true),
  (word 0x74000060 [(8, 18), (16, 11), (2, 1), (1, 0)], .cosF32 8 16 .p2 true),
  (word 0x74000070 [(8, 18), (16, 11), (3, 1), (1, 0)], .rintF32 8 16 .p3 true),
  (word 0x74000080 [(8, 18), (16, 11), (5, 1), (1, 0)], .floorF32 8 16 .np1 true),
  (word 0x74000090 [(8, 18), (16, 11), (6, 1), (1, 0)], .ceilF32 8 16 .np2 true),
  (word 0x740000A0 [(8, 18), (16, 11), (7, 1), (1, 0)], .truncF32 8 16 .np3 true),
  (word 0x740000B0 [(8, 18), (16, 11), (1, 0)], .classF32 8 16 .always true),
  (word 0x740000C0 [(8, 18), (16, 11), (1, 1), (1, 0)], .fabsF32 8 16 .p1 true),
  (word 0x740000D0 [(8, 18), (16, 11), (2, 1), (1, 0)], .fnegF32 8 16 .p2 true)] := rfl

theorem test_decode_float_2 : Decodes [
  (word 0x76000000 [(8, 18), (16, 11), (41, 4), (3, 1), (1, 0)], .addBf16x2 8 16 41 .p3 true),
  (word 0x78000000 [(8, 18), (16, 11), (41, 4), (5, 1), (1, 0)], .mulBf16x2 8 16 41 .np1 true)] := rfl

theorem test_decode_packed_float : Decodes [
  (word 0x7A000000 [(8, 18), (16, 11), (41, 4), (6, 1), (1, 0)], .fmaBf16x2 8 16 41 .np2 true),
  (word 0x7C000000 [(8, 18), (16, 11), (41, 4), (7, 1), (1, 0)], .addF16x2 8 16 41 .np3 true),
  (word 0x7E000000 [(8, 18), (16, 11), (41, 4), (1, 0)], .mulF16x2 8 16 41 .always true),
  (word 0x80000000 [(8, 18), (16, 11), (41, 4), (1, 1), (1, 0)], .fmaF16x2 8 16 41 .p1 true),
  (word 0x82000000 [(8, 18), (16, 11), (2, 1), (1, 0)], .minBf16x2 8 16 .p2 true),
  (word 0x82000010 [(8, 18), (16, 11), (3, 1), (1, 0)], .maxBf16x2 8 16 .p3 true),
  (word 0x82000020 [(8, 18), (16, 11), (5, 1), (1, 0)], .minF16x2 8 16 .np1 true),
  (word 0x82000030 [(8, 18), (16, 11), (6, 1), (1, 0)], .maxF16x2 8 16 .np2 true),
  (word 0x84000000 [(8, 18), (16, 11), (7, 1)], .redAddF32 8 16 .np3),
  (word 0x84000010 [(8, 18), (16, 11)], .redMinF32 8 16 .always),
  (word 0x84000020 [(8, 18), (16, 11), (1, 1)], .redMaxF32 8 16 .p1),
  (word 0x84000030 [(8, 18), (16, 11), (2, 1)], .redAdd 8 16 .p2),
  (word 0x84000040 [(8, 18), (16, 11), (3, 1)], .redMin 8 16 .p3),
  (word 0x84000050 [(8, 18), (16, 11), (5, 1)], .redMax 8 16 .np1),
  (word 0x84000060 [(8, 18), (16, 11), (6, 1)], .scanAddF32 8 16 .np2),
  (word 0x84000070 [(8, 18), (16, 11), (7, 1)], .scanAdd 8 16 .np3)] := rfl

theorem test_decode_conversions : Decodes [
  (word 0x90000000 [(8, 18), (16, 11), (5, 7), (4, 4), (1, 0)], .cvt .f16f32 .rdn 8 16 .always true),
  (word 0x92000000 [(8, 18), (16, 11), (2, 7), (4, 4), (1, 1), (1, 0)], .pack .e4m3 .rdn 8 16 .p1 true),
  (word 0x94000000 [(8, 18), (16, 11), (5, 7), (6, 4), (2, 1), (1, 0)], .unpack .b4 6 8 16 .p2 true),
  (word 0x96000000 [(8, 18), (16, 11), (1, 9), (6, 6), (2, 4), (3, 1), (1, 0)], .packB4 .pow2 6 true 8 16 .p3 true)] := rfl

theorem test_decode_memory : Decodes [
  (word 0xA0000000 [(8, 18), (16, 11), (93, 4), (5, 1), (1, 0)], .ldW 8 16 93 .np1 true),
  (word 0xA2000000 [(8, 18), (16, 11), (93, 4), (6, 1), (1, 0)], .ldD 8 16 93 .np2 true),
  (word 0xA4000000 [(8, 18), (16, 11), (93, 4), (7, 1), (1, 0)], .ldQ 8 16 93 .np3 true),
  (word 0xA6000000 [(8, 18), (16, 11), (93, 4), (1, 0)], .ldH 8 16 93 .always true),
  (word 0xA8000000 [(8, 18), (16, 11), (93, 4), (1, 1), (1, 0)], .stW 8 16 93 .p1 true),
  (word 0xAA000000 [(8, 18), (16, 11), (93, 4), (2, 1), (1, 0)], .stD 8 16 93 .p2 true),
  (word 0xAC000000 [(8, 18), (16, 11), (93, 4), (3, 1), (1, 0)], .stQ 8 16 93 .p3 true),
  (word 0xAE000000 [(8, 18), (16, 11), (93, 4), (5, 1), (1, 0)], .stH 8 16 93 .np1 true),
  (word 0xB0000000 [(8, 18), (16, 11), (93, 4), (6, 1), (1, 0)], .ldHu 8 16 93 .np2 true),
  (word 0xB2000000 [(8, 18), (16, 11), (93, 4), (7, 1), (1, 0)], .ldB 8 16 93 .np3 true),
  (word 0xB4000000 [(8, 18), (16, 11), (93, 4), (1, 0)], .ldBu 8 16 93 .always true),
  (word 0xB6000000 [(8, 18), (16, 11), (93, 4), (1, 1), (1, 0)], .stB 8 16 93 .p1 true),
  (word 0xB8000000 [(16, 11), (93, 4), (2, 1), (1, 0)], .pfL1 16 93 .p2 true),
  (word 0xB8040000 [(16, 11), (93, 4), (3, 1), (1, 0)], .pfL2 16 93 .p3 true),
  (word 0xBA000000 [(16, 11), (5, 1), (1, 0)], .cinv 16 .np1 true),
  (word 0xBA000010 [(6, 1), (1, 0)], .cinvAll .np2 true)] := rfl

theorem test_decode_ordered : Decodes [
  (word 0xBC000000 [(8, 18), (16, 11), (1, 4), (7, 1), (1, 0)], .ldAcqW 8 16 .block .np3 true),
  (word 0xBC000080 [(8, 18), (16, 11), (2, 4), (1, 0)], .ldAcqD 8 16 .cell .always true),
  (word 0xBC000100 [(8, 18), (16, 11), (3, 4), (1, 1), (1, 0)], .stRelW 8 16 .die .p1 true),
  (word 0xBC000180 [(8, 18), (16, 11), (4, 4), (2, 1), (1, 0)], .stRelD 8 16 .device .p2 true),
  (word 0xBC000200 [(8, 18), (16, 11), (5, 4), (3, 1), (1, 0)], .ldScW 8 16 .system .p3 true),
  (word 0xBC000280 [(8, 18), (16, 11), (5, 1), (1, 0)], .ldScD 8 16 .wave .np1 true),
  (word 0xBC000300 [(8, 18), (16, 11), (1, 4), (6, 1), (1, 0)], .stScW 8 16 .block .np2 true),
  (word 0xBC000380 [(8, 18), (16, 11), (2, 4), (7, 1), (1, 0)], .stScD 8 16 .cell .np3 true),
  (word 0xC0000000 [(8, 18), (16, 11), (6, 7), (3, 4), (1, 0)], .atom .minu 8 16 .die .always true),
  (word 0xC2000000 [(8, 18), (16, 11), (8, 7), (4, 4), (1, 1), (1, 0)], .atomD .xchg 8 16 .device .p1 true),
  (word 0xC4000000 [(8, 18), (16, 11), (2, 7), (5, 4), (2, 1), (1, 0)], .atomF32 .max 8 16 .system .p2 true),
  (word 0xC6000000 [(8, 18), (16, 11), (3, 1), (1, 0)], .casW 8 16 .wave .p3 true),
  (word 0xC6000080 [(8, 18), (16, 11), (1, 4), (5, 1), (1, 0)], .casD 8 16 .block .np1 true),
  (word 0xC8000000 [(2, 4), (6, 1)], .fence .cell .np2),
  (word 0xCA000000 [(8, 18), (16, 11), (4, 7), (3, 4), (7, 1), (1, 0)], .poll .le 8 16 .die .np3 true)] := rfl

theorem test_decode_engines : Decodes [
  (word 0xCC000000 [], .barB .always),
  (word 0xCC000010 [(1, 1)], .barC .p1),
  (word 0xCC000020 [(2, 1)], .barDev .p2),
  (word 0xCC000030 [(3, 1)], .barDom .p3),
  (word 0xCE000001 [(5, 1)], .tktTake .np1),
  (word 0xCE000011 [(8, 18), (6, 1)], .tktWait 8 .np2),
  (word 0xCE000021 [(16, 11), (7, 1)], .qcfg 16 .np3),
  (word 0xD0000001 [(2, 14)], .copy1d 16 .always),
  (word 0xD0000011 [(2, 14), (1, 1)], .copy2d 16 .p1),
  (word 0xD0000021 [(2, 14), (2, 1)], .copyG 16 .p2),
  (word 0xD2000001 [(8, 18), (3, 1)], .batch 8 .p3),
  (word 0xD4000001 [(16, 11), (5, 1)], .waitB 16 .np1),
  (word 0xD8000001 [(2, 14), (1, 8), (6, 4), (6, 1)], .coll (.rs .bf16 .min) 16 .np2)] := rfl

theorem test_decode_matrix : Decodes [
  (word 0xE0000001 [(8, 18), (2, 14), (6, 4), (7, 1)], .mma .rns 8 16 .np3),
  (word 0xE0000401 [(8, 18), (2, 14), (3, 4)], .mmaPair .e5m2 8 16 .always),
  (word 0xE2000001 [(2, 14), (1, 1)], .tld 16 .p1),
  (word 0xE2000011 [(2, 14), (2, 1)], .tst 16 .p2),
  (word 0xE2000021 [(16, 11), (3, 1)], .accZero 16 .p3),
  (word 0xE2000031 [(8, 18), (16, 11), (5, 1)], .accRd 8 16 .np1),
  (word 0xE2000041 [(8, 18), (16, 11), (6, 1)], .accWr 8 16 .np2),
  (word 0xE2000051 [(16, 11), (7, 1)], .accChkTile 16 .np3),
  (word 0xE2040051 [(16, 11)], .accChkTen 16 .always),
  (word 0xE4000001 [(8, 18), (16, 11), (1, 1)], .pin 8 16 .p1),
  (word 0xE4000011 [(8, 18), (16, 11), (2, 1)], .unpin 8 16 .p2),
  (word 0xE4000021 [(8, 18), (16, 11), (3, 1)], .fwupd 8 16 .p3),
  (word 0xE4000031 [(8, 18), (16, 11), (5, 1)], .fwrd 8 16 .np1),
  (word 0xE6000001 [(8, 18), (16, 11), (6, 1)], .rnsfI16 8 16 .np2),
  (word 0xE6000011 [(8, 18), (16, 11), (7, 1)], .rnsfI32 8 16 .np3),
  (word 0xE6000021 [(2, 20), (16, 11)], .rnsr 8 16 .always),
  (word 0xE6000031 [(8, 18), (16, 11), (1, 1)], .rnsChk 8 16 .p1)] := rfl

theorem test_decode_standing : Decodes [
  (word 0xF0000001 [(16, 11), (2, 1)], .rset 16 .p2),
  (word 0xF0000011 [(16, 11), (3, 1)], .rpost 16 .p3),
  (word 0xF0000021 [(8, 18), (16, 11), (5, 1)], .rget 8 16 .np1),
  (word 0xF2000001 [(6, 1)], .qend .np2),
  (word 0xF2000010 [(8, 18), (7, 1), (1, 0)], .rand 8 .np3 true),
  (word 0xF4000000 [(8, 18), (1, 0)], .eqId 8 .always true),
  (word 0xF4000010 [(8, 18), (1, 1), (1, 0)], .eqGen 8 .p1 true),
  (word 0xF4000020 [(8, 18), (2, 1), (1, 0)], .eqTheta 8 .p2 true)] := rfl

theorem test_decode_literal_pairs : DecodesPair 0x1ABCDE1 [
  (word 0x24000000 [(8, 18), (16, 11), (93, 4), (2, 1), (1, 0)], .addiP 8 16 0xd5e6f0dd .p2 true),
  (word 0x2E000000 [(8, 18), (16, 11), (93, 4), (1, 0)], .andiP 8 16 0xd5e6f0dd .always true),
  (word 0x32000000 [(8, 18), (16, 11), (93, 4), (2, 1), (1, 0)], .oriP 8 16 0xd5e6f0dd .p2 true),
  (word 0x36000000 [(8, 18), (16, 11), (93, 4), (5, 1), (1, 0)], .xoriP 8 16 0xd5e6f0dd .np1 true),
  (word 0x50000000 [(8, 18), (93, 4), (1, 1), (1, 0)], .moviP 8 0xd5e6f0dd .p1 true),
  (word 0xA0000000 [(8, 18), (16, 11), (93, 4), (5, 1), (1, 0)], .ldWP 8 16 0xd5e6f0dd .np1 true),
  (word 0xA2000000 [(8, 18), (16, 11), (93, 4), (6, 1), (1, 0)], .ldDP 8 16 0xd5e6f0dd .np2 true),
  (word 0xA4000000 [(8, 18), (16, 11), (93, 4), (7, 1), (1, 0)], .ldQP 8 16 0xd5e6f0dd .np3 true),
  (word 0xA6000000 [(8, 18), (16, 11), (93, 4), (1, 0)], .ldHP 8 16 0xd5e6f0dd .always true),
  (word 0xA8000000 [(8, 18), (16, 11), (93, 4), (1, 1), (1, 0)], .stWP 8 16 0xd5e6f0dd .p1 true),
  (word 0xAA000000 [(8, 18), (16, 11), (93, 4), (2, 1), (1, 0)], .stDP 8 16 0xd5e6f0dd .p2 true),
  (word 0xAC000000 [(8, 18), (16, 11), (93, 4), (3, 1), (1, 0)], .stQP 8 16 0xd5e6f0dd .p3 true),
  (word 0xAE000000 [(8, 18), (16, 11), (93, 4), (5, 1), (1, 0)], .stHP 8 16 0xd5e6f0dd .np1 true),
  (word 0xB0000000 [(8, 18), (16, 11), (93, 4), (6, 1), (1, 0)], .ldHuP 8 16 0xd5e6f0dd .np2 true),
  (word 0xB2000000 [(8, 18), (16, 11), (93, 4), (7, 1), (1, 0)], .ldBP 8 16 0xd5e6f0dd .np3 true),
  (word 0xB4000000 [(8, 18), (16, 11), (93, 4), (1, 0)], .ldBuP 8 16 0xd5e6f0dd .always true),
  (word 0xB6000000 [(8, 18), (16, 11), (93, 4), (1, 1), (1, 0)], .stBP 8 16 0xd5e6f0dd .p1 true),
  (word 0xB8000000 [(16, 11), (93, 4), (2, 1), (1, 0)], .pfL1P 16 0xd5e6f0dd .p2 true),
  (word 0xB8040000 [(16, 11), (93, 4), (3, 1), (1, 0)], .pfL2P 16 0xd5e6f0dd .p3 true)] := rfl

/-- Words of the specification's worked examples. -/
theorem test_decode_examples_1 : Decodes [
  (0x20142862, .add 5 5 6 .p1 false),
  (0x2014286A, .add 5 5 6 .np1 false),
  (0x20142861, .add 5 5 6 .always true),
  (0x4C281880, .adda 10 3 .always false),
  (0x243877F0, .addi 14 14 127 .always false),
  (0x2E0C1831, .andi 3 3 3 .always true),
  (0xC00C5010, .atom .add 3 10 .block .always false),
  (0xC40C5140, .atomF32 .max 3 10 .device .always false),
  (0xC2105440, .atomD .xchg 4 10 .device .always false),
  (0xCC000020, .barDev .always),
  (0xD21C0001, .batch 7 .always),
  (0x1003D011, .callr 122 .always true),
  (0xC62060C0, .casD 8 12 .device .always false),
  (0xD8008041, .coll (.ar .bf16 .add) 16 .always),
  (0x90142250, .cvt .bf16f32 .sr 5 4 .always false),
  (0x901810A0, .cvt .i32f32 .rtz 6 2 .always false),
  (0xF4140021, .eqTheta 5 .always true),
  (0xC8000050, .fence .system .always),
  (0x66041030, .fmaF32 1 2 3 .always false),
  (0x080000EA, .j 14 .np1 false),
  (0x09FFFF63, .j (-10) .p1 true),
  (0x10005004, .jr 10 .p2 false),
  (0xBC1050D0, .ldAcqD 4 10 .system .always false),
  (0xB4145030, .ldBu 5 10 3 .always false),
  (0xA4206020, .ldQ 8 12 2 .always false),
  (0xA0104400, .ldW 4 8 64 .always false)] := rfl

theorem test_decode_examples_2 : Decodes [
  (0x14000010, .lmapLd .always),
  (0x521BE040, .maskLo 6 124 .always),
  (0xE0008441, .mmaPair .i8 0 16 .always),
  (0xE0804061, .mma .rns 32 8 .always),
  (0x54080230, .movS 2 .tcause .always false),
  (0x561000E0, .movSW 4 .fpmode .always false),
  (0x501BFFF0, .movi 6 16383 .always false),
  (0x963052F0, .packB4 .hyb 3 true 12 10 .always false),
  (0x921C1900, .pack .e4m3 .mode 7 3 .always false),
  (0xB8045100, .pfL2 10 16 .always false),
  (0xCBF05120, .poll .ge 124 10 .cell .always false),
  (0xCE001821, .qcfg 3 .always),
  (0xF2180011, .rand 6 .always true),
  (0xF0101021, .rget 4 2 .always),
  (0xE6B0C821, .rnsr 44 25 .always),
  (0x5E044A00, .shflXor 1 9 32 .always),
  (0x3C1C39F0, .srai 7 7 31 .always false),
  (0xAE1457F0, .stH 5 10 127 .always false),
  (0xBC046120, .stRelW 1 12 .cell .always false),
  (0xBC045340, .stScW 1 10 .device .always false),
  (0xE2041851, .accChkTen 3 .always),
  (0xE4300011, .unpin 12 0 .always),
  (0xCE080011, .tktWait 2 .always),
  (0xD4003801, .waitB 7 .always),
  (0xD6005F00, .waitC 2 31 0 .always)] := rfl

/-- R63: words with a reserved field, and majors without a form, are undefined. -/
theorem test_decode_undefined :
    ([0x00000000, 0x04000010, 0x0C000001, 0x10000800, 0x12040000, 0x38000600, 0x4C0000B0, 0x58000010, 0x5E000400,
      0x84000080, 0x90000700, 0x92000280, 0x96000400, 0xBC000060, 0xC0000480, 0xC8000080, 0xD0000000, 0xD8000501,
      0xE0000071, 0xE2000061, 0xF2000000, 0xF4000030, 0xFE000000].all fun x =>
      decide ((decodeTwo (BitVec.ofNat 32 x) 0).1 = .undefinedWord none (BitVec.ofNat 32 x))) = true := by decide

/-! ## Steps -/

/-- The wave after an instruction. -/
def waveAfter (i : Instr) (s : State) : Option Wave :=
  match exec i s with
  | .next t => t.waves.get? 0
  | _ => none

/-- One lane of a register after an instruction. -/
def regAfter (i : Instr) (s : State) (r lane : Nat) : Option Word := (waveAfter i s).map fun w => w.slotLane r lane

/-- The causes of the records an instruction has queued. -/
def causes (i : Instr) (s : State) : List Nat :=
  match exec i s with
  | .next t => t.traps.map TrapRec.cause
  | _ => []

/-- Bytes of memory after an instruction. -/
def memAfter (i : Instr) (s : State) (a n : Nat) : List Byte :=
  match exec i s with
  | .next t => bytesFrom t.rawByte a n
  | _ => []

/-- Lane i of a register holds the i-th value; lanes past the list hold 0. -/
def lanesReg (k : Nat) (vs : List Word) (s : State) : State :=
  withWave s fun w => { w with regs := w.regs.set k (vs ++ List.replicate (64 - vs.length) 0) }

/-- R76, R107: `add` wraps, moves on by 4 and counts. -/
theorem test_add_wraps : (waveAfter (.add 3 1 2 .always false) (world [(1, 0xFFFFFFFF), (2, 2)])).map
    (fun w => (w.slotLane 3 0, w.slotLane 3 63, w.pc, w.retired)) = some (1, 1, 4, 1) := by decide

/-- R54, R56: the guard tests bit 0 only; a uniform word reads the lowest active lane. -/
theorem test_add_guarded : (waveAfter (.add 3 1 2 .p1 false) (lanesReg 259 [2, 3] (world [(1, 5), (2, 2)]))).map
    (fun w => (w.slotLane 3 0, w.slotLane 3 1)) = some (0, 7) := by decide

theorem test_sub_wraps : regAfter (.sub 3 1 2 .always false) (world [(1, 1), (2, 2)]) 3 0 = some 0xFFFFFFFF := by decide

theorem test_mulh_sign : regAfter (.mulh 3 1 2 .always false) (world [(1, 0xFFFFFFFF), (2, 2)]) 3 0 = some 0xFFFFFFFF := by
  decide

theorem test_mulhu : regAfter (.mulhu 3 1 2 .always false) (world [(1, 0xFFFFFFFF), (2, 2)]) 3 0 = some 1 := by decide

/-- R76: n is y[7:0]; a shift of 32 or more gives 0, and an arithmetic one acts as 31. -/
theorem test_shifts : regAfter (.shl 3 1 2 .always false) (world [(1, 1), (2, 0x120)]) 3 0 = some 0 ∧
    regAfter (.shr 3 1 2 .always false) (world [(1, 0x80000000), (2, 0x104)]) 3 0 = some 0x08000000 ∧
    regAfter (.sra 3 1 2 .always false) (world [(1, 0x80000000), (2, 0xFF)]) 3 0 = some 0xFFFFFFFF := by decide

/-- R76: `sel` reads the old d. -/
theorem test_sel : regAfter (.sel 3 1 2 .always false) (world [(1, 5), (2, 6), (3, 2)]) 3 0 = some 6 ∧
    regAfter (.sel 3 1 2 .always false) (world [(1, 5), (2, 6), (3, 3)]) 3 0 = some 5 := by decide

/-- R77: `andi v5, v5, -16` clears the low four bits. -/
theorem test_andi_sign : regAfter (.andi 5 5 0x70 .always false) (world [(5, 0x12345678)]) 5 0 = some 0x12345670 := by
  decide

/-- R80: 0x0FFF_FFFF_FFFF_FFF8 stepped by 16 is 8. -/
theorem test_adda_wraps : (waveAfter (.adda 10 3 .always false) (world [(3, 16), (10, 0xFFFFFFF8), (11, 0x0FFFFFFF)])).map
    (fun w => (w.slotLane 10 0, w.slotLane 11 0)) = some (8, 0) := by decide

/-- R80: `sub.d` borrows across the pair. -/
theorem test_subD_borrows : (waveAfter (.subD 10 2 .always false) (world [(2, 1), (11, 1)])).map
    (fun w => (w.slotLane 10 0, w.slotLane 11 0)) = some (0xFFFFFFFF, 0) := by decide

theorem test_counts_of_zero : regAfter (.clz 3 1 .always false) (world []) 3 0 = some 32 ∧
    regAfter (.ctz 3 1 .always false) (world []) 3 0 = some 32 ∧
    regAfter (.popc 3 1 .always false) (world [(1, 0xF000000F)]) 3 0 = some 8 := by decide

/-- R53: a pair's immediate is the whole word, and the pair is 8 bytes long. -/
theorem test_movi_pair : (waveAfter (.moviP 3 0x40010000 .always false) (world [])).map
    (fun w => (w.slotLane 3 0, w.pc, w.retired)) = some (0x40010000, 8, 1) := by decide

/-- R82: a one-word `movi` sign-extends. -/
theorem test_movi_sign : regAfter (.movi 6 0x3FFF .always false) (world []) 6 0 = some 0xFFFFFFFF := by decide

/-- R58: `zero` takes nothing, and `lane` reads the lane number. -/
theorem test_mov_lane : regAfter (.mov 3 121 .always false) (world []) 3 63 = some 63 ∧
    regAfter (.mov 127 121 .always false) (world []) 3 63 = some 0 := by decide

/-- R135: `mask.lo` gives the lanes whose bit 0 is set. -/
theorem test_maskLo : regAfter (.maskLo 1 121 .always) (world []) 1 5 = some 0xAAAAAAAA := by decide

/-- R136: `qx.h` exchanges the lanes of a row of a quad. -/
theorem test_qxH : regAfter (.qxH 1 121 .always) (world []) 1 6 = some 7 ∧
    regAfter (.qxV 1 121 .always) (world []) 1 6 = some 4 ∧
    regAfter (.qxB2 1 121 .always) (world []) 1 5 = some 6 := by decide

/-- R137: `shfl.xor`. -/
theorem test_shflXor : regAfter (.shflXor 1 121 32 .always) (world []) 1 3 = some 35 := by decide

/-- R138, R139: the sum of the lane numbers is 2,016, and its prefix at lane 3 is 6. -/
theorem test_red_scan : regAfter (.redAdd 1 121 .always) (world []) 1 9 = some 2016 ∧
    regAfter (.scanAdd 1 121 .always) (world []) 1 3 = some 6 := by decide

/-- R87: 2^24 times 1 plus -2^24. -/
theorem test_fma : regAfter (.fmaF32 1 2 3 .always false) (world [(1, 0xCB800000), (2, 0x4B800000), (3, 0x3F800000)]) 1 0 =
    some 0 := by decide

/-- R104: an invalid operation gives the canonical NaN and raises NV. -/
theorem test_sub_infinities : (waveAfter (.subF32 1 2 2 .always false) (world [(2, 0x7F800000)])).map
    (fun w => (w.slotLane 1 0, w.fpflags.getD 0 0)) = some (0x7FC00000, 16) := by decide

/-- R129: a value out of range saturates. -/
theorem test_cvt_saturates : regAfter (.cvt .i32f32 .rtz 6 2 .always false) (world [(2, 0x4F800000)]) 6 0 =
    some 0x7FFFFFFF := by decide

/-- R130, R131: the worked example of packing: 1.0, then 300.5. -/
theorem test_pack_e4m3 : regAfter (.pack .e4m3 .mode 7 0 .always false) (world [(0, 0x3F800000)]) 7 0 = some 0x38000000 ∧
    regAfter (.pack .e4m3 .mode 7 1 .always false) (world [(1, 0x43964000), (7, 0x38000000)]) 7 0 = some 0x79380000 := by
  decide

/-- R130: the same example at 500, which saturates, and at -2^-10, which ties to even. -/
theorem test_pack_e4m3_edges :
    regAfter (.pack .e4m3 .mode 7 2 .always false) (world [(2, 0x43FA0000), (7, 0x79380000)]) 7 0 = some 0x7E793800 ∧
    regAfter (.pack .e4m3 .mode 7 3 .always false) (world [(3, 0xBA800000), (7, 0x7E793800)]) 7 0 = some 0x807E7938 := by
  decide

/-- R236: a jump counts words from itself; R237: a call links and pushes. -/
theorem test_j : (waveAfter (.j 14 .always false) (world [])).map Wave.pc = some 56 := by decide

theorem test_call : (waveAfter (.call 29 .always false) (world [])).map
    (fun w => (w.pc, w.slotLane 256 63, w.rets)) = some (116, 4, [4]) := by decide

/-- R235, R241: a divergent jump under a token leaves the others on the stack. -/
theorem test_divergent_jump : (waveAfter (.j 4 .p1 false)
    (withWave (lanesReg 259 [1, 1] (world [])) fun w => { w with stack := [.token 64 0] })).map
    (fun w => (w.pc, w.active, w.stack)) = some (16, 3, [.path 4 0xFFFFFFFFFFFFFFFC, .token 64 0]) := by decide

theorem test_divergence_without_token : causes (.j 4 .p1 false) (lanesReg 259 [1, 1] (world [])) = [0x04] := by decide

/-- R243: the last path to arrive runs on with the arrived lanes. -/
theorem test_join : (waveAfter (.join .always)
    (withWave (world []) fun w => { w with active := 3, stack := [.token 0 0xC] })).map
    (fun w => (w.pc, w.active, w.stack)) = some (4, 0xF, []) := by decide

theorem test_exit : (waveAfter (.exit .always) (world [])).map (fun w => (w.exited, w.live)) = some (true, 0) := by decide

theorem test_trap : causes (.trap 77 .always) (world []) = [0x08] := by decide

/-- R85, R382: supervisor words and registers fault in user state. -/
theorem test_privilege : causes (.trret .always) (world []) = [0x03] ∧ causes (.lmapLd .always) (world []) = [0x03] ∧
    causes (.movS 2 .tcause .always false) (world []) = [0x03] := by decide

/-- R382: `trret` goes back to `%tepc` at the level of `%tstat`. -/
theorem test_trret : (waveAfter (.trret .always)
    (withWave (world []) fun w => { w with sup := true, tepc := 0x100, tlevel := 3 })).map
    (fun w => (w.pc, w.sup, w.level)) = some (0x100, false, 3) := by decide

/-- R59: registers outside the allocation. -/
theorem test_register_range : causes (.add 3 1 2 .always false) (withWave (world []) fun w => { w with regCount := 2 }) =
    [0x02] := by decide

/-- R206: a store puts its low byte first, and a byte load extends its sign. -/
theorem test_stW : memAfter (.stW 5 10 1 .always true) (paged (world [(5, 0x11223344), (10, 0x40)])) 0x20043 6 =
    [0, 0x44, 0x33, 0x22, 0x11, 0] := by decide

theorem test_ldB : regAfter (.ldB 5 10 1 .always true) (paged (world [(10, 0xFFF)])) 5 9 = some 0 ∧
    regAfter (.ldB 5 10 0 .always true)
      ((paged (world [(10, 0x40)])).poke none 0x20040 [0x80]) 5 9 = some 0xFFFFFF80 := by decide

/-- R202: the alignment fault, and the space fault before it. -/
theorem test_address_faults : causes (.ldW 5 10 0 .always true) (paged (world [(10, 2)])) = [0x11] ∧
    causes (.ldW 5 10 0 .always true) (paged (world [(10, 2), (11, 0x10000000)])) = [0x10] := by decide

/-- R211: 64 lanes add in turn: each receives the value before its own. -/
theorem test_atom_add : memAfter (.atom .add 3 10 .block .always true) (paged (world [(3, 5), (10, 0x40)])) 0x20040 4 =
    [5, 0, 0, 0] := by decide

/-- R213: a compare that fails writes nothing. -/
theorem test_cas : memAfter (.casW 6 10 .block .always true) (paged (world [(6, 1), (7, 9), (10, 0x40)])) 0x20040 1 = [0] ∧
    memAfter (.casW 6 10 .block .always true) (paged (world [(7, 9), (10, 0x40)])) 0x20040 1 = [9] := by decide

/-- R217: a barrier of a block of one wave releases at once. -/
theorem test_barB : (waveAfter (.barB .always) (world [])).map (fun w => (w.pc, w.blocked)) = some (4, none) := by decide

theorem test_barDev_unpromised : causes (.barDev .always) (world []) = [0x22] := by decide

/-- R221: the ticket taken gives no more; R222: block 0 waits for nothing. -/
theorem test_tickets : regAfter (.tktWait 2 .always) (world []) 2 0 = some 0 := by decide

/-- R228: the first batch is 1. -/
theorem test_batch : regAfter (.batch 7 .always) (world []) 7 0 = some 1 := by decide

/-- R226: a descriptor of no bytes breaks a limit. -/
theorem test_copy_limit : causes (.copy1d 16 .always) (world []) = [0x18] := by decide

/-- R351: a matrix descriptor of zeros breaks a limit. -/
theorem test_mma_limit : causes (.mma .bf16 0 16 .always) (world []) = [0x31] := by decide

/-- R288 to R291: in a run, the id is 0xFFFF_FFFF, the generation 0 and θ the canonical NaN. -/
theorem test_standing_words_in_a_run : regAfter (.eqId 1 .always false) (world []) 1 0 = some 0xFFFFFFFF ∧
    regAfter (.eqTheta 1 .always false) (world []) 1 0 = some 0x7FC00000 := by decide

/-- R16: an undefined word. -/
theorem test_undefined : causes (.undefinedWord none 0) (world []) = [0x01] := by decide

/-- R380: a timer that is due enters supervisor state at the handler. -/
theorem test_timer : ((((withWave (world []) fun w => { w with wtcmp := 5, level := 2 }).takeTimer 0).waves.get? 0).map
    fun w => (w.sup, w.halted)) = some (false, true) := by decide

/-- R403: a thermal limit holds the governor at 1. -/
theorem test_thermal : (match exec (.thermalLimit 90) idle with
    | .next t => some (t.ctl.therm, t.ctl.fwgov, t.ctl.inlet)
    | _ => none) = some (true, 1, 90) := by decide

/-- R293: a notify moves TAIL while it stays within the ring. -/
theorem test_notify : (match exec (.notify 1 3) { idle with ctl := { idle.ctl with lqOn := true } } with
    | .next t => some t.ctl.lqTail
    | _ => none) = some 3 := by decide

/-- SHA-512 of the three bytes `abc` (FIPS 180-4's own example): its first and last words. -/
theorem test_sha512 : ((sha512 [0x61, 0x62, 0x63]).take 8, (sha512 [0x61, 0x62, 0x63]).drop 56) =
    ([0xDD, 0xAF, 0x35, 0xA1, 0x93, 0x61, 0x7A, 0xBA], [0x2A, 0x9A, 0xC9, 0x4F, 0xA5, 0x4C, 0xA4, 0x9F]) := by
  decide +kernel

/-- An instruction placed after reset is the one that the next step runs. -/
theorem test_first_step : (match step (State.reset.withFetchWord 32 0x06000000) with
    | .next t => (t.waves.get? 0).map fun w => (w.pc, w.retired)
    | _ => none) = some (4, 1) := by decide

end Sys2Proof.Tests
end

