-- ==== Sys2Proof/Tests/Words.lean ====
section
/-! SUPPORT. For the statements about words: concrete states and operands that meet their hypotheses. -/

namespace Sys2Proof.Tests

set_option Elab.async false

open Sys2Proof Sys2Proof.Machine

/-! ## Decoding and the step -/

theorem witness_DecodeOfEncode : wellFormed (.casD 108 122 .system .np3 true) = true ∧
    (headOf (.casD 108 122 .system .np3 true)).isSome = true ∧
    wellFormed (.addiP 127 0 0xFFFFFFFF .p1 false) = true := by decide

/-- A fetch that gives a word. -/
def fetches (s : State) (key : Nat) (w : Wave) (l : Launch) (va : Nat) (good : Word → State → Bool) : Bool :=
  match s.fetchAt key w l va with
  | .word x t => good x t
  | _ => false

theorem fetches_of {s : State} {key : Nat} {w : Wave} {l : Launch} {va : Nat} {good : Word → State → Bool}
    (h : fetches s key w l va good = true) : ∃ x t, s.fetchAt key w l va = .word x t ∧ good x t = true := by
  unfold fetches at h
  split at h
  · exact ⟨_, _, ‹_›, h⟩
  · cases h

/-- The placed machine, in the middle of its step. -/
def placed (nbits w : Nat) : State :=
  { (State.reset.withFetchWord nbits w).after ⟨0, .issue 0 0, false, false, 0⟩ with sched := [] }

/-- The wave and the launch that `withFetchWord` places. -/
def placedWave : Wave := { freshWave fetchLaunch (blockKey 0 0) 0 false 0 0 0 0 0 0 0 with regCount := 256 }

theorem witness_StepRunsDecoded :
    (State.reset.withFetchWord 32 0x06000000).sched = [⟨0, .issue 0 0, false, false, 0⟩] ∧
    (placed 32 0x06000000).turn 0 0 = some 0 ∧ (placed 32 0x06000000).waves.get? 0 = some placedWave ∧
    ((placed 32 0x06000000).blocks.get? placedWave.block).isSome = true ∧
    (placed 32 0x06000000).launches.get? 0 = some run ∧ (placed 32 0x06000000).trapsNow placedWave = false ∧
    ∃ x t, (placed 32 0x06000000).fetchAt 0 placedWave run placedWave.pc.toNat = .word x t ∧
      decide (majorOf x ≠ 1) = true :=
  ⟨rfl, by decide, by decide, by decide, by decide, by decide, fetches_of (by decide)⟩

/-- A literal word and its partner. -/
theorem witness_StepRunsDecoded_literal :
    ∃ x t, (placed 64 0x5028000002800000).fetchAt 0 placedWave run placedWave.pc.toNat = .word x t ∧
      (decide (majorOf x = 1) && fetches t 0 placedWave run (placedWave.pc.toNat + 4) fun _ _ => true) = true :=
  fetches_of (by decide)

/-- A lookup that finds a translation. -/
def looks (s : State) (outs : List (Nat × Nat)) (core asid root va : Nat) (good : Xlate → State → Bool) : Bool :=
  match s.lookup outs core asid root va with
  | .found m t => good m t
  | _ => false

theorem looks_of {s : State} {outs : List (Nat × Nat)} {core asid root va : Nat} {good : Xlate → State → Bool}
    (h : looks s outs core asid root va good = true) :
    ∃ m t, s.lookup outs core asid root va = .found m t ∧ good m t = true := by
  unfold looks at h
  split at h
  · exact ⟨_, _, ‹_›, h⟩
  · cases h

theorem witness_StepRunsDecoded_fetch : run.dqm = false ∧
    ∃ m t, (paged (world [])).lookup [] 0 0 0x10000 0x1FFC = .found m t ∧
      (m.permits .fetch false && decide (m.target 0x1FFC = .here (.mem 0x21FFC)) && !t.poisoned (.mem 0x21FFC) 4 &&
        ((t.core 0).icache.get? 0x21FFC).isNone) = true :=
  ⟨rfl, looks_of (by decide)⟩

/-! ## Every word -/

/-- A load into p1 is outstanding. -/
def loading : State :=
  withWave (world []) fun w => { w with outst := [⟨0, false, 4, false, [259], 0, [], none, none, none, none, none, []⟩] }

theorem witness_GuardAndNoLane : headOf (.nop .p1) = some (.p1, false, 1) ∧ loading.parties.isSome = true ∧
    (∃ k ∈ guardSlots .p1, k ∈ loading.pendingSlots 0 ((wave []))  ∨ k = 259) ∧
    (∃ k ∈ guardSlots .p1, k ∈ loading.pendingSlots 0 (ctxOf loading (controlForm .p1 false [])).w) := by decide

theorem witness_GuardAndNoLane_idle : headOf (.exit .p1) = some (.p1, false, 1) ∧
    (world []).parties = some (0, wave [], block, run) ∧ (wave []).lanesFor .p1 false = 0 ∧
    (∀ lane, lane < 64 → (wave []).helpers.getLsbD lane = true → (wave []).guardIn .p1 lane = false) ∧
    (∀ k ∈ guardSlots .p1, k ∉ (world []).pendingSlots 0 (wave [])) ∧ (wave []).pc.toNat + 4 * 1 < 2 ^ 57 := by decide

/-- One live lane in which the guard does not hold, and a helper lane beside it in which it does. -/
def helping : State :=
  withWave (world []) fun w => { w with live := 1, active := 1, regs := [(259, 0 :: 1 :: List.replicate 62 0)] }

theorem witness_GuardAndNoLane_helpers : ∃ r, aluRow (.add 3 1 2 .p1 false) = some r ∧
    (helping.issuing r.form).isSome = true ∧ (ctxOf helping r.form).t = 0 ∧ (ctxOf helping r.form).u = false ∧
    (ctxOf helping r.form).hl ≠ 0 ∧
    (∀ k ∈ guardSlots r.g ++ r.form.slots (ctxOf helping r.form).w,
      k ∉ helping.pendingSlots (ctxOf helping r.form).key (ctxOf helping r.form).w) ∧
    r.form.inRange (ctxOf helping r.form).w (ctxOf helping r.form).l = true ∧
    r.form.queued (ctxOf helping r.form).w = false ∧ (ctxOf helping r.form).atEdge r.size = false ∧
    (ctxOf helping r.form).w.struck = [] ∧ (ctxOf helping r.form).w.poison = [] := ⟨_, rfl, by decide⟩

theorem witness_UndefinedWordsHalt :
    (ctxOf (world []) ⟨.always, false, 1, [], [], false, false, id⟩).t ≠ 0 ∧
    ((world []).issuing ⟨.always, false, 1, [], [], false, false, id⟩).isSome = true ∧
    (ctxOf (world []) ⟨.always, false, 1, [], [], false, false, id⟩).w.mismatch = false := by decide

/-- A wave of 8 registers. -/
def narrow : State := withWave (world []) fun w => { w with regCount := 8 }

/-- A wave at the last word. -/
def edge : State := withWave (world []) fun w => { w with pc := 0x1FFFFFFFFFFFFFC }

theorem witness_UndefinedWordsHalt_fields : ∃ r, aluRow (.add 8 1 2 .always false) = some r ∧
    (narrow.issuing r.form).isSome = true ∧ (ctxOf narrow r.form).t ≠ 0 ∧
    r.form.inRange (ctxOf narrow r.form).w (ctxOf narrow r.form).l = false :=
  ⟨_, rfl, by decide⟩

theorem witness_UndefinedWordsHalt_edge : ∃ r, laneRow (.qxH 8 1 .always) = some r ∧
    Unhindered edge r.form (ctxOf edge r.form) ∧ r.form.queued (ctxOf edge r.form).w = false ∧
    2 ^ 57 ≤ (ctxOf edge r.form).w.pc.toNat + 4 * r.form.size :=
  ⟨_, rfl, unhindered_of (by decide), by decide⟩

/-- Register 1 is struck in lanes 0 and 1; the block has a snapshot or not. -/
def damaged (snap : Bool) : State :=
  withBlock (withWave (world []) fun w => { w with struck := [(1, 3)] }) fun b =>
    { b with snap := if snap then some ⟨[], [], [], [], [], [], [], [], 0, []⟩ else none }

theorem witness_UndefinedWordsHalt_consumed : ∃ r, aluRow (.add 3 1 2 .always false) = some r ∧
    (∀ snap ∈ [false, true], ((damaged snap).issuing r.form).isSome = true ∧ (ctxOf (damaged snap) r.form).t ≠ 0 ∧
      r.form.inRange (ctxOf (damaged snap) r.form).w (ctxOf (damaged snap) r.form).l = true ∧
      (ctxOf (damaged snap) r.form).w.mismatch = false ∧ (ctxOf (damaged snap) r.form).b.snap.isSome = snap ∧
      (ctxOf (damaged snap) r.form).b.consumed < 2 ∧
      ∃ x ∈ r.form.reads, ∃ k ∈ (ctxOf (damaged snap) r.form).w.slotsOf x.1 x.2,
        ((ctxOf (damaged snap) r.form).w.struck.getD k 0 ||| (ctxOf (damaged snap) r.form).w.poison.getD k 0) &&&
          (ctxOf (damaged snap) r.form).t ≠ 0) :=
  ⟨_, rfl, by decide⟩

/-- The two issues of a word have differed. -/
def differing : State :=
  withRun (withWave (world []) fun w => { w with mismatch := true }) fun l =>
    { l with record := { l.record with options := 8 } }

theorem witness_UndefinedWordsHalt_issues : ∃ r, laneRow (.qxH 8 1 .always) = some r ∧
    (differing.issuing r.form).isSome = true ∧ (ctxOf differing r.form).t ≠ 0 ∧
    r.form.inRange (ctxOf differing r.form).w (ctxOf differing r.form).l = true ∧
    (∀ k ∈ guardSlots r.form.g ++ r.form.slots (ctxOf differing r.form).w,
      k ∉ differing.pendingSlots (ctxOf differing r.form).key (ctxOf differing r.form).w) ∧
    (ctxOf differing r.form).w.mismatch = true ∧
    (ctxOf differing r.form).l.record.options.getLsbD 3 = true ∧ (ctxOf differing r.form).l.standing = none :=
  ⟨_, rfl, by decide⟩

/-- Lanes 0 and 1 of register 1 are struck; only lanes 2 and 3 meet p1. -/
def besides : State :=
  withWave (world []) fun w =>
    { w with struck := [(1, 3)], regs := [(259, [0, 0, 1, 1] ++ List.replicate 60 0)] }

theorem witness_UndefinedWordsHalt_beside : ∃ r, aluRow (.mov 3 1 .p1 false) = some r ∧ r.reads = [(1, 1)] ∧
    (besides.issuing r.form).isSome = true ∧ (ctxOf besides r.form).t ≠ 0 ∧
    r.form.inRange (ctxOf besides r.form).w (ctxOf besides r.form).l = true ∧
    r.form.queued (ctxOf besides r.form).w = false ∧ (ctxOf besides r.form).atEdge r.size = false ∧
    (∀ k ∈ guardSlots r.g ++ r.form.slots (ctxOf besides r.form).w,
      k ∉ besides.pendingSlots (ctxOf besides r.form).key (ctxOf besides r.form).w) ∧
    (ctxOf besides r.form).w.mismatch = false ∧ (ctxOf besides r.form).w.slotOf (1 : Reg).toNat = .phys 1 ∧
    (ctxOf besides r.form).w.slotOf r.d.toNat ≠ .phys 1 ∧
    ((ctxOf besides r.form).w.struck.getD 1 0 ||| (ctxOf besides r.form).w.poison.getD 1 0) &&&
      (ctxOf besides r.form).t = 0 ∧
    (ctxOf besides r.form).w.struck.getD 1 0 ≠ 0 ∧ KMap.wf (ctxOf besides r.form).w.struck = true ∧
    KMap.wf (ctxOf besides r.form).w.poison = true :=
  ⟨_, rfl, by decide⟩

theorem witness_TakingAHalt : (world []).waves.get? 0 = some (wave []) ∧
    (world []).blocks.get? (wave []).block = some block ∧ (world []).launches.get? block.launch = some run ∧
    run.standing = none := by decide

/-! ## Integer, floating-point and lane instructions -/

theorem witness_IntegerResults : ∃ r, aluRow (.addiP 3 1 0xFFFFFFFF .always true) = some r ∧
    Clear (world [(1, 5)]) r.form (ctxOf (world [(1, 5)]) r.form) := ⟨_, rfl, clear_of (by decide)⟩

theorem witness_PairResults : ∃ r, pairRow (.adda 110 111 .always false) = some r ∧
    Clear (world [(111, 5)]) r.form (ctxOf (world [(111, 5)]) r.form) := ⟨_, rfl, clear_of (by decide)⟩

theorem witness_FloatResults : ∃ r, floatRow (.fmaF32 1 2 3 .np1 false) = some r ∧
    Clear (world [(1, 0x7F800000)]) r.form (ctxOf (world [(1, 0x7F800000)]) r.form) := ⟨_, rfl, clear_of (by decide)⟩

/-- 1.5 in each of three formats, the least positive value of E5M2, and a mode that rounds up. -/
theorem witness_FloatResults_rounded :
    let r : RCtx := ⟨.rup, 0, false⟩
    r.flush = false ∧ fp32.read 0x3FC00000 = .fin false 0xC00000 (-23) ∧ fp16.read 0x3E00 = .fin false 0x600 (-10) ∧
    bf16.read 0x3FC0 = .fin false 0xC0 (-7) ∧ 0x3FC00000 < 2 ^ (1 + fp32.ew + fp32.fw) ∧
    0x3E00 < 2 ^ (1 + fp16.ew + fp16.fw) ∧ 0x3FC0 < 2 ^ (1 + bf16.ew + bf16.fw) ∧
    0x01 < 2 ^ (1 + e5m2.ew + e5m2.fw) ∧ e5m2.isNumber 0x01 ∧ e5m2.num 0x01 ≠ 0 := by
  unfold Fmt.isNumber; decide +kernel

theorem witness_LaneResults : ∃ r, laneRow (.scanAdd 1 121 .np1) = some r ∧
    Clear (world []) r.form (ctxOf (world []) r.form) := ⟨_, rfl, clear_of (by decide)⟩

/-! ## Queues -/

/-- A pair of waves: the compute wave may consume its queue 0, which holds an element, and produce its queue 1. -/
def paired : State :=
  { withBlock (withRun (world []) fun l => { l with record := { l.record with options := 2 } }) fun b =>
      { b with queues := [(0, [7])], dirs := [(0, 2)] } with
    waves := [(0, wave []), (16, { wave [] with shadow := true, pc := 4 })] }

theorem witness_QueueForms : ∃ r ops s1, aluRow (.mov 117 112 .always true) = some r ∧
    Unhindered paired r.form (ctxOf paired r.form) ∧ (ctxOf paired r.form).atEdge r.size = false ∧
    paired.roomFor (ctxOf paired r.form) [(r.d, 1)] = .ok () ∧
    paired.readFields (ctxOf paired r.form) r.reads = .ok (ops, s1) := by
  obtain ⟨ops, t, h, -⟩ := readsTo_of (s := paired) (c := ctxOf paired ((aluRow (.mov 117 112 .always true)).get rfl).form)
    (rs := ((aluRow (.mov 117 112 .always true)).get rfl).reads) (good := fun _ _ => true) (by decide)
  exact ⟨_, ops, t, rfl, unhindered_of (by decide), by decide, roomy_of (by decide), h⟩

/-- What a pop or a push may do instead. -/
def deniedRead (s : State) (c : Ctx) (rs : List (Reg × Nat)) (k : Nat) : Bool :=
  match s.readFields c rs with
  | .fault j => decide (j = k)
  | .wait j => decide (j = k)
  | _ => false

/-- What the room for a result may say instead. -/
def deniedRoom (s : State) (c : Ctx) (ws : List (Reg × Nat)) (k : Nat) : Bool :=
  match s.roomFor c ws with
  | .fault j => decide (j = k)
  | .wait j => decide (j = k)
  | _ => false

/-- Queue 1 holds all it can; queue 3 holds nothing. -/
def crowded : State :=
  withBlock paired fun b => { b with queues := [(0, [7]), (1, List.replicate 512 7)], dirs := [(0, 2)] }

/-- A word that may not push queue 0 (0x20), one that may not pop queue 1 (0x20), one that waits for an element of
queue 3, and one that waits for room in queue 1. -/
theorem witness_QueueForms_stopped :
    (∃ r, aluRow (.mov 116 1 .always true) = some r ∧ Unhindered crowded r.form (ctxOf crowded r.form) ∧
      deniedRoom crowded (ctxOf crowded r.form) r.form.writes 0x20 = true) ∧
    (∃ r, aluRow (.mov 3 113 .always true) = some r ∧ Unhindered crowded r.form (ctxOf crowded r.form) ∧
      deniedRead crowded (ctxOf crowded r.form) r.form.reads 0x20 = true) ∧
    (∃ r, aluRow (.mov 3 115 .always true) = some r ∧ Unhindered crowded r.form (ctxOf crowded r.form) ∧
      deniedRead crowded (ctxOf crowded r.form) r.form.reads 3 = true) ∧
    ∃ r, aluRow (.mov 117 1 .always true) = some r ∧ Unhindered crowded r.form (ctxOf crowded r.form) ∧
      deniedRoom crowded (ctxOf crowded r.form) r.form.writes 1 = true :=
  ⟨⟨_, rfl, unhindered_of (by decide), by decide⟩, ⟨_, rfl, unhindered_of (by decide), by decide⟩,
    ⟨_, rfl, unhindered_of (by decide), by decide⟩, ⟨_, rfl, unhindered_of (by decide), by decide +kernel⟩⟩

theorem witness_QueuesAreFifo :
    let c := ctxOf paired (controlForm .always true [(112, 1)])
    paired.blocks.get? c.w.block = some c.b ∧ c.consumes 1 = false ∧ c.consumes 0 = true ∧
    c.elems ≤ (c.b.queue c.w.index 0).length ∧ (c.b.queue c.w.index 3).length < c.elems ∧ c.src < 64 ∧
    (c.b.queue c.w.index 1).length + c.elems ≤ 512 ∧
    512 < ((ctxOf crowded (controlForm .always true [(112, 1)])).b.queue c.w.index 1).length + c.elems := by decide +kernel

theorem witness_RoundTrips : 0x7B < 2 ^ (1 + e4m3.ew + e4m3.fw) ∧ e4m3.read 0x7B = .fin false 11 5 ∧
    (∀ x ∈ List.replicate 16 0x3F800000, x < 2 ^ (8 * (wireShape .f32).2)) ∧
    packable (wireShape .f32).1 (List.replicate 16 0x3F800000) = true := by decide

/-! ## Control flow and special registers -/

/-- Only lanes 0 and 1 meet p1, under a token. -/
def split : State :=
  withWave (world []) fun w => { w with regs := [(259, [1, 1] ++ List.replicate 62 0)], stack := [.token 64 0] }

/-- The same with no token. -/
def bare : State := withWave split fun w => { w with stack := [] }

theorem witness_ControlTransfers : ∃ r, jumpRow (.j 4 .p1 false) = some r ∧ r.call = false ∧
    Unhindered split r.form (ctxOf split r.form) ∧ r.target (ctxOf split r.form) = some 16 ∧
    (ctxOf split r.form).MayTransfer :=
  ⟨_, rfl, rfl, unhindered_of (by decide), by decide, by unfold Ctx.MayTransfer; decide⟩

theorem witness_ControlTransfers_refused : ∃ r, jumpRow (.j (-1) .p1 false) = some r ∧
    Unhindered split r.form (ctxOf split r.form) ∧ r.target (ctxOf split r.form) = none :=
  ⟨_, rfl, unhindered_of (by decide), by decide⟩

theorem witness_ControlTransfers_token : ∃ r, jumpRow (.j 4 .p1 false) = some r ∧
    Unhindered bare r.form (ctxOf bare r.form) ∧ r.target (ctxOf bare r.form) = some 16 ∧
    ¬ (ctxOf bare r.form).MayTransfer :=
  ⟨_, rfl, unhindered_of (by decide), by decide, by unfold Ctx.MayTransfer; decide⟩

theorem witness_ControlTransfers_call : ∃ r, jumpRow (.callr 122 .always false) = some r ∧ r.call = true ∧
    Unhindered (world [(257, 64)]) r.form (ctxOf (world [(257, 64)]) r.form) ∧
    r.target (ctxOf (world [(257, 64)]) r.form) = some 64 ∧ (ctxOf (world [(257, 64)]) r.form).MayTransfer :=
  ⟨_, rfl, rfl, unhindered_of (by decide), by decide, by unfold Ctx.MayTransfer; decide⟩

theorem witness_ControlTransfers_ret :
    let f := controlForm .always false [(120, 1)]
    let c := ctxOf (world [(256, 64)]) f
    Unhindered (world [(256, 64)]) f c ∧ (∀ lane ∈ lanesOf c.t, c.w.slotLane 256 lane = 64) ∧
    (64 : Word).toNat % 4 = 0 ∧ c.MayTransfer :=
  ⟨unhindered_of (by decide), by decide, by decide, by unfold Ctx.MayTransfer; decide⟩

/-- The executing lanes' `lr` agree and no token stands on the stack, or sixteen do; and they disagree. -/
theorem witness_ControlTransfers_ret_refused :
    let f := controlForm .p1 false [(120, 1)]
    let full := withWave split fun w => { w with stack := List.replicate 16 (.token 64 0) }
    let apart := withWave split fun w => { w with regs := (256, [4] ++ List.replicate 63 8) :: w.regs }
    Unhindered bare f (ctxOf bare f) ∧ ¬ (ctxOf bare f).MayTransfer ∧ hasToken (ctxOf bare f).w.stack = false ∧
    Unhindered full f (ctxOf full f) ∧ ¬ (ctxOf full f).MayTransfer ∧ hasToken (ctxOf full f).w.stack = true ∧
    (∀ lane ∈ lanesOf (ctxOf bare f).t, (ctxOf bare f).w.slotLane 256 lane = 0) ∧
    Unhindered apart f (ctxOf apart f) ∧ ¬ ∀ lane ∈ lanesOf (ctxOf apart f).t, (ctxOf apart f).w.slotLane 256 lane = 4 :=
  ⟨unhindered_of (by decide), by unfold Ctx.MayTransfer; decide, by decide, unhindered_of (by decide),
    by unfold Ctx.MayTransfer; decide, by decide, by decide, unhindered_of (by decide), by decide⟩

/-- A token at the wave's own address, above which one path waits. -/
def joining : State :=
  withWave (world []) fun w => { w with active := 3, stack := [.path 32 0xC, .token 0 0xF0] }

theorem witness_JoinsAndYield :
    let f := controlForm .always false []
    Clear joining f (ctxOf joining f) ∧ offsetTarget 8 (ctxOf joining f) = some 32 ∧
    offsetTarget (-1) (ctxOf joining f) = none ∧ (ctxOf joining f).w.stack.length < 16 ∧
    (ctxOf joining f).w.stack = pathsOf [(32, 0xC)] ++ .token 0 0xF0 :: [] ∧ (0 : DWord) = (ctxOf joining f).w.pc ∧
    hasToken (ctxOf joining f).w.stack = true :=
  ⟨clear_of (by decide), by decide⟩

theorem witness_JoinsAndYield_empty :
    Clear (world []) (controlForm .always false []) (ctxOf (world []) (controlForm .always false [])) ∧
    hasToken (ctxOf (world []) (controlForm .always false [])).w.stack = false ∧
    16 ≤ ((withWave (world []) fun w => { w with stack := List.replicate 16 (.token 0 0) }).waves.get? 0).elim 0
      fun w => w.stack.length :=
  ⟨clear_of (by decide), by decide⟩

theorem witness_ExitNopTrapWbase :
    Clear split (controlForm .p1 false []) (ctxOf split (controlForm .p1 false [])) ∧
    (ctxOf split (controlForm .p1 false [])).w.regCount ≤ (256 : BitVec 14).toNat ∧
    (248 : BitVec 14).toNat < (ctxOf split (controlForm .p1 false [])).w.regCount :=
  ⟨clear_of (by decide), by decide⟩

/-- The wave in supervisor state. -/
def supervisor : State := withWave (world []) fun w => { w with sup := true, tepc := 0x100, tlevel := 3 }

theorem witness_SpecialRegisters :
    let f : Form := ⟨.always, false, 1, [], [(3, 1)], true, false, id⟩
    Clear (world []) f (ctxOf (world []) f) ∧ svOnly .tcause = true ∧ (ctxOf (world []) f).w.sup = false ∧
    svOnly .dix = false ∧ Clear supervisor f (ctxOf supervisor f) ∧ (ctxOf supervisor f).w.sup = true :=
  ⟨clear_of (by decide), by decide, by decide, by decide, clear_of (by decide), by decide⟩

theorem witness_SpecialRegisters_write :
    let f : Form := ⟨.always, false, 1, [(3, 1)], [], false, false, id⟩
    Clear (world [(3, 9)]) f (ctxOf (world [(3, 9)]) f) ∧ svOnly .wtime = false ∧ SReg.wtime ≠ .lrmap ∧
    (ctxOf (world [(3, 9)]) f).w.sup = false ∧ svOnly .tepcLo = true := ⟨clear_of (by decide), by decide⟩

/-- A destination that names a queue, an operand that names one, and a write of the lane map in supervisor state. -/
theorem witness_SpecialRegisters_queues :
    let f : Form := ⟨.always, true, 1, [], [(117, 1)], true, false, id⟩
    let g : Form := ⟨.always, true, 1, [(112, 1)], [], false, false, id⟩
    let h : Form := ⟨.always, false, 1, [(3, 1)], [], false, false, id⟩
    let s := withWave supervisor fun w => { w with regs := [(3, List.replicate 64 0x7F40)] }
    (Unhindered paired f (ctxOf paired f) ∧ paired.roomFor (ctxOf paired f) f.writes = .ok ()) ∧
    (Unhindered paired g (ctxOf paired g) ∧ readsTo paired (ctxOf paired g) g.reads (fun _ _ => true) = true) ∧
    Fed s h (ctxOf s h) ((ctxOf s h).operands [(3, 1)]) s ∧ (ctxOf s h).w.sup = true ∧ (ctxOf s h).w.sect < 4 ∧
    s.TablesRise :=
  ⟨⟨unhindered_of (by decide), roomy_of (by decide)⟩, ⟨unhindered_of (by decide), by decide⟩,
    fed_of (f := ⟨.always, false, 1, [(3, 1)], [], false, false, id⟩) (by decide), by decide, by decide,
    by unfold State.TablesRise; decide⟩

theorem witness_SupervisorEntryAndReturn :
    let f := controlForm .always false []
    Clear supervisor f (ctxOf supervisor f) ∧ (ctxOf supervisor f).w.sup = true ∧
    (ctxOf supervisor f).w.stack.length = (ctxOf supervisor f).w.tdepth ∧ (ctxOf supervisor f).w.sect < 4 ∧
    Clear (world []) f (ctxOf (world []) f) ∧ (ctxOf (world []) f).w.sup = false ∧
    Clear (withWave supervisor fun w => { w with tdepth := 1 }) f
      (ctxOf (withWave supervisor fun w => { w with tdepth := 1 }) f) :=
  ⟨clear_of (by decide), by decide, by decide, by decide, clear_of (by decide), by decide, clear_of (by decide)⟩

theorem witness_SupervisorEntryAndReturn_timer : (world []).waves.get? 0 = some (wave []) ∧
    (world []).blocks.get? (wave []).block = some block ∧ (world []).launches.get? block.launch = some run ∧
    ((world []).ctl.vectors.getD run.asid 0).getLsbD 0 = false ∧ run.standing = none ∧
    ({ idle.ctl with vectors := [(0, 0x401)] }.vectors.getD run.asid 0).getLsbD 0 = true := by decide

end Sys2Proof.Tests
end

section
namespace Sys2Proof.Machine
open Sys2Proof

/-! ## Memory through a step (R2, R150)

Every function of the machine has one lemma: `X_mem` where it leaves memory as it was, `X_memWf` where it writes memory
and keeps it canonical. The types that carry a state out of a function (the result of a lookup,
    of the checks of an access,
of a word) have a predicate `Holds` for it. -/

/-! ### What the carriers of a state hold -/

/-- Every state that the outcome of a step carries has a property. -/
def nextHolds (P : State → Prop) : Host.Outcome State Fault Refusal → Prop
  | .next t => P t
  | .fault _ => True
  | .refused _ => True

/-- Every value that a queue gives has a property. -/
def QRes.Holds {α : Type} (P : α → Prop) : QRes α → Prop
  | .ok x => P x
  | .wait _ => True
  | .fault _ => True

/-- Every state that a lookup carries has a property. -/
def Looked.Holds (P : State → Prop) : Looked → Prop
  | .found _ t => P t
  | .absent => True
  | .malformed => True
  | .joined _ t => P t

/-- Every state that the checks of R202 carry has a property. -/
def Checked.Holds (P : State → Prop) : Checked → Prop
  | .ok _ t => P t
  | .fault _ _ _ => True
  | .park _ _ => True
  | .wait t => P t
  | .walk _ t => P t
  | .endQuantum => True

/-- How a word ended: the state that it carries has a property. -/
def Res.Holds (P : State → Prop) : Res → Prop
  | .done _ t => P t
  | .jump _ t => P t
  | .doneEnd _ t => P t
  | .jumpEnd _ t => P t
  | .wait t => P t
  | .block _ t => P t
  | .endFirst t => P t
  | .blockEnd _ t => P t
  | .halt _ _ _ => True
  | .park _ _ => True
  | .left t => P t

/-- The state that a round of requests to peers carries has a property. -/
def Asked.Holds (P : State → Prop) : Asked → Prop
  | .ready _ t => P t
  | .pending t => P t
  | .bad _ _ => True

/-- The state that an access goes on with, or stops with, has a property. -/
def Gate.Holds (P : State → Prop) : Gate → Prop
  | .go _ _ t => P t
  | .stop r => r.Holds P

/-- The state that a move of bytes carries has a property. -/
def Moved.Holds {α : Type} (P : State → Prop) : Moved α → Prop
  | .ok _ t => P t
  | .pending t => P t
  | .pause _ => True
  | .fault _ _ => True

/-- The state that a fetch of operands carries has a property. -/
def Fetched.Holds (P : State → Prop) : Fetched → Prop
  | .ok _ t => P t
  | .asked _ t => P t
  | .pending t => P t
  | .walk _ t => P t
  | .absent _ => True
  | .bad _ _ => True

/-- The state that a tenure is brought into has a property. -/
def Brought.Holds (P : State → Prop) : Brought → Prop
  | .here _ _ t => P t
  | .full => True
  | .taken => True
  | .imaged => True

/-- The state after the stores of a tile word has a property. -/
def Stored.Holds (P : State → Prop) : Stored → Prop
  | .all t => P t
  | .held t => P t
  | .failed t => P t

/-- The state in which an operation has its tenure has a property. -/
def OpTenure.Holds (P : State → Prop) : OpTenure → Prop
  | .at_ _ _ _ t => P t
  | .away => True
  | .gone => True

/-- The state that the fetch of a word carries has a property. -/
def CodeFetch.Holds (P : State → Prop) : CodeFetch → Prop
  | .word _ t => P t
  | .fault _ => True
  | .park => True
  | .wait t => P t

/-- The state that the fetch of an instruction carries has a property. -/
def Ready.Holds (P : State → Prop) : Ready → Prop
  | .instr _ t => P t
  | .fault _ => True
  | .park => True
  | .wait t => P t

/-- A walk over a list leaves memory as it was when each of its steps does. -/
theorem foldl_mem {α : Type} {f : State → α → State} (h : ∀ s x, (f s x).mem = s.mem) (xs : List α) (s : State) :
    (xs.foldl f s).mem = s.mem := by
  induction xs generalizing s with
  | nil => rfl
  | cons x xs ih => rw [List.foldl_cons, ih, h]

/-- A walk over a list keeps memory canonical when each of its steps does. -/
theorem foldl_wf {α : Type} {f : State → α → State} (h : ∀ s x, Memory.wf s.mem = true → Memory.wf (f s x).mem = true)
    (xs : List α) {s : State} (hs : Memory.wf s.mem = true) : Memory.wf (xs.foldl f s).mem = true := by
  induction xs generalizing s with
  | nil => exact hs
  | cons x xs ih => exact ih (h s x hs)

theorem Res.Holds.imp {P Q : State → Prop} {r : Res} (h : r.Holds P) (hi : ∀ t, P t → Q t) : r.Holds Q := by
  cases r with
  | halt | park => trivial
  | done | jump | doneEnd | jumpEnd | wait | block | endFirst | blockEnd | left => exact hi _ h

/-- What leaves memory as it was keeps it canonical. -/
theorem Res.Holds.canon {s : State} {r : Res} (h : r.Holds fun t => t.mem = s.mem) (hs : Memory.wf s.mem = true) :
    r.Holds State.MemCanon :=
  h.imp fun t ht => by rw [State.MemCanon, ht]; exact hs

theorem Moved.Holds.canon {α : Type} {s : State} {r : Moved α} (h : r.Holds fun t => t.mem = s.mem)
    (hs : Memory.wf s.mem = true) : r.Holds State.MemCanon := by
  cases r <;> simp_all [Moved.Holds, State.MemCanon]

/-! ### Operations of the state -/

@[simp] theorem State.nextSeq_mem (s : State) : s.nextSeq.mem = s.mem := rfl

@[simp] theorem State.modWavesOf_mem (s : State) (b : Nat) (f : Wave → Wave) : (s.modWavesOf b f).mem = s.mem := rfl

@[simp] theorem State.bringL2_mem (s : State) (a n : Nat) (dirty : Bool) : (s.bringL2 a n dirty).mem = s.mem := rfl

@[simp] theorem State.keepView_mem (s : State) (a : Nat) : (s.keepView a).mem = s.mem := by
  unfold State.keepView
  (repeat' split) <;> simp

@[simp] theorem State.poke_memWf (s : State) (by_ : Option Nat) (a : Nat) (bs : List Byte)
    (h : Memory.wf s.mem = true) :
    Memory.wf (s.poke by_ a bs).mem = true := Memory.wf_putAll a bs h

@[simp] theorem State.writeLoc_memWf (s : State) (by_ : Option Nat) (l : Loc) (bs : List Byte)
    (h : Memory.wf s.mem = true) :
    Memory.wf (s.writeLoc by_ l bs).mem = true := by
  cases l with
  | mem a => exact s.poke_memWf by_ a bs h
  | scr b off => exact h

@[simp] theorem State.abandonTicket_mem (s : State) (b : Nat) : (s.abandonTicket b).mem = s.mem := by
  unfold State.abandonTicket
  (repeat' split) <;> simp

@[simp] theorem State.takeHaltAs_mem (s : State) (mk : TrapRec → TrapRec) (key : Nat) (cause : Nat) (addr : DWord)
    (mask : Mask) (detail : Word) :
    (s.takeHaltAs mk key cause addr mask detail).mem = s.mem := by
  unfold State.takeHaltAs
  (repeat' split) <;> simp

@[simp] theorem State.takeTimer_mem (s : State) (key : Nat) : (s.takeTimer key).mem = s.mem := by
  unfold State.takeTimer
  (repeat' split) <;> (try dsimp only) <;> (try split) <;> simp

@[simp] theorem State.snapWave_mem (s : State) (key id : Nat) (f : Wave → Wave) :
    (s.snapWave key id f).mem = s.mem := by
  unfold State.snapWave
  (repeat' split) <;> simp

@[simp] theorem State.addDeferred_mem (s : State) (key : Nat) (d : Deferred) : (s.addDeferred key d).mem = s.mem := by
  simp [State.addDeferred]

@[simp] theorem State.snapshot_mem (s : State) (b : Nat) : (s.snapshot b).mem = s.mem := by
  unfold State.snapshot
  (repeat' split) <;> simp

/-! ### Operands and translations -/

@[simp] theorem State.pop_mem (s : State) (c : Ctx) (n : Nat) : (s.pop c n).Holds fun y => y.2.mem = s.mem := by
  unfold State.pop
  (repeat' split) <;> simp [QRes.Holds]

@[simp] theorem State.push_mem (s : State) (c : Ctx) (n : Nat) (v : Nat → Word) : (s.push c n v).mem = s.mem := rfl

theorem State.readField_mem (s : State) (c : Ctx) (r : Nat) : (s.readField c r).Holds fun y => y.2.mem = s.mem := by
  unfold State.readField
  split
  · exact s.pop_mem c _
  · rfl

theorem State.readRun_mem (s : State) (c : Ctx) (r : Reg) (n : Nat) :
    (s.readRun c r n).Holds fun y => y.2.mem = s.mem := by
  have h := s.readField_mem c r.toNat
  unfold State.readRun
  (repeat' split) <;> simp_all [QRes.Holds]

theorem State.readFields_mem (s : State) (c : Ctx) (xs : List (Reg × Nat)) :
    (s.readFields c xs).Holds fun y => y.2.mem = s.mem := by
  induction xs generalizing s with
  | nil => rfl
  | cons x xs ih =>
    have h := s.readRun_mem c x.1 x.2
    unfold State.readFields
    split
    · trivial
    · trivial
    · next v t e =>
      have := ih t
      (repeat' split) <;> simp_all [QRes.Holds]

@[simp] theorem State.writeReg_mem (s : State) (c : Ctx) (r : Nat) (v : Nat → Word) :
    (s.writeReg c r v).mem = s.mem := by
  unfold State.writeReg
  (repeat' split) <;> simp

@[simp] theorem State.writePair_mem (s : State) (c : Ctx) (r : Nat) (v : Nat → DWord) :
    (s.writePair c r v).mem = s.mem := by
  simp [State.writePair]

@[simp] theorem State.raiseFlags_mem (s : State) (c : Ctx) (f : Nat → Flags) : (s.raiseFlags c f).mem = s.mem := rfl

@[simp] theorem State.fillCore_mem (s : State) (core : Nat) (x : Xlate) : (s.fillCore core x).mem = s.mem := rfl

@[simp] theorem State.fillTlb_mem (s : State) (core : Nat) (x : Xlate) : (s.fillTlb core x).mem = s.mem := (rfl)

@[simp] theorem State.joinWalk_mem (s : State) (core asid va : Nat) : (s.joinWalk core asid va).mem = s.mem := rfl

@[simp] theorem State.lookup_mem (s : State) (outs : List (Nat × Nat)) (core asid root va : Nat) :
    (s.lookup outs core asid root va).Holds fun t => t.mem = s.mem := by
  unfold State.lookup
  (repeat' split) <;> simp [Looked.Holds]

@[simp] theorem State.awaitWalks_mem (s : State) (key : Nat) (ks : List Nat) : (s.awaitWalks key ks).mem = s.mem := rfl

@[simp] theorem State.reachAll_mem (s : State) (c : Ctx) (xs : List (Nat × DWord)) :
    (s.reachAll c xs).1.mem = s.mem := by
  induction xs generalizing s with
  | nil => rfl
  | cons x xs ih =>
    have h := s.lookup_mem c.w.walkOut c.w.core c.l.asid c.l.root (offsetOf x.2)
    unfold State.reachAll
    (repeat' split) <;> simp_all [Looked.Holds]

theorem State.check_mem (s : State) (c : Ctx) (as : List (Nat × DWord)) (size : Nat) (p : Purpose) (takes : Takes) :
    (s.check c as size p takes).Holds fun t => t.mem = s.mem := by
  unfold State.check
  dsimp only
  (repeat' split) <;> simp [Checked.Holds]

@[simp] theorem State.helperReach_mem (s : State) (c : Ctx) (size : Nat) (takes : Takes) (xs : List (Nat × DWord)) :
    (s.helperReach c size takes xs).state.mem = s.mem := by
  induction xs generalizing s with
  | nil => rfl
  | cons x xs ih =>
    have h := State.check_mem { s with later := false } c [(x.1, x.2)] size .read takes
    unfold State.helperReach
    split <;> simp_all [Checked.Holds]

/-! ### Issue of a word -/

@[simp] theorem State.countSkid_mem (s : State) (key b : Nat) : (s.countSkid key b).mem = s.mem := by
  unfold State.countSkid
  (repeat' split) <;> simp

@[simp] theorem State.retireAt_mem (s : State) (c : Ctx) (size : Nat) (x : Series) :
    (s.retireAt c size x).mem = s.mem := by
  simp [State.retireAt]

@[simp] theorem State.retireJump_mem (s : State) (c : Ctx) (x : Series) : (s.retireJump c x).mem = s.mem := by
  simp [State.retireJump]

@[simp] theorem State.endQuantum_mem (s : State) (c : Ctx) : (s.endQuantum c).mem = s.mem := by
  unfold State.endQuantum
  (repeat' split) <;> simp

@[simp] theorem State.stallWave_mem (s : State) (key : Nat) : (s.stallWave key).mem = s.mem := rfl

@[simp] theorem State.blockWave_mem (s : State) (key : Nat) (b : Blocked) : (s.blockWave key b).mem = s.mem := rfl

@[simp] theorem State.unpop_mem (s : State) (c : Ctx) : (s.unpop c).mem = s.mem := rfl

@[simp] theorem State.beginRollback_mem (s : State) (key block : Nat) : (s.beginRollback key block).mem = s.mem := rfl

@[simp] theorem State.haltWord_mem (s : State) (c : Ctx) (cause : Nat) (addr : DWord) (detail : Word) :
    (s.haltWord c cause addr detail).mem = s.mem := by
  unfold State.haltWord
  (repeat' split) <;> simp

@[simp] theorem State.waits_memWf (s : State) (c : Ctx) (size : Nat) (t u : State) (hs : Memory.wf s.mem = true)
    (ht : Memory.wf t.mem = true) (hu : Memory.wf u.mem = true) :
    Memory.wf (s.waits c size t u).mem = true := by
  unfold State.waits
  (repeat' split) <;> simp [hs, hu]

/-- How a word ended keeps memory canonical when the state that it has come to is. -/
theorem State.settle_memWf (s : State) (c : Ctx) (size : Nat) (r : Res) (hs : Memory.wf s.mem = true)
    (hr : r.Holds State.MemCanon) : Memory.wf (s.settle c size r).mem = true := by
  cases r <;> simp only [State.settle, Res.Holds, State.MemCanon] at * <;> (try split) <;> simp_all

@[simp] theorem State.latent_mem (s : State) (c : Ctx) (xs : List Nat) : (s.latent c xs).mem = s.mem := by
  induction xs generalizing s with
  | nil => simp [State.latent]
  | cons x xs ih => simp_all [State.latent]

@[simp] theorem State.consumeError_mem (s : State) (c : Ctx) (cause : Nat) : (s.consumeError c cause).mem = s.mem := by
  unfold State.consumeError
  (repeat' split) <;> simp

@[simp] theorem Ctx.helpersKept_mem (c : Ctx) (t : State) : (Ctx.helpersKept c t).mem = t.mem := rfl

theorem Ctx.helpersOnly_memWf (c : Ctx) (f : Form) (body : Ctx → List (List LaneVec) → State → Res) (s : State)
    (hs : Memory.wf s.mem = true)
    (hb : ∀ c ops s, Memory.wf s.mem = true → (body c ops s).Holds State.MemCanon) :
    (c.helpersOnly f body s).Holds State.MemCanon := by
  have hr := s.readFields_mem c f.reads
  unfold Ctx.helpersOnly
  dsimp only
  split
  · exact hs
  · split
    · next ops s1 e =>
      rw [e] at hr
      have hb := hb c ops { s1 with later := false } (by rw [QRes.Holds] at hr; rw [hr]; exact hs)
      split <;> simp_all [Res.Holds, State.MemCanon]
    · exact hs

/-- A word keeps memory canonical when what its form does keeps it. -/
theorem issue_memWf (f : Form) {body : Ctx → List (List LaneVec) → State → Res} {s : State}
    (hb : ∀ c ops s, Memory.wf s.mem = true → (body c ops s).Holds State.MemCanon)
    (hs : Memory.wf s.mem = true) : nextHolds State.MemCanon (issue f body s) := by
  unfold issue
  split
  · trivial
  · next key w b l _ =>
    dsimp only
    split
    · exact hs
    split
    · exact iteInduction (motive := State.MemCanon) (fun _ => hs)
        fun _ => s.settle_memWf _ _ _ hs (Ctx.helpersOnly_memWf _ _ _ _ hs hb)
    split
    · simp [nextHolds, State.MemCanon, hs]
    split
    · exact hs
    split
    · simp [nextHolds, State.MemCanon, hs]
    split
    · simp [nextHolds, State.MemCanon, hs]
    split
    · simp [nextHolds, State.MemCanon, hs]
    · exact hs
    · have hr := s.readFields_mem ⟨key, w, b, l, w.lanesFor f.g f.u, if f.u then 0 else f.helperLanes w, f.u⟩ f.reads
      split
      · simp [nextHolds, State.MemCanon, hs]
      · exact hs
      · next ops s1 e =>
        rw [e, QRes.Holds] at hr
        exact s.settle_memWf _ _ _ hs (hb _ _ _ (by rw [State.latent_mem, hr]; exact hs))

theorem closing_memWf (g : Guard) (u : Bool) {run : State → Host.Outcome State Fault Refusal} {s : State}
    (h : nextHolds State.MemCanon (run s)) :
    nextHolds State.MemCanon (closing g u run s) := by
  unfold closing
  split
  · next e _ =>
    rw [e] at h
    (repeat' split) <;> simp_all [nextHolds, State.MemCanon]
  · exact h

theorem issueAlu_memWf (g : Guard) (u : Bool) (size : Nat) (d : Reg) (reads : List (Reg × Nat))
    (v : Ctx → List (List LaneVec) → Nat → Word) {s : State} (hs : Memory.wf s.mem = true) :
    nextHolds State.MemCanon (issueAlu g u size d reads v s) :=
  issue_memWf _ (fun c ops s h => by simpa [Res.Holds, State.MemCanon] using h) hs

theorem issueAluPair_memWf (g : Guard) (u : Bool) (d : Reg) (reads : List (Reg × Nat))
    (v : Ctx → List (List LaneVec) → Nat → DWord) {s : State} (hs : Memory.wf s.mem = true) :
    nextHolds State.MemCanon (issueAluPair g u d reads v s) :=
  issue_memWf _ (fun c ops s h => by simpa [Res.Holds, State.MemCanon] using h) hs

theorem issueFloat_memWf (g : Guard) (u : Bool) (d : Reg) (reads : List (Reg × Nat))
    (v : Ctx → List (List LaneVec) → Nat → Word × Flags) {s : State} (hs : Memory.wf s.mem = true) :
    nextHolds State.MemCanon (issueFloat g u d reads v s) :=
  issue_memWf _ (fun c ops s h => by simpa [Res.Holds, State.MemCanon] using h) hs

/-! ### Control flow -/

@[simp] theorem Ctx.go_mem (c : Ctx) (target : DWord) (call : Bool) (s : State) :
    (Ctx.go c target call s).Holds fun t => t.mem = s.mem := by
  unfold Ctx.go
  dsimp only
  (repeat' split) <;> simp [Res.Holds]

theorem issueJump_memWf (off : BitVec 21) (g : Guard) (u call : Bool) (s : State) (hs : Memory.wf s.mem = true) :
    nextHolds State.MemCanon (issueJump off g u call s) := by
  refine issue_memWf _ (fun c ops s h => ?_) hs
  split
  · exact (c.go_mem _ call s).canon h
  · trivial

theorem issueJumpReg_memWf (a : Reg) (g : Guard) (u call : Bool) (s : State) (hs : Memory.wf s.mem = true) :
    nextHolds State.MemCanon (issueJumpReg a g u call s) := by
  refine issue_memWf _ (fun c ops s h => ?_) hs
  dsimp only
  split
  · exact (c.go_mem _ call s).canon h
  · trivial

theorem execRet_memWf (g : Guard) (s : State) (hs : Memory.wf s.mem = true) :
    nextHolds State.MemCanon (execRet g s) := by
  unfold execRet
  refine issue_memWf _ (fun c ops s h => ?_) hs
  dsimp only
  (repeat' split) <;> simp_all [State.MemCanon, Res.Holds]

theorem execJoinSet_memWf (off : BitVec 21) (g : Guard) (s : State) (hs : Memory.wf s.mem = true) :
    nextHolds State.MemCanon (execJoinSet off g s) := by
  unfold execJoinSet
  refine issue_memWf _ (fun c ops s h => ?_) hs
  (repeat' split) <;> simp_all [State.MemCanon, Res.Holds]

theorem execJoin_memWf (g : Guard) (s : State) (hs : Memory.wf s.mem = true) :
    nextHolds State.MemCanon (execJoin g s) := by
  unfold execJoin
  refine issue_memWf _ (fun c ops s h => ?_) hs
  (repeat' split) <;> simp_all [State.MemCanon, Res.Holds]

theorem execYield_memWf (g : Guard) (s : State) (hs : Memory.wf s.mem = true) :
    nextHolds State.MemCanon (execYield g s) := by
  unfold execYield
  refine issue_memWf _ (fun c ops s h => ?_) hs
  (repeat' split) <;> simp_all [State.MemCanon, Res.Holds]

theorem execNop_memWf (g : Guard) (s : State) (hs : Memory.wf s.mem = true) :
    nextHolds State.MemCanon (execNop g s) := by
  unfold execNop
  refine issue_memWf _ (fun c ops s h => ?_) hs
  simp_all [State.MemCanon, Res.Holds]

theorem execTrap_memWf (imm : BitVec 14) (g : Guard) (s : State) (hs : Memory.wf s.mem = true) :
    nextHolds State.MemCanon (execTrap imm g s) := by
  unfold execTrap
  refine issue_memWf _ (fun c ops s h => ?_) hs
  simp_all [Res.Holds]

theorem execTrret_memWf (g : Guard) (s : State) (hs : Memory.wf s.mem = true) :
    nextHolds State.MemCanon (execTrret g s) := by
  unfold execTrret
  refine issue_memWf _ (fun c ops s h => ?_) hs
  (repeat' split) <;> simp_all [State.MemCanon, Res.Holds]

@[simp] theorem State.adoptMap_mem (s : State) (core sect : Nat) : (s.adoptMap core sect).mem = s.mem := rfl

theorem execLmapLd_memWf (g : Guard) (s : State) (hs : Memory.wf s.mem = true) :
    nextHolds State.MemCanon (execLmapLd g s) := by
  unfold execLmapLd
  refine issue_memWf _ (fun c ops s h => ?_) hs
  (repeat' split) <;> simp_all [State.MemCanon, Res.Holds]

theorem execUndefinedWord_memWf (pfx : Option (BitVec 25)) (w : BitVec 32) (s : State) (hs : Memory.wf s.mem = true) :
    nextHolds State.MemCanon (execUndefinedWord pfx w s) := by
  unfold execUndefinedWord
  refine issue_memWf _ (fun c ops s h => ?_) hs
  simp_all [Res.Holds]

/-! ### Special registers -/

theorem execMovS_memWf (d : Reg) (sr : SReg) (g : Guard) (u : Bool) (s : State) (hs : Memory.wf s.mem = true) :
    nextHolds State.MemCanon (execMovS d sr g u s) := by
  unfold execMovS
  refine issue_memWf _ (fun c ops s h => ?_) hs
  (repeat' split) <;> simp_all [State.MemCanon, Res.Holds]

@[simp] theorem State.setSreg_mem (s : State) (c : Ctx) (r : SReg) (v : LaneVec) : (s.setSreg c r v).mem = s.mem := by
  unfold State.setSreg
  dsimp only
  (repeat' split) <;> simp

theorem execMovSW_memWf (d : Reg) (sr : SReg) (g : Guard) (u : Bool) (s : State) (hs : Memory.wf s.mem = true) :
    nextHolds State.MemCanon (execMovSW d sr g u s) := by
  unfold execMovSW
  refine issue_memWf _ (fun c ops s h => ?_) hs
  (repeat' split) <;> simp_all [State.MemCanon, Res.Holds]

theorem execWbase_memWf (imm : BitVec 14) (g : Guard) (s : State) (hs : Memory.wf s.mem = true) :
    nextHolds State.MemCanon (execWbase imm g s) := by
  unfold execWbase
  refine issue_memWf _ (fun c ops s h => ?_) hs
  (repeat' split) <;> simp_all [State.MemCanon, Res.Holds]

/-! ### Accesses -/

@[simp] theorem State.noteWrite_mem (s : State) (a v : Nat) : (s.noteWrite a v).mem = s.mem := by
  unfold State.noteWrite
  (repeat' split) <;> simp

@[simp] theorem State.fillLine_mem (s : State) (core line : Nat) : (s.fillLine core line).mem = s.mem := by
  simp [State.fillLine]

@[simp] theorem State.allocate_mem (s : State) (core line : Nat) : (s.allocate core line).mem = s.mem := by
  unfold State.allocate
  (repeat' split) <;> simp

@[simp] theorem State.readGlobal_mem (s : State) (core acq since a n : Nat) :
    (s.readGlobal core acq since a n).2.mem = s.mem := by
  unfold State.readGlobal
  (repeat' split) <;> simp

@[simp] theorem State.updateCopy_mem (s : State) (core a : Nat) (bs : List Byte) :
    (s.updateCopy core a bs).mem = s.mem := by
  unfold State.updateCopy
  (repeat' split) <;> simp

@[simp] theorem State.dropCopy_mem (s : State) (core a : Nat) : (s.dropCopy core a).mem = s.mem := by
  unfold State.dropCopy
  (repeat' split) <;> simp

@[simp] theorem State.noteUnripe_mem (s : State) (by_ : Option Nat) (a n v : Nat) :
    (s.noteUnripe by_ a n v).mem = s.mem := by
  unfold State.noteUnripe
  (repeat' split) <;> simp

@[simp] theorem State.applyStore_memWf (s : State) (by_ : Option Nat) (core : Nat) (l : Loc) (bs : List Byte)
    (hs : Memory.wf s.mem = true) :
    Memory.wf (s.applyStore by_ core l bs).2.mem = true := by
  unfold State.applyStore
  (repeat' split) <;> simp [hs]

@[simp] theorem State.applyRmw_memWf (s : State) (by_ : Option Nat) (core : Nat) (op : Rmw) (l : Loc) (v w : DWord)
    (hs : Memory.wf s.mem = true) :
    Memory.wf (s.applyRmw by_ core op l v w).2.2.mem = true := by
  unfold State.applyRmw
  dsimp only
  (repeat' split) <;> simp [hs]

@[simp] theorem State.stamp_mem (s : State) (core k : Nat) (t : Target) : (s.stamp core k t).mem = s.mem := by
  unfold State.stamp
  (repeat' split) <;> simp

@[simp] theorem State.readFor_mem (s : State) (l : Launch) (w : Wave) (since : Nat) (t : Target) (n : Nat)
    (peer : List Byte) :
    (s.readFor l w since t n peer).2.mem = s.mem := by
  unfold State.readFor
  (repeat' split) <;> simp

@[simp] theorem State.buffer_mem (s : State) (key : Nat) (es : List Buffered) (space : Nat) :
    (s.buffer key es space).mem = s.mem := rfl

@[simp] theorem State.dropAt_mem (s : State) (port : Nat) : (s.dropAt port).mem = s.mem := by
  unfold State.dropAt
  (repeat' split) <;> simp

theorem State.hear_memWf {s : State} (src : BitVec 16) (agree : Bool) {f : State → State} (hs : Memory.wf s.mem = true)
    (hf : Memory.wf (f s).mem = true) : Memory.wf (s.hear src agree f).mem = true := by
  unfold State.hear
  (repeat' split) <;> simp [hs, hf]

@[simp] theorem State.ask_mem (s : State) (key acc : Nat) (q : Ask) : (s.ask key acc q).2.mem = s.mem := rfl

@[simp] theorem State.askAll_mem (s : State) (key acc : Nat) (xs : List Ask) : (s.askAll key acc xs).2.mem = s.mem := by
  induction xs generalizing s with
  | nil => simp [State.askAll]
  | cons x xs ih => simp_all [State.askAll]

@[simp] theorem State.keepAnswers_mem (s : State) (c : Ctx) : (s.keepAnswers c).mem = s.mem := rfl

@[simp] theorem State.hearAsks_mem (s : State) (c : Ctx) (judged : Mask) :
    (s.hearAsks c judged).Holds fun t => t.mem = s.mem := by
  unfold State.hearAsks
  dsimp only
  (repeat' split) <;> simp [Asked.Holds]

@[simp] theorem State.sendAsks_mem (s : State) (c : Ctx) (qs : List Ask) (rs hs : List Reach) :
    (s.sendAsks c qs rs hs).mem = s.mem := by
  simp [State.sendAsks]

theorem State.hearAsks_memWf {s : State} (c : Ctx) (judged : Mask) (hs : Memory.wf s.mem = true) :
    (s.hearAsks c judged).Holds State.MemCanon := by
  have h := s.hearAsks_mem c judged
  cases e : s.hearAsks c judged <;> simp_all [Asked.Holds, State.MemCanon]

theorem State.consult_memWf {s : State} (c : Ctx) (qs : List Ask) (rs hs : List Reach) (judged : Mask)
    (h : Memory.wf s.mem = true) : (s.consult c qs rs hs judged).Holds State.MemCanon := by
  unfold State.consult
  split
  · exact h
  split
  · simpa [Asked.Holds, State.MemCanon] using h
  · exact State.hearAsks_memWf c judged h

theorem State.gate_mem (s : State) (c : Ctx) (as helpers : List (Nat × DWord)) (size : Nat) (p : Purpose)
    (takes : Takes) :
    (s.gate c as helpers size p takes).Holds fun t => t.mem = s.mem := by
  unfold State.gate
  dsimp only
  (repeat' split) <;>
    grind [Gate.Holds, Res.Holds, State.check_mem, Checked.Holds, State.helperReach_mem, State.awaitWalks_mem]

theorem State.gate_memWf {s : State} (c : Ctx) (as helpers : List (Nat × DWord)) (size : Nat) (p : Purpose)
    (takes : Takes)
    (hs : Memory.wf s.mem = true) : (s.gate c as helpers size p takes).Holds State.MemCanon := by
  have h := s.gate_mem c as helpers size p takes
  cases e : s.gate c as helpers size p takes with
  | go rs hs' t => simp_all [Gate.Holds, State.MemCanon]
  | stop r =>
    rw [e] at h
    exact Res.Holds.canon h hs

@[simp] theorem State.writeRun_mem (s : State) (c : Ctx) (d : Reg) (n : Nat) (v : Nat → Nat → Word) :
    (s.writeRun c d n v).mem = s.mem := by
  unfold State.writeRun
  exact foldl_mem (fun s x => by simp) _ _

@[simp] theorem State.readEach_mem (s : State) (l : Launch) (w : Wave) (since n : Nat) (peer : List (Nat × List Byte))
    (xs : List Reach) :
    (s.readEach l w since n peer xs).2.mem = s.mem := by
  induction xs generalizing s with
  | nil => simp [State.readEach]
  | cons x xs ih => simp_all [State.readEach]

@[simp] theorem State.readAll_mem (s : State) (l : Launch) (w : Wave) (since n : Nat) (peer : List (Nat × List Byte))
    (rs : List Reach) :
    (s.readAll l w since n peer rs).2.mem = s.mem := by
  simp [State.readAll]

@[simp] theorem State.zeroLost_mem (s : State) (c : Ctx) (d : Reg) (size : Nat) (hs : List Reach) :
    (s.zeroLost c d size hs).mem = s.mem := rfl

@[simp] theorem State.deferLoad_mem (s : State) (c : Ctx) (d : Reg) (size : Nat) (signed : Bool) (rs hs : List Reach) :
    (s.deferLoad c d size signed rs hs).mem = s.mem := rfl

theorem loadBody_memWf (size : Nat) (signed : Bool) (d : Reg) (off : Int) (c : Ctx) (ops : List (List LaneVec))
    (s : State)
    (hs : Memory.wf s.mem = true) : (loadBody size signed d off c ops s).Holds State.MemCanon := by
  have hg := State.gate_memWf c (addrsOf ops 0 off c.t) (addrsOf ops 0 off c.hl) size .read .copy hs
  unfold loadBody
  split
  · next e => rw [e] at hg; exact hg
  · next rs hs' t e =>
    rw [e, Gate.Holds, State.MemCanon] at hg
    have hc := State.consult_memWf c (readAsks (rs ++ hs') size) rs hs' c.t hg
    split
    · simp_all [Asked.Holds, Res.Holds, State.MemCanon]
    · trivial
    · dsimp only
      split <;> simp_all [Asked.Holds, Res.Holds, State.MemCanon]

@[simp] theorem State.storeAll_memWf (s : State) (key core n : Nat) (data : Nat → Nat) (rs : List Reach) (v : Nat)
    (hs : Memory.wf s.mem = true) : Memory.wf (s.storeAll key core n data rs v).2.mem = true := by
  induction rs generalizing s v with
  | nil => exact hs
  | cons r rs ih =>
    unfold State.storeAll
    split
    · exact ih s v hs
    · exact ih _ _ (by simp [hs])

@[simp] theorem State.supersede_mem (s : State) (key : Nat) (near : List Reach) (n : Nat) :
    (s.supersede key near n).mem = s.mem := by
  unfold State.supersede
  (repeat' split) <;> simp

theorem dqmStore_memWf (c : Ctx) (size : Nat) (data : Nat → Nat) (rs : List Reach) (s : State)
    (hs : Memory.wf s.mem = true) :
    (dqmStore c size data rs s).Holds State.MemCanon := by
  unfold dqmStore
  dsimp only
  (repeat' split) <;> simp [hs, State.MemCanon, Res.Holds]

@[simp] theorem State.deferStore_mem (s : State) (c : Ctx) (id size : Nat) (data : Nat → Nat) (rs : List Reach) :
    (s.deferStore c id size data rs).mem = s.mem := rfl

theorem storeBody_memWf (size : Nat) (off : Int) (c : Ctx) (ops : List (List LaneVec)) (s : State)
    (hs : Memory.wf s.mem = true) : (storeBody size off c ops s).Holds State.MemCanon := by
  have hg := State.gate_memWf c (addrsOf ops 1 off c.t) [] size .write .nothing hs
  unfold storeBody
  split
  · next e => rw [e] at hg; exact hg
  · next rs _ t e =>
    rw [e, Gate.Holds, State.MemCanon] at hg
    have hc := State.consult_memWf c (writeAsks rs size (storeData size ops 0)) rs [] c.t hg
    dsimp only
    split
    · exact dqmStore_memWf c size _ rs t hg
    split
    · simp only [Res.Holds, State.MemCanon]
      split <;> simpa using hg
    · split <;> simp_all [Asked.Holds, Res.Holds, State.MemCanon]

@[simp] theorem State.writePart_mem (s : State) (key : Nat) (a : Access) (p : Part) (v : Nat → Word) :
    (s.writePart key a p v).mem = s.mem := rfl

@[simp] theorem State.stampPart_mem (s : State) (core : Nat) (a : Access) (p : Part) :
    (s.stampPart core a p).mem = s.mem := by
  unfold State.stampPart
  (repeat' split) <;> simp

@[simp] theorem State.returnPart_mem (s : State) (key core : Nat) (a : Access) (p : Part) (ps : List Part) :
    (s.returnPart key core a p ps).mem = s.mem := by
  unfold State.returnPart
  split
  · rfl
  split
  · rfl
  · dsimp only
    rw [foldl_mem fun s q => by simp]
    (repeat' split) <;> simp

@[simp] theorem State.ackPart_memWf (s : State) (key core : Nat) (a : Access) (p : Part) (hs : Memory.wf s.mem = true) :
    Memory.wf (s.ackPart key core a p).mem = true := by
  unfold State.ackPart
  (repeat' split) <;> simp [hs]

@[simp] theorem State.performParts_memWf (s : State) (key core : Nat) (a : Access) (ps : List Part)
    (hs : Memory.wf s.mem = true) : Memory.wf (s.performParts key core a ps).mem = true := by
  unfold State.performParts
  split
  · exact foldl_wf (fun s p h => State.ackPart_memWf s key core a p h) ps hs
  · rw [foldl_mem fun s p => s.returnPart_mem key core a p ps]
    exact hs

@[simp] theorem State.partsDone_mem (s : State) (key id : Nat) (done left : List Part) :
    (s.partsDone key id done left).mem = s.mem := by
  unfold State.partsDone
  (repeat' split) <;> simp

@[simp] theorem State.perform_memWf (s : State) (key id : Nat) (lanes : Mask) (hs : Memory.wf s.mem = true) :
    Memory.wf (s.perform key id lanes).mem = true := by
  unfold State.perform
  (repeat' split) <;> simp [hs]

@[simp] theorem State.drain_memWf (s : State) (key : Nat) (hs : Memory.wf s.mem = true) :
    Memory.wf (s.drain key).mem = true := by
  unfold State.drain
  split
  · exact hs
  · exact foldl_wf (fun s a h => State.perform_memWf s key a.id _ h) _ hs

theorem State.firstHold_mem (s : State) (c : Ctx) (sc : Scope) : ∀ t ∈ (s.firstHold c sc), t.mem = s.mem := by
  unfold State.firstHold
  (repeat' split) <;> simp

@[simp] theorem State.acquire_memWf (s : State) (key : Nat) (sc : Scope) (hs : Memory.wf s.mem = true) :
    Memory.wf (s.acquire key sc).mem = true := by
  unfold State.acquire
  split
  · exact hs
  · have h := foldl_wf (fun s (x : Nat × Nat) h => State.perform_memWf s x.1 x.2 (BitVec.allOnes 64) h)
      (s.published key ‹Wave› sc) hs
    dsimp only
    split <;> exact h

@[simp] theorem State.holdFor_mem (s : State) (c : Ctx) (a : Access) : (s.holdFor c a).mem = s.mem := rfl

@[simp] theorem State.stampAll_mem (s : State) (core k : Nat) (xs : List Reach) :
    (s.stampAll core k xs).mem = s.mem := by
  induction xs generalizing s with
  | nil => simp [State.stampAll]
  | cons x xs ih => simp_all [State.stampAll]

/-! ### Loads, stores and atomics -/

theorem issueLoad_memWf (d a : Reg) (size : Nat) (signed : Bool) (off : Int) (words : Nat) (g : Guard) (u : Bool)
    (s : State)
    (hs : Memory.wf s.mem = true) : nextHolds State.MemCanon (issueLoad d a size signed off words g u s) :=
  issue_memWf _ (fun c ops s h => loadBody_memWf size signed d off c ops s h) hs

theorem issueStore_memWf (d a : Reg) (size : Nat) (off : Int) (words : Nat) (g : Guard) (u : Bool) (s : State)
    (hs : Memory.wf s.mem = true) :
    nextHolds State.MemCanon (issueStore d a size off words g u s) := by
  unfold issueStore
  refine issue_memWf _ (fun c ops s h => ?_) hs
  grind [storeBody_memWf]

@[simp] theorem State.quietLook_mem (s : State) (c : Ctx) (as : List (Nat × DWord)) :
    (s.quietLook c as).2.2.mem = s.mem := by
  simp [State.quietLook]

@[simp] theorem State.prefetchLane_mem (s : State) (c : Ctx) (l1 : Bool) (a : DWord) (x : Xlate) :
    (s.prefetchLane c l1 a x).mem = s.mem := by
  unfold State.prefetchLane
  (repeat' split) <;> simp

theorem issuePrefetch_memWf (a : Reg) (l1 : Bool) (off : Int) (words : Nat) (g : Guard) (u : Bool) (s : State)
    (hs : Memory.wf s.mem = true) : nextHolds State.MemCanon (issuePrefetch a l1 off words g u s) := by
  refine issue_memWf _ (fun c ops s h => ?_) hs
  dsimp only
  split
  · simpa [Res.Holds, State.MemCanon] using h
  · simpa [Res.Holds, State.MemCanon, foldl_mem] using h

@[simp] theorem State.cinvLane_mem (s : State) (c : Ctx) (a : DWord) (x : Xlate) : (s.cinvLane c a x).mem = s.mem := by
  unfold State.cinvLane
  (repeat' split) <;> simp

theorem execCinv_memWf (a : Reg) (g : Guard) (u : Bool) (s : State) (hs : Memory.wf s.mem = true) :
    nextHolds State.MemCanon (execCinv a g u s) := by
  refine issue_memWf _ (fun c ops s h => ?_) hs
  split
  · trivial
  · dsimp only
    split <;> simpa [Res.Holds, State.MemCanon, foldl_mem] using h

theorem execCinvAll_memWf (g : Guard) (u : Bool) (s : State) (hs : Memory.wf s.mem = true) :
    nextHolds State.MemCanon (execCinvAll g u s) := by
  unfold execCinvAll
  refine issue_memWf _ (fun c ops s h => ?_) hs
  simp_all [State.MemCanon, Res.Holds]

@[simp] theorem State.allocateAll_mem (s : State) (core : Nat) (rs : List Reach) :
    (s.allocateAll core rs).mem = s.mem :=
  foldl_mem (fun s r => by (repeat' split) <;> simp) rs s

@[simp] theorem Ctx.acquired_memWf (c : Ctx) (sc : Scope) (s : State) (hs : Memory.wf s.mem = true) :
    Memory.wf (Ctx.acquired c sc s).mem = true := by
  unfold Ctx.acquired
  (repeat' split) <;> simp [hs]

theorem acqBody_memWf (size : Nat) (sc : Scope) (stamped : Bool) (d : Reg) (c : Ctx) (ops : List (List LaneVec))
    (s : State)
    (hs : Memory.wf s.mem = true) : (acqBody size sc stamped d c ops s).Holds State.MemCanon := by
  have hg := State.gate_memWf c (addrsOf ops 0 0 c.t) (addrsOf ops 0 0 c.hl) size .read
    (if stamped && !c.l.dqm then .home else .copy) hs
  unfold acqBody
  split
  · split <;> simp [Res.Holds, State.MemCanon, hs]
  split
  · next e => rw [e] at hg; exact hg
  · next rs hs' t e =>
    rw [e, Gate.Holds, State.MemCanon] at hg
    have hc := State.consult_memWf c (readAsks (rs ++ hs') size) rs hs' c.t hg
    split
    · simpa [Res.Holds, State.MemCanon] using hg
    · split
      · simp_all [Asked.Holds, Res.Holds]
      · trivial
      · dsimp only
        (repeat' split) <;> simp_all [Asked.Holds, Res.Holds, State.MemCanon]

theorem Ctx.secondHold_memWf (c : Ctx) (id : Nat) (sc : Scope)
    (s : State) {after : List (Nat × List Byte) → State → State}
    (ha : ∀ peer t, Memory.wf t.mem = true → Memory.wf (after peer t).mem = true) (hs : Memory.wf s.mem = true) :
    (c.secondHold id sc s after).Holds State.MemCanon := by
  have hh := State.hearAsks_memWf c c.t hs
  unfold Ctx.secondHold
  (repeat' split) <;> simp_all [Asked.Holds, Res.Holds, State.MemCanon]

@[simp] theorem State.startLater_mem (s : State) (c : Ctx) (qs : List Ask) (rs : List Reach) (a : Nat → Access) :
    (s.startLater c qs rs a).mem = s.mem := by
  unfold State.startLater
  (repeat' split) <;> simp

theorem relBody_memWf (size : Nat) (sc : Scope) (stamped : Bool) (c : Ctx) (ops : List (List LaneVec)) (s : State)
    (hs : Memory.wf s.mem = true) : (relBody size sc stamped c ops s).Holds State.MemCanon := by
  have hg := State.gate_memWf c (addrsOf ops 1 0 c.t) [] size .write .nothing hs
  unfold relBody
  split
  · exact c.secondHold_memWf _ sc s (fun peer t h => by split <;> simp [h]) hs
  split
  · split <;> exact hs
  split
  · next e => rw [e] at hg; exact hg
  · next rs _ t e =>
    rw [e, Gate.Holds, State.MemCanon] at hg
    dsimp only
    split
    · exact dqmStore_memWf c size _ rs t hg
    split
    · exact hg
    · next t1 e1 =>
      have h1 : Memory.wf t1.mem = true := (t.firstHold_mem c sc t1 e1).symm ▸ hg
      have hc := State.consult_memWf c (writeAsks rs size (storeData size ops 0)) rs [] c.t h1
      split
      · simpa [Res.Holds, State.MemCanon] using h1
      · split
        · simp_all [Asked.Holds, Res.Holds]
        · trivial
        · (repeat' split) <;> simp_all [Asked.Holds, Res.Holds, State.MemCanon]

theorem issueAcq_memWf (d a : Reg) (size : Nat) (sc : Scope) (stamped : Bool) (g : Guard) (u : Bool) (s : State)
    (hs : Memory.wf s.mem = true) :
    nextHolds State.MemCanon (issueAcq d a size sc stamped g u s) := by
  unfold issueAcq
  refine issue_memWf _ (fun c ops s h => ?_) hs
  grind [acqBody_memWf]

theorem issueRel_memWf (d a : Reg) (size : Nat) (sc : Scope) (stamped : Bool) (g : Guard) (u : Bool) (s : State)
    (hs : Memory.wf s.mem = true) :
    nextHolds State.MemCanon (issueRel d a size sc stamped g u s) := by
  unfold issueRel
  grind [issue_memWf, closing_memWf, relBody_memWf]

@[simp] theorem State.rmwAll_memWf (s : State) (key core : Nat) (op : Rmw) (v : Nat → DWord × DWord) (rs : List Reach)
    (k : Nat)
    (hs : Memory.wf s.mem = true) : Memory.wf (s.rmwAll key core op v rs k).2.2.mem = true := by
  induction rs generalizing s k with
  | nil => exact hs
  | cons r rs ih =>
    unfold State.rmwAll
    split
    · exact ih s k hs
    · exact ih _ _ (by simp [hs])

@[simp] theorem State.ownRmw_memWf (s : State) (key : Nat) (op : Rmw) (v : Nat → DWord × DWord) (rs : List Reach)
    (hs : Memory.wf s.mem = true) : Memory.wf (s.ownRmw key op v rs).2.mem = true := by
  induction rs generalizing s with
  | nil => exact hs
  | cons r rs ih =>
    unfold State.ownRmw
    split
    · exact ih s hs
    · exact ih _ (by split <;> simp [hs])

@[simp] theorem State.writeOld_mem (s : State) (c : Ctx) (op : Rmw) (d : Reg) (xs : List (Nat × Nat)) :
    (s.writeOld c op d xs).mem = s.mem := by
  unfold State.writeOld
  (repeat' split) <;> simp

theorem dqmRmw_memWf (c : Ctx) (op : Rmw) (d : Reg) (v : Nat → DWord × DWord) (rs : List Reach) (s : State)
    (hs : Memory.wf s.mem = true) :
    (dqmRmw c op d v rs s).Holds State.MemCanon := by
  unfold dqmRmw
  dsimp only
  (repeat' split) <;> simp [hs, State.MemCanon, Res.Holds]

theorem rmwBody_memWf (op : Rmw) (sc : Scope) (d : Reg) (c : Ctx) (ops : List (List LaneVec)) (s : State)
    (hs : Memory.wf s.mem = true) : (rmwBody op sc d c ops s).Holds State.MemCanon := by
  have hg :=
      State.gate_memWf c (addrsOf ops 1 0 (if c.w.partDone = 0 then c.t else c.t &&& ~~~c.w.partDone)) [] op.width
    .write .home hs
  unfold rmwBody
  split
  · exact c.secondHold_memWf _ sc s (fun peer t h => by simp [h]) hs
  split
  · split <;> exact hs
  split
  · next e => rw [e] at hg; exact hg
  · next rs _ t e =>
    rw [e, Gate.Holds, State.MemCanon] at hg
    dsimp only
    split
    · exact dqmRmw_memWf c op d _ rs t hg
    split
    · exact hg
    · next t1 e1 =>
      have h1 : Memory.wf t1.mem = true := (t.firstHold_mem c sc t1 e1).symm ▸ hg
      have hc := State.consult_memWf c (rmwAsks op (op.operands ops) rs) rs [] c.t h1
      split
      · simpa [Res.Holds, State.MemCanon] using h1
      · split
        · simp_all [Asked.Holds, Res.Holds]
        · trivial
        · split <;> simp_all [Asked.Holds, Res.Holds, State.MemCanon]

theorem issueRmw_memWf (op : Rmw) (d a : Reg) (sc : Scope) (g : Guard) (u : Bool) (s : State)
    (hs : Memory.wf s.mem = true) :
    nextHolds State.MemCanon (issueRmw op d a sc g u s) := by
  unfold issueRmw
  grind [issue_memWf, closing_memWf, rmwBody_memWf]

theorem execFence_memWf (sc : Scope) (g : Guard) (s : State) (hs : Memory.wf s.mem = true) :
    nextHolds State.MemCanon (execFence sc g s) := by
  refine issue_memWf _ (fun c ops s h => ?_) hs
  split
  · exact h
  split
  · exact h
  · next t e => simp [Res.Holds, State.MemCanon, s.firstHold_mem c sc t e, h]

theorem pollBody_memWf (p : PollCond) (sc : Scope) (d : Reg) (c : Ctx) (ops : List (List LaneVec)) (s : State)
    (hs : Memory.wf s.mem = true) : (pollBody p sc d c ops s).Holds State.MemCanon := by
  have hg := State.gate_memWf c (addrsOf ops 1 0 c.t) (addrsOf ops 1 0 c.hl) 4 .read .copy hs
  unfold pollBody
  split
  · (repeat' split) <;> simp [Res.Holds, State.MemCanon, hs]
  split
  · next e => rw [e] at hg; exact hg
  · next rs hs' t e =>
    rw [e, Gate.Holds, State.MemCanon] at hg
    have hc := State.consult_memWf c (readAsks (rs ++ hs') 4) rs hs' c.t hg
    split
    · simpa [Res.Holds, State.MemCanon] using hg
    · split
      · simp_all [Asked.Holds, Res.Holds]
      · trivial
      · dsimp only
        cases hd : c.l.dqm <;> simp only [Bool.false_eq_true, if_true, if_false] <;> split <;>
          simp_all [Asked.Holds, Res.Holds, State.MemCanon]

theorem execPoll_memWf (p : PollCond) (d a : Reg) (sc : Scope) (g : Guard) (u : Bool) (s : State)
    (hs : Memory.wf s.mem = true) :
    nextHolds State.MemCanon (execPoll p d a sc g u s) := by
  unfold execPoll
  refine issue_memWf _ (fun c ops s h => ?_) hs
  grind [pollBody_memWf]

/-! ### Barriers and queues -/

@[simp] theorem State.send_mem (s : State) (kind dst : BitVec 16) (tag : Word) (payload : List Byte) :
    (s.send kind dst tag payload).mem = s.mem := (rfl)

@[simp] theorem State.passBar_memWf (s : State) (k : Blocked) (key : Nat) (hs : Memory.wf s.mem = true) :
    Memory.wf (s.passBar k key).mem = true := by
  unfold State.passBar
  (repeat' split) <;> simp [hs]

@[simp] theorem State.releaseBar_memWf (s : State) (k : Blocked) (bs : List Nat) (hs : Memory.wf s.mem = true) :
    Memory.wf (s.releaseBar k bs).mem = true := by
  unfold State.releaseBar
  rw [foldl_mem State.snapshot_mem]
  exact foldl_wf (fun s e h => State.passBar_memWf s k e.1 h) _ hs

@[simp] theorem State.domRelease_memWf (s : State) (m : BarMsg) (hs : Memory.wf s.mem = true) :
    Memory.wf (s.domRelease m).mem = true := by
  unfold State.domRelease
  split
  · exact hs
  · dsimp only
    split
    · exact State.releaseBar_memWf _ _ _ hs
    · rw [foldl_mem fun s e => by simp]
      exact hs

@[simp] theorem State.domCount_memWf (s : State) (group : Byte) (tag gen : Word) (hs : Memory.wf s.mem = true) :
    Memory.wf (s.domCount group tag gen).mem = true := by
  unfold State.domCount
  split
  · exact hs
  · dsimp only
    split
    · exact State.domRelease_memWf _ _ (by rw [foldl_mem fun s d => by simp]; exact hs)
    · exact hs

@[simp] theorem State.domSweep_mem (s : State) (group : Byte) (tag : Word) : (s.domSweep group tag).mem = s.mem := by
  unfold State.domSweep
  dsimp only
  (repeat' split) <;> simp

@[simp] theorem State.domArrive_memWf (s : State) (l : Launch) (gen : Word) (hs : Memory.wf s.mem = true) :
    Memory.wf (s.domArrive l gen).mem = true := by
  unfold State.domArrive
  (repeat' split) <;> simp [hs]

@[simp] theorem State.domTry_memWf (s : State) (launch : Nat) (hs : Memory.wf s.mem = true) :
    Memory.wf (s.domTry launch).mem = true := by
  unfold State.domTry
  (repeat' split) <;> simp [hs]

@[simp] theorem State.tryBar_memWf (s : State) (k : Blocked) (key : Nat) (hs : Memory.wf s.mem = true) :
    Memory.wf (s.tryBar k key).mem = true := by
  unfold State.tryBar
  (repeat' split) <;> simp [hs]

theorem issueBar_memWf (k : Blocked) (allowed : Launch → Bool) (g : Guard) (s : State) (hs : Memory.wf s.mem = true) :
    nextHolds State.MemCanon (issueBar k allowed g s) := by
  refine closing_memWf g false (issue_memWf _ (fun c ops s h => ?_) hs)
  split
  · trivial
  split
  · trivial
  split
  · exact h
  · next t e =>
    have ht : Memory.wf t.mem = true := by
      cases hd : c.l.dqm <;> simp only [hd, Bool.false_eq_true, if_true, if_false] at e
      · exact (s.firstHold_mem c _ t e).symm ▸ h
      · exact Option.some.inj e ▸ h
    dsimp only
    split
    · exact ht
    split
    · cases hd : c.l.dqm <;> simp [Res.Holds, State.MemCanon, ht]
    split
    · (repeat' split) <;> simp [Res.Holds, State.MemCanon, ht]
    · exact ht

theorem execBarB_memWf (g : Guard) (s : State) (hs : Memory.wf s.mem = true) :
    nextHolds State.MemCanon (execBarB g s) := by
  unfold execBarB
  apply issueBar_memWf
  assumption

theorem execBarC_memWf (g : Guard) (s : State) (hs : Memory.wf s.mem = true) :
    nextHolds State.MemCanon (execBarC g s) := by
  unfold execBarC
  apply issueBar_memWf
  assumption

theorem execBarDev_memWf (g : Guard) (s : State) (hs : Memory.wf s.mem = true) :
    nextHolds State.MemCanon (execBarDev g s) := by
  unfold execBarDev
  apply issueBar_memWf
  assumption

theorem execBarDom_memWf (g : Guard) (s : State) (hs : Memory.wf s.mem = true) :
    nextHolds State.MemCanon (execBarDom g s) := by
  unfold execBarDom
  apply issueBar_memWf
  assumption

@[simp] theorem State.afterExit_memWf (s : State) (b : Nat) (hs : Memory.wf s.mem = true) :
    Memory.wf (s.afterExit b).mem = true := by
  unfold State.afterExit
  grind [State.tryBar_memWf]

theorem execExit_memWf (g : Guard) (s : State) (hs : Memory.wf s.mem = true) :
    nextHolds State.MemCanon (execExit g s) := by
  unfold execExit
  refine issue_memWf _ (fun c ops s h => ?_) hs
  dsimp only
  (repeat' split) <;> simp_all [State.MemCanon, Res.Holds]

theorem execTktTake_memWf (g : Guard) (s : State) (hs : Memory.wf s.mem = true) :
    nextHolds State.MemCanon (execTktTake g s) := by
  refine closing_memWf g true (issue_memWf _ (fun c ops s h => ?_) hs)
  (repeat' split) <;> exact h

theorem execTktWait_memWf (d : Reg) (g : Guard) (s : State) (hs : Memory.wf s.mem = true) :
    nextHolds State.MemCanon (execTktWait d g s) := by
  unfold execTktWait
  refine issue_memWf _ (fun c ops s h => ?_) hs
  (repeat' split) <;> simp_all [State.MemCanon, Res.Holds]

theorem execQcfg_memWf (a : Reg) (g : Guard) (s : State) (hs : Memory.wf s.mem = true) :
    nextHolds State.MemCanon (execQcfg a g s) := by
  unfold execQcfg
  refine issue_memWf _ (fun c ops s h => ?_) hs
  dsimp only
  (repeat' split) <;> simp_all [State.MemCanon, Res.Holds]

/-! ### Copy jobs -/

@[simp] theorem State.modJob_mem (s : State) (core id : Nat) (f : Job → Job) : (s.modJob core id f).mem = s.mem := rfl

@[simp] theorem State.dropJob_mem (s : State) (core id : Nat) : (s.dropJob core id).mem = s.mem := rfl

@[simp] theorem State.addJob_mem (s : State) (c : Ctx) (kind : JobKind) (desc : List Word)
    (reads writes : List (Nat × Nat)) :
    (s.addJob c kind desc reads writes).Holds fun t => t.mem = s.mem := by
  unfold State.addJob
  (repeat' split) <;> simp [Res.Holds]

theorem issueCopy_memWf (kind : JobKind) (a : Reg) (g : Guard) (s : State) (hs : Memory.wf s.mem = true) :
    nextHolds State.MemCanon (issueCopy kind a g s) := by
  refine issue_memWf _ (fun c ops s h => ?_) hs
  dsimp only
  split
  · trivial
  · exact (s.addJob_mem c kind _ _ _).canon h

theorem execBatch_memWf (d : Reg) (g : Guard) (s : State) (hs : Memory.wf s.mem = true) :
    nextHolds State.MemCanon (execBatch d g s) := by
  unfold execBatch
  refine issue_memWf _ (fun c ops s h => ?_) hs
  (repeat' split) <;> simp_all [State.MemCanon, Res.Holds]

@[simp] theorem State.raiseDeferred_mem (s : State) (key : Nat) (d : Deferred) (mask : Mask) :
    (s.raiseDeferred key d mask).mem = s.mem := by
  unfold State.raiseDeferred
  dsimp only
  (repeat' split) <;> simp

theorem execWaitB_memWf (a : Reg) (g : Guard) (s : State) (hs : Memory.wf s.mem = true) :
    nextHolds State.MemCanon (execWaitB a g s) := by
  unfold execWaitB
  refine issue_memWf _ (fun c ops s h => ?_) hs
  dsimp only
  (repeat' split) <;> simp_all [State.MemCanon, Res.Holds]

theorem execWaitC_memWf (l st : BitVec 5) (t : BitVec 4) (g : Guard) (s : State) (hs : Memory.wf s.mem = true) :
    nextHolds State.MemCanon (execWaitC l st t g s) := by
  unfold execWaitC
  refine issue_memWf _ (fun c ops s h => ?_) hs
  dsimp only
  (repeat' split) <;> simp_all [State.MemCanon, Res.Holds]

theorem State.jobTargets_mem (s : State) (core id : Nat) (c : Ctx) (p : Purpose) (as : List DWord) :
    (s.jobTargets core id c p as).Holds fun t => t.mem = s.mem := by
  induction as generalizing s with
  | nil => rfl
  | cons a as ih =>
    have hc := State.check_mem { s with later := false } c [(0, a)] 4 p (if p == .read then .home else .nothing)
    unfold State.jobTargets
    split
    · next r t e =>
      have ih' := ih { t with later := s.later }
      rw [e] at hc
      split
      · next e' => rw [e'] at ih'; exact ih'.trans hc
      · next e' => rw [e'] at ih'; exact ih'.trans hc
      · trivial
      · trivial
    · next e => rw [e] at hc; exact hc
    · trivial
    · trivial
    · rfl

@[simp] theorem State.forget_mem (s : State) (tags : List Nat) : (s.forget tags).mem = s.mem := rfl

@[simp] theorem State.jobRead_mem (s : State) (core : Nat) (j : Job) (c : Ctx) (as : List DWord) :
    (s.jobRead core j c as).Holds fun t => t.mem = s.mem := by
  unfold State.jobRead
  (repeat' split) <;> grind [State.askAll_mem, State.modJob_mem, State.jobTargets_mem, State.forget_mem, Moved.Holds]

@[simp] theorem State.noteWrites_mem (s : State) (l : Loc) (n v : Nat) : (s.noteWrites l n v).mem = s.mem := by
  unfold State.noteWrites
  (repeat' split) <;> simp [foldl_mem]

@[simp] theorem State.noteUnripeAt_mem (s : State) (l : Loc) (n v : Nat) : (s.noteUnripeAt l n v).mem = s.mem := by
  unfold State.noteUnripeAt
  (repeat' split) <;> simp

@[simp] theorem State.jobPut_memWf (s : State) (core id : Nat) (ps : List (Loc × List Byte))
    (hs : Memory.wf s.mem = true) :
    Memory.wf (s.jobPut core id ps).mem = true := by
  induction ps generalizing s with
  | nil => exact hs
  | cons p ps ih => exact ih _ (by simp [hs])

theorem State.jobWrite_memWf (s : State) (core : Nat) (j : Job) (c : Ctx) (as : List DWord) (bs : List Byte)
    (hs : Memory.wf s.mem = true) :
    (s.jobWrite core j c as bs).Holds State.MemCanon := by
  unfold State.jobWrite
  (repeat' split) <;> grind [State.askAll_mem, State.modJob_mem, State.jobTargets_mem, State.jobPut_memWf,
      Moved.Holds, State.MemCanon]

@[simp] theorem State.gatherIndex_mem (s : State) (core : Nat) (c : Ctx) (j : Job) :
    (s.gatherIndex core c j).Holds fun t => t.mem = s.mem := by
  unfold State.gatherIndex
  grind [State.jobTargets_mem, Moved.Holds]

theorem State.copyUnit_memWf (s : State) (core : Nat) (j : Job) (c : Ctx) (hs : Memory.wf s.mem = true) :
    (s.copyUnit core j c).Holds State.MemCanon := by
  unfold State.copyUnit
  (repeat' split) <;> grind [State.jobTargets_mem, State.jobRead_mem, State.jobWrite_memWf, State.gatherIndex_mem,
      Moved.Holds, State.MemCanon]

/-! ### Collectives -/

@[simp] theorem State.numberColl_mem (s : State) (tag : Word) (group : Nat) :
    (s.numberColl tag group).2.mem = s.mem := rfl

theorem execColl_memWf (k : CollKind) (a : Reg) (g : Guard) (s : State) (hs : Memory.wf s.mem = true) :
    nextHolds State.MemCanon (execColl k a g s) := by
  refine closing_memWf g true (issue_memWf _ (fun c ops s h => ?_) hs)
  dsimp only
  split
  · trivial
  split
  · trivial
  · have ha (desc : List Word) (rd wr : List (Nat × Nat)) := (s.addJob_mem c (.coll k) desc rd wr).canon h
    split
    · next x t e =>
      have ht : (Res.done x t).Holds State.MemCanon := e ▸ ha _ _ _
      split
      · exact ht
      · exact ht
    · exact ha _ _ _

@[simp] theorem State.sendPart_mem (s : State) (l : Launch) (j : Job) (k : CollKind) (dev : Nat) (x : Nat × List Byte) :
    (s.sendPart l j k dev x).mem = s.mem := rfl

@[simp] theorem State.sendColl_mem (s : State) (l : Launch) (j : Job) (k : CollKind) (dev : Nat) (bs : List Byte) :
    (s.sendColl l j k dev bs).mem = s.mem := by
  unfold State.sendColl
  exact foldl_mem (fun s x => by simp) _ _

@[simp] theorem State.announce_mem (s : State) (l : Launch) (j : Job) (k : CollKind) (g : Group) :
    (s.announce l j k g).mem = s.mem := by
  unfold State.announce
  exact foldl_mem (fun s x => by simp) _ _

@[simp] theorem State.failJob_mem (s : State) (core : Nat) (j : Job) (cause : Nat) (addr : DWord) :
    (s.failJob core j cause addr).mem = s.mem := by
  simp [State.failJob]

@[simp] theorem State.takeSegment_mem (s : State) (m : CollMsg) : (s.takeSegment m).mem = s.mem := by
  unfold State.takeSegment
  (repeat' split) <;> simp

theorem execCollectiveData_memWf (msg : CollMsg) (s : State) (hs : Memory.wf s.mem = true) :
    nextHolds State.MemCanon (execCollectiveData msg s) :=
  State.hear_memWf msg.src true hs (by rw [State.takeSegment_mem]; exact hs)

@[simp] theorem State.takeEarly_mem (s : State) : s.takeEarly.mem = s.mem := by
  unfold State.takeEarly
  exact foldl_mem (fun s x => by simp) _ _

theorem State.contribute_mem (s : State) (core : Nat) (j : Job) (c : Ctx) (k : CollKind) (g : Group) :
    (s.contribute core j c k g).Holds fun t => t.mem = s.mem := by
  have hr := s.jobRead_mem core j c
    (wordAddrs (descSrc j.desc) (collSizes k (dw j.desc 4) g.list.length (g.rankOf ownDev) (dw j.desc 6)).1)
  unfold State.contribute
  dsimp only
  split
  · next e => rw [e] at hr; exact hr
  · trivial
  · trivial
  · next bs t e =>
    rw [e, Moved.Holds] at hr
    split <;> simp [Moved.Holds, foldl_mem, hr]

theorem State.collect_memWf (s : State) (core : Nat) (j : Job) (c : Ctx) (k : CollKind) (g : Group)
    (hs : Memory.wf s.mem = true) :
    (s.collect core j c k g).Holds State.MemCanon := by
  unfold State.collect
  (repeat' split) <;> grind [State.jobWrite_memWf, Moved.Holds, State.MemCanon]

theorem State.moveUnit_memWf (s : State) (core : Nat) (j : Job) (hs : Memory.wf s.mem = true) :
    (s.moveUnit core j).Holds State.MemCanon := by
  unfold State.moveUnit
  split
  · exact hs
  · next c _ =>
    dsimp only
    split
    · exact hs
    split
    · next k _ =>
      split
      · trivial
      · next g _ =>
        split
        · exact (s.contribute_mem core j c k g).canon hs
        · exact s.collect_memWf core j c k g hs
    · exact s.copyUnit_memWf core j c hs

@[simp] theorem State.pauseJob_mem (s : State) (core : Nat) (j : Job) (addr : DWord) :
    (s.pauseJob core j addr).mem = s.mem := by
  unfold State.pauseJob
  dsimp only
  (repeat' split) <;> simp

@[simp] theorem State.moveUnits_memWf (n : Nat) (s : State) (core id : Nat) (hs : Memory.wf s.mem = true) :
    Memory.wf (State.moveUnits n s core id).1.mem = true := by
  induction n generalizing s with
  | zero => exact hs
  | succ n ih =>
    unfold State.moveUnits
    split
    · exact hs
    · next j _ =>
      have hm := s.moveUnit_memWf core j hs
      split
      · exact hs
      split
      · next e => rw [e] at hm; exact hm
      · simp [hs]
      · simp [hs]
      · next t e => rw [e] at hm; exact ih _ hm

@[simp] theorem State.finishJob_mem (s : State) (core id : Nat) : (s.finishJob core id).mem = s.mem := by
  unfold State.finishJob
  (repeat' split) <;> simp

@[simp] theorem State.runJob_memWf (s : State) (core id : Nat) (hs : Memory.wf s.mem = true) :
    Memory.wf (s.runJob core id).mem = true := by
  unfold State.runJob
  (repeat' split) <;> simp [hs]

theorem execCopyJobStart_memWf (s : State) (hs : Memory.wf s.mem = true) :
    nextHolds State.MemCanon (execCopyJobStart s) := by
  unfold execCopyJobStart
  simp_all [State.MemCanon, nextHolds]

theorem execCopyJobFault_memWf (s : State) (hs : Memory.wf s.mem = true) :
    nextHolds State.MemCanon (execCopyJobFault s) := by
  unfold execCopyJobFault
  dsimp only
  (repeat' split) <;> simp_all [State.MemCanon, nextHolds]

theorem execCopyJobCompletion_memWf (s : State) (hs : Memory.wf s.mem = true) :
    nextHolds State.MemCanon (execCopyJobCompletion s) := by
  unfold execCopyJobCompletion
  simp_all [State.MemCanon, nextHolds]

/-! ### Matrix and unit words -/

@[simp] theorem State.runsLatent_mem (s : State) (c : Ctx) (rs : List RunRead) : (s.runsLatent c rs).mem = s.mem :=
  foldl_mem (fun s x => by dsimp only; split <;> simp) _ s

theorem State.runStop_memWf {s : State} {c : Ctx} {reads : List RunRead} {writes : List RegRun}
    (hs : Memory.wf s.mem = true) :
    ∀ r ∈ s.runStop c reads writes, r.Holds State.MemCanon := by
  unfold State.runStop
  (repeat' split) <;> simp [Res.Holds, State.MemCanon, hs]

@[simp] theorem State.addOp_mem (s : State) (c : Ctx) (o : TileOp) : (s.addOp c o).Holds fun t => t.mem = s.mem := rfl

@[simp] theorem State.rnsFault_mem (s : State) (core : Nat) : (s.rnsFault core).Holds fun t => t.mem = s.mem := by
  simp [State.rnsFault, Res.Holds]

@[simp] theorem State.countStall_mem (s : State) (c : Ctx) : (s.countStall c).mem = s.mem := by
  unfold State.countStall
  (repeat' split) <;> simp

@[simp] theorem State.countIssue_mem (s : State) (core : Nat) : (s.countIssue core).mem = s.mem := (rfl)

theorem Res.Holds.counted {r : Res} (cores : List Nat) (h : r.Holds State.MemCanon) :
    (r.counted cores).Holds State.MemCanon := by
  cases r <;> simp_all [Res.counted, Res.Holds, State.MemCanon, foldl_mem]

@[simp] theorem State.gather_mem (s : State) (c : Ctx) (gran : Nat) (rs : List Reach) (got : List RemoteReq) :
    (s.gather c gran rs got).2.mem = s.mem := by
  induction rs generalizing s got with
  | nil => rfl
  | cons r rs ih =>
    unfold State.gather
    split
    · exact ih s _
    · exact (ih _ got).trans (by simp)

@[simp] theorem State.fetchRuns_mem (s : State) (c : Ctx) (gran : Nat) (tags : List Nat) (rows : List (DWord × Nat)) :
    (s.fetchRuns c gran tags rows).Holds fun t => t.mem = s.mem := by
  unfold State.fetchRuns
  (repeat' split) <;> grind [State.check_mem, State.askAll_mem, State.forget_mem, State.gather_mem, Checked.Holds,
      Fetched.Holds]

@[simp] theorem State.recordHeld_mem (s : State) (o : TileOp) (addr : DWord) : (s.recordHeld o addr).mem = s.mem := by
  unfold State.recordHeld
  (repeat' split) <;> simp

@[simp] theorem State.deferTile_mem (s : State) (o : TileOp) (cause : Nat) (addr : DWord) (detail : Word) :
    (s.deferTile o cause addr detail).mem = s.mem := by
  unfold State.deferTile
  (repeat' split) <;> simp

theorem State.addLoading_mem (s : State) (c : Ctx) (o : TileOp) : (s.addLoading c o).Holds fun t => t.mem = s.mem := by
  have hf := s.fetchRuns_mem c o.gran [] o.rows
  unfold State.addLoading
  extract_lets as
  split
  · split <;> rfl
  split
  · rfl
  split
  · split <;> rfl
  split
  · exact s.addOp_mem c o
  split
  · next t e => rw [e] at hf; exact Res.Holds.imp (t.addOp_mem c _) fun _ h => h.trans hf
  · next t e => rw [e] at hf; exact Res.Holds.imp (t.addOp_mem c _) fun _ h => h.trans hf
  · next t e => rw [e] at hf; exact Res.Holds.imp (t.addOp_mem c _) fun _ h => h.trans hf
  · next t e => rw [e] at hf; exact Res.Holds.imp (t.addOp_mem c _) fun _ h => h.trans hf
  · exact Res.Holds.imp (State.addOp_mem _ c _) fun _ h => h.trans (by simp)
  · simp [Res.Holds]

theorem issueMma_memWf (t : MmaType) (pair : Bool) (d a : Reg) (g : Guard) (s : State) (hs : Memory.wf s.mem = true) :
    nextHolds State.MemCanon (issueMma t pair d a g s) := by
  refine issue_memWf _ (fun c ops s h => ?_) hs
  extract_lets desc x chunks cores bruns aruns per here there fol us reads o
  split
  · trivial
  split
  · trivial
  split
  · exact (s.rnsFault_mem _).canon h
  split
  · trivial
  split
  · trivial
  split
  · split <;> exact h
  split
  · trivial
  split
  · next r e => exact State.runStop_memWf h r e
  split
  · exact h
  split
  · simpa [Res.Holds, State.MemCanon] using h
  · have hl : Memory.wf (s.runsLatent c reads).mem = true := by rw [State.runsLatent_mem]; exact h
    refine Res.Holds.counted _ ?_
    split
    · exact (State.addOp_mem _ c _).canon hl
    · exact (State.addLoading_mem _ c _).canon hl

theorem execTld_memWf (a : Reg) (g : Guard) (s : State) (hs : Memory.wf s.mem = true) :
    nextHolds State.MemCanon (execTld a g s) := by
  refine issue_memWf _ (fun c ops s h => ?_) hs
  extract_lets desc x us
  split
  · trivial
  split
  · exact (s.rnsFault_mem _).canon h
  split
  · trivial
  split
  · exact h
  · exact (s.addLoading_mem c _).canon h

theorem execTst_memWf (a : Reg) (g : Guard) (s : State) (hs : Memory.wf s.mem = true) :
    nextHolds State.MemCanon (execTst a g s) := by
  refine issue_memWf _ (fun c ops s h => ?_) hs
  extract_lets desc x us as src o t
  split
  · trivial
  split
  · exact (s.rnsFault_mem _).canon h
  split
  · trivial
  split
  · trivial
  split
  · exact h
  split
  · split <;> exact h
  split
  · exact h
  split
  · split <;> exact h
  · exact (t.addOp_mem c o).canon (by unfold t; split <;> exact h)

theorem issueUnits_memWf (a : Reg) (g : Guard) (runs : UnitWord → Ctx → List RegRun × List RegRun)
    (okWord : UnitWord → Bool)
    (rns : UnitWord → Bool) (need : Option Nat) (mk : Ctx → State → UnitWord → TileOp → TileOp) (s : State)
    (hs : Memory.wf s.mem = true) : nextHolds State.MemCanon (issueUnits a g runs okWord rns need mk s) := by
  refine issue_memWf _ (fun c ops s h => ?_) hs
  extract_lets u us rw
  split
  · trivial
  split
  · trivial
  split
  · exact (s.rnsFault_mem _).canon h
  refine iteInduction (fun _ => trivial) fun _ => ?_
  split
  · trivial
  split
  · next r e => exact State.runStop_memWf h r e
  split
  · exact h
  · exact (s.addOp_mem c _).canon h

theorem execAccZero_memWf (a : Reg) (g : Guard) (s : State) (hs : Memory.wf s.mem = true) :
    nextHolds State.MemCanon (execAccZero a g s) := by
  unfold execAccZero
  apply issueUnits_memWf
  assumption

theorem execAccRd_memWf (d a : Reg) (g : Guard) (s : State) (hs : Memory.wf s.mem = true) :
    nextHolds State.MemCanon (execAccRd d a g s) := by
  unfold execAccRd
  apply issueUnits_memWf
  assumption

theorem execAccWr_memWf (d a : Reg) (g : Guard) (s : State) (hs : Memory.wf s.mem = true) :
    nextHolds State.MemCanon (execAccWr d a g s) := by
  unfold execAccWr
  apply issueUnits_memWf
  assumption

theorem execAccChkTile_memWf (a : Reg) (g : Guard) (s : State) (hs : Memory.wf s.mem = true) :
    nextHolds State.MemCanon (execAccChkTile a g s) := by
  unfold execAccChkTile
  apply issueUnits_memWf
  assumption

theorem execRnsr_memWf (d a : Reg) (g : Guard) (s : State) (hs : Memory.wf s.mem = true) :
    nextHolds State.MemCanon (execRnsr d a g s) := by
  unfold execRnsr
  apply issueUnits_memWf
  assumption

@[simp] theorem State.writeResidues_mem (s : State) (c : Ctx) (d : Reg) (xs : Nat → List Int) :
    (s.writeResidues c d xs).mem = s.mem :=
  foldl_mem (fun s p => State.modWave_mem s c.key _) (List.range 8) s

theorem issueRnsf_memWf (n : Nat) (xs : List Word → List Int) (d a : Reg) (g : Guard) (s : State)
    (hs : Memory.wf s.mem = true) : nextHolds State.MemCanon (issueRnsf n xs d a g s) := by
  refine issue_memWf _ (fun c ops s h => ?_) hs
  extract_lets dests srcs
  split
  · trivial
  split
  · trivial
  split
  · exact (s.rnsFault_mem _).canon h
  split
  · next r e => exact State.runStop_memWf h r e
  · simpa only [Res.Holds, State.MemCanon, State.writeResidues_mem, State.runsLatent_mem] using h

theorem execRnsChk_memWf (d a : Reg) (g : Guard) (s : State) (hs : Memory.wf s.mem = true) :
    nextHolds State.MemCanon (execRnsChk d a g s) := by
  refine issue_memWf _ (fun c ops s h => ?_) hs
  split
  · trivial
  split
  · trivial
  split
  · exact (s.rnsFault_mem _).canon h
  split
  · next r e => exact State.runStop_memWf h r e
  split
  · exact h
  · exact (s.addOp_mem c _).canon h

/-! ### Tenures -/

@[simp] theorem State.pruneFreed_mem (s : State) : s.pruneFreed.mem = s.mem := rfl

@[simp] theorem State.noteFreed_mem (s : State) (launch core im : Nat) : (s.noteFreed launch core im).mem = s.mem := rfl

@[simp] theorem State.noteImFreed_mem (s : State) (launch im : Nat) : (s.noteImFreed launch im).mem = s.mem := rfl

@[simp] theorem State.enterTenure_mem (s : State) (core : Nat) (t : Tenure) : (s.enterTenure core t).mem = s.mem := rfl

@[simp] theorem State.strikeTenure_mem (s : State) (core entry : Nat) : (s.strikeTenure core entry).mem = s.mem := rfl

@[simp] theorem State.modTenure_mem (s : State) (core entry : Nat) (f : Tenure → Tenure) :
    (s.modTenure core entry f).mem = s.mem := rfl

@[simp] theorem State.freeTenure_mem (s : State) (core entry : Nat) : (s.freeTenure core entry).mem = s.mem := by
  unfold State.freeTenure
  (repeat' split) <;> simp

@[simp] theorem State.strikeHandle_mem (s : State) (launch : Nat) (h : Word) :
    (s.strikeHandle launch h).mem = s.mem := by
  unfold State.strikeHandle
  (repeat' split) <;> simp

theorem State.spill_memWf (s : State) (core entry : Nat) (forOwn : Bool) (hs : Memory.wf s.mem = true) :
    ∀ t ∈ s.spill core entry forOwn, Memory.wf t.mem = true := by
  -- The search for room is made opaque first: the kernel would run it.
  obtain ⟨fit, hfit⟩ : ∃ fit, s.poolFit = fit := ⟨_, rfl⟩
  unfold State.spill
  rw [hfit]
  clear hfit
  (repeat' split) <;> simp [Memory.wf_putAll, hs]

@[simp] theorem State.unspill_mem (s : State) (core imCore : Nat) (p : Spilled) (base im : Nat) :
    (s.unspill core imCore p base im).2.mem = s.mem := rfl

@[simp] theorem State.bring_mem (s : State) (c : Ctx) (n : Named) : (s.bring c n).Holds fun t => t.mem = s.mem := by
  unfold State.bring
  (repeat' split) <;> simp [Brought.Holds]

@[simp] theorem State.rowFaultAt_mem (s : State) (c : Ctx) (h : Word) (row : Nat) :
    (s.rowFaultAt c h row).Holds fun t => t.mem = s.mem := by
  simp [State.rowFaultAt, Res.Holds]

theorem State.withTenure_memWf {s : State} (c : Ctx) (h : Word) (budget : Bool) {k : Nat → Tenure → State → Res}
    (hs : Memory.wf s.mem = true) (hk : ∀ e t u, Memory.wf u.mem = true → (k e t u).Holds State.MemCanon) :
    (s.withTenure c h budget k).Holds State.MemCanon := by
  have hb := s.bring_mem c (s.named c.b.launch h)
  unfold State.withTenure
  dsimp only
  split
  · exact hs
  split
  · simpa [Res.Holds, State.MemCanon] using hs
  split
  · exact hs
  · split <;> exact hs
  · exact hs
  · next e t u eq =>
    rw [eq, Brought.Holds] at hb
    exact (hk e t u (by rw [hb]; exact hs)).counted _

@[simp] theorem State.countPin_mem (s : State) (c : Ctx) : (s.countPin c).mem = s.mem := by
  unfold State.countPin
  (repeat' split) <;> simp

@[simp] theorem State.grantPin_mem (s : State) (c : Ctx) (d : Nat) (shape : BitVec 4) (base im : Nat) :
    (s.grantPin c d shape base im).Holds fun t => t.mem = s.mem := by
  unfold State.grantPin
  grind [State.addOp_mem, State.enterTenure_mem, State.countPin_mem]

theorem execPin_memWf (d a : Reg) (g : Guard) (s : State) (hs : Memory.wf s.mem = true) :
    nextHolds State.MemCanon (execPin d a g s) := by
  refine closing_memWf g true (issue_memWf _ (fun c ops s h => ?_) hs)
  dsimp only
  split
  · trivial
  split
  · trivial
  split
  · trivial
  split
  · next r e => exact State.runStop_memWf h r e
  split
  · exact h
  split
  · exact (s.grantPin_mem c _ _ _ _).canon h
  · exact h
  · split <;> exact h

theorem execUnpin_memWf (d a : Reg) (g : Guard) (s : State) (hs : Memory.wf s.mem = true) :
    nextHolds State.MemCanon (execUnpin d a g s) := by
  refine closing_memWf g true (issue_memWf _ (fun c ops s h => ?_) hs)
  extract_lets h' addr n dump size
  clear_value n
  split
  · trivial
  split
  · trivial
  split
  · trivial
  split
  · trivial
  split
  · trivial
  split
  · split <;> exact h
  split
  · exact h
  · refine State.withTenure_memWf c h' false h fun e t u hu => ?_
    split
    · exact (State.addOp_mem _ c _).canon (by split <;> exact hu)
    split
    · exact (u.rowFaultAt_mem c h' 0).canon hu
    split
    · exact (u.rowFaultAt_mem c h' _).canon hu
    · exact (State.addOp_mem _ c _).canon (by split <;> exact hu)

theorem execFwupd_memWf (d a : Reg) (g : Guard) (s : State) (hs : Memory.wf s.mem = true) :
    nextHolds State.MemCanon (execFwupd d a g s) := by
  refine closing_memWf g true (issue_memWf _ (fun c ops s h => ?_) hs)
  extract_lets h' n kk vv runs
  clear_value n
  split
  · trivial
  split
  · trivial
  split
  · trivial
  split
  · trivial
  split
  · next r e => exact State.runStop_memWf h r e
  · refine State.withTenure_memWf c h' true h fun e t u hu => ?_
    split
    · exact (u.rowFaultAt_mem c h' 0).canon hu
    · exact (u.addOp_mem c _).canon hu

theorem execFwrd_memWf (d a : Reg) (g : Guard) (s : State) (hs : Memory.wf s.mem = true) :
    nextHolds State.MemCanon (execFwrd d a g s) := by
  refine issue_memWf _ (fun c ops s h => ?_) hs
  extract_lets h' n kk vv reads writes
  clear_value n
  split
  · trivial
  split
  · trivial
  split
  · trivial
  split
  · trivial
  split
  · next r e => exact State.runStop_memWf h r e
  · refine State.withTenure_memWf c h' true h fun e t u hu => ?_
    split
    · exact (u.rowFaultAt_mem c h' 0).canon hu
    split
    · exact (u.rowFaultAt_mem c h' _).canon hu
    · exact (u.addOp_mem c _).canon hu

theorem execAccChkTen_memWf (a : Reg) (g : Guard) (s : State) (hs : Memory.wf s.mem = true) :
    nextHolds State.MemCanon (execAccChkTen a g s) := by
  refine issue_memWf _ (fun c ops s h => ?_) hs
  extract_lets h' n
  clear_value n
  split
  · trivial
  split
  · trivial
  split
  · trivial
  · refine State.withTenure_memWf c h' false h fun e t u hu => ?_
    split
    · exact (u.rowFaultAt_mem c h' 0).canon hu
    · exact (u.addOp_mem c _).canon hu

/-! ### Retirement of matrix operations -/

@[simp] theorem State.modOp_mem (s : State) (core id : Nat) (f : TileOp → TileOp) :
    (s.modOp core id f).mem = s.mem := rfl

@[simp] theorem State.endOp_mem (s : State) (core : Nat) (o : TileOp) (fl : Flags) :
    (s.endOp core o fl).mem = s.mem := by
  unfold State.endOp
  (repeat' split) <;> simp

@[simp] theorem State.failOp_mem (s : State) (core : Nat) (o : TileOp) (cause : Nat) (addr : DWord) (detail : Word) :
    (s.failOp core o cause addr detail).mem = s.mem := by
  simp [State.failOp]

@[simp] theorem State.replayOrFail_mem (s : State) (core : Nat) (o : TileOp) (addr : DWord) (detail : Word) :
    (s.replayOrFail core o addr detail).mem = s.mem := by
  unfold State.replayOrFail
  (repeat' split) <;> simp

@[simp] theorem State.resealSound_mem (s : State) (us : List (Nat × Nat)) : (s.resealSound us).mem = s.mem := by
  unfold State.resealSound
  exact foldl_mem (fun s x => by simp) _ _

@[simp] theorem State.resealAll_mem (s : State) (us : List (Nat × Nat)) : (s.resealAll us).mem = s.mem := by
  unfold State.resealAll
  exact foldl_mem (fun s x => by simp) _ _

@[simp] theorem State.settleUnits_memWf (s t : State) (core : Nat) (o : TileOp) (fl : Flags)
    (hs : Memory.wf s.mem = true) (ht : Memory.wf t.mem = true) :
    Memory.wf (State.settleUnits s t core o fl).mem = true := by
  unfold State.settleUnits
  (repeat' split) <;> simp [hs, ht]

@[simp] theorem State.applyMma_mem (s : State) (core : Nat) (o : TileOp) (t : MmaType) (coff cpitch n k : Nat) :
    (s.applyMma core o t coff cpitch n k).1.mem = s.mem := by
  unfold State.applyMma
  dsimp only
  (repeat' split) <;> simp

@[simp] theorem State.writeDest_mem (s : State) (o : TileOp) (lanes : Mask) (v : Nat → Nat → Word) :
    (s.writeDest o lanes v).mem = s.mem := rfl

@[simp] theorem State.opShare_mem (s : State) (o : TileOp) (f : List Buffered → List Buffered) :
    (s.opShare o f).mem = s.mem := by
  unfold State.opShare
  (repeat' split) <;> simp

theorem State.storeRun_memWf (s : State) (c : Ctx) (o : TileOp) (a : DWord) (bs : List Byte)
    (hs : Memory.wf s.mem = true) :
    (s.storeRun c o a bs).Holds State.MemCanon := by
  have hc := State.check_mem { s with later := false } c ((runAddrs o.gran (a, bs.length)).map fun x => (0,
      x)) o.gran .write
    .nothing
  unfold State.storeRun
  dsimp only
  split
  · trivial
  · trivial
  · exact hs
  · next ks t e =>
    rw [e, Checked.Holds] at hc
    simp [Moved.Holds, State.MemCanon, hc, hs]
  · exact hs
  · next rs t e =>
    rw [e, Checked.Holds] at hc
    have ht : Memory.wf t.mem = true := by rw [hc]; exact hs
    split
    · simp [Moved.Holds, State.MemCanon, ht]
    · refine foldl_wf (fun u p hu => ?_) _ (s := { t with later := s.later }) ht
      split
      · simpa using hu
      · exact u.storeAll_memWf _ _ _ _ _ _ hu

@[simp] theorem State.storesAcked_mem (s : State) (core : Nat) (o : TileOp) :
    (s.storesAcked core o).Holds fun t => t.mem = s.mem := by
  unfold State.storesAcked
  (repeat' split) <;> simp [Stored.Holds]

theorem State.storeOut_memWf (core : Nat) (o : TileOp) (xs : List (DWord × List Byte)) (s : State)
    (hs : Memory.wf s.mem = true) : (State.storeOut core o xs s).Holds State.MemCanon := by
  induction xs generalizing s with
  | nil =>
    have h := (s.modOp core o.id fun o => { o with out := some [] }).storesAcked_mem core o
    unfold State.storeOut
    cases e : (s.modOp core o.id fun o => { o with out := some [] }).storesAcked core o <;>
      simp_all [Stored.Holds, State.MemCanon]
  | cons x xs ih =>
    unfold State.storeOut
    split
    · exact hs
    · next c _ =>
      have hr := s.storeRun_memWf c o x.1 x.2 hs
      split
      · next t e => rw [e] at hr; exact ih t hr
      · next t e => rw [e, Moved.Holds, State.MemCanon] at hr; simpa [Stored.Holds, State.MemCanon] using hr
      · simpa [Stored.Holds, State.MemCanon] using hs
      · simpa [Stored.Holds, State.MemCanon] using hs

@[simp] theorem State.chkUnits_mem (s : State) (core : Nat) (o : TileOp) (xs : List (Nat × Nat)) :
    (s.chkUnits core o xs).mem = s.mem := by
  induction xs generalizing s with
  | nil => simp [State.chkUnits]
  | cons x xs ih => 
    unfold State.chkUnits
    (repeat' split) <;> simp_all

@[simp] theorem State.retireRnsr_mem (s : State) (core : Nat) (o : TileOp) (b : Block) :
    (s.retireRnsr core o b).mem = s.mem := by
  unfold State.retireRnsr
  dsimp only
  (repeat' split) <;> simp

@[simp] theorem State.opTenure_mem (s : State) (core : Nat) (o : TileOp) (c : Ctx) :
    (s.opTenure core o c).Holds fun t => t.mem = s.mem := by
  unfold State.opTenure
  (repeat' split) <;> grind [State.bring_mem, Brought.Holds, OpTenure.Holds]

theorem State.onTenure_memWf (s : State) (core : Nat) (o : TileOp) (c : Ctx) (k : Nat → Nat → Tenure → State → State)
    (hs : Memory.wf s.mem = true) (hk : ∀ n i t u, Memory.wf u.mem = true → Memory.wf (k n i t u).mem = true) :
    Memory.wf (s.onTenure core o c k).mem = true := by
  have h := s.opTenure_mem core o c
  unfold State.onTenure
  split
  · exact hs
  · rw [State.failOp_mem]; exact hs
  · next n i t u e =>
    rw [e, OpTenure.Holds] at h
    have hu : Memory.wf u.mem = true := by rw [h]; exact hs
    split
    · rw [State.failOp_mem]; exact hu
    · exact hk n i t u hu

theorem State.putStores_memWf (s : State) (core : Nat) (o : TileOp)
    (xs : List (DWord × List Byte)) {done : State → State}
    (hs : Memory.wf s.mem = true) (hd : ∀ u, Memory.wf u.mem = true → Memory.wf (done u).mem = true) :
    Memory.wf (s.putStores core o xs done).mem = true := by
  have h := State.storeOut_memWf core o xs s hs
  unfold State.putStores
  split
  · next t e => rw [e] at h; exact hd t h
  · next t e => rw [e] at h; exact h
  · next t e => rw [e] at h; exact h

@[simp] theorem State.unpinned_mem (s : State) (core : Nat) (o : TileOp) (c : Ctx) :
    (s.unpinned core o c).mem = s.mem := by
  unfold State.unpinned
  (repeat' split) <;> grind [State.modTenure_mem, State.freeTenure_mem, State.endOp_mem, State.failOp_mem,
      State.opShare_mem, State.opTenure_mem, OpTenure.Holds]

@[simp] theorem State.retireKind_memWf (s : State) (core : Nat) (o : TileOp) (c : Ctx) (hs : Memory.wf s.mem = true) :
    Memory.wf (s.retireKind core o c).mem = true := by
  unfold State.retireKind
  split
  case h_8 | h_11 | h_12 =>
    refine s.onTenure_memWf core o c _ hs fun n i t u hu => ?_
    dsimp only
    (try split) <;> simpa using hu
  case h_3 =>
    split
    · exact s.putStores_memWf core o _ hs fun u hu => by simpa using hu
    split
    · simpa using hs
    · exact State.putStores_memWf _ core o _ (by simpa using hs) fun u hu => by simpa using hu
  case h_10 =>
    split
    · simpa using hs
    split
    · exact s.putStores_memWf core o _ hs fun u hu => by simpa using hu
    · refine s.onTenure_memWf core o c _ hs fun n i t u hu => ?_
      split
      · simpa using hu
      · exact State.putStores_memWf _ core o _ (by simpa using hu) fun u hu => by simpa using hu
  all_goals
    (try split) <;> simp [hs]

@[simp] theorem State.retireOp_memWf (s : State) (core id : Nat) (hs : Memory.wf s.mem = true) :
    Memory.wf (s.retireOp core id).mem = true := by
  unfold State.retireOp
  (repeat' split) <;> grind [State.fetchRuns_mem, State.recordHeld_mem, State.modOp_mem, State.failOp_mem,
      State.retireKind_memWf, Fetched.Holds]

@[simp] theorem State.tryRetire_memWf (s : State) (core id : Nat) (hs : Memory.wf s.mem = true) :
    Memory.wf (s.tryRetire core id).mem = true := by
  unfold State.tryRetire
  (repeat' split) <;> simp [hs]

theorem execMatrixOperationRetirement_memWf (s : State) (hs : Memory.wf s.mem = true) :
    nextHolds State.MemCanon (execMatrixOperationRetirement s) := by
  unfold execMatrixOperationRetirement
  simp_all [State.MemCanon, nextHolds]

@[simp] theorem State.finishTenure_memWf (s : State) (launch : Nat) (h : Word) (hs : Memory.wf s.mem = true) :
    Memory.wf (s.finishTenure launch h).mem = true := by
  unfold State.finishTenure
  exact foldl_wf (fun s x h => by simp [h]) _ hs

theorem execPairOperationFollowerStart_memWf (s : State) (hs : Memory.wf s.mem = true) :
    nextHolds State.MemCanon (execPairOperationFollowerStart s) := by
  unfold execPairOperationFollowerStart
  (repeat' split) <;> simp_all [State.MemCanon, nextHolds]

theorem execPinAllocation_memWf (s : State) (hs : Memory.wf s.mem = true) :
    nextHolds State.MemCanon (execPinAllocation s) := by
  unfold execPinAllocation
  split
  · exact hs
  split
  · exact hs
  split
  · exact hs
  split
  · exact State.settle_memWf _ _ _ _ (by simpa using hs) trivial
  · next c _ _ _ _ shape base im _ _ =>
    rw [nextHolds, State.MemCanon, State.snapshot_mem]
    exact State.settle_memWf _ _ _ _ hs ((s.grantPin_mem _ _ _ _ _).canon hs)

theorem execGovernorWindow_memWf (s : State) (hs : Memory.wf s.mem = true) :
    nextHolds State.MemCanon (execGovernorWindow s) := by
  unfold execGovernorWindow
  simp_all [State.MemCanon, nextHolds]

theorem execRnsfailWrite_memWf (core : Nat) (bits : BitVec 8) (s : State) (hs : Memory.wf s.mem = true) :
    nextHolds State.MemCanon (execRnsfailWrite core bits s) := by
  unfold execRnsfailWrite
  (repeat' split) <;> simp_all [State.MemCanon, nextHolds]

theorem execRnsfailEffect_memWf (s : State) (hs : Memory.wf s.mem = true) :
    nextHolds State.MemCanon (execRnsfailEffect s) := by
  unfold execRnsfailEffect
  (repeat' split) <;> simp_all [State.MemCanon, nextHolds]

/-! ### Words of a standing program -/

theorem execRset_memWf (a : Reg) (g : Guard) (s : State) (hs : Memory.wf s.mem = true) :
    nextHolds State.MemCanon (execRset a g s) := by
  unfold execRset
  refine issue_memWf _ (fun c ops s h => ?_) hs
  (repeat' split) <;> simp_all [State.MemCanon, Res.Holds]

theorem execRpost_memWf (a : Reg) (g : Guard) (s : State) (hs : Memory.wf s.mem = true) :
    nextHolds State.MemCanon (execRpost a g s) := by
  unfold execRpost
  refine issue_memWf _ (fun c ops s h => ?_) hs
  (repeat' split) <;> simp_all [State.MemCanon, Res.Holds]

theorem execRget_memWf (d a : Reg) (g : Guard) (s : State) (hs : Memory.wf s.mem = true) :
    nextHolds State.MemCanon (execRget d a g s) := by
  unfold execRget
  refine issue_memWf _ (fun c ops s h => ?_) hs
  simp_all [State.MemCanon, Res.Holds]

theorem execQend_memWf (g : Guard) (s : State) (hs : Memory.wf s.mem = true) :
    nextHolds State.MemCanon (execQend g s) := by
  unfold execQend
  refine issue_memWf _ (fun c ops s h => ?_) hs
  simp_all [State.MemCanon, Res.Holds]

/-! ### Arrivals -/

theorem execLoadDataReturn_memWf (s : State) (hs : Memory.wf s.mem = true) :
    nextHolds State.MemCanon (execLoadDataReturn s) := by
  unfold execLoadDataReturn
  (repeat' split) <;> simp_all [State.MemCanon, nextHolds]

theorem execStoreAcknowledgement_memWf (s : State) (hs : Memory.wf s.mem = true) :
    nextHolds State.MemCanon (execStoreAcknowledgement s) := by
  unfold execStoreAcknowledgement
  (repeat' split) <;> simp_all [State.MemCanon, nextHolds]

theorem execL1LeaseEnd_memWf (s : State) (hs : Memory.wf s.mem = true) :
    nextHolds State.MemCanon (execL1LeaseEnd s) := by
  unfold execL1LeaseEnd
  (repeat' split) <;> simp_all [State.MemCanon, nextHolds]

@[simp] theorem State.wake_mem (s : State) (key : Nat) (out : Option Nat) : (s.wake key out).mem = s.mem := rfl

theorem execPageWalk_memWf (s : State) (hs : Memory.wf s.mem = true) : nextHolds State.MemCanon (execPageWalk s) := by
  unfold execPageWalk
  simp only [nextHolds, State.MemCanon]
  split
  · exact hs
  · split
    · simpa using hs
    · simpa using hs
    · simpa [foldl_mem] using hs

theorem execBackoffExpiry_memWf (s : State) (hs : Memory.wf s.mem = true) :
    nextHolds State.MemCanon (execBackoffExpiry s) := by
  unfold execBackoffExpiry
  (repeat' split) <;> simp_all [State.MemCanon, nextHolds]

theorem execStarvation_memWf (s : State) (hs : Memory.wf s.mem = true) :
    nextHolds State.MemCanon (execStarvation s) := by
  unfold execStarvation
  (repeat' split) <;> simp_all [State.MemCanon, nextHolds]

theorem execTimerTrap_memWf (s : State) (hs : Memory.wf s.mem = true) : nextHolds State.MemCanon (execTimerTrap s) := by
  unfold execTimerTrap
  (repeat' split) <;> simp_all [State.MemCanon, nextHolds]

@[simp] theorem State.lateError_mem (s : State) (key acc lane : Nat) (addr : DWord) :
    (s.lateError key acc lane addr).mem = s.mem := by
  unfold State.lateError
  (repeat' split) <;> simp

@[simp] theorem State.lateAnswer_mem (s : State) (tag : Nat) : (s.lateAnswer tag).mem = s.mem := by
  unfold State.lateAnswer
  (repeat' split) <;> simp

@[simp] theorem State.lateChecks_mem (s : State) (key : Nat) : (s.lateChecks key).mem = s.mem := by
  unfold State.lateChecks
  (repeat' split) <;> simp [foldl_mem]

@[simp] theorem State.answer_mem (s : State) (tag : Nat) (status : Byte) (data : List Byte) :
    (s.answer tag status data).mem = s.mem := by
  unfold State.answer
  (repeat' split) <;> simp

@[simp] theorem State.hear_mem (s : State) (src : BitVec 16)
    (agree : Bool) {f : State → State} (hf : (f s).mem = s.mem) :
    (s.hear src agree f).mem = s.mem := by
  unfold State.hear
  (repeat' split) <;> simp [hf]

@[simp] theorem State.hearAnswer_mem (s : State) (tag : Nat) (status : Byte) (data : List Byte) (agree : Bool) :
    (s.hearAnswer tag status data agree).mem = s.mem := s.hear_mem _ agree (s.answer_mem tag status data)

theorem execReadResponse_memWf (tag : BitVec 32) (status : BitVec 8) (data : List Byte) (s : State)
    (hs : Memory.wf s.mem = true) :
    nextHolds State.MemCanon (execReadResponse tag status data s) := by
  unfold execReadResponse
  simp_all [State.MemCanon, nextHolds]

theorem execWriteResponse_memWf (tag : BitVec 32) (status : BitVec 8) (s : State) (hs : Memory.wf s.mem = true) :
    nextHolds State.MemCanon (execWriteResponse tag status s) := by
  unfold execWriteResponse
  simp_all [State.MemCanon, nextHolds]

theorem execAtomicResponse_memWf (tag : BitVec 32) (status : BitVec 8) (old : List Byte) (s : State)
    (hs : Memory.wf s.mem = true) :
    nextHolds State.MemCanon (execAtomicResponse tag status old s) := by
  unfold execAtomicResponse
  simp_all [State.MemCanon, nextHolds]

theorem execRemoteRequestTimeout_memWf (s : State) (hs : Memory.wf s.mem = true) :
    nextHolds State.MemCanon (execRemoteRequestTimeout s) := by
  unfold execRemoteRequestTimeout
  (repeat' split) <;> simp_all [State.MemCanon, nextHolds]

@[simp] theorem State.reply_mem (s : State) (kind src : BitVec 16) (tag : Word) (pa : Nat) (status : Byte)
    (data : List Byte) :
    (s.reply kind src tag pa status data).mem = s.mem := rfl

@[simp] theorem State.replyWrite_mem (s : State) (x : Option WriteReply) : (s.replyWrite x).mem = s.mem := by
  unfold State.replyWrite
  (repeat' split) <;> simp

theorem execReservedMessage_memWf (s : State) (hs : Memory.wf s.mem = true) :
    nextHolds State.MemCanon (execReservedMessage s) := by
  unfold execReservedMessage
  simp_all [State.MemCanon, nextHolds]

theorem execPortDown_memWf (s : State) (hs : Memory.wf s.mem = true) : nextHolds State.MemCanon (execPortDown s) := by
  unfold execPortDown
  (repeat' split) <;> simp_all [State.MemCanon, nextHolds]

theorem execBarrierArrive_memWf (src : BitVec 16) (msg : BarMsg) (s : State) (hs : Memory.wf s.mem = true) :
    nextHolds State.MemCanon (execBarrierArrive src msg s) := by
  refine State.hear_memWf src true hs ?_
  dsimp only
  split
  · exact State.domCount_memWf _ _ _ _ hs
  · rw [State.domSweep_mem]
    exact foldl_wf (fun t g h => t.domCount_memWf _ _ g h) _ hs

theorem execBarrierRelease_memWf (msg : BarMsg) (s : State) (hs : Memory.wf s.mem = true) :
    nextHolds State.MemCanon (execBarrierRelease msg s) :=
  State.hear_memWf _ true hs (s.domRelease_memWf msg hs)

/-! ### Traps -/

@[simp] theorem State.drainTiles_memWf (s : State) (b : Nat) (hs : Memory.wf s.mem = true) :
    Memory.wf (s.drainTiles b).mem = true := by
  unfold State.drainTiles
  exact foldl_wf (fun s x h => by simp [h]) _ hs

@[simp] theorem State.restoreOps_mem (s : State) (b : Nat) : (s.restoreOps b).mem = s.mem := rfl

@[simp] theorem State.performIssued_memWf (s : State) (b : Nat) (hs : Memory.wf s.mem = true) :
    Memory.wf (s.performIssued b).mem = true := by
  unfold State.performIssued
  rw [State.restoreOps_mem]
  exact State.drainTiles_memWf _ b (foldl_wf (fun s e h => by simp [h]) _ hs)

@[simp] theorem State.finishHalt_memWf (s : State) (b : Nat) (hs : Memory.wf s.mem = true) :
    Memory.wf (s.finishHalt b).mem = true := by
  unfold State.finishHalt
  dsimp only
  (repeat' split) <;> simp [hs]

theorem execBlockHalt_memWf (s : State) (hs : Memory.wf s.mem = true) : nextHolds State.MemCanon (execBlockHalt s) := by
  unfold execBlockHalt
  simp_all [State.MemCanon, nextHolds]

@[simp] theorem State.postRecord_memWf (s : State) (r : TrapRec) (again : Bool) (hs : Memory.wf s.mem = true) :
    Memory.wf (s.postRecord r again).mem = true := by
  unfold State.postRecord
  (repeat' split) <;> grind [State.modCtl_mem, State.poke_memWf]

theorem execTrapRecordPosting_memWf (s : State) (hs : Memory.wf s.mem = true) :
    nextHolds State.MemCanon (execTrapRecordPosting s) := by
  unfold execTrapRecordPosting
  (repeat' split) <;> simp_all [State.MemCanon, nextHolds]

theorem execRepost_memWf (s : State) (hs : Memory.wf s.mem = true) : nextHolds State.MemCanon (execRepost s) := by
  unfold execRepost
  (repeat' split) <;> simp_all [State.MemCanon, nextHolds]

@[simp] theorem State.dropLost_mem (s : State) (b : Nat) : (s.dropLost b).mem = s.mem := rfl

@[simp] theorem State.rollBack_mem (s : State) (b : Nat) : (s.rollBack b).mem = s.mem := by
  unfold State.rollBack
  (repeat' split) <;> simp

theorem execRollback_memWf (s : State) (hs : Memory.wf s.mem = true) : nextHolds State.MemCanon (execRollback s) := by
  unfold execRollback
  split
  · exact hs
  split
  · exact hs
  · extract_lets t u
    have hu : Memory.wf u.mem = true :=
      foldl_wf (fun s j h => s.runJob_memWf _ _ h) _ (foldl_wf (fun s e h => s.drain_memWf e.1 h) _ hs)
    split
    · rw [nextHolds, State.MemCanon, State.rollBack_mem]
      exact hu
    · exact hu

@[simp] theorem State.peResult_mem (s : State) (res : Byte) : (s.peResult res).mem = s.mem := rfl

@[simp] theorem State.peWait_mem (s : State) (j : PeOp) : (s.peWait j).mem = s.mem := rfl

theorem State.peRun_memWf (s : State) (op : Nat)
    (core : BitVec 8) {f : PeOp → State → State} (hs : Memory.wf s.mem = true)
    (hf : ∀ j t, Memory.wf t.mem = true → Memory.wf (f j t).mem = true) : Memory.wf (s.peRun op core f).mem = true := by
  unfold State.peRun
  (repeat' split) <;> simp [hs, hf]

@[simp] theorem State.resumeBlock_memWf (s : State) (b : Nat) (hs : Memory.wf s.mem = true) :
    Memory.wf (s.resumeBlock b).mem = true := by
  unfold State.resumeBlock
  split
  · exact hs
  · exact State.afterExit_memWf _ b ((congrArg Memory.wf (s.dropLost_mem b)).trans hs)

theorem execResume_memWf (s : State) (hs : Memory.wf s.mem = true) : nextHolds State.MemCanon (execResume s) := by
  refine s.peRun_memWf 3 0 hs fun j t h => ?_
  dsimp only
  (repeat' split) <;> simp [h]

@[simp] theorem State.discardBlock_memWf (s : State) (b : Nat) (hs : Memory.wf s.mem = true) :
    Memory.wf (s.discardBlock b).mem = true := by
  unfold State.discardBlock
  (repeat' split) <;> simp [hs]

theorem execDiscard_memWf (s : State) (hs : Memory.wf s.mem = true) : nextHolds State.MemCanon (execDiscard s) := by
  refine s.peRun_memWf 4 0 hs fun j t h => ?_
  dsimp only
  (repeat' split) <;> simp [h]

@[simp] theorem State.haltAtExit_mem (s : State) (b : Nat) (key : Nat) (d : Deferred) :
    (s.haltAtExit b key d).mem = s.mem := by
  unfold State.haltAtExit
  dsimp only
  (repeat' split) <;> simp

/-! ### Placement of launches -/

@[simp] theorem State.putWaves_mem (s : State) (l : Launch) (block core i : Nat)
    (xs : List ((Nat × Nat) × (Nat × Nat))) :
    (s.putWaves l block core i xs).mem = s.mem := by
  induction xs generalizing s i with
  | nil => rfl
  | cons x xs ih => exact ih _ (i + 1)

theorem State.sysWrite_memWf (s : State) (asid root va : Nat) (bs : List Byte) (hs : Memory.wf s.mem = true) :
    ∀ t ∈ (s.sysWrite asid root va bs), Memory.wf t.mem = true := by
  unfold State.sysWrite
  (repeat' split) <;> grind [State.poke_memWf, State.noteWrite_mem]

theorem State.sysStore_memWf (s : State) (asid root fuel va : Nat) (bs : List Byte) (hs : Memory.wf s.mem = true) :
    ∀ t ∈ s.sysStore asid root fuel va bs, Memory.wf t.mem = true := by
  induction fuel generalizing s va bs with
  | zero =>
    intro t ht
    exact Option.some.inj ht ▸ hs
  | succ n ih =>
    unfold State.sysStore
    split
    · intro t ht
      exact Option.some.inj ht ▸ hs
    · dsimp only
      split
      · simp
      · next u e => exact ih u _ _ (s.sysWrite_memWf asid root va _ hs u e)

@[simp] theorem State.logEntry_memWf (s : State) (launch : Nat) (l : Launch) (rank core sect start : Nat)
    (hs : Memory.wf s.mem = true) :
    Memory.wf (s.logEntry launch l rank core sect start).mem = true := by
  unfold State.logEntry
  (repeat' split) <;> grind [State.modLaunch_mem, State.sysStore_memWf]

@[simp] theorem State.startBlock_memWf (s : State) (launch rank core : Nat) (p im : Spot)
    (hs : Memory.wf s.mem = true) :
    Memory.wf (s.startBlock launch rank core p im).mem = true := by
  unfold State.startBlock
  dsimp only
  (repeat' split) <;> simp [hs]

@[simp] theorem State.endDrain_mem (s : State) (launch : Nat) : (s.endDrain launch).mem = s.mem := rfl

@[simp] theorem State.adopt_memWf (s : State) (launch : Nat) (l : Launch) (x : Placing) (hs : Memory.wf s.mem = true) :
    Memory.wf (s.adopt launch l x).mem = true := by
  unfold State.adopt
  (repeat' split) <;> first | exact foldl_wf (fun s x h => by simp [h]) _ hs | simp [hs]

@[simp] theorem State.placeAtLaunch_memWf (s : State) (launch : Nat) (hs : Memory.wf s.mem = true) :
    Memory.wf (s.placeAtLaunch launch).mem = true := by
  unfold State.placeAtLaunch
  (repeat' split) <;> simp [hs]

@[simp] theorem State.realise_memWf (s : State) (launch : Nat) (hs : Memory.wf s.mem = true) :
    Memory.wf (s.realise launch).mem = true := by
  unfold State.realise
  split
  · exact hs
  dsimp only
  split
  · exact hs
  · rw [State.modLaunch_mem]
    exact foldl_wf (fun u x h => by split <;> simp [h]) _ hs

@[simp] theorem State.tryOpen_mem (s : State) (launch : Nat) : (s.tryOpen launch).mem = s.mem := by
  unfold State.tryOpen
  dsimp only
  (repeat' split) <;> simp

@[simp] theorem State.refillAll_memWf (launch n : Nat) (s : State) (hs : Memory.wf s.mem = true) :
    Memory.wf (State.refillAll launch n s).mem = true := by
  induction n generalizing s with
  | zero => exact hs
  | succ n ih =>
    unfold State.refillAll
    split
    · exact hs
    split
    · exact hs
    · exact ih _ (by simp [hs])

@[simp] theorem State.noteWaits_mem (s : State) : s.noteWaits.mem = s.mem := rfl

theorem execDrain_memWf (s : State) (hs : Memory.wf s.mem = true) : nextHolds State.MemCanon (execDrain s) := by
  unfold execDrain
  (repeat' split) <;> simp_all [State.MemCanon, nextHolds]

theorem State.relaxOne_memWf (s : State) (launch p : Nat) (l : Launch) (hs : Memory.wf s.mem = true) :
    ∀ t ∈ s.relaxOne launch p l, Memory.wf t.mem = true := by
  unfold State.relaxOne
  split
  · simp
  · intro t ht
    obtain ⟨y, -, rfl⟩ := Option.map_eq_some_iff.mp ht
    simp [hs]

theorem State.placeOne_memWf (s : State) (launch : Nat) (l : Launch) (hs : Memory.wf s.mem = true) :
    ∀ t ∈ s.placeOne launch l, Memory.wf t.mem = true := by
  unfold State.placeOne
  split
  · dsimp only
    split
    · simp
    · simp [hs]
  split
  · exact s.relaxOne_memWf launch _ l hs
  split
  · split
    · simp
    · intro t ht
      obtain ⟨y, -, rfl⟩ := Option.map_eq_some_iff.mp ht
      simp [hs]
  split
  · split
    · simp
    · intro t ht
      obtain ⟨y, -, rfl⟩ := Option.map_eq_some_iff.mp ht
      simp [hs]
  split
  · intro t ht
    obtain ⟨y, -, rfl⟩ := Option.map_eq_some_iff.mp ht
    simp [hs]
  · simp [hs]

theorem execClusterPlacement_memWf (s : State) (hs : Memory.wf s.mem = true) :
    nextHolds State.MemCanon (execClusterPlacement s) := by
  unfold execClusterPlacement
  (repeat' split) <;> grind [State.noteWaits_mem, State.placeOne_memWf, nextHolds, State.MemCanon]

@[simp] theorem State.retireBlock_mem (s : State) (b : Nat) : (s.retireBlock b).mem = s.mem := by
  unfold State.retireBlock
  (repeat' split) <;> simp

theorem execBlockRetirement_memWf (s : State) (hs : Memory.wf s.mem = true) :
    nextHolds State.MemCanon (execBlockRetirement s) := by
  unfold execBlockRetirement
  (repeat' split) <;> simp_all [State.MemCanon, nextHolds]

@[simp] theorem State.complete_mem (s : State) (ep : BitVec 16) (tag : Word) (status kindStatus slot : Nat)
    (outcome : Byte) (block : Word) (bounds : Nat) :
    (s.complete ep tag status kindStatus slot outcome block bounds).mem = s.mem := rfl

@[simp] theorem State.dropLaunch_mem (s : State) (launch : Nat) (l : Launch) : (s.dropLaunch launch l).mem = s.mem := by
  unfold State.dropLaunch
  exact foldl_mem (fun s x => by simp) _ _

theorem execRunCompletion_memWf (s : State) (hs : Memory.wf s.mem = true) :
    nextHolds State.MemCanon (execRunCompletion s) := by
  unfold execRunCompletion
  (repeat' split) <;> simp_all [State.MemCanon, nextHolds]

/-! ### Boundaries and spills -/

theorem State.commitAsk_mem (s : State) (key : Nat) (e : Buffered) : ∀ x ∈ s.commitAsk key e, x.2.mem = s.mem := by
  unfold State.commitAsk
  (repeat' split) <;> simp

@[simp] theorem State.commitOld_mem (s : State) (key : Nat) (dest : List Nat) (lanes : Mask) (old : Nat) :
    (s.commitOld key dest lanes old).mem = s.mem := rfl

@[simp] theorem State.dropCode_mem (s : State) (a n : Nat) : (s.dropCode a n).mem = s.mem := rfl

@[simp] theorem State.dropLoc_mem (s : State) (l : Loc) (n : Nat) : (s.dropLoc l n).mem = s.mem := by
  unfold State.dropLoc
  (repeat' split) <;> simp

@[simp] theorem State.commitFails_mem (s : State) (launch key lane : Nat) (addr : DWord) :
    (s.commitFails launch key lane addr).mem = s.mem := by
  simp [State.commitFails]

@[simp] theorem State.commitBy_mem (s : State) (launch v : Nat) : (s.commitBy launch v).mem = s.mem := rfl

@[simp] theorem State.commitHere_memWf (s : State) (launch key core : Nat) (x : Buffered)
    (hs : Memory.wf s.mem = true) :
    Memory.wf (s.commitHere launch key core x).mem = true := by
  unfold State.commitHere
  (repeat' split) <;> simp [hs]

@[simp] theorem State.commitAnswer_mem (s : State) (launch key : Nat) (r : RemoteReq) (x : Buffered) :
    (s.commitAnswer launch key r x).mem = s.mem := by
  unfold State.commitAnswer
  (repeat' split) <;> simp

@[simp] theorem State.commitOn_memWf (launch : Nat) (es : List (Nat × Nat × Buffered)) (s : State)
    (hs : Memory.wf s.mem = true) : Memory.wf (State.commitOn launch es s).1.mem = true := by
  induction es generalizing s with
  | nil => exact hs
  | cons e es ih =>
    unfold State.commitOn
    dsimp only
    split
    · split
      · exact ih _ hs
      split
      · exact hs
      · exact ih _ (by simp [hs])
    · refine iteInduction (motive := fun y : State × Bool => Memory.wf y.1.mem = true) (fun _ => ih _ hs) fun _ => ?_
      split
      · next x eq =>
        rw [State.modLaunch_mem, s.commitAsk_mem _ _ x eq]
        exact hs
      · exact ih _ (by simp [hs])

@[simp] theorem State.commit_memWf (s : State) (launch : Nat) (l : Launch) (hs : Memory.wf s.mem = true) :
    Memory.wf (s.commit launch l).mem = true := by
  unfold State.commit
  dsimp only
  (repeat' split) <;> simp [hs]

@[simp] theorem State.enterJob_mem (s : State) (core : Nat) (j : Job) (tag : Word) :
    (s.enterJob core j tag).mem = s.mem := by
  unfold State.enterJob
  (repeat' split) <;> simp

@[simp] theorem State.runJobs_memWf (tag : Word) (xs : List (Nat × Nat)) (s : State) (hs : Memory.wf s.mem = true) :
    Memory.wf (State.runJobs tag xs s).1.mem = true := by
  induction xs generalizing s with
  | nil => exact hs
  | cons x xs ih =>
    unfold State.runJobs
    split
    · exact ih s hs
    · dsimp only
      split
      · exact ih _ (by simp [hs])
      · simp [hs]

@[simp] theorem State.boundaryBar_memWf (s : State) (k : Blocked) (key : Nat) (hs : Memory.wf s.mem = true) :
    Memory.wf (s.boundaryBar k key).mem = true := by
  unfold State.boundaryBar
  (repeat' split) <;> simp [hs]

@[simp] theorem State.boundaryTicket_memWf (s : State) (key : Nat) (hs : Memory.wf s.mem = true) :
    Memory.wf (s.boundaryTicket key).mem = true := by
  unfold State.boundaryTicket
  split
  · exact hs
  · next c _ =>
    split
    · dsimp only
      split
      · exact s.settle_memWf c 1 _ hs (by simpa [Res.Holds, State.MemCanon] using hs)
      · split
        · exact State.settle_memWf _ c 1 _ (by simpa using hs) (by simpa [Res.Holds, State.MemCanon] using hs)
        · exact hs
    · exact hs

@[simp] theorem State.boundaryWaits_memWf (s : State) (launch : Nat) (hs : Memory.wf s.mem = true) :
    Memory.wf (s.boundaryWaits launch).mem = true :=
  foldl_wf (fun s k h => s.boundaryTicket_memWf k h) _
    (foldl_wf (fun s k h => s.boundaryBar_memWf .barDev k h) _
      (foldl_wf (fun s k h => s.boundaryBar_memWf .barC k h) _ hs))

@[simp] theorem State.killFailing_mem (launch : Nat) (tag : Word) (n : Nat) (s : State) :
    (State.killFailing launch tag n s).mem = s.mem := by
  induction n generalizing s with
  | zero => rfl
  | succ n ih =>
    unfold State.killFailing
    split
    · rfl
    · exact ih _

@[simp] theorem State.killDoomed_mem (s : State) (launch : Nat) : (s.killDoomed launch).mem = s.mem := by
  unfold State.killDoomed
  exact foldl_mem (fun s x => by simp) _ _

@[simp] theorem State.close_memWf (s : State) (launch : Nat) (hs : Memory.wf s.mem = true) :
    Memory.wf (s.close launch).mem = true := by
  have hd : Memory.wf (((s.wavesIn launch).map (·.1)).foldl State.drain s).mem = true :=
    foldl_wf (fun s k h => s.drain_memWf k h) _ hs
  unfold State.close
  dsimp only
  split
  · exact hd
  split
  · exact hd
  · simpa using hd

@[simp] theorem State.boundaryFront_memWf (s : State) (launch : Nat) (hs : Memory.wf s.mem = true) :
    Memory.wf (s.boundaryFront launch).1.mem = true := by
  unfold State.boundaryFront
  (repeat' split) <;> grind [State.commit_memWf, State.runJobs_memWf, State.boundaryWaits_memWf, State.close_memWf]

@[simp] theorem State.freeImagined_mem (s : State) (launch : Nat) (h : Word) :
    (s.freeImagined launch h).mem = s.mem := rfl

@[simp] theorem State.spillRounds_memWf (core : Nat) (own : Option Nat) (ws : List (Nat × Nat × BitVec 4)) (n : Nat)
    (s : State)
    (hs : Memory.wf s.mem = true) : Memory.wf (State.spillRounds core own ws n s).mem = true := by
  induction n generalizing s with
  | zero => exact hs
  | succ n ih =>
    unfold State.spillRounds
    split
    · exact hs
    split
    · exact hs
    split
    · exact hs
    · split
      · dsimp only
        split
        · simp [hs]
        · exact ih _ (by simp [hs])
      split
      · next u e => exact ih u (s.spill_memWf _ _ _ hs u e)
      · split <;> simp [hs]
    · exact ih _ (by simp [hs])
    · exact hs

@[simp] theorem State.relievePins_memWf (s : State) (core : Nat) (own : Option Nat) (ws : List (Nat × Nat × BitVec 4))
    (hs : Memory.wf s.mem = true) :
    Memory.wf (s.relievePins core own ws).mem = true := by
  unfold State.relievePins
  (repeat' split) <;> simp [hs]

@[simp] theorem State.boundarySpills_memWf (s : State) (launch : Nat) (hs : Memory.wf s.mem = true) :
    Memory.wf (s.boundarySpills launch).mem = true := by
  unfold State.boundarySpills
  exact foldl_wf (fun s x h => by simp [h]) _ hs

@[simp] theorem State.boundaryRetire_memWf (launch : Nat) (bs : List Nat) (s : State) (hs : Memory.wf s.mem = true) :
    Memory.wf (State.boundaryRetire launch bs s).mem = true := by
  induction bs generalizing s with
  | nil => exact hs
  | cons b bs ih =>
    unfold State.boundaryRetire
    refine ih _ ?_
    (repeat' split) <;> simp [hs]

@[simp] theorem State.nextQuanta_mem (s : State) (launch : Nat) : (s.nextQuanta launch).mem = s.mem := rfl

theorem execQuantumBoundary_memWf (s : State) (hs : Memory.wf s.mem = true) :
    nextHolds State.MemCanon (execQuantumBoundary s) := by
  unfold execQuantumBoundary
  (repeat' split) <;> grind [State.realise_memWf, State.tryOpen_mem, State.noteWaits_mem, State.boundaryFront_memWf,
      State.boundarySpills_memWf, State.boundaryRetire_memWf, State.nextQuanta_mem, nextHolds, State.MemCanon]

@[simp] theorem State.spillUntil_memWf (core : Nat) (p : Tenure → Bool) (ok : State → Bool) (n : Nat) (s : State)
    (hs : Memory.wf s.mem = true) : Memory.wf (State.spillUntil core p ok n s).mem = true := by
  induction n generalizing s with
  | zero => exact hs
  | succ n ih =>
    unfold State.spillUntil
    split
    · exact hs
    split
    · exact hs
    split
    · dsimp only
      split
      · simp [hs]
      · exact ih _ (by simp [hs])
    split
    · exact hs
    · next u e => exact ih u (s.spill_memWf _ _ _ hs u e)

theorem execPressureSpill_memWf (s : State) (hs : Memory.wf s.mem = true) :
    nextHolds State.MemCanon (execPressureSpill s) := by
  unfold execPressureSpill
  grind [State.noteWaits_mem, State.relievePins_memWf, State.spillUntil_memWf, nextHolds, State.MemCanon]

/-! ### Standing programs -/

@[simp] theorem State.modRes_mem (s : State) (q : Program) (id : Nat) (f : ResEntry → ResEntry) :
    (s.modRes q id f).mem = s.mem := (rfl)

@[simp] theorem State.badEquation_mem (s : State) (l : Launch) (id : Nat) (addr : Nat) :
    (s.badEquation l id addr).mem = s.mem := rfl

@[simp] theorem State.applyBump_mem (s : State) (q : Program) (j : Nat) (b : Word) :
    (s.applyBump q j b).mem = s.mem := rfl

@[simp] theorem State.postItems_mem (s : State) (l : Launch) (q : Program) (id : Nat) (d : Word) (list n k : Nat) :
    (s.postItems l q id d list n k).mem = s.mem := by
  induction n generalizing s k with
  | zero => rfl
  | succ n ih =>
    unfold State.postItems
    rw [ih]
    (repeat' split) <;> simp

@[simp] theorem State.postAll_mem (s : State) (l : Launch) (q : Program) (id : Nat) (d : Word) :
    (s.postAll l q id d).mem = s.mem := by
  unfold State.postAll
  dsimp only
  (repeat' split) <;> simp

@[simp] theorem State.leave_mem (s : State) (p : Nat) (q : Program) (id : Nat) : (s.leave p q id).mem = s.mem := by
  unfold State.leave
  dsimp only
  (repeat' split) <;> simp

@[simp] theorem State.endEntry_mem (s : State) (q : Program) (id : Nat) (f : ResEntry → ResEntry) :
    (s.endEntry q id f).mem = s.mem := rfl

@[simp] theorem State.retireRelax_mem (s : State) (p : Nat) (l : Launch) (q : Program) (id : Nat) :
    (s.retireRelax p l q id).mem = s.mem := by
  simp [State.retireRelax]

@[simp] theorem State.killRelax_mem (s : State) (p : Nat) (l : Launch) (q : Program) (id : Nat) (d : Dispatched) :
    (s.killRelax p l q id d).mem = s.mem := by
  simp [State.killRelax]

@[simp] theorem State.journalBytes_memWf (s : State) (l : Launch) (q : Program) (off : Nat) (bs : List Byte)
    (hs : Memory.wf s.mem = true) : Memory.wf (s.journalBytes l q off bs).mem = true := by
  unfold State.journalBytes
  cases e : s.sysStore l.asid l.root (bs.length / 64 + 1) (q.jbase.toNat + off) bs with
  | none => exact hs
  | some t => exact s.sysStore_memWf _ _ _ _ _ hs t e

@[simp] theorem State.journalWrite_memWf (s : State) (p : Nat) (l : Launch) (q : Program) (e : JournalEntry)
    (hs : Memory.wf s.mem = true) :
    Memory.wf (s.journalWrite p l q e).mem = true := by
  unfold State.journalWrite
  dsimp only
  (repeat' split) <;> simp [hs]

theorem State.journalOne_memWf (s : State) (p : Nat) (l : Launch) (q : Program) (hs : Memory.wf s.mem = true) :
    ∀ t ∈ (s.journalOne p l q), Memory.wf t.mem = true := by
  unfold State.journalOne
  (repeat' split) <;> simp [hs]

@[simp] theorem State.journalLate_memWf (p : Nat) (l : Launch) (n : Nat) (s : State) (hs : Memory.wf s.mem = true) :
    Memory.wf (State.journalLate p l n s).mem = true := by
  induction n generalizing s with
  | zero => exact hs
  | succ n ih =>
    unfold State.journalLate
    split
    · exact hs
    · next t e =>
      obtain ⟨q, -, ht⟩ := Option.bind_eq_some_iff.mp e
      exact ih t (s.journalOne_memWf p l q hs t ht)

@[simp] theorem State.journal_memWf (s : State) (p : Nat) (l : Launch) (e : JournalEntry)
    (hs : Memory.wf s.mem = true) :
    Memory.wf (s.journal p l e).mem = true := by
  unfold State.journal
  (repeat' split) <;> simp [hs]

theorem State.replayTake_memWf (p : Nat) (l : Launch) (bound kind : Nat) {f : List Byte → List Byte → State → State}
    (hf : ∀ h data t, Memory.wf t.mem = true → Memory.wf (f h data t).mem = true) (n : Nat) (s : State)
    (hs : Memory.wf s.mem = true) : Memory.wf (State.replayTake p l bound kind f n s).mem = true := by
  induction n generalizing s with
  | zero => exact hs
  | succ n ih =>
    unfold State.replayTake
    split
    · exact hs
    split
    · exact ih _ (hf _ _ _ hs)
    · exact hs

@[simp] theorem State.replayEnd_mem (s : State) (p : Nat) (l : Launch) : (s.replayEnd p l).mem = s.mem := by
  unfold State.replayEnd
  (repeat' split) <;> simp

@[simp] theorem State.notice_mem (s : State) (p : Nat) : (s.notice p).mem = s.mem := by
  unfold State.notice
  (repeat' split) <;> simp [foldl_mem]

@[simp] theorem State.evaluate_mem (s : State) (p : Nat) : (s.evaluate p).mem = s.mem := by
  unfold State.evaluate
  (repeat' split) <;> simp

@[simp] theorem State.dispatch_mem (s : State) (p : Nat) (l : Launch) (q : Program) (slot id : Nat) :
    (s.dispatch p l q slot id).mem = s.mem := by
  unfold State.dispatch
  extract_lets e n s1 s2 bs ok d s3
  have h1 : s1.mem = s.mem := foldl_mem (fun s i => by split <;> simp) _ s
  have h3 : s3.mem = s.mem := (State.modProgram_mem _ _ _).trans ((State.modRes_mem _ _ _ _).trans h1)
  split
  · exact h3
  · rw [State.badEquation_mem, h3]

@[simp] theorem State.fillSlots_mem (p : Nat) (l : Launch) (n slot : Nat) (s : State) :
    (State.fillSlots p l n slot s).mem = s.mem := by
  induction n generalizing s slot with
  | zero => rfl
  | succ n ih =>
    unfold State.fillSlots
    (repeat' split) <;> simp [ih]

@[simp] theorem State.relaxAll_memWf (launch p n : Nat) (s : State) (hs : Memory.wf s.mem = true) :
    Memory.wf (State.relaxAll launch p n s).mem = true := by
  induction n generalizing s with
  | zero => exact hs
  | succ n ih =>
    unfold State.relaxAll
    split
    · exact hs
    split
    · exact hs
    · next t e => exact ih t (s.relaxOne_memWf launch p _ hs t e)

@[simp] theorem State.decisions_memWf (s : State) (p : Nat) (hs : Memory.wf s.mem = true) :
    Memory.wf (s.decisions p).mem = true := by
  unfold State.decisions
  (repeat' split) <;> simp [hs]

@[simp] theorem State.serve_mem (s : State) (p : Nat) (l : Launch) (q : Program) (x : PendSnap)
    (others : List PendSnap) :
    (s.serve p l q x others).mem = s.mem := by
  unfold State.serve
  dsimp only
  rw [foldl_mem fun s i => by split <;> simp]
  split <;> simp

@[simp] theorem State.serveAll_memWf (p : Nat) (l : Launch) (done xs : List PendSnap) (s : State)
    (hs : Memory.wf s.mem = true) :
    Memory.wf (State.serveAll p l done xs s).mem = true := by
  induction xs generalizing s done with
  | nil => exact hs
  | cons x xs ih =>
    unfold State.serveAll
    split
    · exact hs
    split
    · exact ih done _ (by simp [hs])
    · refine ih _ _ ?_
      rw [State.modProgram_mem]
      split
      · simpa [foldl_mem] using hs
      · exact State.journal_memWf _ _ _ _ (by simpa [foldl_mem] using hs)

@[simp] theorem State.ackInput_mem (s : State) (m : InputMsg) (status : Nat) (g : DWord) (bound : Nat) :
    (s.ackInput m status g bound).mem = s.mem := rfl

@[simp] theorem State.forceSubs_mem (s : State) (q : Program) (start len : Nat) :
    (s.forceSubs q start len).mem = s.mem := by
  unfold State.forceSubs
  exact foldl_mem (fun s x => by simp) _ _

@[simp] theorem State.land_memWf (s : State) (p : Nat) (l : Launch) (m : InputMsg) (replayed : Bool)
    (hs : Memory.wf s.mem = true) : Memory.wf (s.land p l m replayed).mem = true := by
  have ack (t : State) (status : Nat) (g : DWord) (bound : Nat) (ht : Memory.wf t.mem = true) :
      Memory.wf (if replayed then t else t.ackInput m status g bound).mem = true := by
    split <;> simp [ht]
  unfold State.land
  split
  · exact hs
  dsimp only
  next q _ =>
  split
  · exact ack s 5 0 0 hs
  have hl := State.journalLate_memWf p l (q.late.length + 1) s hs
  split
  · exact ack _ 2 0 0 hl
  · refine ack _ 0 _ _ ?_
    rw [State.forceSubs_mem]
    exact State.journal_memWf _ p l _ (foldl_wf (fun t x h => by simp [h, Memory.wf_putAll]) _ hl)

@[simp] theorem State.afterEvent_memWf (s : State) (p : Nat) (hs : Memory.wf s.mem = true) :
    Memory.wf (s.afterEvent p).mem = true := by
  simp [State.afterEvent, hs]

theorem State.serveFree_memWf (s : State) (p : Nat) (l : Launch) (q : Program) (hs : Memory.wf s.mem = true) :
    ∀ t ∈ (s.serveFree p l q), Memory.wf t.mem = true := by
  unfold State.serveFree
  (repeat' split) <;> simp [hs]

@[simp] theorem State.replayKills_memWf (s : State) (p : Nat) (l : Launch) (bound : Nat) (hs : Memory.wf s.mem = true) :
    Memory.wf (s.replayKills p l bound).mem = true := by
  unfold State.replayKills
  split
  · exact hs
  · exact State.replayTake_memWf p l bound 3 (fun h data t ht => by simpa using ht) _ s hs

@[simp] theorem State.boundaryRelax_memWf (p : Nat) (l : Launch) (ids : List Nat) (s : State)
    (hs : Memory.wf s.mem = true) :
    Memory.wf (State.boundaryRelax p l ids s).mem = true := by
  induction ids generalizing s with
  | nil => exact hs
  | cons id ids ih =>
    unfold State.boundaryRelax
    refine ih _ ?_
    split
    · exact hs
    extract_lets key dead
    clear_value dead
    split
    · simp [hs]
    split <;> simp [hs]

@[simp] theorem State.boundaryRest_memWf (s : State) (p launch : Nat) (l : Launch) (hs : Memory.wf s.mem = true) :
    Memory.wf (s.boundaryRest p launch l).mem = true := by
  unfold State.boundaryRest
  extract_lets ids s1 s1c s2 s3 s4 s5
  have h1 : Memory.wf s1.mem = true := State.boundaryRelax_memWf p l ids s hs
  have h2 : Memory.wf s2.mem = true := by
    unfold s2
    split
    · exact h1
    · exact foldl_wf (fun t m h => t.land_memWf p l m false h) _
        (State.replayTake_memWf p l _ 1 (fun h data t ht => t.land_memWf p l _ true ht) _ _ h1)
  have h3 : Memory.wf s3.mem = true := by
    unfold s3
    rw [State.evaluate_mem]
    exact s2.decisions_memWf p h2
  have h4 : Memory.wf s4.mem = true := by
    unfold s4
    split
    · exact h3
    next q _ =>
    have h := State.replayTake_memWf p l q.bound 2 (f := fun h _ s => let x : PendSnap := ⟨⟨0, 0, 0, true,
        BitVec.ofNat 32 (leAt h 0x14 4),
          BitVec.ofNat 64 (leAt h 0x18 8)⟩, true, true⟩
        s.modProgram p fun q => { q with snaps := q.snaps ++ [x] }) (fun h data t ht => ht) (2 ^ 32) s3 h3
    dsimp only
    split
    · exact (congrArg Memory.wf (State.replayEnd_mem _ _ _)).trans h
    · exact State.serveAll_memWf p l [] _ _ ((congrArg Memory.wf (State.replayEnd_mem _ _ _)).trans h)
  simp [s5, h4]

theorem State.boundaryFrom_memWf (p launch : Nat) (l : Launch) {f : Program → Program} (x : State × Bool)
    (hx : Memory.wf x.1.mem = true) :
    nextHolds State.MemCanon (if x.2 then .next ((x.1.modProgram p f).boundaryRest p launch l) else .next x.1) := by
  split
  · exact State.boundaryRest_memWf _ p launch l hx
  · exact hx

theorem execStandingBoundary_memWf (s : State) (hs : Memory.wf s.mem = true) :
    nextHolds State.MemCanon (execStandingBoundary s) := by
  unfold execStandingBoundary
  dsimp only
  split
  · exact hs
  split
  · exact hs
  next q _ _ l _ =>
  refine iteInduction (fun _ => hs) fun _ => ?_
  refine iteInduction (fun _ => ?_) fun _ => ?_
  · exact State.boundaryFrom_memWf _ _ l _ (s.boundaryFront_memWf _ hs)
  refine iteInduction (fun _ => ?_) fun _ => ?_
  · exact State.boundaryFrom_memWf _ _ l _ (State.boundaryFront_memWf _ _ (s.replayKills_memWf _ l _ hs))
  refine iteInduction (fun _ => ?_) fun _ => hs
  exact State.boundaryRest_memWf _ _ _ l hs

theorem execDeferredJournalEntry_memWf (s : State) (hs : Memory.wf s.mem = true) :
    nextHolds State.MemCanon (execDeferredJournalEntry s) := by
  unfold execDeferredJournalEntry
  simp only [nextHolds, State.MemCanon]
  split
  · exact hs
  · next q l _ =>
    cases e : s.journalOne s.subj.a l q with
    | none => exact hs
    | some t => exact s.journalOne_memWf _ l q hs t e

theorem execRelaxationPlacement_memWf (s : State) (hs : Memory.wf s.mem = true) :
    nextHolds State.MemCanon (execRelaxationPlacement s) := by
  unfold execRelaxationPlacement
  (repeat' split) <;> grind [State.noteWaits_mem, State.placeOne_memWf, nextHolds, State.MemCanon]

theorem execRelaxationRetirement_memWf (s : State) (hs : Memory.wf s.mem = true) :
    nextHolds State.MemCanon (execRelaxationRetirement s) := by
  unfold execRelaxationRetirement
  dsimp only
  (repeat' split) <;> simp_all [State.MemCanon, nextHolds]

theorem execRelaxationKill_memWf (s : State) (hs : Memory.wf s.mem = true) :
    nextHolds State.MemCanon (execRelaxationKill s) := by
  unfold execRelaxationKill
  dsimp only
  (repeat' split) <;> simp_all [State.MemCanon, nextHolds]

theorem execInputWrite_memWf (msg : InputMsg) (s : State) (hs : Memory.wf s.mem = true) :
    nextHolds State.MemCanon (execInputWrite msg s) := by
  unfold execInputWrite
  (repeat' split) <;> grind [State.modProgram_mem, State.hear_mem, State.ackInput_mem, nextHolds, State.MemCanon]

theorem execInputLanding_memWf (s : State) (hs : Memory.wf s.mem = true) :
    nextHolds State.MemCanon (execInputLanding s) := by
  unfold execInputLanding
  dsimp only
  (repeat' split) <;> simp_all [State.MemCanon, nextHolds]

@[simp] theorem State.takeSnap_memWf (s : State) (p : Nat) (q : Program) (l : Launch) (m : SnapMsg)
    (hs : Memory.wf s.mem = true) :
    Memory.wf (s.takeSnap p q l m).mem = true := by
  unfold State.takeSnap
  dsimp only
  split
  · split <;> simp [hs]
  split <;> simp [hs, foldl_mem]

theorem execSnapshotRequest_memWf (msg : SnapMsg) (s : State) (hs : Memory.wf s.mem = true) :
    nextHolds State.MemCanon (execSnapshotRequest msg s) := by
  refine State.hear_memWf msg.src true hs ?_
  split
  · exact hs
  split
  · exact hs
  · exact s.takeSnap_memWf _ _ _ msg hs

theorem execSnapshotServe_memWf (s : State) (hs : Memory.wf s.mem = true) :
    nextHolds State.MemCanon (execSnapshotServe s) := by
  unfold execSnapshotServe
  simp only [nextHolds, State.MemCanon]
  split
  · exact hs
  · next q l _ =>
    split
    · exact hs
    cases e : s.serveFree s.subj.a l q with
    | none => exact hs
    | some t => exact s.serveFree_memWf _ l q hs t e

@[simp] theorem State.answerSub_mem (s : State) (m : SubMsg) (state : Nat) (q : Program) :
    (s.answerSub m state q).mem = s.mem := rfl

theorem execSubscribe_memWf (msg : SubMsg) (s : State) (hs : Memory.wf s.mem = true) :
    nextHolds State.MemCanon (execSubscribe msg s) := by
  unfold execSubscribe
  (repeat' split) <;> grind [State.modProgram_mem, State.hear_mem, State.send_mem, State.answerSub_mem, nextHolds,
      State.MemCanon]

theorem execUnloadCompletion_memWf (s : State) (hs : Memory.wf s.mem = true) :
    nextHolds State.MemCanon (execUnloadCompletion s) := by
  unfold execUnloadCompletion
  dsimp only
  (repeat' split) <;> simp_all [State.MemCanon, nextHolds]

theorem execResidualEntryError_memWf (s : State) (hs : Memory.wf s.mem = true) :
    nextHolds State.MemCanon (execResidualEntryError s) := by
  unfold execResidualEntryError
  dsimp only
  (repeat' split) <;> simp_all [State.MemCanon, nextHolds]

/-! ### Commands -/

theorem execLaunchQueueEnable_memWf (val : BitVec 64) (s : State) (hs : Memory.wf s.mem = true) :
    nextHolds State.MemCanon (execLaunchQueueEnable val s) := by
  unfold execLaunchQueueEnable
  (repeat' split) <;> simp_all [State.MemCanon, nextHolds]

theorem execNotify_memWf (src : BitVec 16) (tail : BitVec 32) (s : State) (hs : Memory.wf s.mem = true) :
    nextHolds State.MemCanon (execNotify src tail s) := by
  unfold execNotify
  grind [State.modCtl_mem, State.hear_mem, nextHolds, State.MemCanon]

@[simp] theorem State.advance_mem (s : State) : s.advance.mem = s.mem := rfl

theorem State.takeCommand_memWf (s : State) (kind : Nat → Bool) {f : List Byte → State → State}
    (hf : ∀ bs t, Memory.wf t.mem = true → Memory.wf (f bs t).mem = true) (hs : Memory.wf s.mem = true) :
    Memory.wf (s.takeCommand kind f).mem = true := by
  unfold State.takeCommand
  split
  · exact hs
  split
  · exact hf _ _ hs
  · exact hs

theorem State.beginRun_stepsOf_memWf (launch n : Nat) (s : State) (hs : Memory.wf s.mem = true) :
    Memory.wf (State.beginRun.stepsOf launch n s).mem = true := by
  induction n generalizing s with
  | zero => exact hs
  | succ n ih =>
    unfold State.beginRun.stepsOf
    split
    · exact hs
    · next l _ =>
      split
      · exact hs
      · next t e =>
        split at e
        · exact ih t (s.placeOne_memWf launch l hs t e)
        · nomatch e

@[simp] theorem State.beginRun_memWf (s : State) (launch : Nat) (hs : Memory.wf s.mem = true) :
    Memory.wf (s.beginRun launch).mem = true := by
  unfold State.beginRun
  split
  · exact hs
  split
  · simp [hs]
  split
  · exact State.beginRun_stepsOf_memWf launch _ s hs
  split <;> simp [hs]

@[simp] theorem State.bind_mem (s : State) (bs : List Byte) : (s.bind bs).mem = s.mem := rfl

@[simp] theorem State.takeRun_memWf (bs : List Byte) (s : State) (hs : Memory.wf s.mem = true) :
    Memory.wf (State.takeRun bs s).mem = true := by
  unfold State.takeRun
  dsimp only
  (repeat' split) <;> simp [hs]

theorem execRunCommand_memWf (s : State) (hs : Memory.wf s.mem = true) : nextHolds State.MemCanon (execRunCommand s) :=
  State.takeCommand_memWf s _ State.takeRun_memWf hs

@[simp] theorem State.install_memWf (s : State) (bs h : List Byte) (slot base : Nat) (mask : BitVec 192)
    (eqs : List EqBlock)
    (hs : Memory.wf s.mem = true) : Memory.wf (s.install bs h slot base mask eqs).mem = true := by
  unfold State.install
  extract_lets n dqm r key l q s1 s2 s3 s4
  have h2 : Memory.wf s2.mem = true := by
    refine foldl_wf (f := fun t i => { t with
      residuals := t.residuals.set (base + i) ⟨infWord, 0, 0, 0, false, false, 0, false, stForced⟩ }) ?_ _ hs
    exact fun t i h => h
  have h4 : Memory.wf s4.mem = true := by simp [s4, s3, h2]
  split <;> simp [h4]

@[simp] theorem State.takeLoad_memWf (bs : List Byte) (s : State) (hs : Memory.wf s.mem = true) :
    Memory.wf (State.takeLoad bs s).mem = true := by
  unfold State.takeLoad
  dsimp only
  (repeat' split) <;> simp [hs]

theorem execLoadCommand_memWf (s : State) (hs : Memory.wf s.mem = true) :
    nextHolds State.MemCanon (execLoadCommand s) :=
  State.takeCommand_memWf s _ State.takeLoad_memWf hs

@[simp] theorem State.takeUnload_mem (bs : List Byte) (s : State) : (State.takeUnload bs s).mem = s.mem := by
  unfold State.takeUnload
  dsimp only
  (repeat' split) <;> simp

theorem execUnloadCommand_memWf (s : State) (hs : Memory.wf s.mem = true) :
    nextHolds State.MemCanon (execUnloadCommand s) :=
  State.takeCommand_memWf s _ (fun bs t h => (congrArg Memory.wf (State.takeUnload_mem bs t)).trans h) hs

theorem execReservedCommand_memWf (s : State) (hs : Memory.wf s.mem = true) :
    nextHolds State.MemCanon (execReservedCommand s) :=
  State.takeCommand_memWf s _ (fun bs t h => (congrArg Memory.wf (State.complete_mem _ _ _ _ _ _ _ _ _)).trans h) hs

/-! ### Pre-emption -/

@[simp] theorem State.settleBlock_memWf (s : State) (b : Nat) (hs : Memory.wf s.mem = true) :
    Memory.wf (s.settleBlock b).mem = true :=
  foldl_wf (fun s j h => by split <;> simp [h]) _ (s.performIssued_memWf b hs)

@[simp] theorem State.takeOff_mem (s : State) (b : Nat) (blk : Block) (v : Saved) :
    (s.takeOff b blk v).mem = s.mem := rfl

@[simp] theorem State.preempt_memWf (s : State) (at_ b : Nat) (blk : Block) (l : Launch) (hs : Memory.wf s.mem = true) :
    Memory.wf (s.preempt at_ b blk l).mem = true := by
  unfold State.preempt
  (repeat' split) <;> grind [State.poke_memWf, State.noteFreed_mem, State.takeOff_mem]

theorem execPreemptBlock_memWf (s : State) (hs : Memory.wf s.mem = true) :
    nextHolds State.MemCanon (execPreemptBlock s) := by
  refine s.peRun_memWf 1 0 hs fun j t h => ?_
  dsimp only
  have hb (b : Nat) : Memory.wf ((t.finishHalt b).settleBlock b).mem = true := by simp [h]
  (repeat' split) <;> simp [h, hb]

@[simp] theorem State.putBack_memWf (s : State) (b : Nat) (v : Saved) (l : Launch) (core : Nat) (p : Spot)
    (bases : List Nat) (hs : Memory.wf s.mem = true) : Memory.wf (s.putBack b v l core p bases).mem = true := by
  unfold State.putBack
  extract_lets blk keys rank s1 s2 s3 s4 s5
  have h3 : s3.mem = s.mem := by
    unfold s3
    refine foldl_mem ?_ _ _
    exact fun _ _ => rfl
  have h4 : s4.mem = s.mem := (foldl_mem (fun t x => t.enterTenure_mem core _) _ s3).trans h3
  refine State.afterExit_memWf _ b ?_
  simpa [s5, h4] using hs

theorem execRestoreBlock_memWf (core : BitVec 8) (s : State) (hs : Memory.wf s.mem = true) :
    nextHolds State.MemCanon (execRestoreBlock core s) := by
  refine s.peRun_memWf 2 core hs fun j t h => ?_
  dsimp only
  (repeat' split) <;> simp [h]

@[simp] theorem State.goOnAfter_memWf (s : State) (launch : Nat) (l : Launch) (hs : Memory.wf s.mem = true) :
    Memory.wf (s.goOnAfter launch l).mem = true := by
  unfold State.goOnAfter
  (repeat' split) <;> simp [hs]

@[simp] theorem State.again_mem (s : State) (launch : Nat) (l : Launch) : (s.again launch l).mem = s.mem := by
  unfold State.again
  exact foldl_mem (fun s x => by simp) _ _

theorem execCheckpointLaunch_memWf (s : State) (hs : Memory.wf s.mem = true) :
    nextHolds State.MemCanon (execCheckpointLaunch s) := by
  refine s.peRun_memWf 5 0 hs fun j t h => ?_
  dsimp only
  split
  · simpa using h
  have hc (keys : List Nat) : Memory.wf (keys.foldl (fun s b => (s.finishHalt b).settleBlock b) t).mem = true :=
    foldl_wf (fun s b h => by simp [h]) keys h
  split
  · exact State.goOnAfter_memWf _ _ _ (by simpa using h)
  split
  · simp [hc]
  · refine State.goOnAfter_memWf _ _ _ ?_
    simpa using State.poke_memWf _ none _ _ (hc _)

theorem State.putAll_cons (l : Launch) (b : Nat) (v : Saved) (vs : List (Nat × Saved)) (s : State) :
    State.putAll l ((b, v) :: vs) s =
      (((List.range 192).filter l.inMask).findSome? fun c => (s.roomFor? v l c).map fun x => (c, x)).bind
        fun x => State.putAll l vs (s.putBack b v l x.1 x.2.1 x.2.2) := by
  rw [State.putAll]
  split <;> rename_i e <;> rw [e] <;> rfl

theorem State.putAll_memWf (l : Launch) (vs : List (Nat × Saved)) (s : State) (hs : Memory.wf s.mem = true) :
    ∀ t ∈ State.putAll l vs s, Memory.wf t.mem = true := by
  induction vs generalizing s with
  | nil => simpa [State.putAll] using hs
  | cons v vs ih =>
    obtain ⟨b, v⟩ := v
    rw [State.putAll_cons]
    intro t ht
    obtain ⟨x, -, hx⟩ := Option.bind_eq_some_iff.mp ht
    have h := s.putBack_memWf b v l x.1 x.2.1 x.2.2 hs
    exact ih _ h _ hx

@[simp] theorem State.putProgram_mem (s : State) (q : Program) (slot base : Nat) (tail : List Byte) :
    (s.putProgram q slot base tail).mem = s.mem := by
  unfold State.putProgram
  exact foldl_mem (fun s x => by simp) _ _

theorem State.restoreLaunch_memWf (s : State) (c : SavedLaunch) (blocks : List (Nat × Saved)) (key : Nat)
    (tail : List Byte)
    (hs : Memory.wf s.mem = true) : ∀ t ∈ s.restoreLaunch c blocks key tail, Memory.wf t.mem = true := by
  have place (a : KMap Nat) (u : State) (l : Launch) (hu : Memory.wf u.mem = true) :
      ∀ t ∈ (State.putAll l blocks { u with launches := u.launches.set key l, asids := a }).map
        fun s => s.goOnAfter key l,
        Memory.wf t.mem = true := by
    intro t ht
    obtain ⟨v, hv, rfl⟩ := Option.map_eq_some_iff.mp ht
    have hp := State.putAll_memWf l blocks { u with launches := u.launches.set key l, asids := a } hu
    exact v.goOnAfter_memWf key l (hp v hv)
  intro t ht
  unfold State.restoreLaunch at ht
  extract_lets bound place' at ht
  split at ht
  · exact place bound s _ hs t ht
  split at ht
  · exact place bound _ _ ((congrArg Memory.wf (s.putProgram_mem _ _ _ _)).trans hs) t ht
  · nomatch ht

theorem execRestoreLaunch_memWf (core : BitVec 8) (s : State) (hs : Memory.wf s.mem = true) :
    nextHolds State.MemCanon (execRestoreLaunch core s) := by
  refine s.peRun_memWf 6 core hs fun j t h => ?_
  dsimp only
  have hr (c vs key tail u) (e : t.restoreLaunch c vs key tail = some u) : Memory.wf u.mem = true :=
    t.restoreLaunch_memWf c vs key tail h u e
  have hw : Memory.wf (t.peWait j).mem = true := by simpa using h
  have hp (st) : Memory.wf (t.peResult st).mem = true := by simpa using h
  split
  · exact hp 3
  split
  · exact hp 3
  split
  · exact hp 4
  split
  · exact hp 6
  split
  · exact hp 3
  refine iteInduction (motive := fun u : State => Memory.wf u.mem = true) (fun _ => hp 3) fun _ => ?_
  split
  · exact hw
  · next e => simpa using hr _ _ _ _ _ e

/-! ### The module -/

@[simp] theorem State.modWindow_mem (s : State) (n : Nat) (f : Window → Window) : (s.modWindow n f).mem = s.mem := rfl

@[simp] theorem State.dropViews_mem (s : State) (w : Window) : (s.dropViews w).mem = s.mem := rfl

@[simp] theorem State.writeWindow_mem (s : State) (n : Nat) (val : DWord) : (s.writeWindow n val).mem = s.mem := by
  unfold State.writeWindow
  dsimp only
  (repeat' split) <;> simp

@[simp] theorem State.dropXlates_mem (s : State) (job : Nat × Nat × Nat) : (s.dropXlates job).mem = s.mem := rfl

@[simp] theorem State.startXlt_mem (s : State) (scope asid va : Nat) : (s.startXlt scope asid va).mem = s.mem := rfl

theorem State.peCommand_memWf (s : State) (op : Nat) (core : BitVec 8) (hs : Memory.wf s.mem = true) :
    nextHolds State.MemCanon (s.peCommand op core) := by
  unfold State.peCommand
  (repeat' split) <;> grind [execResume_memWf, execDiscard_memWf, execPreemptBlock_memWf, execRestoreBlock_memWf,
      execCheckpointLaunch_memWf, execRestoreLaunch_memWf, nextHolds, State.MemCanon]

@[simp] theorem State.attest_mem (s : State) : s.attest.mem = s.mem := by
  unfold State.attest
  (repeat' split) <;> simp

@[simp] theorem State.attestOn_memWf (s : State) (hs : Memory.wf s.mem = true) : Memory.wf s.attestOn.mem = true := by
  unfold State.attestOn
  (repeat' split) <;> grind [State.modCtl_mem, State.poke_memWf, State.noteWrites_mem, State.replyWrite_mem,
      State.attest_mem]

@[simp] theorem State.ctlPut_memWf (s : State) (r : CtlReg) (v : DWord) (hs : Memory.wf s.mem = true) :
    Memory.wf (s.ctlPut r v).mem = true := by
  unfold State.ctlPut
  (repeat' split) <;> grind [State.modCore_mem, State.modProgram_mem, State.modCtl_mem, execLaunchQueueEnable_memWf,
      State.modWindow_mem, State.writeWindow_mem, State.startXlt_mem, State.peCommand_memWf, State.attest_mem,
      nextHolds, State.MemCanon]

@[simp] theorem State.keepWrite_mem (s : State) (r : CtlReg) (v : DWord) (w : Option WriteReply) :
    (s.keepWrite r v w).mem = s.mem := by
  unfold State.keepWrite
  (repeat' split) <;> simp

@[simp] theorem State.ctlWrite_memWf (s : State) (r : CtlReg) (v : DWord) (hs : Memory.wf s.mem = true) :
    Memory.wf (s.ctlWrite r v).mem = true := by
  unfold State.ctlWrite
  (repeat' split) <;> simp [hs]

theorem execRegisterWrite_memWf (off : BitVec 25) (val : BitVec 64) (s : State) (hs : Memory.wf s.mem = true) :
    nextHolds State.MemCanon (execRegisterWrite off val s) := by
  unfold execRegisterWrite
  (repeat' split) <;> simp_all [State.MemCanon, nextHolds]

theorem execTrapRingEnable_memWf (val : BitVec 64) (s : State) (hs : Memory.wf s.mem = true) :
    nextHolds State.MemCanon (execTrapRingEnable val s) := by
  unfold execTrapRingEnable
  simp_all [State.MemCanon, nextHolds]

theorem execFormatWindowEnable_memWf (n : Fin 16) (val : BitVec 64) (s : State) (hs : Memory.wf s.mem = true) :
    nextHolds State.MemCanon (execFormatWindowEnable n val s) := by
  unfold execFormatWindowEnable
  simp_all [State.MemCanon, nextHolds]

theorem execFormatWindowDisable_memWf (n : Fin 16) (val : BitVec 64) (s : State) (hs : Memory.wf s.mem = true) :
    nextHolds State.MemCanon (execFormatWindowDisable n val s) := by
  unfold execFormatWindowDisable
  simp_all [State.MemCanon, nextHolds]

theorem execXltInvalidatePage_memWf (asid : BitVec 12) (s : State) (hs : Memory.wf s.mem = true) :
    nextHolds State.MemCanon (execXltInvalidatePage asid s) := by
  unfold execXltInvalidatePage
  simp_all [State.MemCanon, nextHolds]

theorem execXltInvalidateAsid_memWf (asid : BitVec 12) (s : State) (hs : Memory.wf s.mem = true) :
    nextHolds State.MemCanon (execXltInvalidateAsid asid s) := by
  unfold execXltInvalidateAsid
  simp_all [State.MemCanon, nextHolds]

theorem execXltInvalidateAll_memWf (s : State) (hs : Memory.wf s.mem = true) :
    nextHolds State.MemCanon (execXltInvalidateAll s) := by
  unfold execXltInvalidateAll
  simp_all [State.MemCanon, nextHolds]

theorem execXltInvalidationComplete_memWf (s : State) (hs : Memory.wf s.mem = true) :
    nextHolds State.MemCanon (execXltInvalidationComplete s) := by
  unfold execXltInvalidationComplete
  show State.MemCanon _
  split
  · exact hs
  extract_lets t t1 free t2 t3
  have h1 : t1.mem = s.mem :=
    (foldl_mem (fun (t : State) (k : Walk) => t.wake_mem (walkKey k.asid (k.page * 2 ^ 13)) none) _ t).trans
      (s.dropXlates_mem _)
  have h3 : Memory.wf t3.mem = true := (congrArg Memory.wf h1).trans hs
  split
  · exact h3
  · show Memory.wf (State.mem _) = true
    rw [State.replyWrite_mem, State.startXlt_mem]; exact h3

theorem execAttestationReport_memWf (s : State) (hs : Memory.wf s.mem = true) :
    nextHolds State.MemCanon (execAttestationReport s) := by
  unfold execAttestationReport
  (repeat' split) <;> simp_all [State.MemCanon, nextHolds]

theorem State.dark_memWf (s : State) : Memory.wf s.dark.mem = true := rfl

@[simp] theorem State.laneTest_mem (s : State) (lanes : List LaneTest) : (s.laneTest lanes).mem = s.mem :=
  foldl_mem (fun s t => by dsimp only; split <;> simp) lanes s

theorem execPowerOn_memWf (sigOk : Bool) (lanes : List LaneTest) (dead : List Nat) (s : State)
    (hs : Memory.wf s.mem = true) :
    nextHolds State.MemCanon (execPowerOn sigOk lanes dead s) := by
  unfold execPowerOn
  show State.MemCanon _
  split
  · exact hs
  extract_lets s1 s2
  have h2 : Memory.wf s2.mem = true := s.dark_memWf
  split
  · show Memory.wf (State.mem _) = true
    rw [State.modCtl_mem, State.laneTest_mem]; exact h2
  · exact h2

theorem execPowerRemoval_memWf (s : State) (hs : Memory.wf s.mem = true) :
    nextHolds State.MemCanon (execPowerRemoval s) :=
  s.dark_memWf

theorem execThermalLimit_memWf (inlet : BitVec 16) (s : State) (hs : Memory.wf s.mem = true) :
    nextHolds State.MemCanon (execThermalLimit inlet s) := by
  unfold execThermalLimit
  (repeat' split) <;> simp_all [State.MemCanon, nextHolds]

theorem execThermalClear_memWf (inlet : BitVec 16) (s : State) (hs : Memory.wf s.mem = true) :
    nextHolds State.MemCanon (execThermalClear inlet s) := by
  unfold execThermalClear
  (repeat' split) <;> simp_all [State.MemCanon, nextHolds]

theorem execPowerCapEnforce_memWf (fwgov watts : BitVec 16) (s : State) (hs : Memory.wf s.mem = true) :
    nextHolds State.MemCanon (execPowerCapEnforce fwgov watts s) := by
  unfold execPowerCapEnforce
  (repeat' split) <;> simp_all [State.MemCanon, nextHolds]

@[simp] theorem State.corrected_mem (s : State) : s.corrected.mem = s.mem := rfl

@[simp] theorem State.dropHolder_mem (s : State) (line : Nat) (x : Option Nat) : (s.dropHolder line x).mem = s.mem := by
  unfold State.dropHolder
  (repeat' split) <;> simp

@[simp] theorem State.dropClean_mem (s : State) (line : Nat) : (s.dropClean line).mem = s.mem := by
  simp [State.dropClean]

@[simp] theorem State.readFirst_memWf (s : State) (hit : Loc → Nat → Bool) (hs : Memory.wf s.mem = true) :
    Memory.wf (s.readFirst hit).mem = true :=
  foldl_wf (fun _ e h => foldl_wf (fun s a h => s.perform_memWf e.1 a.id _ h) _ h) _ hs

@[simp] theorem State.strike_memWf (s : State) (x : SoftError) (hs : Memory.wf s.mem = true) :
    Memory.wf (s.strike x).mem = true := by
  unfold State.strike
  (repeat' split) <;> simp [hs]

theorem execSoftError_memWf (where_ : SoftError) (s : State) (hs : Memory.wf s.mem = true) :
    nextHolds State.MemCanon (execSoftError where_ s) := by
  unfold execSoftError
  (repeat' split) <;> simp_all [State.MemCanon, nextHolds]

@[simp] theorem State.ctlServe_memWf (s : State) (x : CtlAccess) (hs : Memory.wf s.mem = true) :
    Memory.wf (s.ctlServe x).mem = true := by
  unfold State.ctlServe
  (repeat' split) <;> simp [hs]

@[simp] theorem State.ctlAccess_memWf (s : State) (x : CtlAccess) (hs : Memory.wf s.mem = true) :
    Memory.wf (s.ctlAccess x).mem = true := by
  unfold State.ctlAccess
  (repeat' split) <;> simp [hs]

@[simp] theorem State.serveBehind_memWf (s : State) (hs : Memory.wf s.mem = true) :
    Memory.wf s.serveBehind.mem = true := by
  unfold State.serveBehind
  split
  · exact hs
  · exact foldl_wf (fun s x h => s.ctlAccess_memWf x h) _ hs

theorem execRemoteRead_memWf (src : BitVec 16) (tag : BitVec 32) (addr : BitVec 64) (len : BitVec 32) (s : State)
    (hs : Memory.wf s.mem = true) : nextHolds State.MemCanon (execRemoteRead src tag addr len s) := by
  refine State.hear_memWf src true hs ?_
  (repeat' split) <;> simp [hs]

theorem execRemoteWrite_memWf (src : BitVec 16) (tag : BitVec 32) (addr : BitVec 64) (data : List Byte) (s : State)
    (hs : Memory.wf s.mem = true) : nextHolds State.MemCanon (execRemoteWrite src tag addr data s) := by
  refine State.hear_memWf src true hs ?_
  (repeat' split) <;> simp [Memory.wf_putAll, hs]

theorem execRemoteAtomic_memWf (src : BitVec 16) (tag : BitVec 32) (addr : BitVec 64) (op : RemoteOp) (s : State)
    (hs : Memory.wf s.mem = true) : nextHolds State.MemCanon (execRemoteAtomic src tag addr op s) := by
  refine State.hear_memWf src _ hs ?_
  split
  · simp [hs]
  split
  · simp [hs]
  dsimp only
  split
  · rw [State.reply_mem, State.noteWrites_mem]
    split
    · exact hs
    · simp [Memory.wf_putAll, hs]
  · simp [hs]

theorem State.comesBack_memWf (s : State) (port : Nat) (m : OutMsg) (hs : Memory.wf s.mem = true) :
    ∀ o ∈ s.comesBack port m, nextHolds State.MemCanon o := by
  intro o ho
  unfold State.comesBack at ho
  extract_lets t src addr len at ho
  have ht : Memory.wf t.mem = true := hs
  split at ho <;> cases ho
  · exact execRemoteRead_memWf _ _ _ _ _ ht
  · exact execReadResponse_memWf _ _ _ _ ht
  · exact execRemoteWrite_memWf _ _ _ _ _ ht
  · exact execWriteResponse_memWf _ _ _ ht
  · exact execRemoteAtomic_memWf _ _ _ _ _ ht
  · exact execAtomicResponse_memWf _ _ _ _ ht

theorem execMessageGrant_memWf (s : State) (hs : Memory.wf s.mem = true) :
    nextHolds State.MemCanon (execMessageGrant s) := by
  unfold execMessageGrant
  split
  · exact hs
  split
  · exact hs
  next m gs _ =>
  extract_lets out
  split
  · cases e : State.comesBack { s with grants := gs } s.subj.a m with
    | none => exact hs
    | some o => exact State.comesBack_memWf { s with grants := gs } _ m hs o e
  · exact hs

/-! ### The dispatcher -/

theorem issueQuad_memWf (d a : Reg) (g : Guard) (from_ : Nat → Nat) {s : State} (hs : Memory.wf s.mem = true) :
    nextHolds State.MemCanon (issueQuad d a g from_ s) :=
  issue_memWf _ (fun c ops s h => by simpa [Res.Holds, State.MemCanon] using h) hs

theorem issueLanes_memWf (d : Reg) (g : Guard) (reads : List (Reg × Nat))
    (v : Ctx → List (List LaneVec) → Nat → Word × Flags)
    {s : State} (hs : Memory.wf s.mem = true) : nextHolds State.MemCanon (issueLanes d g reads v s) :=
  issue_memWf _ (fun c ops s h => by simpa [Res.Holds, State.MemCanon] using h) hs

theorem exec_memWf (i : Instr) {s : State} (hs : s.MemCanon) : nextHolds State.MemCanon (exec i s) := by
  cases i with
  | j | call =>
    exact issueJump_memWf (hs := hs) ..
  | jr | callr =>
    exact issueJumpReg_memWf (hs := hs) ..
  | add | sub | addi | addiP | mul | mulh | mulhu | and | andi | andiP | or | ori | oriP | xor | xori | xoriP | shli
    | shri | srai | shl | shr | sra | seteq | setlt | setltu | sel | min | max | minu | maxu | rol | ror | bfx | bfi
    | popc | clz | ctz | brev | bswap | neg | not | abs | sextB | sextH | movi | moviP | mov | rand | eqId | eqTheta =>
    exact issueAlu_memWf (hs := hs) ..
  | addD | subD | adda | movD | eqGen =>
    exact issueAluPair_memWf (hs := hs) ..
  | maskAny | maskAll | maskLo | maskHi | maskCnt | shflPick | shflXor | redAddF32 | redMinF32 | redMaxF32 | redAdd
    | redMin | redMax | scanAddF32 | scanAdd =>
    exact issueLanes_memWf (hs := hs) ..
  | qxH | qxV | qxD | qxB0 | qxB1 | qxB2 | qxB3 =>
    exact issueQuad_memWf (hs := hs) ..
  | addF32 | subF32 | mulF32 | fmaF32 | minF32 | maxF32 | seteqF32 | setltF32 | setleF32 | setunF32 | rcpF32
    | rsqrtF32 | sqrtF32 | exp2F32 | log2F32 | sinF32 | cosF32 | rintF32 | floorF32 | ceilF32 | truncF32 | classF32
    | fabsF32 | fnegF32 | addBf16x2 | mulBf16x2 | fmaBf16x2 | addF16x2 | mulF16x2 | fmaF16x2 | minBf16x2 | maxBf16x2
    | minF16x2 | maxF16x2 | cvt | pack | unpack | packB4 =>
    exact issueFloat_memWf (hs := hs) ..
  | ldW | ldWP | ldD | ldDP | ldQ | ldQP | ldH | ldHP | ldHu | ldHuP | ldB | ldBP | ldBu | ldBuP =>
    exact issueLoad_memWf (hs := hs) ..
  | stW | stWP | stD | stDP | stQ | stQP | stH | stHP | stB | stBP =>
    exact issueStore_memWf (hs := hs) ..
  | pfL1 | pfL1P | pfL2 | pfL2P =>
    exact issuePrefetch_memWf (hs := hs) ..
  | ldAcqW | ldAcqD | ldScW | ldScD =>
    exact issueAcq_memWf (hs := hs) ..
  | stRelW | stRelD | stScW | stScD =>
    exact issueRel_memWf (hs := hs) ..
  | atom | atomD | atomF32 | casW | casD =>
    exact issueRmw_memWf (hs := hs) ..
  | copy1d | copy2d | copyG =>
    exact issueCopy_memWf (hs := hs) ..
  | mma | mmaPair =>
    exact issueMma_memWf (hs := hs) ..
  | rnsfI16 | rnsfI32 =>
    exact issueRnsf_memWf (hs := hs) ..
  | powerOn => exact execPowerOn_memWf (hs := hs) ..
  | thermalLimit => exact execThermalLimit_memWf (hs := hs) ..
  | thermalClear => exact execThermalClear_memWf (hs := hs) ..
  | powerCapEnforce => exact execPowerCapEnforce_memWf (hs := hs) ..
  | registerWrite => exact execRegisterWrite_memWf (hs := hs) ..
  | launchQueueEnable => exact execLaunchQueueEnable_memWf (hs := hs) ..
  | trapRingEnable => exact execTrapRingEnable_memWf (hs := hs) ..
  | formatWindowEnable => exact execFormatWindowEnable_memWf (hs := hs) ..
  | formatWindowDisable => exact execFormatWindowDisable_memWf (hs := hs) ..
  | xltInvalidatePage => exact execXltInvalidatePage_memWf (hs := hs) ..
  | xltInvalidateAsid => exact execXltInvalidateAsid_memWf (hs := hs) ..
  | rnsfailWrite => exact execRnsfailWrite_memWf (hs := hs) ..
  | restoreBlock => exact execRestoreBlock_memWf (hs := hs) ..
  | restoreLaunch => exact execRestoreLaunch_memWf (hs := hs) ..
  | notify => exact execNotify_memWf (hs := hs) ..
  | inputWrite => exact execInputWrite_memWf (hs := hs) ..
  | snapshotRequest => exact execSnapshotRequest_memWf (hs := hs) ..
  | subscribe => exact execSubscribe_memWf (hs := hs) ..
  | remoteRead => exact execRemoteRead_memWf (hs := hs) ..
  | remoteWrite => exact execRemoteWrite_memWf (hs := hs) ..
  | remoteAtomic => exact execRemoteAtomic_memWf (hs := hs) ..
  | readResponse => exact execReadResponse_memWf (hs := hs) ..
  | writeResponse => exact execWriteResponse_memWf (hs := hs) ..
  | atomicResponse => exact execAtomicResponse_memWf (hs := hs) ..
  | collectiveData => exact execCollectiveData_memWf (hs := hs) ..
  | barrierArrive => exact execBarrierArrive_memWf (hs := hs) ..
  | barrierRelease => exact execBarrierRelease_memWf (hs := hs) ..
  | undefinedWord => exact execUndefinedWord_memWf (hs := hs) ..
  | exit => exact execExit_memWf (hs := hs) ..
  | nop => exact execNop_memWf (hs := hs) ..
  | joinSet => exact execJoinSet_memWf (hs := hs) ..
  | join => exact execJoin_memWf (hs := hs) ..
  | yield => exact execYield_memWf (hs := hs) ..
  | ret => exact execRet_memWf (hs := hs) ..
  | trap => exact execTrap_memWf (hs := hs) ..
  | trret => exact execTrret_memWf (hs := hs) ..
  | lmapLd => exact execLmapLd_memWf (hs := hs) ..
  | movS => exact execMovS_memWf (hs := hs) ..
  | movSW => exact execMovSW_memWf (hs := hs) ..
  | wbase => exact execWbase_memWf (hs := hs) ..
  | cinv => exact execCinv_memWf (hs := hs) ..
  | cinvAll => exact execCinvAll_memWf (hs := hs) ..
  | fence => exact execFence_memWf (hs := hs) ..
  | poll => exact execPoll_memWf (hs := hs) ..
  | barB => exact execBarB_memWf (hs := hs) ..
  | barC => exact execBarC_memWf (hs := hs) ..
  | barDev => exact execBarDev_memWf (hs := hs) ..
  | barDom => exact execBarDom_memWf (hs := hs) ..
  | tktTake => exact execTktTake_memWf (hs := hs) ..
  | tktWait => exact execTktWait_memWf (hs := hs) ..
  | qcfg => exact execQcfg_memWf (hs := hs) ..
  | batch => exact execBatch_memWf (hs := hs) ..
  | waitB => exact execWaitB_memWf (hs := hs) ..
  | waitC => exact execWaitC_memWf (hs := hs) ..
  | coll => exact execColl_memWf (hs := hs) ..
  | tld => exact execTld_memWf (hs := hs) ..
  | tst => exact execTst_memWf (hs := hs) ..
  | accZero => exact execAccZero_memWf (hs := hs) ..
  | accRd => exact execAccRd_memWf (hs := hs) ..
  | accWr => exact execAccWr_memWf (hs := hs) ..
  | accChkTile => exact execAccChkTile_memWf (hs := hs) ..
  | accChkTen => exact execAccChkTen_memWf (hs := hs) ..
  | pin => exact execPin_memWf (hs := hs) ..
  | unpin => exact execUnpin_memWf (hs := hs) ..
  | fwupd => exact execFwupd_memWf (hs := hs) ..
  | fwrd => exact execFwrd_memWf (hs := hs) ..
  | rnsr => exact execRnsr_memWf (hs := hs) ..
  | rnsChk => exact execRnsChk_memWf (hs := hs) ..
  | rset => exact execRset_memWf (hs := hs) ..
  | rpost => exact execRpost_memWf (hs := hs) ..
  | rget => exact execRget_memWf (hs := hs) ..
  | qend => exact execQend_memWf (hs := hs) ..
  | softError => exact execSoftError_memWf (hs := hs) ..
  | powerRemoval => exact execPowerRemoval_memWf (hs := hs) ..
  | xltInvalidateAll => exact execXltInvalidateAll_memWf (hs := hs) ..
  | xltInvalidationComplete => exact execXltInvalidationComplete_memWf (hs := hs) ..
  | rnsfailEffect => exact execRnsfailEffect_memWf (hs := hs) ..
  | attestationReport => exact execAttestationReport_memWf (hs := hs) ..
  | preemptBlock => exact execPreemptBlock_memWf (hs := hs) ..
  | resume => exact execResume_memWf (hs := hs) ..
  | discard => exact execDiscard_memWf (hs := hs) ..
  | checkpointLaunch => exact execCheckpointLaunch_memWf (hs := hs) ..
  | runCommand => exact execRunCommand_memWf (hs := hs) ..
  | loadCommand => exact execLoadCommand_memWf (hs := hs) ..
  | unloadCommand => exact execUnloadCommand_memWf (hs := hs) ..
  | clusterPlacement => exact execClusterPlacement_memWf (hs := hs) ..
  | drain => exact execDrain_memWf (hs := hs) ..
  | blockRetirement => exact execBlockRetirement_memWf (hs := hs) ..
  | runCompletion => exact execRunCompletion_memWf (hs := hs) ..
  | quantumBoundary => exact execQuantumBoundary_memWf (hs := hs) ..
  | standingBoundary => exact execStandingBoundary_memWf (hs := hs) ..
  | deferredJournalEntry => exact execDeferredJournalEntry_memWf (hs := hs) ..
  | relaxationPlacement => exact execRelaxationPlacement_memWf (hs := hs) ..
  | relaxationRetirement => exact execRelaxationRetirement_memWf (hs := hs) ..
  | relaxationKill => exact execRelaxationKill_memWf (hs := hs) ..
  | inputLanding => exact execInputLanding_memWf (hs := hs) ..
  | snapshotServe => exact execSnapshotServe_memWf (hs := hs) ..
  | unloadCompletion => exact execUnloadCompletion_memWf (hs := hs) ..
  | residualEntryError => exact execResidualEntryError_memWf (hs := hs) ..
  | reservedMessage => exact execReservedMessage_memWf (hs := hs) ..
  | messageGrant => exact execMessageGrant_memWf (hs := hs) ..
  | portDown => exact execPortDown_memWf (hs := hs) ..
  | remoteRequestTimeout => exact execRemoteRequestTimeout_memWf (hs := hs) ..
  | loadDataReturn => exact execLoadDataReturn_memWf (hs := hs) ..
  | storeAcknowledgement => exact execStoreAcknowledgement_memWf (hs := hs) ..
  | l1LeaseEnd => exact execL1LeaseEnd_memWf (hs := hs) ..
  | pageWalk => exact execPageWalk_memWf (hs := hs) ..
  | copyJobStart => exact execCopyJobStart_memWf (hs := hs) ..
  | copyJobFault => exact execCopyJobFault_memWf (hs := hs) ..
  | copyJobCompletion => exact execCopyJobCompletion_memWf (hs := hs) ..
  | matrixOperationRetirement => exact execMatrixOperationRetirement_memWf (hs := hs) ..
  | pairOperationFollowerStart => exact execPairOperationFollowerStart_memWf (hs := hs) ..
  | pinAllocation => exact execPinAllocation_memWf (hs := hs) ..
  | pressureSpill => exact execPressureSpill_memWf (hs := hs) ..
  | governorWindow => exact execGovernorWindow_memWf (hs := hs) ..
  | backoffExpiry => exact execBackoffExpiry_memWf (hs := hs) ..
  | starvation => exact execStarvation_memWf (hs := hs) ..
  | timerTrap => exact execTimerTrap_memWf (hs := hs) ..
  | blockHalt => exact execBlockHalt_memWf (hs := hs) ..
  | trapRecordPosting => exact execTrapRecordPosting_memWf (hs := hs) ..
  | repost => exact execRepost_memWf (hs := hs) ..
  | rollback => exact execRollback_memWf (hs := hs) ..
  | reservedCommand => exact execReservedCommand_memWf (hs := hs) ..

/-! ### Fetch -/

@[simp] theorem State.codeWord_mem (s : State) (w : Wave) (l : Launch) (a : Nat) :
    (s.codeWord w l a).2.mem = s.mem := by
  unfold State.codeWord
  (repeat' split) <;> simp

@[simp] theorem State.fetchAt_mem (s : State) (key : Nat) (w : Wave) (l : Launch) (va : Nat) :
    (s.fetchAt key w l va).Holds fun t => t.mem = s.mem := by
  unfold State.fetchAt
  (repeat' split) <;> grind [State.lookup_mem, State.awaitWalks_mem, State.codeWord_mem, CodeFetch.Holds, Looked.Holds]

@[simp] theorem State.fetchFault_mem (s : State) (key : Nat) (w : Wave) (k : Nat) :
    (s.fetchFault key w k).mem = s.mem := by
  unfold State.fetchFault
  (repeat' split) <;> simp

@[simp] theorem State.fetchInstr_mem (s : State) (key : Nat) (w : Wave) (l : Launch) :
    (s.fetchInstr key w l).Holds fun t => t.mem = s.mem := by
  unfold State.fetchInstr
  (repeat' split) <;> grind [State.fetchAt_mem, CodeFetch.Holds, Ready.Holds]

/-! ### Turns -/

@[simp] theorem State.recount_mem (s : State) (since : Nat) : (s.recount since).mem = s.mem := rfl

/-! ### The step -/

@[simp] theorem State.settled_memWf (ver : Nat) (quiet : Bool) (t : State) (ht : Memory.wf t.mem = true) :
    Memory.wf (State.settled ver quiet t).mem = true := by
  unfold State.settled
  extract_lets u
  split
  · exact ht
  · exact u.serveBehind_memWf ht

theorem finish_holds {P : State → Prop} {f : State → State} {o : Host.Outcome State Fault Refusal} (ho : nextHolds P o)
    (hf : ∀ t, P t → P (f t)) : nextHolds P (finish f o) := by
  cases o with
  | next t => exact hf t ho
  | fault x => trivial
  | refused x => trivial

theorem State.happen_memWf (s : State) (i : Instr) (subj : Subject) (hs : Memory.wf s.mem = true) :
    nextHolds State.MemCanon (s.happen i subj) :=
  finish_holds (exec_memWf i (s := { s with cur := none, subj := subj }) hs) fun t ht => t.settled_memWf s.ver false ht

@[simp] theorem State.undoCloses_mem (u : State) (key : Nat) (w : Wave) : (State.undoCloses u key w).mem = u.mem := by
  unfold State.undoCloses
  (repeat' split) <;> simp

@[simp] theorem State.issued_memWf (s : State) (w : Wave) (l : Launch) (key : Nat) (u : State)
    (hs : Memory.wf s.mem = true) (hu : Memory.wf u.mem = true) :
    Memory.wf (s.issued w l key u).mem = true := by
  unfold State.issued
  (repeat' split) <;> simp [hu]

theorem State.issueFrom_memWf (s : State) (key : Nat) (w : Wave) (l : Launch) (hs : Memory.wf s.mem = true) :
    nextHolds State.MemCanon (s.issueFrom key w l) := by
  have settle (t : State) (ht : Memory.wf t.mem = true) : nextHolds State.MemCanon (.next (t.settled s.ver false)) :=
    t.settled_memWf s.ver false ht
  have hf := s.fetchInstr_mem key w l
  unfold State.issueFrom
  split
  · exact settle _ (by simpa using hs)
  split
  · exact settle _ (by simpa using hs)
  · exact settle _ (by simpa using hs)
  · next t e => exact settle t (by rw [e] at hf; exact (congrArg Memory.wf hf).trans hs)
  · next i t e =>
    have ht : Memory.wf t.mem = true := by rw [e] at hf; exact (congrArg Memory.wf hf).trans hs
    exact finish_holds (exec_memWf i (s := { t with cur := some key }) ht) fun u hu => s.issued_memWf w l key u hs hu

theorem State.section_memWf (s : State) (core sect : Nat) (hs : Memory.wf s.mem = true) :
    nextHolds State.MemCanon (s.section core sect) := by
  unfold State.section
  (repeat' split) <;> grind [State.settled_memWf, State.issueFrom_memWf, nextHolds, State.MemCanon]

theorem State.auto_memWf (s : State) (hs : Memory.wf s.mem = true) : nextHolds State.MemCanon s.auto := by
  unfold State.auto
  split
  · exact s.happen_memWf _ _ hs
  split
  · exact s.section_memWf _ _ hs
  · exact State.settled_memWf s.ver false { s with now := s.now + 1 } hs

@[simp] theorem State.after_mem (s : State) (c : Choice) : (s.after c).mem = s.mem := by
  unfold State.after
  split <;> rfl

theorem step_memWf {s : State} (hs : s.MemCanon) : nextHolds State.MemCanon (step s) := by
  unfold step
  split
  · exact s.auto_memWf hs
  next c rest _ =>
  have ht : Memory.wf (State.mem { s.after c with sched := rest }) = true :=
      (congrArg Memory.wf (s.after_mem c)).trans hs
  dsimp only
  split
  · exact State.auto_memWf _ ht
  · exact State.section_memWf _ _ _ ht
  · exact State.happen_memWf _ _ _ ht

/-- Settles O59, by a walk through the machine's functions: each of them leaves memory as it was, or writes it only
through `State.poke`, which keeps it canonical; power on and off leave it empty. -/
theorem memoryStaysCanonical : Obligations.MemoryStaysCanonical := by
  intro s t hs e
  have h := step_memWf hs
  rwa [e] at h

end Sys2Proof.Machine
end

section
namespace Sys2Proof.Machine
open Sys2Proof

/-! ## The module (R13, R154, R400, R401, R403) -/

/-! ### Tables -/

/-- What a table gives at a key is one of its entries. -/
theorem KMap.mem_of_get? {α : Type} {m : KMap α} {k : Nat} {v : α} (h : m.get? k = some v) : (k, v) ∈ m := by
  induction m with
  | nil => nomatch h
  | cons e m ih =>
    obtain ⟨j, u⟩ := e
    unfold KMap.get? at h
    split at h
    · next e => cases h; cases e; exact List.mem_cons_self
    split at h
    · nomatch h
    · exact List.mem_cons_of_mem _ (ih h)

/-- Each entry of a table whose keys rise above a bound has a key above it. -/
theorem KMap.lt_of_mem_above {α : Type} {m : KMap α} {b k : Nat} {v : α} (hm : KMap.above (some b) m = true)
    (h : (k, v) ∈ m) : b < k := by
  induction m generalizing b with
  | nil => nomatch h
  | cons e m ih =>
    simp only [KMap.above, Bool.and_eq_true, decide_eq_true_eq] at hm
    rcases List.mem_cons.mp h with rfl | h
    · exact hm.1
    · exact lt_trans hm.1 (ih hm.2 h)

/-- An entry of a table whose keys rise is what the table gives at its key. -/
theorem KMap.get?_of_mem {α : Type} {m : KMap α} {k : Nat} {v : α} (hm : m.wf = true) (h : (k, v) ∈ m) :
    m.get? k = some v := by
  induction m with
  | nil => nomatch h
  | cons e m ih =>
    obtain ⟨j, u⟩ := e
    rcases List.mem_cons.mp h with h | h
    · cases h; simp [KMap.get?]
    · have hj : j < k := KMap.lt_of_mem_above (v := v) hm h
      have hw : KMap.wf m = true := by
        cases m with
        | nil => rfl
        | cons e m => simp only [KMap.wf, KMap.above, Bool.and_eq_true] at hm ⊢; exact hm.2
      simp [KMap.get?, hj.ne', Nat.not_lt.mpr hj.le, ih hw h]

/-- Every core of a machine has a property that the reset core and every listed core have. -/
theorem State.core_of_all {s : State} {P : Core → Prop} (h0 : P Core.reset) (h : ∀ e ∈ s.cores, P e.2) (c : Nat) :
    P (s.core c) := by
  unfold State.core KMap.getD
  cases e : KMap.get? s.cores c with
  | none => exact h0
  | some k => exact h _ (KMap.mem_of_get? e)

/-- A change of a core that gives something other than the reset core, read back. -/
theorem State.core_modCore_same {s : State} (c : Nat) (f : Core → Core) (h : f (s.core c) ≠ Core.reset) :
    (s.modCore c f).core c = f (s.core c) := by
  unfold State.modCore KMap.put
  rw [if_neg h]
  exact KMap.getD_set_self _ _ _ _

/-! ### Bring-up -/

/-- The lane maps after one section has been tested. -/
def laneFound (m : KMap (BitVec 15)) (x : LaneTest) : KMap (BitVec 15) :=
  if x.sect < 768 ∧ mapOk (x.fail2 ++ (0 : BitVec 1) ++ x.fail1) = true then
    m.put mapNone x.sect (x.fail2 ++ (0 : BitVec 1) ++ x.fail1)
  else m

theorem wf_laneFound {m : KMap (BitVec 15)} (x : LaneTest) (h : m.wf = true) : (laneFound m x).wf = true := by
  unfold laneFound
  split
  · exact KMap.wf_put _ _ h
  · exact h

theorem getD_laneFound_ne {m : KMap (BitVec 15)} {x : LaneTest} {n : Nat} (h : m.wf = true) (hn : n ≠ x.sect) :
    (laneFound m x).getD n mapNone = m.getD n mapNone := by
  unfold laneFound
  split
  · rw [KMap.getD_put _ _ _ h, if_neg hn]
  · rfl

/-- The lane test records what it finds section by section, and the sections adopt it (R401 step 2). -/
theorem State.laneTest_eq (s : State) (lanes : List LaneTest) : ∃ cs, s.laneTest lanes =
    { s with ctl := { s.ctl with lmaps := lanes.foldl laneFound s.ctl.lmaps }, cores := cs } := by
  unfold State.laneTest
  induction lanes generalizing s with
  | nil => exact ⟨s.cores, rfl⟩
  | cons x xs ih =>
    rw [List.foldl_cons, List.foldl_cons]
    obtain ⟨cs, e⟩ := ih (if x.sect < 768 ∧ mapOk (x.fail2 ++ (0 : BitVec 1) ++ x.fail1) = true then
      (s.modCtl fun k => { k with
        lmaps := k.lmaps.put mapNone x.sect (x.fail2 ++ (0 : BitVec 1) ++ x.fail1) }).adoptMap (x.sect / 4) (x.sect % 4)
      else s)
    refine ⟨cs, e.trans ?_⟩
    unfold laneFound
    split <;> rfl

/-- A section that is not tested keeps its map. -/
theorem foldl_laneFound_other {lanes : List LaneTest} {m : KMap (BitVec 15)} {n : Nat} (h : m.wf = true)
    (hn : n ∉ lanes.map LaneTest.sect) : (lanes.foldl laneFound m).getD n mapNone = m.getD n mapNone := by
  induction lanes generalizing m with
  | nil => rfl
  | cons x xs ih =>
    simp only [List.map_cons, List.mem_cons, not_or] at hn
    rw [List.foldl_cons, ih (wf_laneFound x h) hn.2, getD_laneFound_ne h hn.1]

/-- A section that is tested once has the map that the test finds, when it is a valid one. -/
theorem foldl_laneFound {lanes : List LaneTest} {m : KMap (BitVec 15)} {x : LaneTest} (h : m.wf = true)
    (hd : (lanes.map LaneTest.sect).Nodup) (hx : x ∈ lanes) (hs : x.sect < 768)
    (hm : mapOk (x.fail2 ++ (0 : BitVec 1) ++ x.fail1) = true) :
    (lanes.foldl laneFound m).getD x.sect mapNone = x.fail2 ++ (0 : BitVec 1) ++ x.fail1 := by
  induction lanes generalizing m with
  | nil => nomatch hx
  | cons y ys ih =>
    rw [List.map_cons, List.nodup_cons] at hd
    rw [List.foldl_cons]
    rcases List.mem_cons.mp hx with rfl | hx
    · rw [foldl_laneFound_other (wf_laneFound x h) hd.1, laneFound, if_pos ⟨hs, hm⟩, KMap.getD_put _ _ _ h, if_pos rfl]
    · exact ih (wf_laneFound y h) hd.2 hx

/-- The LIVE bits that are left when those of the dead cores are cleared. -/
theorem liveMask_getLsbD (dead : List Nat) (m : BitVec 192) (n : Nat) (hn : n < 192) :
    (dead.foldl (fun m c => m &&& ~~~((1 : BitVec 192) <<< c)) m).getLsbD n = (m.getLsbD n && !dead.contains n) := by
  induction dead generalizing m with
  | nil => simp
  | cons c cs ih =>
    have hb : (~~~((1 : BitVec 192) <<< c)).getLsbD n = !decide (n = c) := by
      rcases Nat.lt_trichotomy n c with h | rfl | h
      · simp [hn, h, h.ne]
      · simp [hn]
      · simp [hn, Nat.not_lt.mpr h.le, h.ne', Nat.sub_ne_zero_of_lt h]
    rw [List.foldl_cons, ih, BitVec.getLsbD_and, hb, List.contains_cons, Bool.not_or, Bool.and_assoc]
    rfl

/-! ### Soft errors (R154, R395) -/

/-- A walk over a list, none of whose steps changes the state. -/
theorem foldl_of_unchanged {α β : Type} {f : α → β → α} {a : α} {xs : List β} (h : ∀ x ∈ xs, f a x = a) :
    xs.foldl f a = a := by
  induction xs with
  | nil => rfl
  | cons x xs ih =>
    rw [List.foldl_cons, h x List.mem_cons_self]
    exact ih fun y hy => h y (List.mem_cons_of_mem _ hy)

/-- With no access under way, an error strikes at once. -/
theorem State.readFirst_of_quiet {s : State} (h : ∀ e ∈ s.waves, e.2.outst = []) (hit : Loc → Nat → Bool) :
    s.readFirst hit = s :=
  foldl_of_unchanged fun e he => by rw [h e he]; rfl

/-- A clean copy that the step's choice picks is one of those there are. -/
theorem State.pick_mem_cleanHolders {s : State} {n : Nat} (h : s.cleanHolders n ≠ []) :
    (s.cleanHolders n).getD (s.pick % (s.cleanHolders n).length) none ∈ s.cleanHolders n := by
  have hl : s.pick % (s.cleanHolders n).length < (s.cleanHolders n).length :=
    Nat.mod_lt _ (List.length_pos_iff.mpr h)
  rw [List.getD_eq_getElem _ _ hl]
  exact List.getElem_mem hl

theorem State.none_mem_cleanHolders {s : State} {n : Nat} (h : none ∈ s.cleanHolders n) : s.l2.get? n = some false := by
  unfold State.cleanHolders at h
  by_contra hc
  simp [hc] at h

/-- A copy that an error drops is of the line, clean, and none other goes (R154). -/
theorem State.dropHolder_spec {s : State} {n : Nat} {o : Option Nat} (hr : s.TablesRise) (h2 : KMap.wf s.l2 = true)
    (h1 : ∀ e ∈ s.cores, KMap.wf e.2.l1 = true) (ho : o ∈ s.cleanHolders n) :
    { s.dropHolder n o with ctl := s.ctl, l2 := s.l2, views := s.views, cores := s.cores } = s ∧
    (s.dropHolder n o).ctl = s.ctl ∧
    (o = none → s.l2.get? n = some false ∧ (s.dropHolder n o).l2.get? n = none ∧ (s.dropHolder n o).cores = s.cores) ∧
    (∀ c, o = some c → ((s.dropHolder n o).core c).l1.get? n = none ∧ (s.dropHolder n o).l2 = s.l2 ∧
      (s.dropHolder n o).views = s.views ∧ ∀ d, d ≠ c → (s.dropHolder n o).core d = s.core d) ∧
    (∀ k, k ≠ n → (s.dropHolder n o).l2.get? k = s.l2.get? k) ∧
    ∀ c k, k ≠ n → ((s.dropHolder n o).core c).l1.get? k = (s.core c).l1.get? k := by
  have hl1 (c : Nat) : KMap.wf (s.core c).l1 = true := State.core_of_all (P := fun k => KMap.wf k.l1 = true) rfl h1 c
  cases o with
  | none =>
    refine ⟨rfl, rfl, fun _ => ⟨State.none_mem_cleanHolders ho, ?_, rfl⟩, nofun, fun k hk => ?_, fun _ _ _ => rfl⟩
    · exact (KMap.get?_erase h2).trans (if_pos rfl)
    · exact (KMap.get?_erase h2).trans (if_neg hk)
  | some c =>
    have hc (d : Nat) : (s.dropHolder n (some c)).core d = if d = c then { s.core c with l1 := (s.core c).l1.erase n }
        else s.core d := State.core_modCore c d _ hr.1
    refine ⟨rfl, rfl, nofun, ?_, fun _ _ => rfl, fun d k hk => ?_⟩
    · rintro _ ⟨⟩
      refine ⟨?_, rfl, rfl, fun d hd => by rw [hc, if_neg hd]⟩
      rw [hc, if_pos rfl]
      exact (KMap.get?_erase (hl1 c)).trans (if_pos rfl)
    · rw [hc]
      split
      · next e => subst e; exact (KMap.get?_erase (hl1 d)).trans (if_neg hk)
      · rfl

/-- Bring-up up to the end of the measurement (R401 steps 1, 3 and 4). -/
def State.brought (s : State) (sigOk : Bool) : State :=
  State.modCtl { s.dark with powered := true } fun k => { k with
    measured := true
    fwbad := !sigOk
    mgmtDigest := sha512 (Config.mgmtImage s.ver)
    deviceDigest := sha512 (Config.deviceImage s.ver sigOk) }

/-- Bring-up whose signature is good goes on to READY, from what the lane test and the tests of the cores find. -/
theorem exec_powerOn {s : State} (sigOk : Bool) (lanes : List LaneTest) (dead : List Nat) (h : s.powered = false) :
    exec (.powerOn sigOk lanes dead) s = .next (if sigOk then ((s.brought sigOk).laneTest lanes).modCtl fun k => { k with
        ready := true
        coreLive := dead.foldl (fun m c => m &&& ~~~((1 : BitVec 192) <<< c)) (BitVec.allOnes 192)
        portDown := if 144 ≤ Config.dev.toNat then BitVec.allOnes 16 else 0 }
      else s.brought sigOk) :=
  congrArg Host.Outcome.next (if_neg (by simp [h]))

/-! ### The obligation -/

theorem exec_powerOn_spec {s : State} (sigOk : Bool) (lanes : List LaneTest) (dead : List Nat) (h : s.powered = false) :
    ∃ t, exec (.powerOn sigOk lanes dead) s = .next t ∧ t.powered = true ∧ t.mem = [] ∧
      t.waves = [] ∧ t.blocks = [] ∧ t.launches = [] ∧ t.programs = [] ∧ t.residuals = [] ∧ t.now = 0 ∧
      t.generation = 1 ∧ t.ctl.measured = true ∧ t.ctl.fwbad = !sigOk ∧ t.ctl.ready = sigOk ∧
      t.ctl.mgmtDigest = sha512 (Config.mgmtImage s.ver) ∧ t.ctl.deviceDigest = sha512 (Config.deviceImage s.ver sigOk) ∧
      (sigOk = true →
        (∀ n, n < 192 → t.ctl.coreLive.getLsbD n = !dead.contains n) ∧
        (144 ≤ Config.dev.toNat → t.cutOff = true) ∧
        ((lanes.map LaneTest.sect).Nodup → ∀ x ∈ lanes, x.sect < 768 →
          let m : BitVec 15 := x.fail2 ++ (0 : BitVec 1) ++ x.fail1
          mapOk m = true → t.lmap x.sect = m)) := by
  refine ⟨_, exec_powerOn sigOk lanes dead h, ?_⟩
  cases sigOk with
  | false => exact ⟨rfl, rfl, rfl, rfl, rfl, rfl, rfl, rfl, rfl, rfl, rfl, rfl, rfl, rfl, nofun⟩
  | true =>
    obtain ⟨cs, e⟩ := (s.brought true).laneTest_eq lanes
    rw [if_pos rfl, e]
    refine ⟨rfl, rfl, rfl, rfl, rfl, rfl, rfl, rfl, rfl, rfl, rfl, rfl, rfl, rfl, fun _ => ⟨fun n hn => ?_, fun hd => ?_, ?_⟩⟩
    · exact (liveMask_getLsbD dead _ n hn).trans (by rw [BitVec.getLsbD_allOnes]; simp [hn])
    · exact decide_eq_true (if_pos hd)
    · intro hd x hx hs m hm
      exact foldl_laneFound rfl hd hx hs hm

/-- In a module that has power, an error strikes. -/
theorem exec_softError {s : State} (h : s.powered = true) (e : SoftError) :
    exec (.softError e) s = .next (s.strike e) := congrArg Host.Outcome.next (if_pos h)

/-- An error that drops a clean copy, and is counted (R154). -/
theorem strike_line_clean {s : State} {n : Nat} (single : Bool) (hh : s.hit = true) (hc : s.cleanHolders n ≠ []) :
    s.strike (.line n single) = (s.dropClean n).corrected := if_pos (by simp [hh, hc])

/-- An error of one bit in a line that is held nowhere clean is only counted; another poisons the line. -/
theorem strike_line {s : State} {n : Nat} (single : Bool) (hc : s.hit = false ∨ s.cleanHolders n = []) :
    s.strike (.line n single) = if single then s.corrected else
      { s.readFirst (meetsMem (64 * n) 64) with poison := (s.readFirst (meetsMem (64 * n) 64)).poison.set n () } :=
  if_neg (by rcases hc with hc | hc <;> simp [hc])

theorem State.modBlock_of_get? {s : State} {b : Nat} {blk : Block} (h : s.blocks.get? b = some blk) (f : Block → Block) :
    s.modBlock b f = { s with blocks := s.blocks.set b (f blk) } := by
  simp [State.modBlock, KMap.modify, h]

theorem State.modWave_of_get? {s : State} {k : Nat} {w : Wave} (h : s.waves.get? k = some w) (f : Wave → Wave) :
    s.modWave k f = { s with waves := s.waves.set k (f w) } := by
  simp [State.modWave, KMap.modify, h]

/-- The bit that a strike of a lane sets. -/
theorem getLsbD_or_lane (m : Mask) {lane i : Nat} (hi : i < 64) :
    (m ||| ((1 : Mask) <<< lane)).getLsbD i = (m.getLsbD i || decide (i = lane)) := by
  rw [BitVec.getLsbD_or]
  congr 1
  rcases Nat.lt_trichotomy i lane with h | rfl | h
  · simp [h, h.ne]
  · simp [hi]
  · simp [Nat.not_lt.mpr h.le, h.ne', Nat.sub_ne_zero_of_lt h]

/-- The struck lanes of a wave's registers after one more (R395). -/
theorem getD_struck (m : KMap Mask) (r q : Nat) {lane i : Nat} (hl : lane < 64) (hi : i < 64) :
    ((m.put 0 r (m.getD r 0 ||| ((1 : Mask) <<< lane))).getD q 0).getLsbD i =
      ((m.getD q 0).getLsbD i || (decide (q = r) && decide (i = lane))) := by
  have hn : m.getD r 0 ||| ((1 : Mask) <<< lane) ≠ 0 := fun e => by
    have hb := getLsbD_or_lane (lane := lane) (m.getD r 0) hl
    rw [e] at hb
    simp at hb
  rw [KMap.put, if_neg hn]
  by_cases h : q = r
  · subst h
    rw [KMap.getD_set_self, getLsbD_or_lane _ hi, decide_eq_true rfl, Bool.true_and]
  · simp [KMap.getD_set_ne _ _ _ h, h]

/-- Settles O55: bring-up by what its lane test and its tests of the cores find, the other events by the one thing that each
changes. -/
theorem moduleLives : Obligations.ModuleLives := by
  unfold Obligations.ModuleLives
  intro s
  refine ⟨rfl, fun sigOk lanes dead => ⟨fun h => ?_, exec_powerOn_spec sigOk lanes dead⟩, fun h a b => ?_,
    fun h a b => ?_, fun h e => ?_, fun h => ⟨fun n b w r lane => ?_, fun n single hh hc hr h2 h1 => ?_, fun hq n => ?_,
    fun b n v blk hb ha => ?_, fun core entry n v x hx he => ?_, fun k w hw => ?_⟩⟩
  · simp [exec, execPowerOn, h]
  · simp [exec, execThermalLimit, execThermalClear, execPowerCapEnforce, h]
  · simp [exec, execThermalLimit, execThermalClear, execPowerCapEnforce, h, State.modCtl, inletOk]
  · simp [exec, execSoftError, h]
  · simp only [exec_softError h]
    exact ⟨fun hc => congrArg _ (strike_line true hc), rfl, rfl, rfl⟩
  · obtain ⟨hf, hk, hs⟩ := State.dropHolder_spec hr h2 h1 (State.pick_mem_cleanHolders hc)
    refine ⟨_, _, (exec_softError h _).trans (congrArg _ (strike_line_clean single hh hc)), State.pick_mem_cleanHolders hc,
      hf, congrArg (fun k : Ctl => { k with corrected := k.corrected + 1 }) hk, hs⟩
  · simp only [exec_softError h]
    refine ⟨fun hc => ?_, ?_, fun b blk hb => ?_⟩
    · rw [strike_line false hc]
      simp [State.readFirst_of_quiet hq]
    · simp [State.strike, State.readFirst_of_quiet hq]
    · simp [State.strike, State.readFirst_of_quiet hq, State.modBlock_of_get? hb]
  · refine ⟨_, { blk with acc := blk.acc.put 0 n v }, exec_softError h _, rfl, ?_, rfl, fun i => ?_, fun k hk => ?_⟩
    · exact KMap.get?_modify_self _ hb
    · exact KMap.getD_put n i v (Bool.and_eq_true_iff.mp ha).1
    · exact KMap.get?_modify_ne _ _ hk
  · have hn : ({ s.core core with
        tenures := (s.core core).tenures.modify entry fun t => { t with elems := t.elems.put 0 n v } } : Core) ≠ Core.reset :=
      fun e => by simpa [KMap.get?_modify_self _ hx, Core.reset] using congrArg (fun k : Core => k.tenures.get? entry) e
    refine ⟨_, { x with elems := x.elems.put 0 n v }, exec_softError h _, rfl, ?_, rfl, fun i => ?_⟩
    · exact (congrArg (fun k : Core => k.tenures.get? entry) (State.core_modCore_same core _ hn)).trans
        (KMap.get?_modify_self _ hx)
    · exact KMap.getD_put n i v (Bool.and_eq_true_iff.mp he).1
  · refine ⟨?_, fun r lane hl => ?_⟩
    · rw [exec_softError h, State.strike, State.modWave_of_get? hw]
    · refine ⟨_, _, exec_softError h _, rfl, KMap.get?_modify_self _ hw, rfl, rfl, fun q i hi => ?_⟩
      exact getD_struck w.struck r q hl hi

end Sys2Proof.Machine
end

section
namespace Sys2Proof.Machine
open Sys2Proof

/-! ## Translation invalidations (R160) -/

/-- A table whose values are all changed alike. -/
theorem KMap.get?_map {α β : Type} (m : KMap α) (f : α → β) (k : Nat) :
    KMap.get? (m.map fun e => (e.1, f e.2)) k = (m.get? k).map f := by
  induction m with
  | nil => rfl
  | cons e m ih =>
    obtain ⟨j, v⟩ := e
    simp only [List.map_cons, KMap.get?, ih]
    (repeat' split) <;> rfl

/-- A table of which the entries with some keys are kept. -/
theorem KMap.get?_filter_keys {α : Type} {m : KMap α} (hm : m.wf = true) (p : Nat → Bool) (k : Nat) :
    KMap.get? (m.filter fun e => p e.1) k = if p k then m.get? k else none := by
  induction m with
  | nil => simp [KMap.get?]
  | cons e m ih =>
    obtain ⟨j, v⟩ := e
    have hw : KMap.wf m = true := by
      cases m with
      | nil => rfl
      | cons e m => simp only [KMap.wf, KMap.above, Bool.and_eq_true] at hm ⊢; exact hm.2
    have hlow : k ≤ j → KMap.get? m k = none := KMap.get?_none_of_above hm
    rcases Nat.lt_trichotomy k j with h | rfl | h
    · by_cases hp : p j <;> simp [hp, KMap.get?, h, h.ne, ih hw, hlow h.le]
    · by_cases hp : p k <;> simp [hp, KMap.get?, ih hw]
    · by_cases hp : p j <;> simp [hp, KMap.get?, h.ne', h.not_gt, ih hw]

/-- All cores changed alike, by a change that leaves a core at reset as it is. -/
theorem State.core_map {s t : State} {f : Core → Core} (hf : f Core.reset = Core.reset)
    (ht : t.cores = s.cores.map fun e => (e.1, f e.2)) (c : Nat) : t.core c = f (s.core c) := by
  unfold State.core KMap.getD
  rw [ht, KMap.get?_map]
  cases KMap.get? s.cores c with
  | none => exact hf.symm
  | some k => rfl

/-- An invalidation drops from each core what it covers (R160). -/
theorem State.tlb_dropXlates (s : State) (job : Nat × Nat × Nat) (c : Nat) :
    ((s.dropXlates job).core c).tlb = (s.core c).tlb.filter fun x => !xltHit job x := by
  rw [State.core_map (s := s) (t := s.dropXlates job)
    (f := fun k : Core => { k with tlb := k.tlb.filter fun x => !xltHit job x }) rfl rfl]

/-- A walk's outcome leaves the translations that a core holds. -/
theorem State.tlb_wake (s : State) (key : Nat) (out : Option Nat) (c : Nat) :
    ((s.wake key out).core c).tlb = (s.core c).tlb := by
  rw [State.core_map (s := s) (t := s.wake key out) (f := fun k : Core => { k with
      jobs := k.jobs.map fun j => { j with
        walking := (walkEnds key out j.walking j.walkOut).1, walkOut := (walkEnds key out j.walking j.walkOut).2 }
      ops := k.ops.map fun o => { o with
        walking := (walkEnds key out o.walking o.walkOut).1, walkOut := (walkEnds key out o.walking o.walkOut).2 } }) rfl rfl]

/-- What an invalidation covers, in words: all, an address space, or one page of it (R160). -/
theorem xltHit_iff (scope asid va : Nat) (x : Xlate) : xltHit (scope, asid, va) x = true ↔
    scope = 2 ∨ (x.asid = asid ∧ (scope = 1 ∨ (x.va ≤ va ∧ va < x.va + x.size))) := by
  simp only [xltHit, Xlate.covers, Bool.or_eq_true, Bool.and_eq_true, decide_eq_true_eq]
  tauto

/-- What the walks that an invalidation covers leave as it was when they are given up. -/
theorem foldl_wake_frame (ks : List Walk) (s : State) : ∃ ws cs,
    ks.foldl (fun (t : State) k => t.wake (walkKey k.asid (k.page * 2 ^ 13)) none) s = { s with waves := ws, cores := cs } ∧
    ∀ c, (({ s with waves := ws, cores := cs } : State).core c).tlb = (s.core c).tlb := by
  induction ks generalizing s with
  | nil => exact ⟨s.waves, s.cores, rfl, fun _ => rfl⟩
  | cons k ks ih =>
    obtain ⟨ws, cs, e, h⟩ := ih (s.wake (walkKey k.asid (k.page * 2 ^ 13)) none)
    exact ⟨ws, cs, e, fun c => (h c).trans (s.tlb_wake _ _ c)⟩

/-! ### Answers to peers -/

/-- An answer that is given in a state with the same ports and the same messages waiting. -/
theorem State.replied_reply {s u : State} (hg : u.grants = s.grants) (hp : u.ctl.portDown = s.ctl.portDown)
    (kind src : BitVec 16) (tag : Word) (a : Nat) (status : Byte) (data : List Byte) :
    s.Replied (u.reply kind src tag a status data) kind src tag a status data := by
  have hf : u.portFor = s.portFor := by unfold State.portFor; rw [hp]
  show u.grants ++ [⟨u.portFor (memPlane a), _, _⟩] = _
  rw [hg, hf]
  rfl

/-- The writer that waits is answered once its write has been performed. -/
theorem State.replied_replyWrite {s u : State} (hg : u.grants = s.grants) (hp : u.ctl.portDown = s.ctl.portDown)
    (w : Option WriteReply) : (w = none → (u.replyWrite w).grants = s.grants) ∧
      ∀ y, w = some y → s.Replied (u.replyWrite w) 0x0013 y.src y.tag y.addr 0 [] := by
  refine ⟨?_, ?_⟩
  · rintro rfl; exact hg
  · rintro y rfl; exact State.replied_reply hg hp _ _ _ _ _ _

@[simp] theorem State.replyWrite_ctl (s : State) (w : Option WriteReply) : (s.replyWrite w).ctl = s.ctl := by
  cases w <;> rfl

@[simp] theorem State.replyWrite_core (s : State) (w : Option WriteReply) (c : Nat) :
    (s.replyWrite w).core c = s.core c := by
  cases w <;> rfl

@[simp] theorem State.replyWrite_walks (s : State) (w : Option WriteReply) : (s.replyWrite w).walks = s.walks := by
  cases w <;> rfl

@[simp] theorem State.replyWrite_asids (s : State) (w : Option WriteReply) : (s.replyWrite w).asids = s.asids := by
  cases w <;> rfl

theorem State.replyWrite_frame (s : State) (w : Option WriteReply) : { s.replyWrite w with grants := s.grants } = s := by
  cases w <;> rfl

/-! ### The words -/

/-- A register that answers is written, or its write waits. -/
theorem State.ctlWrite_of_live {s : State} {r : CtlReg} (v : DWord) (h : s.regLive r = true) (hw : s.writeWaits r v = false) :
    s.ctlWrite r v = s.ctlPut r v := by
  simp [State.ctlWrite, h, hw]

theorem State.ctlWrite_of_waits {s : State} {r : CtlReg} {v : DWord} (hw : s.writeWaits r v = true) :
    s.ctlWrite r v = s.keepWrite r v none := by
  simp [State.ctlWrite, hw]

/-- A register that does not answer yet is not written (R400). -/
theorem State.ctlWrite_of_dead {s : State} {r : CtlReg} (v : DWord) (h : s.regLive r = false) : s.ctlWrite r v = s := by
  simp [State.ctlWrite, State.writeWaits, h]

theorem State.regLive_of_ready {s : State} (r : CtlReg) (h : s.ctl.ready = true) : s.regLive r = true := by
  simp [State.regLive, h]

/-- A write of XLTINVC with one of its three scopes: it waits while an invalidation is under way, else begins one. -/
theorem State.ctlWrite_xltC {s : State} {v : DWord} {scope asid : Nat} (h : s.ctl.ready = true)
    (hs : (v.extractLsb' 14 2).toNat = scope) (ha : (v.extractLsb' 0 12).toNat = asid) (h3 : scope ≠ 3) :
    s.ctlWrite .xltC v = if s.ctl.xltBusy then s.modCtl fun k => { k with
        xltWaits := k.xltWaits ++ [⟨scope, asid, k.xltVa.toNat, none⟩] }
      else s.startXlt scope asid s.ctl.xltVa.toNat := by
  have hl := State.regLive_of_ready .xltC h
  cases hb : s.ctl.xltBusy with
  | true =>
    rw [State.ctlWrite_of_waits (by simp [State.writeWaits, hl, hs, h3, hb]), if_pos rfl, State.keepWrite, hs, ha]
  | false =>
    rw [State.ctlWrite_of_live v hl (by simp [State.writeWaits, hb]), if_neg Bool.false_ne_true, State.ctlPut, hs, ha]
    split
    · next e => exact absurd rfl h3
    · rfl

/-- The fields SCOPE and ASID of a value written to XLTINVC, of which only those two are set. -/
theorem xltFields (asid : BitVec 12) (scope : Nat) (hs : scope < 3) {v : DWord} (hv : v.toNat = 2 ^ 14 * scope + asid.toNat) :
    (v.extractLsb' 14 2).toNat = scope ∧ (v.extractLsb' 0 12).toNat = asid.toNat := by
  have ha := asid.isLt
  rw [BitVec.extractLsb'_toNat, BitVec.extractLsb'_toNat, hv, Nat.shiftRight_eq_div_pow, Nat.shiftRight_eq_div_pow]
  omega

theorem toNat_scope_or (asid : BitVec 12) : ((0x4000 : DWord) ||| asid.setWidth 64).toNat = 2 ^ 14 * 1 + asid.toNat := by
  have ha := asid.isLt
  rw [BitVec.toNat_or, BitVec.toNat_setWidth, Nat.mod_eq_of_lt (by omega)]
  exact (Nat.two_pow_add_eq_or_of_lt (i := 14) (by omega) 1).symm

/-- The three invalidation words write XLTINVC (R160). -/
theorem exec_invalidate {i : Instr} {asid : BitVec 12} {scope : Nat} {s : State} (h : s.ctl.ready = true)
    (hi : (i = .xltInvalidatePage asid ∧ scope = 0) ∨ (i = .xltInvalidateAsid asid ∧ scope = 1) ∨
      (i = .xltInvalidateAll ∧ scope = 2 ∧ asid = 0)) :
    exec i s = .next (if s.ctl.xltBusy then s.modCtl fun k => { k with
        xltWaits := k.xltWaits ++ [⟨scope, asid.toNat, k.xltVa.toNat, none⟩] }
      else s.startXlt scope asid.toNat s.ctl.xltVa.toNat) := by
  have ha := asid.isLt
  rcases hi with ⟨rfl, rfl⟩ | ⟨rfl, rfl⟩ | ⟨rfl, rfl, rfl⟩
  · obtain ⟨hs, hf⟩ := xltFields asid 0 (by decide) (v := asid.setWidth 64) (by simp; omega)
    exact congrArg _ (State.ctlWrite_xltC h hs hf (by decide))
  · obtain ⟨hs, hf⟩ := xltFields asid 1 (by decide) (toNat_scope_or asid)
    exact congrArg _ (State.ctlWrite_xltC h hs hf (by decide))
  · exact congrArg _ (State.ctlWrite_xltC h rfl rfl (by decide))

/-- An invalidation that begins has dropped from every cache what it covers, and from none anything else (R160). -/
theorem State.startXlt_spec (s : State) (scope asid va : Nat) :
    let covered (x : Xlate) : Prop := scope = 2 ∨ (x.asid = asid ∧ (scope = 1 ∨ (x.va ≤ va ∧ va < x.va + x.size)))
    (∀ c x, x ∈ ((s.startXlt scope asid va).core c).tlb ↔ x ∈ (s.core c).tlb ∧ ¬ covered x) ∧
      ∀ e ∈ (s.startXlt scope asid va).dieTlb, ∀ x ∈ e.2, ¬ covered x := by
  intro covered
  have hc (x : Xlate) : (!xltHit (scope, asid, va) x) = true ↔ ¬ covered x := by
    rw [Bool.not_eq_true', ← Bool.not_eq_true, xltHit_iff]
  refine ⟨fun c x => ?_, fun e he x hx => ?_⟩
  · rw [show ((s.startXlt scope asid va).core c).tlb = _ from s.tlb_dropXlates (scope, asid, va) c, List.mem_filter, hc]
  · obtain ⟨d, -, rfl⟩ := List.mem_map.mp (show e ∈ s.dieTlb.map _ from he)
    exact (hc x).mp (List.mem_filter.mp hx).2

/-! ### Completion -/

/-- The address space is one that an invalidation covers whole, and no launch uses it (R296). -/
def State.frees (s : State) (job : Nat × Nat × Nat) (a : Nat) : Bool :=
  (decide (job.1 = 2) || (decide (job.1 = 1) && decide (a = job.2.1))) && s.launches.all fun e => decide (e.2.asid ≠ a)

theorem State.frees_iff (s : State) (job : Nat × Nat × Nat) (a : Nat) : s.frees job a = true ↔
    (job.1 = 2 ∨ (job.1 = 1 ∧ a = job.2.1)) ∧ ∀ e ∈ s.launches, e.2.asid ≠ a := by
  simp only [State.frees, Bool.and_eq_true, Bool.or_eq_true, decide_eq_true_eq, List.all_eq_true]

/-- The state once an invalidation has completed: the walks that it covers have been given up, and the address spaces that
it covers whole and that no launch uses are bound no longer (R160, R296). -/
def State.xltDone (s : State) (job : Nat × Nat × Nat) (ws : KMap Wave) (cs : KMap Core) : State :=
  { s.dropXlates job with
    waves := ws
    cores := cs
    walks := s.walks.filter fun k => !walkHit job k
    asids := s.asids.filter fun e => !s.frees job e.1
    ctl := { s.ctl with xltBusy := false, xltJob := none } }

/-- What a completion does: the first write that has waited begins its invalidation and is answered (R160). -/
theorem exec_xltComplete {s : State} {job : Nat × Nat × Nat} (h : s.ctl.xltJob = some job) : ∃ ws cs,
    (∀ c, ((s.xltDone job ws cs).core c).tlb = ((s.dropXlates job).core c).tlb) ∧
    exec .xltInvalidationComplete s = .next (match s.ctl.xltWaits with
      | [] => s.xltDone job ws cs
      | x :: rest => (((s.xltDone job ws cs).modCtl fun k => { k with xltWaits := rest }).startXlt x.scope x.asid
          x.va).replyWrite x.reply) := by
  obtain ⟨ws, cs, e, ht⟩ := foldl_wake_frame ((s.dropXlates job).walks.filter (walkHit job)) (s.dropXlates job)
  refine ⟨ws, cs, ht, ?_⟩
  show Host.Outcome.next _ = _
  rw [h]
  dsimp only
  rw [e]
  rfl

/-- What holds once an invalidation has completed, and when the first that waits has begun (R160, R296). -/
theorem xltInvalidationComplete_spec {s : State} {job : Nat × Nat × Nat} (h : s.ctl.xltJob = some job)
    (ha : KMap.wf s.asids = true) :
    ∃ t, exec .xltInvalidationComplete s = .next t ∧ t.mem = s.mem ∧
      (s.ctl.xltWaits = [] → t.ctl.xltBusy = false ∧ t.ctl.xltJob = none ∧ t.grants = s.grants) ∧
      (∀ x rest, s.ctl.xltWaits = x :: rest → t.ctl.xltBusy = true ∧ t.ctl.xltJob = some (x.scope, x.asid, x.va) ∧
        t.ctl.xltWaits = rest ∧ (x.reply = none → t.grants = s.grants) ∧
        ∀ y, x.reply = some y → s.Replied t 0x0013 y.src y.tag y.addr 0 []) ∧
      (∀ c, ∀ x ∈ (t.core c).tlb, x ∈ (s.core c).tlb ∧ xltHit job x = false) ∧
      (∀ k ∈ t.walks, k ∈ s.walks ∧ walkHit job k = false) ∧
      ∀ a, t.asids.get? a =
        if (job.1 = 2 ∨ (job.1 = 1 ∧ a = job.2.1)) ∧ ∀ e ∈ s.launches, e.2.asid ≠ a then none else s.asids.get? a := by
  obtain ⟨ws, cs, ht, he⟩ := exec_xltComplete h
  have htlb (c : Nat) : ∀ x ∈ ((s.xltDone job ws cs).core c).tlb, x ∈ (s.core c).tlb ∧ xltHit job x = false := by
    intro x hx
    rw [ht, State.tlb_dropXlates] at hx
    simpa using hx
  have hwalk : ∀ k ∈ (s.xltDone job ws cs).walks, k ∈ s.walks ∧ walkHit job k = false := by
    intro k hk
    simpa [State.xltDone] using hk
  have hasid (a : Nat) : KMap.get? (s.xltDone job ws cs).asids a =
      if (job.1 = 2 ∨ (job.1 = 1 ∧ a = job.2.1)) ∧ ∀ e ∈ s.launches, e.2.asid ≠ a then none else s.asids.get? a := by
    refine (KMap.get?_filter_keys ha (fun k => !s.frees job k) a).trans ?_
    simp only [← State.frees_iff]
    cases s.frees job a <;> rfl
  cases hw : s.ctl.xltWaits with
  | nil =>
    rw [hw] at he
    exact ⟨_, he, rfl, fun _ => ⟨rfl, rfl, rfl⟩, nofun, htlb, hwalk, hasid⟩
  | cons x rest =>
    rw [hw] at he
    refine ⟨_, he, ?_, nofun, ?_, fun c y hy => ?_, ?_, ?_⟩
    · simp [State.xltDone]
    · rintro _ _ ⟨⟩
      obtain ⟨h1, h2⟩ := State.replied_replyWrite (s := s) (u := ((s.xltDone job ws cs).modCtl fun k =>
        { k with xltWaits := rest }).startXlt x.scope x.asid x.va) rfl rfl x.reply
      simp only [State.replyWrite_ctl]
      exact ⟨rfl, rfl, rfl, h1, h2⟩
    · rw [State.replyWrite_core, show ∀ u : State, ((u.startXlt x.scope x.asid x.va).core c).tlb = _ from
        fun u => u.tlb_dropXlates (x.scope, x.asid, x.va) c] at hy
      exact htlb c y (List.mem_of_mem_filter hy)
    · rw [State.replyWrite_walks]
      exact hwalk
    · rw [State.replyWrite_asids]
      exact hasid

/-! ## Attestation (R405, R406) -/

/-- A write of 1 to ATCMD: it waits while a report is under way, else begins one, or finds that nothing was measured. -/
theorem exec_attestationReport_go {s : State} (h0 : s.subj.a = 0) (hl : s.ctl.ready = true ∨ s.ctl.measured = true) :
    exec .attestationReport s = .next (if s.ctl.atBusy then s.modCtl fun k => { k with atWaits := k.atWaits ++ [none] }
      else s.attest) := by
  have hr : s.regLive .atCmd = true := by rcases hl with hl | hl <;> simp [State.regLive, CtlReg.early, hl]
  refine (congrArg Host.Outcome.next (if_pos h0)).trans (congrArg _ ?_)
  cases hb : s.ctl.atBusy with
  | true => exact State.ctlWrite_of_waits (by simp [State.writeWaits, hr, hb])
  | false => exact State.ctlWrite_of_live _ hr (by simp [State.writeWaits, hb])

theorem State.attest_of_measured {s : State} (h : s.ctl.measured = true) :
    s.attest = s.modCtl fun k => { k with atBusy := true, atEnd := none } := if_pos h

theorem State.attest_of_unmeasured {s : State} (h : s.ctl.measured = false) :
    s.attest = s.modCtl fun k => { k with atRes := 1 } := if_neg (by simp [h])

/-- A report that is under way goes on. -/
theorem exec_attestationReport_on {s : State} (h0 : s.subj.a ≠ 0) : exec .attestationReport s = .next s.attestOn :=
  congrArg Host.Outcome.next (if_neg h0)

theorem State.attestOn_idle {s : State} (h : s.ctl.atBusy = false) : s.attestOn = s := by
  simp [State.attestOn, h]

theorem State.attestOn_early {s : State} {v : Nat} (h : s.ctl.atBusy = true) (he : s.ctl.atEnd = some v) (hv : s.now < v) :
    s.attestOn = s := by
  simp [State.attestOn, h, he, hv]

theorem State.attestOn_done {s : State} {v : Nat} (h : s.ctl.atBusy = true) (he : s.ctl.atEnd = some v) (hv : v ≤ s.now) :
    s.attestOn = match s.ctl.atWaits with
      | [] => s.modCtl fun k => { k with atRes := 0, atBusy := false, atEnd := none }
      | w :: rest => ((s.modCtl fun k =>
          { k with atRes := 0, atBusy := false, atEnd := none, atWaits := rest }).attest).replyWrite w := by
  simp only [State.attestOn, h, he, Nat.not_lt.mpr hv, Bool.not_true, Bool.false_eq_true, if_false]
  rfl

/-! ### The bytes of a report -/

/-- Bytes that stand behind a prefix. -/
theorem slice_append {xs ys : List Byte} {off n : Nat} (h : xs.length ≤ off) :
    ((xs ++ ys).drop off).take n = (ys.drop (off - xs.length)).take n := by
  rw [List.drop_append, List.drop_of_length_le h, List.nil_append]

/-- Bytes that stand first. -/
theorem slice_head {xs ys : List Byte} {n : Nat} (h : xs.length = n) : ((xs ++ ys).drop 0).take n = xs := by
  subst h
  exact List.take_left

theorem leAt_append {xs ys : List Byte} {off n : Nat} (h : xs.length ≤ off) :
    leAt (xs ++ ys) off n = leAt ys (off - xs.length) n := congrArg leNat (slice_append h)

theorem leAt_head (n x : Nat) (ys : List Byte) : leAt (natLe n x ++ ys) 0 n = x % 256 ^ n :=
  (congrArg leNat (slice_head (length_natLe n x))).trans (leNat_natLe n x)

theorem beNat_reverse (bs : List Byte) : beNat bs.reverse = leNat bs := by
  rw [beNat, List.foldl_reverse]
  induction bs with
  | nil => rfl
  | cons b bs ih => rw [List.foldr_cons, ih, leNat, Nat.add_comm]

/-- A number as bytes, most significant first, read back. -/
theorem beNat_natBe (n v : Nat) : beNat (natBe n v) = v % 256 ^ n := by
  rw [natBe, beNat_reverse, leNat_natLe]

theorem length_natBe (n v : Nat) : (natBe n v).length = n := by
  rw [natBe, List.length_reverse, length_natLe]

/-- Square and multiply gives the power (R406). -/
theorem powMod_eq (m n b e : Nat) (he : e < 2 ^ n) : powMod m n b e = b ^ e % m := by
  induction n generalizing b e with
  | zero =>
    obtain rfl : e = 0 := by omega
    rfl
  | succ n ih =>
    have hh : e / 2 < 2 ^ n := by omega
    have hr : (b * b % m) ^ (e / 2) % m = b ^ (2 * (e / 2)) % m := by
      rw [← Nat.pow_mod, ← pow_two, ← pow_mul]
    simp only [powMod, ih _ _ hh, hr]
    rcases Nat.mod_two_eq_zero_or_one e with h | h
    · rw [if_neg (by omega), show 2 * (e / 2) = e by omega]
    · rw [if_pos h, Nat.mul_mod_mod, ← pow_succ', show 2 * (e / 2) + 1 = e by omega]

theorem State.length_reportHead (s : State) (hm : s.ctl.mgmtDigest.length = 64) (hd : s.ctl.deviceDigest.length = 64) :
    s.reportHead.length = 768 := by
  simp only [State.reportHead, List.length_append, length_natLe, length_natBe, hm, hd,
    length_flatMap_const _ _ 8 fun _ => length_natLe _ _, List.length_range]

/-- `MGID` is a register of 64 bits. -/
theorem mgid_lt : mgidWord < 2 ^ 64 := by
  unfold mgidWord
  generalize Config.serial = x
  generalize Config.dev = y
  have hx := x.isLt
  have hy := y.isLt
  omega

/-- The fields of the first part of a report stand at their offsets (R406). -/
theorem State.report_fields {s : State} {bytes : List Byte} (hb : bytes = s.report) (hm : s.ctl.mgmtDigest.length = 64)
    (hd : s.ctl.deviceDigest.length = 64) :
    leAt bytes 0 4 = 1 ∧ leAt bytes 4 4 = 1280 ∧
      leAt bytes 8 8 = Config.serial.toNat * 2 ^ 16 + Config.dev.toNat ∧ leAt bytes 0x10 8 = s.generation.toNat ∧
      leAt bytes 0x18 8 = s.now % 2 ^ 64 ∧ (∀ i, i < 4 → leAt bytes (0x20 + 8 * i) 8 = (s.ctl.nonce.getD i 0).toNat) ∧
      (bytes.drop 0x40).take 64 = s.ctl.mgmtDigest ∧ (bytes.drop 0x80).take 64 = s.ctl.deviceDigest ∧
      leAt bytes 0xC0 24 = s.ctl.coreLive.toNat ∧ leAt bytes 0xD8 8 = s.ctl.mgstat ∧
      ((bytes.drop 0x100).take 512 = natBe 512 rsaModulus) := by
  have hn : ((List.range 4).flatMap fun i => natLe 8 (s.ctl.nonce.getD i 0).toNat) =
      natLe 8 (s.ctl.nonce.getD 0 0).toNat ++ (natLe 8 (s.ctl.nonce.getD 1 0).toNat ++
        (natLe 8 (s.ctl.nonce.getD 2 0).toNat ++ natLe 8 (s.ctl.nonce.getD 3 0).toNat)) := by
    simp [List.range_succ]
  have hst : s.ctl.mgstat < 256 ^ 8 := by unfold Ctl.mgstat; split <;> split <;> split <;> decide
  rw [hb, State.report]
  generalize rsaSign s.reportHead = tail
  simp only [State.reportHead, hn, List.append_assoc]
  refine ⟨?_, ?_, ?_, ?_, ?_, fun i hi => ?_, ?_, ?_, ?_, ?_, ?_⟩
  · simp [leAt_head]
  · simp [leAt_append, length_natLe, leAt_head]
  · change leAt _ 8 8 = mgidWord
    simpa [leAt_append, length_natLe, leAt_head] using Nat.mod_eq_of_lt mgid_lt
  · simpa [leAt_append, length_natLe, leAt_head] using s.generation.isLt
  · simp [leAt_append, length_natLe, leAt_head]
  · have hi := (s.ctl.nonce.getD i 0).isLt
    interval_cases i <;> simpa [leAt_append, length_natLe, leAt_head] using hi
  · simp only [slice_append, length_natLe, Nat.reduceSub, Nat.reduceLeDiff, slice_head hm]
  · simp only [slice_append, length_natLe, hm, Nat.reduceSub, Nat.reduceLeDiff, slice_head hd]
  · simpa [leAt_append, length_natLe, leAt_head, hm, hd] using s.ctl.coreLive.isLt
  · simpa [leAt_append, length_natLe, leAt_head, hm, hd] using hst
  · simp only [slice_append, length_natLe, hm, hd, Nat.reduceSub, Nat.reduceLeDiff, slice_head (length_natBe 512 _)]

/-- A write only renews the stamps of the lines that it meets (R169). -/
theorem State.noteWrites_frame (s : State) (l : Loc) (n v : Nat) : ∃ hs, s.noteWrites l n v = { s with homes := hs } := by
  unfold State.noteWrites
  split
  · next a =>
    generalize linesOf a n = ks
    induction ks generalizing s with
    | nil => exact ⟨s.homes, rfl⟩
    | cons k ks ih =>
      rw [List.foldl_cons]
      generalize (if a < 2 ^ 48 then 64 * k else a) = x
      obtain ⟨hs, e⟩ := ih (s.noteWrite x v)
      refine ⟨hs, e.trans ?_⟩
      unfold State.noteWrite
      split <;> rfl
  · exact ⟨s.homes, rfl⟩

/-- A write is complete at system scope no earlier than now. -/
theorem State.now_le_completionOf (s : State) (l : Loc) (n : Nat) : s.now ≤ s.completionOf l n := by
  have hf (xs : List Nat) (m : Nat) : m ≤ xs.foldl max m := by
    induction xs generalizing m with
    | nil => exact le_rfl
    | cons x xs ih => exact (le_max_left m x).trans (ih _)
  unfold State.completionOf
  split
  · exact hf _ _
  · exact le_rfl

theorem State.length_report (s : State) (hm : s.ctl.mgmtDigest.length = 64) (hd : s.ctl.deviceDigest.length = 64) :
    s.report.length = 1280 := by
  rw [State.report, List.length_append, s.length_reportHead hm hd, rsaSign, length_natBe]

theorem pow_4096 : (2 : Nat) ^ 4096 = 256 ^ 512 := by
  rw [show (256 : Nat) = 2 ^ 8 from rfl, ← pow_mul]

/-- The signature of a report is that of its first part (R406). -/
theorem State.report_signature (s : State) (hm : s.ctl.mgmtDigest.length = 64) (hd : s.ctl.deviceDigest.length = 64)
    (h1 : 1 < rsaModulus) (h2 : rsaModulus < 2 ^ 4096) (h3 : rsaExponent < 2 ^ 4096) :
    beNat (s.report.drop 0x300) = beNat (pkcsEncode (s.report.take 0x300)) ^ rsaExponent % rsaModulus := by
  have hl := s.length_reportHead hm hd
  rw [State.report, List.drop_left' hl, List.take_left' hl, rsaSign, beNat_natBe, powMod_eq _ _ _ _ h3]
  exact Nat.mod_eq_of_lt ((Nat.mod_lt _ (by omega)).trans (lt_of_lt_of_eq h2 pow_4096))

/-- The report is written where ATADDR points, and nothing else changes but what a write of memory brings with it; it is
complete at system scope from then on (R405). -/
theorem State.attestOn_writes {s : State} (h : s.ctl.atBusy = true) (he : s.ctl.atEnd = none) : ∃ hs,
    s.attestOn = { s.poke none s.ctl.atAddr.toNat s.report with
      homes := hs, ctl := { s.ctl with atEnd := some (s.completionOf (.mem s.ctl.atAddr.toNat) 1280) } } := by
  obtain ⟨hs, e⟩ := (s.poke none s.ctl.atAddr.toNat s.report).noteWrites_frame (.mem s.ctl.atAddr.toNat) 1280
    (s.completionOf (.mem s.ctl.atAddr.toNat) 1280)
  refine ⟨hs, ?_⟩
  unfold State.attestOn
  rw [if_neg (by simp [h])]
  split
  · generalize s.report = bs at *
    generalize s.completionOf (.mem s.ctl.atAddr.toNat) 1280 = v at *
    exact congrArg (fun u => State.modCtl u fun k => { k with atEnd := some v }) e
  · next hv => rw [he] at hv; nomatch hv

/-- A report that is complete makes room for the first write of GO that has waited (R405). -/
theorem State.attestOn_next {s : State} {v : Nat} {w : Option WriteReply} {rest : List (Option WriteReply)}
    (h : s.ctl.atBusy = true) (he : s.ctl.atEnd = some v) (hv : v ≤ s.now) (hw : s.ctl.atWaits = w :: rest)
    (hm : s.ctl.measured = true) : s.attestOn = (s.modCtl fun k =>
      { k with atRes := 0, atBusy := true, atEnd := none, atWaits := rest }).replyWrite w := by
  rw [State.attestOn_done h he hv, hw]
  exact congrArg (State.replyWrite · w) (State.attest_of_measured hm)

/-- Settles O57: the invalidations by what `State.startXlt` and its completion drop, the report by the places of its fields
in the bytes that are written. -/
theorem translationsAndReports : Obligations.TranslationsAndReports := by
  unfold Obligations.TranslationsAndReports
  intro s _
  refine ⟨fun i asid scope hi hr => ?_, fun h => ?_, fun job h ha => xltInvalidationComplete_spec h ha, fun h0 => ?_,
    fun h0 => ?_⟩
  · intro covered
    rw [exec_invalidate hr hi]
    refine ⟨fun hb => by rw [if_pos hb]; rfl, fun hb => ?_⟩
    obtain ⟨h1, h2⟩ := s.startXlt_spec scope asid.toNat s.ctl.xltVa.toNat
    exact ⟨_, congrArg _ (if_neg (by simp [hb])), rfl, rfl, rfl, rfl, h1, h2⟩
  · show Host.Outcome.next _ = _
    rw [h]
  · refine ⟨fun hr hm => ?_, fun hl => ?_⟩
    · have hd : s.regLive .atCmd = false := by simp [State.regLive, hr, hm]
      exact (congrArg Host.Outcome.next (if_pos h0)).trans (congrArg _ (State.ctlWrite_of_dead _ hd))
    · rw [exec_attestationReport_go h0 hl]
      refine ⟨fun hb => by rw [if_pos hb]; rfl, fun hb hm => ?_, fun hb hm => ?_⟩
      · rw [if_neg (by simp [hb]), State.attest_of_unmeasured hm]; rfl
      · rw [if_neg (by simp [hb]), State.attest_of_measured hm]; rfl
  · rw [exec_attestationReport_on h0]
    refine ⟨fun hb => by rw [State.attestOn_idle hb], fun v hb he => ⟨fun hv => by rw [State.attestOn_early hb he hv],
      fun hv hw => ?_, fun w rest hv hw hm => ?_⟩, fun hb he hc hm hd => ?_⟩
    · rw [State.attestOn_done hb he hv, hw]; rfl
    · rw [State.attestOn_next hb he hv hw hm]
      obtain ⟨h1, h2⟩ := State.replied_replyWrite (s := s) (u := s.modCtl fun k =>
        { k with atRes := 0, atBusy := true, atEnd := none, atWaits := rest }) rfl rfl w
      refine ⟨_, rfl, ?_, State.replyWrite_ctl _ _, h1, h2⟩
      cases w <;> rfl
    · obtain ⟨hs, e⟩ := State.attestOn_writes hb he
      have hl := s.length_report hm hd
      have hg := s.report_signature hm hd
      have hp (x : Nat) := State.rawByte_poke none s.ctl.atAddr.toNat x s.report hc
      have hf := State.report_fields (s := s) rfl hm hd
      generalize s.report = bytes at *
      obtain ⟨f1, f2, f3, f4, f5, f6, f7, f8, f9, f10, f11⟩ := hf
      refine ⟨_, bytes, _, congrArg _ e, rfl, s.now_le_completionOf _ _, rfl, rfl, hl, f1, f2, f3, f4, f5,
        f6, f7, f8, f9, f10, fun h2 => ?_, hg, fun x => ?_⟩
      · have h := beNat_natBe 512 rsaModulus
        rw [← f11] at h
        exact h.trans (Nat.mod_eq_of_lt (lt_of_lt_of_eq h2 pow_4096))
      · exact (hp x).trans (by rw [hl])

end Sys2Proof.Machine
end

section
namespace Sys2Proof.Machine
open Sys2Proof

/-! ## Peers and ports (R161, R298, R304, R305) -/

/-! ### Messages that arrive -/

/-- A message of a known source whose lengths agree is taken. -/
theorem State.hear_known {s : State} {src : BitVec 16} (hd : s.deaf = false) (hk : knownType src) (f : State → State) :
    s.hear src true f = f s := by
  unfold State.hear
  rw [if_neg (by simp [hd]), if_neg]
  rintro (h | h)
  · exact absurd h (by unfold knownType at hk; omega)
  · nomatch h

theorem State.hear_deaf {s : State} (hd : s.deaf = true) (src : BitVec 16) (agree : Bool) (f : State → State) :
    s.hear src agree f = s := if_pos hd

/-- A message of a reserved source type, or of lengths that disagree, is dropped at its port. -/
theorem State.hear_bad {s : State} {src : BitVec 16} {agree : Bool} (hd : s.deaf = false)
    (hb : ¬ knownType src ∨ agree = false) (f : State → State) : s.hear src agree f = s.dropAt s.subj.a := by
  unfold State.hear
  rw [if_neg (by simp [hd]), if_pos]
  exact hb.imp_left fun h => by unfold knownType at h; omega

/-- Every event that is a message goes by way of `State.hear`. -/
theorem exec_message {s : State} {i : Instr} {src : BitVec 16} {agree : Bool} (h : messageRow s i = some (src, agree)) :
    ∃ f, exec i s = .next (s.hear src agree f) := by
  unfold messageRow at h
  split at h
  case h_14 => nomatch h
  all_goals
    cases h
    exact ⟨_, rfl⟩

/-! ### Reads of memory -/

/-- A read brings a line into L2, and changes nothing else. -/
theorem State.keepView_frame (s : State) (a : Nat) : ∃ v l, s.keepView a = { s with views := v, l2 := l } := by
  unfold State.keepView
  split
  · exact ⟨_, _, rfl⟩
  · split
    · exact ⟨_, _, rfl⟩
    · exact ⟨_, _, rfl⟩

section
variable {s : State} {src : BitVec 16} (tag : Word) (addr : DWord) (hd : s.deaf = false) (hk : knownType src)
include hd hk

theorem exec_remoteRead_bytes (len : BitVec 32) (hr : s.inRange addr.toNat len.toNat = true)
    (h0 : len ≠ 0 ∨ ctlOffset addr.toNat = none) (hp : s.poisoned (.mem addr.toNat) len.toNat = false) :
    exec (.remoteRead src tag addr len) s = .next ((s.keepView addr.toNat).reply 0x0011 src tag addr.toNat 0
      (bytesFrom s.homeByte addr.toNat len.toNat)) := by
  have hc : (decide (0 < len.toNat) || (ctlOffset addr.toNat).isNone) = true := by
    rcases h0 with h | h
    · have : len.toNat ≠ 0 := fun e => h (BitVec.eq_of_toNat_eq e)
      simp; omega
    · simp [h]
  refine congrArg Host.Outcome.next ((State.hear_known hd hk _).trans ?_)
  rw [if_pos (by simp only [hr, hc]; rfl), if_neg (by simp [hp])]

theorem exec_remoteRead_bad (len : BitVec 32)
    (h : (s.inRange addr.toNat len.toNat = false ∧ ctlOffset addr.toNat = none) ∨
      (s.inRange addr.toNat len.toNat = true ∧ s.poisoned (.mem addr.toNat) len.toNat = true)) :
    exec (.remoteRead src tag addr len) s = .next (s.reply 0x0011 src tag addr.toNat 1 []) := by
  refine congrArg Host.Outcome.next ((State.hear_known hd hk _).trans ?_)
  rcases h with ⟨hr, hc⟩ | ⟨hr, hp⟩
  · rw [if_neg (by simp [hr]), hc]
  · have h0 : 0 < len.toNat := by
      rcases Nat.eq_zero_or_pos len.toNat with e | e
      · rw [e] at hp; simp [State.poisoned] at hp
      · exact e
    rw [if_pos (by simp [hr, h0]), if_pos hp]

/-! ### Writes of memory -/

theorem exec_remoteWrite_bytes (data : List Byte) (hv : s.meetsView addr.toNat data.length = false)
    (hc : ctlOffset addr.toNat = none) (ho : (s.inRange addr.toNat data.length && s.healsAll addr.toNat data.length) = true) :
    exec (.remoteWrite src tag addr data) s = .next (((s.poke none addr.toNat data).noteWrites (.mem addr.toNat) data.length
      (s.completionOf (.mem addr.toNat) data.length)).reply 0x0013 src tag addr.toNat 0 []) := by
  refine congrArg Host.Outcome.next ((State.hear_known hd hk _).trans ?_)
  rw [if_neg (by simp [hv]), hc]
  exact if_pos ho

theorem exec_remoteWrite_bad (data : List Byte) (h : s.meetsView addr.toNat data.length = true ∨
      (ctlOffset addr.toNat = none ∧ (s.inRange addr.toNat data.length && s.healsAll addr.toNat data.length) = false)) :
    exec (.remoteWrite src tag addr data) s = .next (s.reply 0x0013 src tag addr.toNat 1 []) := by
  refine congrArg Host.Outcome.next ((State.hear_known hd hk _).trans ?_)
  by_cases hv : s.meetsView addr.toNat data.length = true
  · exact if_pos hv
  · obtain ⟨hc, ho⟩ := h.resolve_left hv
    rw [if_neg hv, hc]
    exact if_neg (by rw [ho]; exact Bool.false_ne_true)

/-! ### Atomic operations -/

/-- The memory after a read-modify-write at the home. -/
def State.afterRmw (s : State) (a : Nat) (o : Rmw) (old : Nat) (v w : DWord) : State :=
  match o.result old v w with
  | none => s
  | some x => s.poke none a (natLe o.width x)

theorem exec_remoteAtomic_done {op : RemoteOp} (hf : remoteFits op = true) {o : Rmw} {v w : DWord}
    (ho : remoteRmw op = some (o, v, w)) (hc : ctlOffset addr.toNat = none)
    (hok : (s.inRange addr.toNat o.width && !s.meetsView addr.toNat o.width && !s.poisoned (.mem addr.toNat) o.width) = true) :
    exec (.remoteAtomic src tag addr op) s = .next (((s.afterRmw addr.toNat o
      (leNat (bytesFrom s.rawByte addr.toNat o.width)) v w).noteWrites (.mem addr.toNat) o.width
      (s.completionOf (.mem addr.toNat) o.width)).reply 0x0015 src tag addr.toNat 0
      (natLe o.width (leNat (bytesFrom s.rawByte addr.toNat o.width)))) := by
  unfold exec execRemoteAtomic
  dsimp only
  rw [hf, State.hear_known hd hk, hc]
  dsimp only
  rw [ho]
  exact congrArg Host.Outcome.next (if_pos hok)

theorem exec_remoteAtomic_bad {op : RemoteOp} (hf : remoteFits op = true) (hc : ctlOffset addr.toNat = none)
    (h : remoteRmw op = none ∨ ∃ x, remoteRmw op = some x ∧ (s.inRange addr.toNat x.1.width &&
      !s.meetsView addr.toNat x.1.width && !s.poisoned (.mem addr.toNat) x.1.width) = false) :
    exec (.remoteAtomic src tag addr op) s = .next (s.reply 0x0015 src tag addr.toNat 1 []) := by
  unfold exec execRemoteAtomic
  dsimp only
  rw [hf, State.hear_known hd hk, hc]
  dsimp only
  rcases h with h | ⟨⟨o, v, w⟩, h, hok⟩
  · rw [h]
  · rw [h]
    exact congrArg Host.Outcome.next (if_neg (by rw [hok]; exact Bool.false_ne_true))

end

/-- What a write at the home leaves as it was. -/
theorem State.written_frame {s u : State} (hu : u.ctl = s.ctl ∧ u.grants = s.grants ∧ u.waves = s.waves ∧
      u.blocks = s.blocks ∧ u.cores = s.cores) (l : Loc) (n c : Nat) (kind src : BitVec 16) (tag : Word) (a : Nat)
    (data : List Byte) :
    let t := (u.noteWrites l n c).reply kind src tag a 0 data
    s.Replied t kind src tag a 0 data ∧ t.mem = u.mem ∧ t.waves = s.waves ∧ t.blocks = s.blocks ∧ t.cores = s.cores ∧
      t.ctl = s.ctl := by
  obtain ⟨hs, e⟩ := u.noteWrites_frame l n c
  obtain ⟨hc, hg, hw, hb, hk⟩ := hu
  rw [e]
  exact ⟨State.replied_reply hg (congrArg Ctl.portDown hc) _ _ _ _ _ _, rfl, hw, hb, hk, hc⟩

theorem State.rawByte_of_mem {s t : State} (h : t.mem = s.mem) (x : Nat) : t.rawByte x = s.rawByte x := by
  unfold State.rawByte; rw [h]

/-- A byte of a number laid out lowest byte first. -/
theorem getD_natLe (n x i : Nat) (h : i < n) : (natLe n x).getD i 0 = BitVec.ofNat 8 (x / 256 ^ i) := by
  induction n generalizing x i with
  | zero => omega
  | succ n ih =>
    cases i with
    | zero => simp [natLe]
    | succ i =>
      rw [natLe, List.getD_cons_succ, ih _ _ (by omega), Nat.div_div_eq_div_mul, Nat.pow_succ', Nat.mul_comm]

/-- The bytes of memory after a read-modify-write at the home. -/
theorem State.rawByte_afterRmw {s : State} (hm : s.MemCanon) (a : Nat) (o : Rmw) (old : Nat) (v w : DWord) (x : Nat) :
    (s.afterRmw a o old v w).rawByte x = match o.result old v w with
      | some y => if a ≤ x ∧ x < a + o.width then BitVec.ofNat 8 (y / 256 ^ (x - a)) else s.rawByte x
      | none => s.rawByte x := by
  unfold State.afterRmw
  generalize o.result old v w = r
  cases r with
  | none => rfl
  | some y =>
    show (s.poke none a (natLe o.width y)).rawByte x = if _ then _ else _
    rw [State.rawByte_poke none a x _ hm, length_natLe]
    by_cases hx : a ≤ x ∧ x < a + o.width
    · rw [if_pos hx, if_pos hx, getD_natLe _ _ _ (by omega)]
    · rw [if_neg hx, if_neg hx]

theorem State.afterRmw_frame (s : State) (a : Nat) (o : Rmw) (old : Nat) (v w : DWord) :
    let u := s.afterRmw a o old v w
    u.ctl = s.ctl ∧ u.grants = s.grants ∧ u.waves = s.waves ∧ u.blocks = s.blocks ∧ u.cores = s.cores := by
  intro u
  unfold u State.afterRmw
  split
  · exact ⟨rfl, rfl, rfl, rfl, rfl⟩
  · exact ⟨rfl, rfl, rfl, rfl, rfl⟩

/-- A request that is answered with status 1 changes nothing. -/
theorem State.replied_bad (s : State) (kind src : BitVec 16) (tag : Word) (a : Nat) :
    s.Replied (s.reply kind src tag a 1 []) kind src tag a 1 [] ∧
      { s.reply kind src tag a 1 [] with grants := s.grants } = s :=
  ⟨State.replied_reply rfl rfl _ _ _ _ _ _, rfl⟩

/-! ### Answers that arrive -/

/-- What was written at a key goes with it. -/
theorem KMap.erase_set {α : Type} (m : KMap α) (k : Nat) (v : α) : (m.set k v).erase k = m.erase k := by
  induction m with
  | nil => simp [KMap.set, KMap.erase]
  | cons e m ih =>
    obtain ⟨j, u⟩ := e
    rcases lt_trichotomy k j with h | h | h
    · simp [KMap.set, KMap.erase, h]
    · simp [KMap.set, KMap.erase, h]
    · simp [KMap.set, KMap.erase, ih, Nat.not_lt_of_gt h, Nat.ne_of_gt h]

/-- A fold over a list of which one element acts, and each element leaves what that gives as it is. -/
theorem foldl_of_once {α β : Type} [DecidableEq β] {f : α → β → α} {a b : α} {k : β} {xs : List β} (hk : k ∈ xs)
    (hf : f a k = b) (hne : ∀ x ∈ xs, x ≠ k → f a x = a) (hb : ∀ x ∈ xs, f b x = b) : xs.foldl f a = b := by
  induction xs with
  | nil => nomatch hk
  | cons x xs ih =>
    rw [List.foldl_cons]
    by_cases hx : x = k
    · rw [hx, hf]
      exact foldl_of_unchanged fun y hy => hb y (List.mem_cons_of_mem _ hy)
    · rw [hne x List.mem_cons_self hx]
      exact ih ((List.mem_cons.mp hk).resolve_left fun e => hx e.symm)
        (fun y hy => hne y (List.mem_cons_of_mem _ hy)) fun y hy => hb y (List.mem_cons_of_mem _ hy)

@[simp] theorem State.takeHalt_remote (s : State) (key cause : Nat) (addr : DWord) (mask : Mask) (detail : Word) :
    (s.takeHalt key cause addr mask detail).remote = s.remote := by
  unfold State.takeHalt State.takeHaltAs
  repeat' split
  all_goals rfl

@[simp] theorem State.addDeferred_remote (s : State) (key : Nat) (d : Deferred) :
    (s.addDeferred key d).remote = s.remote := by
  unfold State.addDeferred State.snapWave
  repeat' split
  all_goals rfl

@[simp] theorem State.lateError_remote (s : State) (key acc lane : Nat) (addr : DWord) :
    (s.lateError key acc lane addr).remote = s.remote := by
  unfold State.lateError
  repeat' split
  all_goals simp

/-- The record of a request holds its answer. -/
def State.withAnswer (s : State) (k : Nat) (r : RemoteReq) (st : Byte) (data : List Byte) : State :=
  { s with remote := s.remote.set k { r with status := some st, data := data.take r.size } }

/-- A store that has retired is no longer owed its answer. -/
def State.noLongerOwed (s : State) (k : Nat) (r : RemoteReq) (w : Wave) : State :=
  { s with
    remote := s.remote.erase k
    waves := s.waves.set r.wave { w with peerOut := w.peerOut.filter fun x => decide (x ≠ k) } }

/-- A request without an answer keeps waiting. -/
theorem State.lateAnswer_of_waiting {s : State} {g : Nat} (h : ∀ q, s.remote.get? g = some q → q.status = none) :
    s.lateAnswer g = s := by
  unfold State.lateAnswer
  split
  · rfl
  · next q e => rw [if_pos (by simp [h q e])]

/-- The answer to a retired store is taken in, with its fault if it failed. -/
theorem State.lateAnswer_withAnswer {s : State} {k : Nat} {r : RemoteReq} {w : Wave} (hw : s.waves.get? r.wave = some w)
    (st : Byte) (data : List Byte) : (s.withAnswer k r st data).lateAnswer k =
      if st = 0 then s.noLongerOwed k r w else (s.noLongerOwed k r w).lateError r.wave r.acc r.lane r.addr := by
  have he : ({ s.withAnswer k r st data with remote := (s.withAnswer k r st data).remote.erase k } : State).modWave r.wave
      (fun w => { w with peerOut := w.peerOut.filter fun x => decide (x ≠ k) }) = s.noLongerOwed k r w := by
    have ht : (s.withAnswer k r st data).remote.erase k = s.remote.erase k := KMap.erase_set _ _ _
    rw [ht]
    exact State.modWave_of_get? (s := { s with remote := s.remote.erase k }) hw _
  unfold State.lateAnswer
  rw [show (s.withAnswer k r st data).remote.get? k = some { r with status := some st, data := data.take r.size } from
    KMap.get?_set_self _ _ _]
  simp only [Option.isNone_some, Bool.false_eq_true, if_false, Option.some.injEq, he]

/-- What the answers of a wave's retired stores do, when one of them comes. -/
theorem State.lateChecks_withAnswer {s : State} {k : Nat} {r : RemoteReq} {w : Wave} (hw : s.waves.get? r.wave = some w)
    (hm : KMap.wf s.remote = true) (hk : k ∈ w.peerOut) (hu : w.underWay = false)
    (ho : ∀ g ∈ w.peerOut, g ≠ k → ∀ q, s.remote.get? g = some q → q.status = none) (st : Byte) (data : List Byte) :
    (s.withAnswer k r st data).lateChecks r.wave =
      if st = 0 then s.noLongerOwed k r w else (s.noLongerOwed k r w).lateError r.wave r.acc r.lane r.addr := by
  unfold State.lateChecks
  rw [show (s.withAnswer k r st data).waves.get? r.wave = some w from hw]
  simp only [hu, Bool.false_eq_true, if_false]
  refine foldl_of_once hk (State.lateAnswer_withAnswer hw st data) (fun g hg hgk => ?_) fun g hg => ?_
  · refine State.lateAnswer_of_waiting fun q e => ho g hg hgk q ?_
    rwa [← KMap.get?_set_ne s.remote _ hgk]
  · refine State.lateAnswer_of_waiting fun q e => ?_
    have e' : (s.remote.erase k).get? g = some q := by
      rw [← e]
      split
      · rfl
      · simp only [State.lateError_remote]; rfl
    rw [KMap.get?_erase hm] at e'
    split at e'
    · nomatch e'
    · next hne => exact ho g hg hne q e'

/-- An answer to a request that nothing has answered. -/
theorem State.answer_eq {s : State} {k : Nat} {r : RemoteReq} {w : Wave} (hr : s.remote.get? k = some r)
    (hs : r.status = none) (hw : s.waves.get? r.wave = some w) (st : Byte) (data : List Byte) :
    s.answer k st data = if w.peerOut.contains k then (s.withAnswer k r (r.heard s.now st) data).lateChecks r.wave
      else s.withAnswer k r (r.heard s.now st) data := by
  unfold State.answer
  simp only [hr, hs, hw, Option.isSome_none, Bool.false_eq_true, if_false]
  rfl

/-- It is kept in the record when no retired store awaits it, or a word is under way. -/
theorem State.answer_held {s : State} {k : Nat} {r : RemoteReq} {w : Wave} (hr : s.remote.get? k = some r)
    (hs : r.status = none) (hw : s.waves.get? r.wave = some w) (h : k ∉ w.peerOut ∨ w.underWay = true) (st : Byte)
    (data : List Byte) : s.answer k st data = s.withAnswer k r (r.heard s.now st) data := by
  rw [State.answer_eq hr hs hw]
  split
  · next hc =>
    have hu : w.underWay = true := h.resolve_left (by simpa using hc)
    unfold State.lateChecks
    rw [show (s.withAnswer k r _ data).waves.get? r.wave = some w from hw]
    exact if_pos hu
  · rfl

/-- An answer, of one of the three kinds, to a request that waits for one. -/
theorem exec_answer {s : State} {i : Instr} {tag : Word} {st : Byte} {data : List Byte} (hd : s.deaf = false)
    (hk : knownType (BitVec.ofNat 16 s.subj.b))
    (hi : i = .readResponse tag st data ∨ (i = .writeResponse tag st ∧ data = []) ∨ i = .atomicResponse tag st data)
    (hf : (∃ x, i = .writeResponse tag x) ∨ s.answerFits tag.toNat st data = true) :
    exec i s = .next (s.answer tag.toNat st data) := by
  rcases hi with rfl | ⟨rfl, rfl⟩ | rfl
  · have hf := hf.resolve_left fun ⟨_, e⟩ => nomatch e
    exact congrArg Host.Outcome.next ((congrArg (State.hear _ _ · _) hf).trans (State.hear_known hd hk _))
  · exact congrArg Host.Outcome.next (State.hear_known hd hk _)
  · have hf := hf.resolve_left fun ⟨_, e⟩ => nomatch e
    exact congrArg Host.Outcome.next ((congrArg (State.hear _ _ · _) hf).trans (State.hear_known hd hk _))

/-- Nothing awaits the answer, or none is taken. -/
theorem exec_answer_ignored {s : State} {i : Instr} {tag : Word} {st : Byte} {data : List Byte}
    (hk : knownType (BitVec.ofNat 16 s.subj.b))
    (hi : i = .readResponse tag st data ∨ (i = .writeResponse tag st ∧ data = []) ∨ i = .atomicResponse tag st data)
    (h : s.deaf = true ∨ s.remote.get? tag.toNat = none) : exec i s = .next s := by
  cases hd : s.deaf with
  | true => rcases hi with rfl | ⟨rfl, rfl⟩ | rfl <;> exact congrArg Host.Outcome.next (State.hear_deaf hd _ _ _)
  | false =>
    have hn := h.resolve_left (by simp [hd])
    rw [exec_answer hd hk hi (Or.inr (by simp [State.answerFits, hn]))]
    simp [State.answer, hn]

/-- A failed access of a wave that runs halts it. -/
theorem State.lateError_running {s : State} {key : Nat} {w : Wave} (hw : s.waves.get? key = some w)
    (he : w.exited = false) (acc lane : Nat) (addr : DWord) : s.lateError key acc lane addr =
      s.takeHalt key 0x17 addr (maskOf fun j => j == lane) (BitVec.ofNat 32 lane) := by
  simp [State.lateError, hw, he]

/-- A failed access of an exited wave of a free-mode relaxation kills it. -/
theorem State.lateError_relaxation {s : State} {key : Nat} {w : Wave} {b : Block} {l : Launch}
    (hw : s.waves.get? key = some w) (he : w.exited = true) (hb : s.blocks.get? w.block = some b)
    (hl : s.launches.get? b.launch = some l) (hs : l.standing.isSome = true) (hq : l.dqm = false) (acc lane : Nat)
    (addr : DWord) : s.lateError key acc lane addr =
      { s with blocks := s.blocks.set w.block { b with kill := some (b.kill.getD 0x17) } } := by
  simp [State.lateError, hw, he, hb, hl, hs, hq, State.modBlock_of_get? hb]

/-- A failed access of an exited wave of a run is kept for the retirement of its block. -/
theorem State.lateError_kept {s : State} {key : Nat} {w : Wave} {b : Block} {l : Launch}
    (hw : s.waves.get? key = some w) (he : w.exited = true) (hb : s.blocks.get? w.block = some b)
    (hl : s.launches.get? b.launch = some l) (hs : l.standing = none) (hn : b.snap = none) (acc lane : Nat) (addr : DWord) :
    let d : Deferred := ⟨0, acc, 0x17, addr, BitVec.ofNat 32 lane, 0, false⟩
    s.lateError key acc lane addr = { s with waves := s.waves.set key { w with deferred := w.deferred ++ [d] } } := by
  simp [State.lateError, hw, he, hb, hl, hs, State.addDeferred, State.modWave_of_get? hw, State.snapWave, hn]

/-! ### Ports -/

/-- The first working port, where one works. -/
theorem State.portFor_works {s : State} (plane : Nat) (h : s.ctl.portDown ≠ BitVec.allOnes 16) :
    s.ctl.portDown.getLsbD (s.portFor plane) = false := by
  obtain ⟨p, hp, hw⟩ : ∃ p, p < 16 ∧ s.ctl.portDown.getLsbD p = false := by
    by_contra hn
    push Not at hn
    refine h (BitVec.eq_of_getLsbD_eq fun i hi => ?_)
    rw [BitVec.getLsbD_allOnes, Bool.eq_true_of_not_eq_false (hn i hi)]
    simp [hi]
  unfold State.portFor
  cases hf : ((List.range 16).map fun i => (plane + i) % 16).find? fun p => !s.ctl.portDown.getLsbD p with
  | some q => simpa using List.find?_some hf
  | none =>
    have := List.find?_eq_none.mp hf p (List.mem_map.mpr ⟨(p + 16 - plane % 16) % 16, by simp; omega, by omega⟩)
    simp [hw] at this

/-- The oldest request of a port and class is found behind those of others. -/
theorem takeGrant_append {port cls : Nat} (xs : List GrantReq) {g : GrantReq} (ys : List GrantReq)
    (hx : ∀ x ∈ xs, ¬ (x.port = port ∧ x.cls = cls)) (hg : g.port = port ∧ g.cls = cls) :
    takeGrant port cls (xs ++ g :: ys) = some (g.msg, xs ++ ys) := by
  induction xs with
  | nil => exact if_pos hg
  | cons x xs ih =>
    rw [List.cons_append, takeGrant, if_neg (hx x List.mem_cons_self), ih fun y hy => hx y (List.mem_cons_of_mem _ hy)]
    rfl

theorem takeGrant_none {port cls : Nat} {xs : List GrantReq} (hx : ∀ x ∈ xs, ¬ (x.port = port ∧ x.cls = cls)) :
    takeGrant port cls xs = none := by
  induction xs with
  | nil => rfl
  | cons x xs ih =>
    rw [takeGrant, if_neg (hx x List.mem_cons_self), ih fun y hy => hx y (List.mem_cons_of_mem _ hy)]
    rfl

theorem exec_messageGrant {s : State} {m : OutMsg} {gs : List GrantReq} (hp : s.ctl.portDown.getLsbD s.subj.a = false)
    (hg : takeGrant s.subj.a s.subj.b s.grants = some (m, gs)) : exec .messageGrant s =
      if m.ofMemory && decide (m.dst.toNat = ownDev) then
        (State.comesBack { s with grants := gs } s.subj.a m).getD
          (.next { s with grants := gs, outbox := s.outbox ++ [m] })
      else .next { s with grants := gs, outbox := s.outbox ++ [m] } := by
  show execMessageGrant s = _
  unfold execMessageGrant
  rw [if_neg (by simp [hp]), hg]

theorem OutMsg.ofMemory_iff (m : OutMsg) : (m.ofMemory && decide (m.dst.toNat = ownDev)) = true ↔
    0x10 ≤ m.kind.toNat ∧ m.kind.toNat ≤ 0x15 ∧ m.dst.toNat = ownDev := by
  simp [OutMsg.ofMemory, and_assoc]

/-! ### The parts of the statement -/

section
variable {s : State} {src : BitVec 16} (tag : Word) (addr : DWord) (hd : s.deaf = false) (hk : knownType src)
include hd hk

theorem remoteRead_serves (len : BitVec 32) (hr : s.inRange addr.toNat len.toNat = true)
    (h0 : len ≠ 0 ∨ ctlOffset addr.toNat = none) (hp : s.poisoned (.mem addr.toNat) len.toNat = false) :
    ∃ t, exec (.remoteRead src tag addr len) s = .next t ∧
      s.Replied t 0x0011 src tag addr.toNat 0 (bytesFrom s.homeByte addr.toNat len.toNat) ∧
      { t with grants := s.grants, views := s.views, l2 := s.l2 } = s := by
  obtain ⟨v, l, e⟩ := s.keepView_frame addr.toNat
  refine ⟨_, exec_remoteRead_bytes tag addr hd hk len hr h0 hp, ?_, ?_⟩
  · rw [e]; exact State.replied_reply rfl rfl _ _ _ _ _ _
  · rw [e]; rfl

theorem remoteWrite_serves (data : List Byte) (hm : s.MemCanon) (hv : s.meetsView addr.toNat data.length = false)
    (hc : ctlOffset addr.toNat = none) (ho : (s.inRange addr.toNat data.length && s.healsAll addr.toNat data.length) = true) :
    ∃ t, exec (.remoteWrite src tag addr data) s = .next t ∧ s.Replied t 0x0013 src tag addr.toNat 0 [] ∧
      (∀ x, t.rawByte x = if addr.toNat ≤ x ∧ x < addr.toNat + data.length then data.getD (x - addr.toNat) 0
        else s.rawByte x) ∧ t.waves = s.waves ∧ t.blocks = s.blocks ∧ t.cores = s.cores ∧ t.ctl = s.ctl := by
  obtain ⟨hr, hmem, hw, hb, hcr, hct⟩ := State.written_frame (s := s) (u := s.poke none addr.toNat data)
    ⟨rfl, rfl, rfl, rfl, rfl⟩ (.mem addr.toNat) data.length (s.completionOf (.mem addr.toNat) data.length) 0x0013 src tag
    addr.toNat []
  exact ⟨_, exec_remoteWrite_bytes tag addr hd hk data hv hc ho, hr, fun x => (State.rawByte_of_mem hmem x).trans
    (State.rawByte_poke none _ x data hm), hw, hb, hcr, hct⟩

theorem remoteAtomic_serves {op : RemoteOp} (hf : remoteFits op = true) {o : Rmw} {v w : DWord}
    (ho : remoteRmw op = some (o, v, w)) (hc : ctlOffset addr.toNat = none)
    (hok : (s.inRange addr.toNat o.width && !s.meetsView addr.toNat o.width && !s.poisoned (.mem addr.toNat) o.width) = true) :
    let old := leNat (bytesFrom s.rawByte addr.toNat o.width)
    ∃ t, exec (.remoteAtomic src tag addr op) s = .next t ∧
      s.Replied t 0x0015 src tag addr.toNat 0 (natLe o.width old) ∧
      (∀ x, t.rawByte x = (s.afterRmw addr.toNat o old v w).rawByte x) ∧
      t.waves = s.waves ∧ t.blocks = s.blocks ∧ t.cores = s.cores ∧ t.ctl = s.ctl := by
  intro old
  obtain ⟨hr, hmem, hw, hb, hcr, hct⟩ := State.written_frame (s.afterRmw_frame addr.toNat o old v w) (.mem addr.toNat)
    o.width (s.completionOf (.mem addr.toNat) o.width) 0x0015 src tag addr.toNat (natLe o.width old)
  exact ⟨_, exec_remoteAtomic_done tag addr hd hk hf ho hc hok, hr, State.rawByte_of_mem hmem, hw, hb, hcr, hct⟩

end

/-- A fault of a store of an exited wave of a run is kept in the wave. -/
theorem lateError_deferred {s : State} {k : Nat} {r : RemoteReq} {w : Wave} {b : Block} {l : Launch}
    (he : w.exited = true) (hb : s.blocks.get? w.block = some b) (hl : s.launches.get? b.launch = some l)
    (hs : l.standing = none) (hn : b.snap = none) :
    let owed := s.noLongerOwed k r w
    ∃ w', { owed.lateError r.wave r.acc r.lane r.addr with waves := owed.waves } = owed ∧
      (owed.lateError r.wave r.acc r.lane r.addr).waves.get? r.wave = some w' ∧
      w'.peerOut = w.peerOut.filter (fun x => decide (x ≠ k)) ∧
      w'.deferred = w.deferred ++ [⟨0, r.acc, 0x17, r.addr, BitVec.ofNat 32 r.lane, 0, false⟩] := by
  intro owed
  have hw : owed.waves.get? r.wave = some { w with peerOut := w.peerOut.filter fun x => decide (x ≠ k) } :=
    KMap.get?_set_self _ _ _
  rw [State.lateError_kept hw he hb hl hs hn]
  exact ⟨_, rfl, KMap.get?_set_self _ _ _, rfl, rfl⟩

/-- A message of a reserved kind is dropped at a working port and counted there, up to 2^32 - 1. -/
theorem State.dropAt_counts {s : State} {port : Nat} (hp : s.powered = true) (h16 : port < 16)
    (hu : s.ctl.portDown.getLsbD port = false) :
    { s.dropAt port with ctl := { (s.dropAt port).ctl with portDrop := s.ctl.portDrop } } = s ∧
      ∀ n, ((s.dropAt port).ctl.portDrop.getD n 0).toNat = if n = port then
        min (2 ^ 32 - 1) ((s.ctl.portDrop.getD n 0).toNat + 1) else (s.ctl.portDrop.getD n 0).toNat := by
  have hlt : min (2 ^ 32 - 1) ((s.ctl.portDrop.getD port 0).toNat + 1) < 2 ^ 32 := by omega
  have hv : (BitVec.ofNat 32 (min (2 ^ 32 - 1) ((s.ctl.portDrop.getD port 0).toNat + 1))).toNat =
      min (2 ^ 32 - 1) ((s.ctl.portDrop.getD port 0).toNat + 1) := by
    rw [BitVec.toNat_ofNat, Nat.mod_eq_of_lt hlt]
  have h0 : BitVec.ofNat 32 (min (2 ^ 32 - 1) ((s.ctl.portDrop.getD port 0).toNat + 1)) ≠ 0 := fun e => by
    have := congrArg BitVec.toNat e
    rw [hv] at this
    simp at this
  unfold State.dropAt
  rw [if_pos ⟨hp, h16, hu⟩]
  refine ⟨rfl, fun n => ?_⟩
  show ((s.ctl.portDrop.put 0 port _).getD n 0).toNat = _
  unfold KMap.put
  rw [if_neg h0]
  by_cases hn : n = port
  · rw [hn, KMap.getD_set_self, if_pos rfl, hv]
  · rw [KMap.getD_set_ne _ _ _ hn, if_neg hn]

theorem State.dropAt_ignored {s : State} {port : Nat} (h : s.powered = false ∨ s.ctl.portDown.getLsbD port = true) :
    s.dropAt port = s := by
  refine if_neg fun ⟨hp, _, hu⟩ => ?_
  rcases h with h | h
  · rw [hp] at h; nomatch h
  · rw [hu] at h; nomatch h

/-- The ports that are down, once another is. -/
theorem getLsbD_or_port (m : BitVec 16) {port n : Nat} (hp : port < 16) (hn : n < 16) :
    (m ||| ((1 : BitVec 16) <<< port)).getLsbD n = (decide (n = port) || m.getLsbD n) := by
  have h1 : ((1 : BitVec 16) <<< port).getLsbD n = decide (n = port) := by
    rw [BitVec.getLsbD_shiftLeft]
    rcases lt_trichotomy n port with h | h | h
    · simp [h, Nat.ne_of_lt h]
    · simp [h, hp]
    · simp [hn, Nat.ne_of_gt h, Nat.not_lt_of_gt h, BitVec.getLsbD_one, Nat.sub_ne_zero_of_lt h]
  rw [BitVec.getLsbD_or, h1, Bool.or_comm]

/-- A port goes down, and what waits on it waits on the next working one (R304). -/
theorem portDown_moves {s : State} (hp : s.powered = true) (h16 : s.subj.a < 16) :
    ∃ t, exec .portDown s = .next t ∧
      { t with ctl := { t.ctl with portDown := s.ctl.portDown }, grants := s.grants } = s ∧
      (∀ n, n < 16 → t.ctl.portDown.getLsbD n = (decide (n = s.subj.a) || s.ctl.portDown.getLsbD n)) ∧
      t.grants.length = s.grants.length ∧
      ∀ (j : Nat) (x : GrantReq), s.grants[j]? = some x → ∃ y, t.grants[j]? = some y ∧ y.msg = x.msg ∧ y.cls = x.cls ∧
        (x.port ≠ s.subj.a → y.port = x.port) ∧
        (x.port = s.subj.a → t.ctl.portDown ≠ BitVec.allOnes 16 → t.ctl.portDown.getLsbD y.port = false) := by
  refine ⟨_, congrArg Host.Outcome.next (if_pos ⟨hp, h16⟩), rfl, fun n hn => ?_, List.length_map _, fun j x hj => ?_⟩
  · exact getLsbD_or_port _ h16 hn
  · by_cases hx : x.port = s.subj.a
    · exact ⟨_, (List.getElem?_map ..).trans ((congrArg _ hj).trans (congrArg some (if_pos hx))), rfl, rfl,
        fun h => absurd hx h, fun _ h => State.portFor_works _ h⟩
    · exact ⟨_, (List.getElem?_map ..).trans ((congrArg _ hj).trans (congrArg some (if_neg hx))), rfl, rfl,
        fun _ => rfl, fun h => absurd h hx⟩

/-- A memory message for this device arrives here when it is granted (log entry 48). -/
theorem messageGrant_own {s : State} {xs ys : List GrantReq} {g : GrantReq} (hu : s.ctl.portDown.getLsbD s.subj.a = false)
    (hs : s.grants = xs ++ g :: ys) (hg : g.port = s.subj.a ∧ g.cls = s.subj.b)
    (hx : ∀ x ∈ xs, ¬ (x.port = s.subj.a ∧ x.cls = s.subj.b))
    (own : 0x10 ≤ g.msg.kind.toNat ∧ g.msg.kind.toNat ≤ 0x15 ∧ g.msg.dst.toNat = ownDev) :
    exec .messageGrant s = (State.comesBack { s with grants := xs ++ ys } s.subj.a g.msg).getD
      (.next { s with grants := xs ++ ys, outbox := s.outbox ++ [g.msg] }) := by
  rw [exec_messageGrant hu ((congrArg _ hs).trans (takeGrant_append xs ys hx hg)), if_pos (g.msg.ofMemory_iff.mpr own)]

/-- What a memory message for this device does (R305). -/
theorem comesBack_eq (s : State) (port : Nat) (m : OutMsg) (d : Host.Outcome State Fault Refusal) :
    let here : State := { s with subj := ⟨port, ownDev, 0⟩ }
    let addr : DWord := BitVec.ofNat 64 (leAt m.payload 0 8)
    let status : Byte := BitVec.ofNat 8 (leAt m.payload 0 1)
    let rest := m.payload.drop 16
    let r := (s.comesBack port m).getD d
    (m.kind = 0x0010 →
      r = exec (.remoteRead (BitVec.ofNat 16 ownDev) m.tag addr (BitVec.ofNat 32 (leAt m.payload 8 4))) here) ∧
    (m.kind = 0x0011 → r = exec (.readResponse m.tag status rest) here) ∧
    (m.kind = 0x0012 →
      r = exec (.remoteWrite (BitVec.ofNat 16 ownDev) m.tag addr (rest.take (leAt m.payload 8 4))) here) ∧
    (m.kind = 0x0013 → r = exec (.writeResponse m.tag status) here) ∧
    (m.kind = 0x0014 → r = exec (.remoteAtomic (BitVec.ofNat 16 ownDev) m.tag addr
      ⟨BitVec.ofNat 8 (leAt m.payload 8 1), BitVec.ofNat 4 (leAt m.payload 9 1), rest⟩) here) ∧
    (m.kind = 0x0015 → r = exec (.atomicResponse m.tag status rest) here) := by
  intro here addr status rest r
  unfold r State.comesBack
  refine ⟨?_, ?_, ?_, ?_, ?_, ?_⟩
  all_goals
    intro hk
    rw [hk]
    rfl

/-- A message for another device, or of another kind, leaves. -/
theorem messageGrant_leaves {s : State} {xs ys : List GrantReq} {g : GrantReq}
    (hu : s.ctl.portDown.getLsbD s.subj.a = false) (hs : s.grants = xs ++ g :: ys)
    (hg : g.port = s.subj.a ∧ g.cls = s.subj.b) (hx : ∀ x ∈ xs, ¬ (x.port = s.subj.a ∧ x.cls = s.subj.b))
    (own : ¬ (0x10 ≤ g.msg.kind.toNat ∧ g.msg.kind.toNat ≤ 0x15 ∧ g.msg.dst.toNat = ownDev)) :
    exec .messageGrant s = .next { s with grants := xs ++ ys, outbox := s.outbox ++ [g.msg] } := by
  rw [exec_messageGrant hu ((congrArg _ hs).trans (takeGrant_append xs ys hx hg)),
    if_neg fun h => own (g.msg.ofMemory_iff.mp h)]

/-- Nothing waits on a port in a class, or the port is down. -/
theorem messageGrant_nothing {s : State} (h : s.ctl.portDown.getLsbD s.subj.a = true ∨
    ∀ x ∈ s.grants, ¬ (x.port = s.subj.a ∧ x.cls = s.subj.b)) : exec .messageGrant s = .next s := by
  show execMessageGrant s = _
  unfold execMessageGrant
  split
  · rfl
  · next hu => rw [takeGrant_none (h.resolve_left hu)]

/-- An answer to a request that waits: kept, or taken in for a retired store. -/
theorem answer_reaches {s : State} {i : Instr} {tag : Word} {st : Byte} {data : List Byte} {r : RemoteReq} {w : Wave}
    (hk : knownType (BitVec.ofNat 16 s.subj.b))
    (hi : i = .readResponse tag st data ∨ (i = .writeResponse tag st ∧ data = []) ∨ i = .atomicResponse tag st data)
    (hd : s.deaf = false) (hr : s.remote.get? tag.toNat = some r) (hm : KMap.wf s.remote = true) (hs : r.status = none)
    (hw : s.waves.get? r.wave = some w)
    (hf : (data = [] ∧ ∃ x, i = .writeResponse tag x) ∨ s.answerFits tag.toNat st data = true) :
    let owed := s.noLongerOwed tag.toNat r w
    let st := r.heard s.now st
    (tag.toNat ∉ w.peerOut ∨ w.underWay = true → exec i s = .next (s.withAnswer tag.toNat r st data)) ∧
    (tag.toNat ∈ w.peerOut → w.underWay = false →
      (∀ g ∈ w.peerOut, g ≠ tag.toNat → ∀ q, s.remote.get? g = some q → q.status = none) →
      exec i s = .next (if st = 0 then owed else owed.lateError r.wave r.acc r.lane r.addr)) := by
  intro owed st
  rw [exec_answer hd hk hi (hf.imp_left And.right)]
  refine ⟨fun h => congrArg _ (State.answer_held hr hs hw h _ _), fun hin hu ho => congrArg _ ?_⟩
  rw [State.answer_eq hr hs hw, if_pos (by simpa using hin)]
  exact State.lateChecks_withAnswer hw hm hin hu ho _ _

/-- Requests of peers for memory. The three parts are proved side by side; the statement of O43 binds its implication
more loosely than its conjunctions, and asks for the third only under the first two. -/
theorem remoteMemory_served {s : State} {src : BitVec 16} (tag : Word) (addr : DWord) (hd : s.deaf = false)
    (hk : knownType src) :
    let a := addr.toNat
    let refused (i : Instr) (kind : BitVec 16) : Prop := ∃ t, exec i s = .next t ∧ s.Replied t kind src tag a 1 [] ∧
      { t with grants := s.grants } = s
    (∀ (len : BitVec 32),
      (s.inRange a len.toNat = true → len ≠ 0 ∨ ctlOffset a = none → s.poisoned (.mem a) len.toNat = false →
        ∃ t, exec (.remoteRead src tag addr len) s = .next t ∧
          s.Replied t 0x0011 src tag a 0 (bytesFrom s.homeByte a len.toNat) ∧
          { t with grants := s.grants, views := s.views, l2 := s.l2 } = s) ∧
      ((s.inRange a len.toNat = false ∧ ctlOffset a = none) ∨
        (s.inRange a len.toNat = true ∧ s.poisoned (.mem a) len.toNat = true) →
          refused (.remoteRead src tag addr len) 0x0011)) ∧
    (∀ (data : List Byte), s.MemCanon →
      let ok := s.inRange a data.length && s.healsAll a data.length
      (s.meetsView a data.length = false → ctlOffset a = none → ok = true →
        ∃ t, exec (.remoteWrite src tag addr data) s = .next t ∧ s.Replied t 0x0013 src tag a 0 [] ∧
        (∀ x, t.rawByte x = if a ≤ x ∧ x < a + data.length then data.getD (x - a) 0 else s.rawByte x) ∧
        t.waves = s.waves ∧ t.blocks = s.blocks ∧ t.cores = s.cores ∧ t.ctl = s.ctl) ∧
      (s.meetsView a data.length = true ∨ (ctlOffset a = none ∧ ok = false) →
        refused (.remoteWrite src tag addr data) 0x0013)) ∧
    (ctlOffset a = none →
      (∀ (op : RemoteOp) (o : Rmw) (v w : DWord), s.MemCanon → remoteFits op = true → remoteRmw op = some (o, v, w) →
        let ok := s.inRange a o.width && !s.meetsView a o.width && !s.poisoned (.mem a) o.width
        let old := leNat (bytesFrom s.rawByte a o.width)
        (ok = true → ∃ t, exec (.remoteAtomic src tag addr op) s = .next t ∧
          s.Replied t 0x0015 src tag a 0 (natLe o.width old) ∧
          (∀ x, t.rawByte x = match o.result old v w with
            | some y => if a ≤ x ∧ x < a + o.width then BitVec.ofNat 8 (y / 256 ^ (x - a)) else s.rawByte x
            | none => s.rawByte x) ∧
          t.waves = s.waves ∧ t.blocks = s.blocks ∧ t.cores = s.cores ∧ t.ctl = s.ctl) ∧
        (ok = false → refused (.remoteAtomic src tag addr op) 0x0015)) ∧
      ∀ (op : RemoteOp), remoteFits op = true → remoteRmw op = none → refused (.remoteAtomic src tag addr op) 0x0015) := by
  intro a refused
  refine ⟨fun len => ⟨remoteRead_serves tag addr hd hk len, fun h => ?_⟩, fun data hm => ?_, fun hc =>
    ⟨fun op o v w hm hf ho => ?_, fun op hf ho => ?_⟩⟩
  · exact ⟨_, exec_remoteRead_bad tag addr hd hk len h, s.replied_bad _ _ _ _⟩
  · exact ⟨remoteWrite_serves tag addr hd hk data hm,
      fun h => ⟨_, exec_remoteWrite_bad tag addr hd hk data h, s.replied_bad _ _ _ _⟩⟩
  · refine ⟨fun hok => ?_, fun hok => ?_⟩
    · obtain ⟨t, ht, hr, hx, hs⟩ := remoteAtomic_serves tag addr hd hk hf ho hc hok
      exact ⟨t, ht, hr, fun x => (hx x).trans (State.rawByte_afterRmw hm _ _ _ _ _ x), hs⟩
    · exact ⟨_, exec_remoteAtomic_bad tag addr hd hk hf hc (Or.inr ⟨_, ho, hok⟩), s.replied_bad _ _ _ _⟩
  · exact ⟨_, exec_remoteAtomic_bad tag addr hd hk hf hc (Or.inl ho), s.replied_bad _ _ _ _⟩

/-- Settles O43, a lemma for each kind of message and of port event; the answer to a retired store goes through the fold
over the stores whose answers the wave is owed, of which one alone acts. -/
theorem peersAndPorts : Obligations.PeersAndPorts := by
  unfold Obligations.PeersAndPorts
  refine ⟨fun s => ⟨fun src tag addr hd hk => ?_, fun i tag st data hk hi => ?_, fun r hr ht => ?_⟩,
    fun s i src agree h => ?_, fun s hp => ?_, fun s hp h16 => ?_⟩
  · exact fun ⟨_, _, hc⟩ => (remoteMemory_served tag addr hd hk).2.2 hc
  · intro k now
    refine ⟨exec_answer_ignored hk hi, fun r w hd hr hm hs hw hf => ?_⟩
    obtain ⟨hh, ho⟩ := answer_reaches hk hi hd hr hm hs hw hf
    intro st held owed
    refine ⟨hh, fun hin hu hn =>
      ⟨fun h0 => ?_, fun h0 he => ?_, fun h0 he b l hb hl => ⟨fun hs hq => ?_, fun hs hsn => ?_⟩⟩⟩
    · exact (ho hin hu hn).trans (congrArg _ (if_pos h0))
    all_goals
      have ho := (ho hin hu hn).trans (congrArg _ (if_neg h0))
      have hw : (s.noLongerOwed k r w).waves.get? r.wave = some _ := KMap.get?_set_self _ _ _
    · exact ho.trans (congrArg _ (State.lateError_running hw he _ _ _))
    · exact ho.trans (congrArg _ (State.lateError_relaxation hw he hb hl hs hq _ _ _))
    · obtain ⟨w', h⟩ := lateError_deferred he hb hl hs hsn
      exact ⟨_, w', ho, h⟩
  · have e : exec .remoteRequestTimeout s = .next (if r.deadline ≤ s.now then s.answer s.subj.a 1 [] else s) := by
      show Host.Outcome.next _ = _
      rw [hr]
    have hl (h : r.deadline ≤ s.now) := e.trans (congrArg _ (if_pos h))
    refine ⟨fun h => e.trans (congrArg _ (if_neg (by omega))), hl, fun h hd hk => (hl h).trans ?_⟩
    rw [exec_answer hd hk (Or.inr (Or.inl ⟨rfl, rfl⟩)) (Or.inl ⟨_, rfl⟩), BitVec.toNat_ofNat, Nat.mod_eq_of_lt ht]
  · obtain ⟨f, e⟩ := exec_message h
    exact ⟨fun hd => e.trans (congrArg _ (State.hear_deaf hd _ _ _)),
      fun hd hb => e.trans (congrArg _ (State.hear_bad hd hb f))⟩
  · exact ⟨congrArg _ (State.dropAt_ignored (Or.inl hp)), congrArg Host.Outcome.next (if_neg (by simp [hp]))⟩
  · refine ⟨fun hu => ⟨⟨_, rfl, State.dropAt_counts hp h16 hu⟩, fun xs ys g hs hgp hgc hx => ?_,
      fun h => messageGrant_nothing (Or.inr h)⟩, fun hu => ⟨congrArg _ (State.dropAt_ignored (Or.inr hu)),
      messageGrant_nothing (Or.inl hu)⟩, portDown_moves hp h16⟩
    intro m own here addr status rest
    obtain ⟨h10, h11, h12, h13, h14, h15⟩ := comesBack_eq { s with grants := xs ++ ys } s.subj.a m
      (.next { s with grants := xs ++ ys, outbox := s.outbox ++ [m] })
    have ho := messageGrant_own hu hs ⟨hgp, hgc⟩ hx
    exact ⟨messageGrant_leaves hu hs ⟨hgp, hgc⟩ hx, fun o k => (ho o).trans (h10 k), fun o k => (ho o).trans (h11 k),
      fun o k => (ho o).trans (h12 k), fun o k => (ho o).trans (h13 k), fun o k => (ho o).trans (h14 k),
      fun o k => (ho o).trans (h15 k)⟩

end Sys2Proof.Machine
end

section
namespace Sys2Proof.Machine
open Sys2Proof

/-! ## The control space (R8, R9, R399, R400) -/

/-! ### Registers at their offsets -/

/-- Outside the ranges of the single registers, an offset names a register that stands in a row. -/
theorem ctlRegAt_of_row {off : Nat} (h8 : off % 8 = 0)
    (h : (0x200000 ≤ off ∧ off < 0x2000000) ∨ (0x170000 ≤ off ∧ off < 0x1A0000)) : ctlRegAt off = rowReg off := by
  have hp : plainReg off = none := by
    unfold plainReg
    split
    case h_23 => rfl
    all_goals omega
  unfold ctlRegAt
  rw [if_neg (by omega), if_neg (by omega), hp]

theorem ctlRegAt_program {p i : Nat} (hp : p < 8) (hi : i < 8) : ctlRegAt (0x120000 + 64 * p + 8 * i) = some (.sp p i) := by
  have h : ∀ p < 8, ∀ i < 8, ctlRegAt (0x120000 + 64 * p + 8 * i) = some (.sp p i) := by decide
  exact h p hp i hi

theorem ctlRegAt_window (n : Fin 16) : ctlRegAt (0x100000 + 32 * n.val) = some (.fwCtl n.val) := by
  revert n
  decide

theorem ctlRegAt_owner {core entry : Nat} (hc : core < 192) (he : entry < 32) (hi : Bool) :
    ctlRegAt (0x200000 + 512 * core + 16 * entry + if hi then 8 else 0) = some (.owner core entry hi) := by
  generalize hx : (if hi then 8 else 0 : Nat) = x
  have hx' : x = if hi then 8 else 0 := hx.symm
  have hb : x = 0 ∧ hi = false ∨ x = 8 ∧ hi = true := by cases hi <;> simp [hx']
  rw [ctlRegAt_of_row (by omega) (by omega)]
  unfold rowReg
  rw [if_neg (by omega), if_neg (by omega), if_neg (by omega), if_neg (by omega), if_neg (by omega), if_neg (by omega),
    if_pos (by omega)]
  have h1 : (0x200000 + 512 * core + 16 * entry + x - 0x200000) / 512 = core := by omega
  have h2 : (0x200000 + 512 * core + 16 * entry + x) % 512 / 16 = entry := by omega
  have h3 : ((0x200000 + 512 * core + 16 * entry + x) / 8 % 2 == 1) = hi := by
    rcases hb with ⟨rfl, rfl⟩ | ⟨rfl, rfl⟩
    · rw [beq_eq_false_iff_ne]; omega
    · rw [beq_iff_eq]; omega
  rw [h1, h2, h3]

theorem ctlRegAt_haltWin {core slot : Nat} (hc : core < 192) (hs : slot < 64) (hi : Bool) :
    ctlRegAt (0x170000 + 1024 * core + 16 * slot + if hi then 8 else 0) = some (.haltWin core slot hi) := by
  generalize hx : (if hi then 8 else 0 : Nat) = x
  have hx' : x = if hi then 8 else 0 := hx.symm
  have hb : x = 0 ∧ hi = false ∨ x = 8 ∧ hi = true := by cases hi <;> simp [hx']
  rw [ctlRegAt_of_row (by omega) (by omega)]
  unfold rowReg
  rw [if_neg (by omega), if_neg (by omega), if_neg (by omega), if_neg (by omega), if_neg (by omega), if_pos (by omega)]
  have h1 : (0x170000 + 1024 * core + 16 * slot + x - 0x170000) / 1024 = core := by omega
  have h2 : (0x170000 + 1024 * core + 16 * slot + x) % 1024 / 16 = slot := by omega
  have h3 : ((0x170000 + 1024 * core + 16 * slot + x) / 8 % 2 == 1) = hi := by
    rcases hb with ⟨rfl, rfl⟩ | ⟨rfl, rfl⟩
    · rw [beq_eq_false_iff_ne]; omega
    · rw [beq_iff_eq]; omega
  rw [h1, h2, h3]

theorem ctlRegAt_resWin {e : Nat} (he : e < 0x100000) : ctlRegAt (0x1000000 + 16 * e) = some (.resWin e false) := by
  rw [ctlRegAt_of_row (by omega) (by omega)]
  unfold rowReg
  rw [if_neg (by omega), if_neg (by omega), if_neg (by omega), if_neg (by omega), if_neg (by omega), if_neg (by omega),
    if_neg (by omega), if_pos (by omega)]
  have h1 : (0x1000000 + 16 * e - 0x1000000) / 16 = e := by omega
  have h2 : ((0x1000000 + 16 * e) / 8 % 2 == 1) = false := by rw [beq_eq_false_iff_ne]; omega
  rw [h1, h2]

/-- Only the offset of an entry of the residual window names that entry. -/
theorem off_of_resWin {off e : Nat} (h : ctlRegAt off = some (.resWin e false)) : off = 0x1000000 + 16 * e := by
  unfold ctlRegAt at h
  split at h
  · nomatch h
  · next h8 =>
    split at h
    · unfold mgmtReg at h
      repeat' split at h
      all_goals nomatch h
    split at h
    · next r hr =>
      cases h
      unfold plainReg at hr
      split at hr
      all_goals nomatch hr
    · unfold rowReg windowReg at h
      repeat' split at h
      all_goals simp only [Option.some.injEq, reduceCtorEq, CtlReg.resWin.injEq, beq_eq_false_iff_ne] at h
      omega

/-! ### Fields -/

theorem toNat_keepBits (v : DWord) {lo n : Nat} (h : lo + n ≤ 64) :
    (keepBits v lo n).toNat = v.toNat % 2 ^ (lo + n) / 2 ^ lo * 2 ^ lo := by
  have hb : v.toNat % 2 ^ (lo + n) / 2 ^ lo = v.toNat / 2 ^ lo % 2 ^ n := by
    rw [Nat.pow_add, Nat.mod_mul_right_div_self]
  have hlt : v.toNat / 2 ^ lo % 2 ^ n * 2 ^ lo < 2 ^ 64 := calc
    _ < 2 ^ n * 2 ^ lo := Nat.mul_lt_mul_of_pos_right (Nat.mod_lt _ (by positivity)) (by positivity)
    _ = 2 ^ (lo + n) := by rw [Nat.pow_add, Nat.mul_comm]
    _ ≤ 2 ^ 64 := Nat.pow_le_pow_right (by decide) h
  have h64 : v.toNat / 2 ^ lo % 2 ^ n < 2 ^ 64 := (Nat.mod_lt _ (by positivity)).trans_le
    (Nat.pow_le_pow_right (by decide) (by omega))
  unfold keepBits
  rw [BitVec.toNat_shiftLeft, BitVec.toNat_setWidth, BitVec.extractLsb'_toNat, Nat.shiftRight_eq_div_pow,
    Nat.shiftLeft_eq, hb, Nat.mod_eq_of_lt h64, Nat.mod_eq_of_lt hlt]

theorem keepBits_eq (v : DWord) {lo n : Nat} (h : lo + n ≤ 64) :
    keepBits v lo n = BitVec.ofNat 64 (v.toNat % 2 ^ (lo + n) / 2 ^ lo * 2 ^ lo) := by
  rw [← toNat_keepBits v h, BitVec.ofNat_toNat, BitVec.setWidth_eq]

/-- The low bits of a value. -/
theorem toNat_low (v : DWord) (n : Nat) : (v.extractLsb' 0 n).toNat = v.toNat % 2 ^ n := by
  rw [BitVec.extractLsb'_toNat, Nat.shiftRight_zero]

/-! ### Numbers laid out as bytes -/

/-- The bytes of a number follow those of another. -/
theorem natLe_append (m n x y : Nat) (hx : x < 256 ^ m) : natLe m x ++ natLe n y = natLe (m + n) (x + 256 ^ m * y) := by
  induction m generalizing x with
  | zero =>
    have : x = 0 := by simpa using hx
    simp [natLe, this]
  | succ m ih =>
    rw [Nat.pow_succ'] at hx ⊢
    have e : m + 1 + n = m + n + 1 := by omega
    have hd : (x + 256 * 256 ^ m * y) / 256 = x / 256 + 256 ^ m * y := by
      rw [Nat.mul_assoc, Nat.add_mul_div_left _ _ (by decide)]
    have hm : BitVec.ofNat 8 (x + 256 * 256 ^ m * y) = BitVec.ofNat 8 x := by
      apply BitVec.eq_of_toNat_eq
      rw [BitVec.toNat_ofNat, BitVec.toNat_ofNat, Nat.mul_assoc]
      omega
    rw [e, natLe, natLe, List.cons_append, ih _ (by omega), hd, hm]

theorem ofNat_leNat_natLe (v : DWord) : BitVec.ofNat 64 (leNat ((natLe 8 v.toNat).take 8)) = v := by
  have hl : (natLe 8 v.toNat).take 8 = natLe 8 v.toNat := List.take_of_length_le (by rw [length_natLe])
  rw [hl, leNat_natLe, Nat.mod_eq_of_lt (v.isLt.trans_eq (by decide)), BitVec.ofNat_toNat, BitVec.setWidth_eq]

/-! ### Accesses over the fabric (R305, R399) -/

theorem toNat_ctlAddr (off : BitVec 25) : (BitVec.ofNat 64 (0xFF00000000 + off.toNat)).toNat = 0xFF00000000 + off.toNat := by
  rw [BitVec.toNat_ofNat, Nat.mod_eq_of_lt (by omega)]

theorem ctlOffset_ctlAddr (off : BitVec 25) : ctlOffset (0xFF00000000 + off.toNat) = some off.toNat := by
  unfold ctlOffset ctlBase
  rw [if_pos (by omega), Nat.add_sub_cancel_left]

section
variable {s : State} (hv : ∀ x, 0xFF00000000 ≤ x → s.windowAt x = none)
include hv

/-- No byte of the control space is a byte of memory or of a view. -/
theorem State.inRange_ctl {a n : Nat} (ha : 0xFF00000000 ≤ a) (hn : 0 < n) : s.inRange a n = false := by
  have hb : s.hasByte a = false := by
    have he : ¬ a < Config.hbmEnd := by unfold Config.hbmEnd; omega
    unfold State.hasByte
    rw [hv a ha, decide_eq_false he]
    rfl
  unfold State.inRange
  rw [Bool.and_eq_false_iff]
  refine Or.inr (List.all_eq_false.mpr ⟨0, List.mem_range.mpr hn, ?_⟩)
  rw [Nat.add_zero, hb]
  exact Bool.false_ne_true

theorem State.meetsView_ctl {a : Nat} (ha : 0xFF00000000 ≤ a) (n : Nat) : s.meetsView a n = false := by
  unfold State.meetsView
  rw [List.any_eq_false]
  intro k hk
  obtain ⟨i, -, rfl⟩ := List.mem_map.mp hk
  rw [hv _ (by omega)]
  exact Bool.false_ne_true

variable {src : BitVec 16} (tag : Word) (off : BitVec 25) (hd : s.deaf = false) (hk : knownType src)
include hd hk

theorem exec_remoteRead_ctl (len : BitVec 32) :
    let addr : DWord := BitVec.ofNat 64 (0xFF00000000 + off.toNat)
    exec (.remoteRead src tag addr len) s = .next (s.ctlAccess ⟨off.toNat, .read len.toNat, ⟨src, tag, addr.toNat⟩⟩) := by
  intro addr
  have ho : ctlOffset addr.toNat = some off.toNat := by rw [toNat_ctlAddr]; exact ctlOffset_ctlAddr off
  refine congrArg Host.Outcome.next ((State.hear_known hd hk _).trans ?_)
  rw [if_neg, ho]
  rw [Bool.and_eq_true, not_and_or, Bool.or_eq_true]
  rcases Nat.eq_zero_or_pos len.toNat with h | h
  · exact Or.inr (by simp [h, ho])
  · exact Or.inl (by rw [State.inRange_ctl hv (by rw [toNat_ctlAddr]; omega) h]; exact Bool.false_ne_true)

theorem exec_remoteWrite_ctl (data : List Byte) :
    let addr : DWord := BitVec.ofNat 64 (0xFF00000000 + off.toNat)
    exec (.remoteWrite src tag addr data) s = .next (s.ctlAccess ⟨off.toNat, .write data.length
      (BitVec.ofNat 64 (leNat (data.take 8))), ⟨src, tag, addr.toNat⟩⟩) := by
  intro addr
  have ho : ctlOffset addr.toNat = some off.toNat := by rw [toNat_ctlAddr]; exact ctlOffset_ctlAddr off
  refine congrArg Host.Outcome.next ((State.hear_known hd hk _).trans ?_)
  rw [State.meetsView_ctl hv (by rw [toNat_ctlAddr]; omega), if_neg Bool.false_ne_true, ho]

end

theorem exec_remoteAtomic_ctl {s : State} {src : BitVec 16} (tag : Word) (off : BitVec 25) (hd : s.deaf = false)
    (hk : knownType src) {op : RemoteOp} (hf : remoteFits op = true) :
    let addr : DWord := BitVec.ofNat 64 (0xFF00000000 + off.toNat)
    exec (.remoteAtomic src tag addr op) s = .next (s.ctlAccess ⟨off.toNat, .atomic, ⟨src, tag, addr.toNat⟩⟩) := by
  intro addr
  have ho : ctlOffset addr.toNat = some off.toNat := by rw [toNat_ctlAddr]; exact ctlOffset_ctlAddr off
  unfold exec execRemoteAtomic
  dsimp only
  rw [hf, State.hear_known hd hk, ho]

/-! ### What an access does -/

theorem State.ctlAccess_busy {s : State} {x : CtlAccess} (h : s.ctlBusy x.reply.src = true) :
    s.ctlAccess x = s.modCtl fun k => { k with behind := k.behind ++ [x] } := if_pos h

theorem State.ctlAccess_free {s : State} {x : CtlAccess} (h : s.ctlBusy x.reply.src = false) :
    s.ctlAccess x = s.ctlServe x := if_neg (by rw [h]; exact Bool.false_ne_true)

/-- A write that waits is kept, and its source is busy. -/
theorem State.keepWrite_busy {s : State} {r : CtlReg} {v : DWord} (hw : s.writeWaits r v = true) (w : WriteReply) :
    { s.keepWrite r v (some w) with ctl := s.ctl } = s ∧ (s.keepWrite r v (some w)).ctlBusy w.src = true := by
  unfold State.writeWaits at hw
  split at hw
  · exact ⟨rfl, by simp [State.ctlBusy, State.keepWrite]⟩
  · exact ⟨rfl, by simp [State.ctlBusy, State.keepWrite]⟩
  · exact ⟨rfl, by simp [State.ctlBusy, State.keepWrite]⟩
  · rw [Bool.and_false] at hw
    nomatch hw

section
variable (s : State) (off : Nat) (w : WriteReply)

/-- A write of another size, or of no register, is rejected. -/
theorem State.ctlServe_write_bad {n : Nat} (v : DWord) (h : n ≠ 8 ∨ ctlRegAt off = none) :
    s.ctlServe ⟨off, .write n v, w⟩ = s.reply 0x0013 w.src w.tag w.addr 1 [] := by
  unfold State.ctlServe
  dsimp only
  split
  · rfl
  · next r hr => rw [if_pos (h.resolve_right (by rw [hr]; exact Option.some_ne_none r))]

theorem State.ctlServe_write {r : CtlReg} (hr : ctlRegAt off = some r) (v : DWord) :
    s.ctlServe ⟨off, .write 8 v, w⟩ =
      if s.writeWaits r v then s.keepWrite r v (some w) else (s.ctlWrite r v).replyWrite (some w) := by
  unfold State.ctlServe
  dsimp only
  rw [hr]
  exact if_neg (by simp)

theorem State.ctlServe_read {n : Nat} {bs : List Byte} (h : s.ctlBytes off n = some bs) :
    s.ctlServe ⟨off, .read n, w⟩ = s.reply 0x0011 w.src w.tag w.addr 0 bs := by
  unfold State.ctlServe
  dsimp only
  rw [h]

theorem State.ctlServe_read_bad {n : Nat} (h : s.ctlBytes off n = none) :
    s.ctlServe ⟨off, .read n, w⟩ = s.reply 0x0011 w.src w.tag w.addr 1 [] := by
  unfold State.ctlServe
  dsimp only
  rw [h]

end

theorem State.ctlBytes_reg (s : State) {off : Nat} {r : CtlReg} (hr : ctlRegAt off = some r) :
    s.ctlBytes off 8 = some (natLe 8 (s.ctlValue r).toNat) := by
  unfold State.ctlBytes
  rw [hr]
  rfl

theorem State.ctlBytes_none (s : State) {off n : Nat} (hr : ctlRegAt off = none) : s.ctlBytes off n = none := by
  unfold State.ctlBytes
  rw [hr]

/-- A read of another size than 8 bytes is none, unless it is the whole of an entry of the residual window. -/
theorem State.ctlBytes_size (s : State) {off n : Nat} (h8 : n ≠ 8) (h : n ≠ 16 ∨ ∀ e, off ≠ 0x1000000 + 16 * e) :
    s.ctlBytes off n = none := by
  unfold State.ctlBytes
  split
  · rfl
  · next r hr =>
    rw [if_neg h8]
    split
    · next e => exact if_neg (h.resolve_right fun hn => hn e (off_of_resWin hr))
    · rfl

/-! ### The residual window (R264, R265) -/

/-- Some resident program owns an entry of the residual table. -/
def State.ownsEntry (s : State) (e : Nat) : Prop := ∃ q ∈ s.programs, q.2.base ≤ e ∧ e < q.2.base + q.2.n

theorem State.ownsEntry_iff (s : State) (e : Nat) :
    (s.programs.any fun q => decide (q.2.base ≤ e) && decide (e < q.2.base + q.2.n)) = true ↔ s.ownsEntry e := by
  simp [State.ownsEntry]

theorem State.resHalf_owned {s : State} {e : Nat} (h : s.ownsEntry e) (hi : Bool) : s.resHalf e hi =
    reg64 (if hi then (s.resEntry e).bits / 2 ^ 64 else (s.resEntry e).bits % 2 ^ 64) :=
  if_pos ((s.ownsEntry_iff e).mpr h)

theorem State.resHalf_unowned {s : State} {e : Nat} (h : ¬ s.ownsEntry e) (hi : Bool) : s.resHalf e hi = 0 :=
  if_neg fun ho => h ((s.ownsEntry_iff e).mp ho)

/-- The lowest byte of an entry. -/
def ResEntry.flags (x : ResEntry) : Nat :=
  x.state.toNat + (if x.rearm then 4 else 0) + 8 * x.kills.toNat + (if x.hold then 64 else 0) + if x.fpend then 128 else 0

theorem ResEntry.flags_lt (x : ResEntry) : x.flags < 256 := by
  have h1 := x.state.isLt
  have h2 := x.kills.isLt
  have bit (b : Bool) (n : Nat) : (if b then n else 0) ≤ n := by split <;> omega
  have h3 := bit x.rearm 4
  have h4 := bit x.hold 64
  have h5 := bit x.fpend 128
  unfold ResEntry.flags
  omega

theorem ResEntry.bits_eq (x : ResEntry) : x.bits = x.flags + 2 ^ 8 * x.wait.toNat + 2 ^ 16 * x.seq.toNat +
    2 ^ 64 * x.bump.toNat + 2 ^ 96 * x.res.toNat := by
  unfold ResEntry.bits ResEntry.flags
  omega

/-- The 16 bytes of an entry of the residual window are its fields in order. -/
theorem ResEntry.bytes_eq (x : ResEntry) : natLe 8 (x.bits % 2 ^ 64) ++ natLe 8 (x.bits / 2 ^ 64) =
    natLe 1 x.flags ++ natLe 1 x.wait.toNat ++ natLe 6 x.seq.toNat ++ natLe 4 x.bump.toNat ++ natLe 4 x.res.toNat := by
  have hf := x.flags_lt
  have hw := x.wait.isLt
  have hs := x.seq.isLt
  have hb := x.bump.isLt
  rw [x.bits_eq, natLe_append 8 8 _ _ (by omega), natLe_append 1 1 _ _ (by omega), natLe_append (1 + 1) 6 _ _ (by omega),
    natLe_append (1 + 1 + 6) 4 _ _ (by omega), natLe_append (1 + 1 + 6 + 4) 4 _ _ (by omega)]
  congr 1
  omega

/-- A read of a whole entry of the residual window. -/
theorem State.ctlBytes_resWin {s : State} {e : Nat} (he : e < 0x100000) (hl : s.ctl.ready = true) :
    ∃ bs, s.ctlBytes (0x1000000 + 16 * e) 16 = some bs ∧ (¬ s.ownsEntry e → bs = List.replicate 16 0) ∧
      (s.ownsEntry e → bs = natLe 1 (s.resEntry e).flags ++ natLe 1 (s.resEntry e).wait.toNat ++
        natLe 6 (s.resEntry e).seq.toNat ++ natLe 4 (s.resEntry e).bump.toNat ++ natLe 4 (s.resEntry e).res.toNat) := by
  have hv (hi : Bool) : s.ctlValue (.resWin e hi) = s.resHalf e hi := if_pos (State.regLive_of_ready _ hl)
  have h : s.ctlBytes (0x1000000 + 16 * e) 16 =
      some (natLe 8 (s.resHalf e false).toNat ++ natLe 8 (s.resHalf e true).toNat) := by
    unfold State.ctlBytes
    rw [ctlRegAt_resWin he, ← hv, ← hv]
    rfl
  refine ⟨_, h, fun hn => ?_, fun ho => ?_⟩
  · rw [State.resHalf_unowned hn, State.resHalf_unowned hn]
    rfl
  · have hx := (s.resEntry e).bits_eq
    have hf := (s.resEntry e).flags_lt
    have hw := (s.resEntry e).wait.isLt
    have hs := (s.resEntry e).seq.isLt
    have hb := (s.resEntry e).bump.isLt
    have hr := (s.resEntry e).res.isLt
    rw [← ResEntry.bytes_eq]
    have h0 : (s.resHalf e false).toNat = (s.resEntry e).bits % 2 ^ 64 := by
      rw [State.resHalf_owned ho, if_neg Bool.false_ne_true, reg64, BitVec.toNat_ofNat, Nat.mod_mod]
    have h1 : (s.resHalf e true).toNat = (s.resEntry e).bits / 2 ^ 64 := by
      rw [State.resHalf_owned ho, if_pos rfl, reg64, BitVec.toNat_ofNat, Nat.mod_eq_of_lt (by omega)]
    rw [h0, h1]

/-! ### Writes of registers (R8, R9) -/

theorem State.ctlValue_ready {s : State} (h : s.ctl.ready = true) (r : CtlReg) : s.ctlValue r = s.ctlRead r :=
  if_pos (State.regLive_of_ready r h)

theorem exec_registerWrite {s : State} {off : BitVec 25} {r : CtlReg} (hr : ctlRegAt off.toNat = some r) (val : DWord) :
    exec (.registerWrite off val) s = .next (s.ctlWrite r val) := by
  show Host.Outcome.next _ = _
  rw [hr]

theorem exec_registerWrite_none {s : State} {off : BitVec 25} (hr : ctlRegAt off.toNat = none) (val : DWord) :
    exec (.registerWrite off val) s = .next s := by
  show Host.Outcome.next _ = _
  rw [hr]

theorem ctlRegAt_misaligned {off : Nat} (h : off % 8 ≠ 0) : ctlRegAt off = none := if_pos h

/-- A write that changes nothing, of a register that ignores writes. -/
theorem State.ctlWrite_readOnly {s : State} {r : CtlReg} {val : DWord} (hw : s.writeWaits r val = false)
    (hp : s.ctlPut r val = s) : s.ctlWrite r val = s := by
  cases hl : s.regLive r with
  | false => exact State.ctlWrite_of_dead val hl
  | true => exact (State.ctlWrite_of_live val hl hw).trans hp

/-- A register whose write begins an operation: an attestation, an invalidation or a pre-emption. -/
def CtlReg.begins : CtlReg → Bool
  | .atCmd => true
  | .xltC => true
  | .peCmd => true
  | _ => false

/-- Any other register takes a write at once. -/
theorem State.writeWaits_plain (s : State) {r : CtlReg} (v : DWord) (h : r.begins = false) : s.writeWaits r v = false := by
  unfold State.writeWaits
  split
  · nomatch h
  · nomatch h
  · nomatch h
  · exact Bool.and_false _

/-- Until READY, a register that does not answer yet keeps its value (R400). -/
theorem State.ctlWrite_early {s : State} {r : CtlReg} (val : DWord) (hr : s.ctl.ready = false)
    (h : s.ctl.measured = false ∨ r.early = false) : s.ctlWrite r val = s := by
  by_cases hm : r = .mgstat
  · subst hm
    exact State.ctlWrite_readOnly (s.writeWaits_plain _ rfl) rfl
  · refine State.ctlWrite_of_dead val ?_
    unfold State.regLive
    rw [hr, beq_false_of_ne hm]
    rcases h with h | h <;> simp [h]

/-- What a register reads as, after a write that only changes the control registers. -/
theorem register_readsBack {s : State} {o : BitVec 25} {r : CtlReg} {val : DWord} {f : Ctl → Ctl}
    (hr : ctlRegAt o.toNat = some r) (h : s.ctl.ready = true) (hw : s.writeWaits r val = false)
    (hp : s.ctlPut r val = s.modCtl f) (hf : (f s.ctl).ready = true) :
    ∃ t, exec (.registerWrite o val) s = .next t ∧ { t with ctl := s.ctl } = s ∧
      t.ctlValue r = (s.modCtl f).ctlRead r := by
  refine ⟨s.modCtl f, ?_, rfl, State.ctlValue_ready hf r⟩
  rw [exec_registerWrite hr, State.ctlWrite_of_live val (State.regLive_of_ready r h) hw, hp]

/-- The trap ring after a write of TRCTL (R374). -/
theorem Ctl.writeTrctl_spec (k : Ctl) (val : DWord) :
    let n := (val.extractLsb' 0 5).toNat
    (k.writeTrctl val).trOn = val.getLsbD 63 ∧
    (k.writeTrctl val).trSize = (if k.trOn then k.trSize else if 6 ≤ n ∧ n ≤ 16 then n else 12) ∧
    (k.trOn = false → val.getLsbD 63 = true → (k.writeTrctl val).trWr = 0 ∧ (k.writeTrctl val).trRd = 0) ∧
    (k.trOn = true ∨ val.getLsbD 63 = false → (k.writeTrctl val).trWr = k.trWr ∧ (k.writeTrctl val).trRd = k.trRd) := by
  intro n
  unfold Ctl.writeTrctl
  cases hk : k.trOn <;> cases hv : val.getLsbD 63 <;> simp [hk, n]

/-! ### Format windows (R112, R115) -/

/-- A line that lies outside the view range of a window. -/
def Window.misses (w : Window) (line : Nat) : Prop := 64 * line + 64 ≤ w.view ∨ w.view + 64 * w.len ≤ 64 * line

/-- A core without the lines of a window. -/
def Core.dropLines (w : Window) (k : Core) : Core :=
  { k with l1 := k.l1.filter fun x =>
      decide (64 * x.1 + 64 ≤ w.view) || decide (w.view + 64 * w.len ≤ 64 * x.1) }

/-- No cache holds a decoded line of a window that has been closed. -/
theorem State.dropViews_spec (s : State) (w : Window) : (∀ e ∈ (s.dropViews w).views, w.misses e.1) ∧
    ∀ c, ∀ e ∈ ((s.dropViews w).core c).l1, w.misses e.1 := by
  have hout (line : Nat) : (decide (64 * line + 64 ≤ w.view) || decide (w.view + 64 * w.len ≤ 64 * line)) = true →
      w.misses line := by simp [Window.misses]
  refine ⟨fun e he => hout _ (List.mem_filter.mp he).2, fun c e he => ?_⟩
  rw [State.core_map (s := s) (t := s.dropViews w) (f := Core.dropLines w) rfl rfl c] at he
  exact hout _ (List.mem_filter.mp he).2

theorem State.modWindow_window {s : State} (h : KMap.wf s.ctl.windows = true) (n k : Nat) (f : Window → Window) :
    (s.modWindow n f).ctl.window k = if k = n then f (s.ctl.window n) else s.ctl.window k :=
  KMap.getD_put n k _ h

/-- A window that is closed drops its decoded lines. -/
theorem State.writeWindow_closes {s : State} {n : Nat} {val : DWord} (hw : (s.ctl.window n).on = true)
    (hv : decide (val.extractLsb' 0 2 = 1) = false) : s.writeWindow n val =
      (s.dropViews (s.ctl.window n)).modWindow n fun w =>
        { w with len := if w.on then w.len else (val.extractLsb' 32 32).toNat, on := decide (val.extractLsb' 0 2 = 1) } := by
  unfold State.writeWindow
  simp only [hw, hv, Bool.not_false, Bool.and_self, if_true]

theorem State.writeWindow_keeps {s : State} {n : Nat} {val : DWord}
    (h : (s.ctl.window n).on = false ∨ decide (val.extractLsb' 0 2 = 1) = true) : s.writeWindow n val =
      s.modWindow n fun w =>
        { w with len := if w.on then w.len else (val.extractLsb' 32 32).toNat, on := decide (val.extractLsb' 0 2 = 1) } := by
  have hn : ((s.ctl.window n).on && !decide (val.extractLsb' 0 2 = 1)) = false := by
    rcases h with h | h
    · rw [h, Bool.false_and]
    · rw [h, Bool.not_true, Bool.and_false]
  unfold State.writeWindow
  simp only [hn, Bool.false_eq_true, if_false]

/-! ### Tables (R265, R337, R372) -/

/-- A wave of a halted block that holds a slot of a core (R372). -/
def State.holdsSlot (s : State) (core slot : Nat) (w : Wave) : Prop :=
  w.exited = false ∧ w.core = core ∧ 16 * w.sect + w.slot = slot ∧
    ∃ b h, s.blocks.get? w.block = some b ∧ b.halt = some h ∧ h.done = true

theorem State.holdsSlot_iff (s : State) (core slot : Nat) (w : Wave) :
    (!w.exited && decide (w.core = core) && decide (16 * w.sect + w.slot = slot) &&
      match (s.blocks.get? w.block).bind fun b => b.halt with
      | some h => h.done
      | none => false) = true ↔ s.holdsSlot core slot w := by
  have hm : (match (s.blocks.get? w.block).bind fun b => b.halt with
      | some h => h.done
      | none => false) = true ↔ ∃ b h, s.blocks.get? w.block = some b ∧ b.halt = some h ∧ h.done = true := by
    cases hb : s.blocks.get? w.block with
    | none => simp
    | some b => cases hh : b.halt <;> simp [hh]
  rw [Bool.and_eq_true, hm]
  simp [State.holdsSlot, and_assoc]

theorem State.haltEntry_none {s : State} {core slot : Nat} (h : ∀ e ∈ s.waves, ¬ s.holdsSlot core slot e.2) :
    s.haltEntry core slot = none := by
  unfold State.haltEntry
  rw [Option.map_eq_none_iff, List.find?_eq_none]
  exact fun e he hc => h e he ((s.holdsSlot_iff core slot e.2).mp hc)

theorem State.haltEntry_unique {s : State} {core slot : Nat} {e : Nat × Wave} (he : e ∈ s.waves)
    (hs : s.holdsSlot core slot e.2) (hu : ∀ d ∈ s.waves, s.holdsSlot core slot d.2 → d = e) :
    s.haltEntry core slot = some e.2 := by
  unfold State.haltEntry
  rw [Option.map_eq_some_iff]
  refine ⟨e, ?_, rfl⟩
  cases hf : s.waves.find? _ with
  | none => exact absurd ((s.holdsSlot_iff core slot e.2).mpr hs) (List.find?_eq_none.mp hf e he)
  | some d =>
    have hd := List.find?_some hf
    rw [hu d (List.mem_of_find?_eq_some hf) ((s.holdsSlot_iff core slot d.2).mp hd)]

theorem ofNat_toNat_dword (v : DWord) : v = BitVec.ofNat 64 v.toNat := by rw [BitVec.ofNat_toNat, BitVec.setWidth_eq]

theorem pair_eq (hi lo : Word) : hi ++ lo = BitVec.ofNat 64 (lo.toNat + hi.toNat * 2 ^ 32) := by
  have h1 := hi.isLt
  have h2 := lo.isLt
  apply BitVec.eq_of_toNat_eq
  rw [BitVec.toNat_append, ← Nat.shiftLeft_add_eq_or_of_lt h2, Nat.shiftLeft_eq, BitVec.toNat_ofNat,
    Nat.mod_eq_of_lt (by omega), Nat.add_comm]

/-! ### The parts of the statement -/

section
variable {s : State} {src : BitVec 16} {tag : Word} {off : BitVec 25} (hd : s.deaf = false) (hk : knownType src)
  (hv : ∀ x, 0xFF00000000 ≤ x → s.windowAt x = none)
include hd hk hv

/-- A read that comes while its source waits for nothing. -/
theorem remoteRead_free (hb : s.ctlBusy src = false) (len : BitVec 32) :
    let addr : DWord := BitVec.ofNat 64 (0xFF00000000 + off.toNat)
    (∀ bs, s.ctlBytes off.toNat len.toNat = some bs → ∃ t, exec (.remoteRead src tag addr len) s = .next t ∧
      { t with grants := s.grants } = s ∧ s.Replied t 0x0011 src tag addr.toNat 0 bs) ∧
    (s.ctlBytes off.toNat len.toNat = none → ∃ t, exec (.remoteRead src tag addr len) s = .next t ∧
      s.Replied t 0x0011 src tag addr.toNat 1 [] ∧ { t with grants := s.grants } = s) := by
  intro addr
  have e := (exec_remoteRead_ctl hv tag off hd hk len).trans (congrArg Host.Outcome.next
    (State.ctlAccess_free (x := ⟨off.toNat, .read len.toNat, ⟨src, tag, addr.toNat⟩⟩) hb))
  refine ⟨fun bs h => ⟨_, e.trans (congrArg _ (s.ctlServe_read _ _ h)), rfl, State.replied_reply rfl rfl _ _ _ _ _ _⟩,
    fun h => ⟨_, e.trans (congrArg _ (s.ctlServe_read_bad _ _ h)), s.replied_bad _ _ _ _⟩⟩

theorem remoteWrite_free (hb : s.ctlBusy src = false) (data : List Byte) :
    let addr : DWord := BitVec.ofNat 64 (0xFF00000000 + off.toNat)
    exec (.remoteWrite src tag addr data) s = .next (s.ctlServe ⟨off.toNat, .write data.length
      (BitVec.ofNat 64 (leNat (data.take 8))), ⟨src, tag, addr.toNat⟩⟩) :=
  (exec_remoteWrite_ctl hv tag off hd hk data).trans (congrArg Host.Outcome.next (State.ctlAccess_free hb))

/-- A write of 8 bytes of a register is the register write, answered once it has been performed. -/
theorem remoteWrite_register (hb : s.ctlBusy src = false) {r : CtlReg} (hr : ctlRegAt off.toNat = some r) (val : DWord) :
    let addr : DWord := BitVec.ofNat 64 (0xFF00000000 + off.toNat)
    (s.writeWaits r val = true → ∃ t, exec (.remoteWrite src tag addr (natLe 8 val.toNat)) s = .next t ∧
      { t with ctl := s.ctl } = s ∧ t.ctlBusy src = true) ∧
    (s.writeWaits r val = false → ∃ t u, exec (.registerWrite off val) s = .next u ∧
      exec (.remoteWrite src tag addr (natLe 8 val.toNat)) s = .next t ∧ { t with grants := u.grants } = u ∧
      u.Replied t 0x0013 src tag addr.toNat 0 []) := by
  intro addr
  have e := remoteWrite_free (tag := tag) (off := off) hd hk hv hb (natLe 8 val.toNat)
  dsimp only at e
  rw [length_natLe, ofNat_leNat_natLe, s.ctlServe_write _ _ hr] at e
  refine ⟨fun hw => ?_, fun hw => ?_⟩
  · rw [hw, if_pos rfl] at e
    exact ⟨_, e, State.keepWrite_busy hw ⟨src, tag, addr.toNat⟩⟩
  · rw [hw, if_neg Bool.false_ne_true] at e
    have er := exec_registerWrite (s := s) hr val
    generalize s.ctlWrite r val = u at e er
    exact ⟨_, u, er, e, u.replyWrite_frame _, State.replied_reply rfl rfl _ _ _ _ _ _⟩

end

/-- The registers of a program (R265): what they read as, and a write of the one that may be written. -/
theorem program_registers {s : State} (hr : s.ctl.ready = true) {p : Nat} (hp : p < 8) :
    let at_ (i : Nat) : Nat := 0x120000 + 64 * p + 8 * i
    (s.programs.get? p = none → ∀ i, i < 8 → ∃ r, ctlRegAt (at_ i) = some r ∧ s.ctlValue r = 0) ∧
    (∀ q, s.programs.get? p = some q → ∀ i, i < 8 →
      ∃ r, ctlRegAt (at_ i) = some r ∧ s.ctlValue r = q.regs.getD i 0) := by
  intro at_
  have hv (i : Nat) : s.ctlValue (.sp p i) = match s.programs.get? p with
    | none => 0
    | some q => q.regs.getD i 0 := State.ctlValue_ready hr _
  refine ⟨fun h i hi => ⟨_, ctlRegAt_program hp hi, ?_⟩, fun q h i hi => ⟨_, ctlRegAt_program hp hi, ?_⟩⟩
  · rw [hv, h]
  · rw [hv, h]

theorem program_writes {s : State} (hr : s.ctl.ready = true) {p : Nat} (hp : p < 8) {q : Program}
    (hq : s.programs.get? p = some q) (off : BitVec 25) (val : DWord) :
    (off.toNat = 0x120000 + 64 * p + 8 * 4 → ∃ t, exec (.registerWrite off val) s = .next t ∧
      { t with programs := s.programs } = s ∧ (∀ k, k ≠ p → t.programs.get? k = s.programs.get? k) ∧
      t.programs.get? p = some { q with jrd := val.toNat % 2 ^ 32 / 64 * 64 }) ∧
    ∀ i, i < 8 → i ≠ 4 → off.toNat = 0x120000 + 64 * p + 8 * i → exec (.registerWrite off val) s = .next s := by
  have hw (i : Nat) := s.writeWaits_plain (r := .sp p i) val rfl
  refine ⟨fun ho => ?_, fun i hi h4 ho => ?_⟩
  · refine ⟨s.modProgram p fun q => { q with jrd := (keepBits val 6 26).toNat }, ?_, rfl, fun k hk => ?_, ?_⟩
    · rw [exec_registerWrite (by rw [ho]; exact ctlRegAt_program hp (by decide)),
        State.ctlWrite_of_live val (State.regLive_of_ready _ hr) (hw 4)]
      rfl
    · exact KMap.get?_modify_ne _ _ hk
    · rw [toNat_keepBits val (by decide)]
      exact KMap.get?_modify_self _ hq
  · rw [exec_registerWrite (by rw [ho]; exact ctlRegAt_program hp hi),
      State.ctlWrite_readOnly (hw i) (if_neg h4)]

/-- The ownership table (R337). -/
theorem owner_reads {s : State} (hr : s.ctl.ready = true) {core entry : Nat} (hc : core < 192) (he : entry < 32) :
    let reads (o : Nat) (x : Nat) : Prop := ∃ r, ctlRegAt o = some r ∧ s.ctlValue r = BitVec.ofNat 64 x
    let at_ := 0x200000 + 512 * core + 16 * entry
    ((s.core core).tenures.get? entry = none → reads at_ 0 ∧ reads (at_ + 8) 0) ∧
    ∀ x, (s.core core).tenures.get? entry = some x →
      reads at_ (1 + x.gcnt * 2 ^ 16 + x.gbase * 2 ^ 32 + x.shape.toNat * 2 ^ 40) ∧
      reads (at_ + 8) (x.tag.toNat + x.handle.toNat * 2 ^ 32) := by
  intro reads at_
  have hv (hi : Bool) : s.ctlValue (.owner core entry hi) = s.ownerHalf core entry hi := State.ctlValue_ready hr _
  refine ⟨fun h => ?_, fun x h => ?_⟩
  · have h0 (hi : Bool) : s.ctlValue (.owner core entry hi) = 0 := by rw [hv, State.ownerHalf, h]
    exact ⟨⟨_, ctlRegAt_owner hc he false, h0 _⟩, ⟨_, ctlRegAt_owner hc he true, h0 _⟩⟩
  · have hh (hi : Bool) : s.ctlValue (.owner core entry hi) = if hi then x.handle ++ x.tag
        else reg64 (x.shape.toNat * 2 ^ 40 + x.gbase * 2 ^ 32 + x.gcnt * 2 ^ 16 + 1) := by
      rw [hv, State.ownerHalf, h]
    refine ⟨⟨_, ctlRegAt_owner hc he false, (hh _).trans (congrArg (BitVec.ofNat 64) ?_)⟩,
      ⟨_, ctlRegAt_owner hc he true, (hh _).trans (pair_eq _ _)⟩⟩
    omega

/-- The halt window (R372). -/
theorem haltWin_reads {s : State} (hr : s.ctl.ready = true) {core slot : Nat} (hc : core < 192) (hs : slot < 64) :
    let reads (o : Nat) (x : Nat) : Prop := ∃ r, ctlRegAt o = some r ∧ s.ctlValue r = BitVec.ofNat 64 x
    let at_ := 0x170000 + 1024 * core + 16 * slot
    ((∀ e ∈ s.waves, ¬ s.holdsSlot core slot e.2) → reads at_ 0 ∧ reads (at_ + 8) 0) ∧
    ∀ e ∈ s.waves, s.holdsSlot core slot e.2 → (∀ d ∈ s.waves, s.holdsSlot core slot d.2 → d = e) →
      reads at_ (2 ^ 63 + min 4 e.2.skid * 2 ^ 48 + e.2.retired % 2 ^ 48) ∧ reads (at_ + 8) e.2.pc.toNat := by
  intro reads at_
  have hv (hi : Bool) : s.ctlValue (.haltWin core slot hi) = s.haltHalf core slot hi := State.ctlValue_ready hr _
  refine ⟨fun h => ?_, fun e he h hu => ?_⟩
  · have h0 (hi : Bool) : s.ctlValue (.haltWin core slot hi) = 0 := by rw [hv, State.haltHalf, State.haltEntry_none h]
    exact ⟨⟨_, ctlRegAt_haltWin hc hs false, h0 _⟩, ⟨_, ctlRegAt_haltWin hc hs true, h0 _⟩⟩
  · have hh (hi : Bool) : s.ctlValue (.haltWin core slot hi) = if hi then e.2.pc
        else reg64 (2 ^ 63 + min 4 e.2.skid * 2 ^ 48 + e.2.retired % 2 ^ 48) := by
      rw [hv, State.haltHalf, State.haltEntry_unique he h hu]
    exact ⟨⟨_, ctlRegAt_haltWin hc hs false, hh _⟩, ⟨_, ctlRegAt_haltWin hc hs true, (hh _).trans (ofNat_toNat_dword _)⟩⟩

/-- A write of a window's CTL register (R112, R115). -/
theorem window_written {s : State} (n : Nat) (val : DWord) :
    let w := s.ctl.window n
    let on : Bool := decide (val.extractLsb' 0 2 = 1)
    let t := s.writeWindow n val
    t.mem = s.mem ∧ t.waves = s.waves ∧ t.blocks = s.blocks ∧
    (KMap.wf s.ctl.windows = true → t.ctl.window n =
      { w with on := on, len := if w.on then w.len else (val.extractLsb' 32 32).toNat } ∧
      ∀ k, k ≠ n → t.ctl.window k = s.ctl.window k) ∧
    (w.on = true → on = false → (∀ e ∈ t.views, w.misses e.1) ∧ ∀ c, ∀ e ∈ (t.core c).l1, w.misses e.1) ∧
    (w.on = false ∨ on = true → t.views = s.views ∧ t.cores = s.cores) := by
  intro w on t
  by_cases h : w.on = false ∨ on = true
  · have e : t = s.modWindow n _ := State.writeWindow_keeps h
    rw [e]
    refine ⟨rfl, rfl, rfl, fun hm => ⟨?_, fun k hk => ?_⟩, fun h1 h2 => ?_, fun _ => ⟨rfl, rfl⟩⟩
    · rw [State.modWindow_window hm, if_pos rfl]
    · rw [State.modWindow_window hm, if_neg hk]
    · rcases h with h | h
      · rw [h1] at h; nomatch h
      · rw [h2] at h; nomatch h
  · have hw : w.on = true := Bool.eq_true_of_not_eq_false fun e => h (Or.inl e)
    have ho : on = false := Bool.eq_false_of_not_eq_true fun e => h (Or.inr e)
    have e : t = (s.dropViews w).modWindow n _ := State.writeWindow_closes hw ho
    rw [e]
    refine ⟨rfl, rfl, rfl, fun hm => ⟨?_, fun k hk => ?_⟩, fun _ _ => s.dropViews_spec w, fun h' => absurd h' h⟩
    · rw [State.modWindow_window (s := s.dropViews w) hm, if_pos rfl]
      rfl
    · rw [State.modWindow_window (s := s.dropViews w) hm, if_neg hk]
      rfl

/-- An access that comes while an earlier write of its source waits is kept (R399). -/
theorem accesses_kept {s : State} {src : BitVec 16} {tag : Word} {off : BitVec 25} (hd : s.deaf = false) (hk : knownType src)
    (hv : ∀ x, 0xFF00000000 ≤ x → s.windowAt x = none) (hb : s.ctlBusy src = true) (data : List Byte) :
    let addr : DWord := BitVec.ofNat 64 (0xFF00000000 + off.toNat)
    let kept (i : Instr) (kind : CtlKind) : Prop := exec i s = .next { s with ctl := { s.ctl with
      behind := s.ctl.behind ++ [⟨off.toNat, kind, ⟨src, tag, addr.toNat⟩⟩] } }
    (∀ len, kept (.remoteRead src tag addr len) (.read len.toNat)) ∧
      kept (.remoteWrite src tag addr data) (.write data.length (BitVec.ofNat 64 (leNat (data.take 8)))) ∧
      ∀ op, remoteFits op = true → kept (.remoteAtomic src tag addr op) .atomic :=
  ⟨fun len => (exec_remoteRead_ctl hv tag off hd hk len).trans (congrArg _ (State.ctlAccess_busy hb)),
    (exec_remoteWrite_ctl hv tag off hd hk data).trans (congrArg _ (State.ctlAccess_busy hb)),
    fun _ hf => (exec_remoteAtomic_ctl tag off hd hk hf).trans (congrArg _ (State.ctlAccess_busy hb))⟩

/-- The low 16 bits of a value where they lie in a range, else a default (R9). -/
def lowOr (v : DWord) (lo hi : Nat) (d : BitVec 16) : BitVec 16 :=
  if lo ≤ (v.extractLsb' 0 16).toNat ∧ (v.extractLsb' 0 16).toNat ≤ hi then v.extractLsb' 0 16 else d

theorem toNat_lowOr (v : DWord) (lo hi : Nat) (d : BitVec 16) : (lowOr v lo hi d).toNat =
    if lo ≤ v.toNat % 2 ^ 16 ∧ v.toNat % 2 ^ 16 ≤ hi then v.toNat % 2 ^ 16 else d.toNat := by
  unfold lowOr
  rw [apply_ite BitVec.toNat, toNat_low]

/-- The written fields that read back (R9). -/
theorem fields_readBack {s : State} (hr : s.ctl.ready = true) (val : DWord) :
    let wrote (o : BitVec 25) (r : CtlReg) (x : DWord) : Prop := ∃ t, exec (.registerWrite o val) s = .next t ∧
      { t with ctl := s.ctl } = s ∧ t.ctlValue r = x
    let lo (n : Nat) : Nat := val.toNat % 2 ^ n
    wrote 0x28 .lease (BitVec.ofNat 64 (if 64 ≤ lo 16 ∧ lo 16 ≤ 4096 then lo 16 else 512)) ∧
    wrote 0x38 .pwrcap (BitVec.ofNat 64 (s.ctl.fwgov.toNat * 2 ^ 16 +
      if 500 ≤ lo 16 ∧ lo 16 ≤ 3000 then lo 16 else 3000)) ∧
    wrote 0x160000 .peTag (BitVec.ofNat 64 (lo 32)) ∧ wrote 0x160008 .peBlk (BitVec.ofNat 64 (lo 32)) ∧
    wrote 0x160010 .peAddr (BitVec.ofNat 64 (lo 48 / 4096 * 4096)) ∧ wrote 0x160018 .peLen val ∧
    (s.ctl.atBusy = false → wrote 0x220 .atAddr (BitVec.ofNat 64 (lo 48 / 4096 * 4096))) ∧
    wrote 0x150000 .trBase (if s.ctl.trOn then s.ctl.trBase else BitVec.ofNat 64 (lo 48 / 4096 * 4096)) := by
  intro wrote lo
  have back {o : BitVec 25} {r : CtlReg} {x : DWord} (f : Ctl → Ctl) (ho : ctlRegAt o.toNat = some r)
      (hb : r.begins = false) (hp : s.ctlPut r val = s.modCtl f) (hf : (f s.ctl).ready = true)
      (hx : (s.modCtl f).ctlRead r = x) : wrote o r x := by
    obtain ⟨t, ht, hs, hv⟩ := register_readsBack ho hr (s.writeWaits_plain val hb) hp hf
    exact ⟨t, ht, hs, hv.trans hx⟩
  have h48 : keepBits val 12 36 = BitVec.ofNat 64 (lo 48 / 4096 * 4096) := keepBits_eq val (by decide)
  refine ⟨back (fun k => { k with leaseNs := lowOr val 64 4096 512 }) rfl rfl rfl hr
      (congrArg (BitVec.ofNat 64) (toNat_lowOr val 64 4096 512)),
    back (fun k => { k with cap := lowOr val 500 3000 3000 }) rfl rfl rfl hr
      (congrArg (fun n => BitVec.ofNat 64 (s.ctl.fwgov.toNat * 2 ^ 16 + n)) (toNat_lowOr val 500 3000 3000)),
    back (fun k => { k with peTag := val.extractLsb' 0 32 }) rfl rfl rfl hr ?_,
    back (fun k => { k with peBlk := val.extractLsb' 0 32 }) rfl rfl rfl hr ?_,
    back (fun k => { k with peAddr := keepBits val 12 36 }) rfl rfl rfl hr h48,
    back (fun k => { k with peLen := val }) rfl rfl rfl hr rfl, fun hb => ?_, ?_⟩
  · exact congrArg (BitVec.ofNat 64) (toNat_low val 32)
  · exact congrArg (BitVec.ofNat 64) (toNat_low val 32)
  · refine back (fun k => { k with atAddr := keepBits val 12 36 }) rfl rfl ?_ hr h48
    exact congrArg (fun c => { s with ctl := c }) (if_neg (ne_true_of_eq_false hb))
  · cases ht : s.ctl.trOn with
    | true =>
      refine back id rfl rfl ?_ hr rfl
      exact congrArg (fun c => { s with ctl := c }) (if_pos ht)
    | false =>
      refine back (fun k => { k with trBase := keepBits val 12 36 }) rfl rfl ?_ hr h48
      exact congrArg (fun c => { s with ctl := c }) (if_neg (ne_true_of_eq_false ht))

/-- A write of TRCTL, as an event of its own and as a register write (R374). -/
theorem trapRing_written {s : State} (hr : s.ctl.ready = true) (val : DWord) :
    exec (.trapRingEnable val) s = .next (s.modCtl fun k => k.writeTrctl val) ∧
      exec (.registerWrite 0x150008 val) s = .next (s.modCtl fun k => k.writeTrctl val) := by
  have h : s.ctlWrite .trCtl val = s.modCtl fun k => k.writeTrctl val :=
    State.ctlWrite_of_live val (State.regLive_of_ready _ hr) (s.writeWaits_plain val rfl)
  exact ⟨congrArg _ h, (exec_registerWrite (r := .trCtl) rfl val).trans (congrArg _ h)⟩

/-- A write of a window's CTL, as an event of its own and as a register write (R112, R115). -/
theorem exec_window {s : State} (hr : s.ctl.ready = true) (val : DWord) (n : Fin 16) {i : Instr}
    (hi : i = .formatWindowEnable n val ∨ i = .formatWindowDisable n val) :
    exec i s = .next (s.writeWindow n.val val) ∧
      exec (.registerWrite (BitVec.ofNat 25 (0x100000 + 32 * n.val)) val) s = .next (s.writeWindow n.val val) := by
  have h : s.ctlWrite (.fwCtl n.val) val = s.writeWindow n.val val :=
    State.ctlWrite_of_live val (State.regLive_of_ready _ hr) (s.writeWaits_plain val rfl)
  have ho : (BitVec.ofNat 25 (0x100000 + 32 * n.val)).toNat = 0x100000 + 32 * n.val := by
    rw [BitVec.toNat_ofNat, Nat.mod_eq_of_lt (by omega)]
  refine ⟨?_, (exec_registerWrite (by rw [ho]; exact ctlRegAt_window n) val).trans (congrArg _ h)⟩
  rcases hi with rfl | rfl
  · exact congrArg _ h
  · exact congrArg _ h

/-- Settles O56, a lemma for each part: which register an offset names, what an access over the fabric does with it, and
what the tables and fields read as. -/
theorem controlSpaceWrites : Obligations.ControlSpaceWrites := by
  unfold Obligations.ControlSpaceWrites
  intro s off val
  refine ⟨fun h => ?_, fun r hr h h' => ?_, fun c i hi h => ?_, fun src tag data hd hk hv => ?_, fun hr => ?_, fun hr => ?_⟩
  · exact exec_registerWrite_none (h.elim ctlRegAt_misaligned id) val
  · exact (exec_registerWrite hr val).trans (congrArg _ (State.ctlWrite_early val h h'))
  · obtain ⟨r, ho, hw, hp⟩ : ∃ r, ctlRegAt off.toNat = some r ∧ s.writeWaits r val = false ∧ s.ctlPut r val = s := by
      rcases h with h | h | h
      · exact ⟨_, h, s.writeWaits_plain val rfl, rfl⟩
      · exact ⟨_, h, s.writeWaits_plain val rfl, rfl⟩
      · exact ⟨_, h, s.writeWaits_plain val rfl, rfl⟩
    exact (exec_registerWrite ho val).trans (congrArg _ (State.ctlWrite_readOnly hw hp))
  · intro addr bad kept
    refine ⟨fun hb => accesses_kept hd hk hv hb data, fun hb => ⟨fun h => ?_, fun r hr => ?_, fun h => ?_, fun e he hr => ?_,
      fun len h8 h => ?_, fun op hf => ?_⟩⟩
    · exact ⟨_, (remoteWrite_free hd hk hv hb data).trans (congrArg _ (s.ctlServe_write_bad _ _ _ h)),
        s.replied_bad _ _ _ _⟩
    · obtain ⟨hw, hn⟩ := remoteWrite_register (tag := tag) hd hk hv hb hr val
      refine ⟨fun e => ?_, fun e => ?_, (remoteRead_free hd hk hv hb 8).1 _ (s.ctlBytes_reg hr)⟩
      · rw [e]; exact hw
      · rw [e]; exact hn
    · exact (remoteRead_free hd hk hv hb 8).2 (s.ctlBytes_none h)
    · intro x flags owned
      obtain ⟨bs, hbs, hn, ho⟩ := State.ctlBytes_resWin (s := s) (e := e) (by omega) hr
      rw [← he] at hbs
      obtain ⟨t, ht, hf, hrep⟩ := (remoteRead_free (tag := tag) hd hk hv hb 16).1 bs hbs
      exact ⟨t, bs, ht, hf, hrep, hn, ho⟩
    · refine (remoteRead_free hd hk hv hb len).2 (s.ctlBytes_size (fun e => h8 (BitVec.eq_of_toNat_eq e)) ?_)
      exact h.imp_left fun h16 e => h16 (BitVec.eq_of_toNat_eq e)
    · exact ⟨_, (exec_remoteAtomic_ctl tag off hd hk hf).trans (congrArg _ (State.ctlAccess_free hb)),
        s.replied_bad _ _ _ _⟩
  · intro reads
    refine ⟨fun p hp => ?_, fun core entry hc he => owner_reads hr hc he, fun core slot hc hs => haltWin_reads hr hc hs⟩
    intro at_
    obtain ⟨h0, h1⟩ := program_registers hr hp
    refine ⟨h0, fun q hq => ?_⟩
    obtain ⟨h4, hi⟩ := program_writes hr hp hq off val
    have reg (i : Nat) (x : Nat) (hi : i < 8) (hx : q.regs.getD i 0 = BitVec.ofNat 64 x) : reads (at_ i) x := by
      obtain ⟨r, ho, hv⟩ := h1 q hq i hi
      exact ⟨r, ho, hv.trans hx⟩
    exact ⟨reg 0 _ (by decide) rfl, reg 1 _ (by decide) (ofNat_toNat_dword _), reg 2 _ (by decide) rfl,
      reg 3 _ (by decide) rfl, reg 4 _ (by decide) rfl, reg 5 _ (by decide) rfl,
      reg 6 _ (by decide) (BitVec.ofNat_toNat 64 q.jref).symm,
      reg 7 _ (by decide) rfl, fun ho _ => h4 ho, hi⟩
  · intro wrote lo
    obtain ⟨hlease, hcap, htag, hblk, haddr, hlen, hat, htr⟩ := fields_readBack hr val
    refine ⟨hlease, hcap, htag, hblk, haddr, hlen, hat, htr, ?_, fun n i hi => ?_⟩
    · obtain ⟨he, hw⟩ := trapRing_written hr val
      exact ⟨_, he, hw, rfl, s.ctl.writeTrctl_spec val⟩
    · obtain ⟨he, hw⟩ := exec_window hr val n hi
      exact ⟨_, he, hw, window_written n.val val⟩

end Sys2Proof.Machine
end

section
namespace Sys2Proof.Machine
open Sys2Proof

/-! ## Where blocks go (R19, R20, R37, R42) -/

/-! ### Room on a core -/

/-- A run of granules from `b` on lies within the total and clear of the runs in use. -/
def RunFree (used : List (Nat × Nat)) (n total b : Nat) : Prop :=
  b + n ≤ total ∧ ∀ u ∈ used, u.2 = 0 ∨ b + n ≤ u.1 ∨ u.1 + u.2 ≤ b

/-- What `freeRun` asks of a place for a run. -/
theorem runFree_iff (used : List (Nat × Nat)) (n total b : Nat) : RunFree used n total b ↔
    b < total + 1 - n ∧ (used.all fun u => u.2 == 0 || decide (b + n ≤ u.1) || decide (u.1 + u.2 ≤ b)) = true := by
  have hb : b + n ≤ total ↔ b < total + 1 - n := by omega
  simp [RunFree, hb, or_assoc]

/-- The run that is found is the lowest that is free. -/
theorem freeRun_lowest {used : List (Nat × Nat)} {n total b : Nat} (h : freeRun used n total = some b) :
    RunFree used n total b ∧ ∀ c, c < b → ¬ RunFree used n total c := by
  obtain ⟨hp, hb, hl⟩ := List.find?_range_eq_some.mp h
  refine ⟨(runFree_iff _ _ _ _).mpr ⟨List.mem_range.mp hb, hp⟩, fun c hc hf => ?_⟩
  exact absurd ((runFree_iff _ _ _ _).mp hf).2 (by simpa using hl c hc)

/-- A run is found where one is free. -/
theorem freeRun_isSome {used : List (Nat × Nat)} {n total b : Nat} (h : RunFree used n total b) :
    ∃ c, freeRun used n total = some c := by
  obtain ⟨hb, hp⟩ := (runFree_iff _ _ _ _).mp h
  exact Option.isSome_iff_exists.mp (List.find?_isSome.mpr ⟨b, List.mem_range.mpr hb, hp⟩)

/-- The sections stand in the order of their free wave slots, most first, ties by number (R37). -/
theorem Occ.sects_sorted (o : Occ) : o.sects.Pairwise fun j k =>
    (o.inSect j).length < (o.inSect k).length ∨ ((o.inSect j).length = (o.inSect k).length ∧ j ≤ k) := by
  refine List.pairwise_flatMap.mpr ⟨fun n _ => ?_, ?_⟩
  · refine (List.Pairwise.filter _ (by decide : [0, 1, 2, 3].Pairwise (· ≤ ·))).imp_of_mem fun {j k} hj hk h => ?_
    have ej := of_decide_eq_true (List.mem_filter.mp hj).2
    have ek := of_decide_eq_true (List.mem_filter.mp hk).2
    exact .inr ⟨ej.trans ek.symm, h⟩
  · refine List.pairwise_lt_range.imp fun {m n} h j hj k hk => ?_
    have ej := of_decide_eq_true (List.mem_filter.mp hj).2
    have ek := of_decide_eq_true (List.mem_filter.mp hk).2
    exact .inl (by omega)

theorem Occ.mem_sects {o : Occ} {k : Nat} : k ∈ o.sects ↔ k < 4 ∧ (o.inSect k).length ≤ 16 := by
  simp only [Occ.sects, List.mem_flatMap, List.mem_range, List.mem_filter, decide_eq_true_eq]
  have h4 : k ∈ [0, 1, 2, 3] ↔ k < 4 := by simp; omega
  rw [h4]
  exact ⟨fun ⟨n, hn, hk, e⟩ => ⟨hk, by omega⟩, fun ⟨hk, h⟩ => ⟨_, by omega, hk, rfl⟩⟩

/-- A section takes a wave when it has a free slot and a free run of registers. -/
theorem Occ.addPair_single (o : Occ) (w g sc ac k : Nat) : Occ.addPair false o ⟨w, g, false, sc, ac⟩ k =
    if 16 < (o.inSect k).length + 1 then none
    else (freeRun (o.inSect k) g 128).map fun r => ({ o with waves := o.waves ++ [(k, r, g)] }, [(k, r)]) := by
  simp only [Occ.addPair, runIn, Bool.false_eq_true, ↓reduceIte]
  cases freeRun (o.inSect k) g 128 <;> rfl

/-- The room of a block of one wave: the lowest runs, in the section with the most free wave slots (R37, R38). -/
theorem Occ.fit_one_wave {o p : Occ} {g sc ac : Nat} {sp : Spot} (h16 : ∀ k, k < 4 → (o.inSect k).length ≤ 16)
    (h : Occ.fit false ⟨1, g, false, sc, ac⟩ none o = some (p, sp)) :
    freeRun o.scr sc 64 = some sp.scr ∧ freeRun o.acc ac 32 = some sp.acc ∧
    ∃ k b, sp.waves = [(k, b)] ∧ k < 4 ∧ (o.inSect k).length < 16 ∧ freeRun (o.inSect k) g 128 = some b ∧
      ∀ j, j < 4 → (o.inSect j).length < 16 → (∃ c, RunFree (o.inSect j) g 128 c) →
        (o.inSect k).length < (o.inSect j).length ∨ ((o.inSect k).length = (o.inSect j).length ∧ k ≤ j) := by
  unfold Occ.fit at h
  split at h
  case h_2 => nomatch h
  next p' ws a b hw ha hb =>
  cases h
  refine ⟨ha, hb, ?_⟩
  simp only [Occ.addWaves] at hw
  split at hw
  · nomatch hw
  next o' ps hf =>
  obtain ⟨xs, k, ys, hs, hk, hxs⟩ := List.findSome?_eq_some_iff.mp hf
  rw [Occ.addPair_single] at hk
  split at hk
  · nomatch hk
  next hlen =>
  obtain ⟨r, hr, e⟩ := Option.map_eq_some_iff.mp hk
  cases e
  cases hw
  have hks : k ∈ o.sects := hs ▸ List.mem_append_right _ List.mem_cons_self
  refine ⟨k, r, rfl, (Occ.mem_sects.mp hks).1, by omega, hr, fun j hj hjl ⟨c, hc⟩ => ?_⟩
  have hjs : j ∈ o.sects := Occ.mem_sects.mpr ⟨hj, h16 j hj⟩
  have hjx : j ∉ xs := fun hx => by
    obtain ⟨d, hd⟩ := freeRun_isSome hc
    have := hxs j hx
    rw [Occ.addPair_single, if_neg (by omega), hd] at this
    nomatch this
  rw [hs] at hjs
  have hsort := o.sects_sorted
  rw [hs] at hsort
  rcases List.mem_append.mp hjs with h | h
  · exact absurd h hjx
  rcases List.mem_cons.mp h with rfl | h
  · exact .inr ⟨rfl, Nat.le_refl _⟩
  · exact List.rel_of_pairwise_cons (List.pairwise_append.mp hsort).2.1 h

/-! ### Placing clusters -/

/-- In a rising list the first entry that a search accepts is the lowest one. -/
theorem findSome?_of_lowest {β : Type} {f : Nat → Option β} {xs : List Nat} {k : Nat} {y : β} (hs : xs.Pairwise (· < ·))
    (hk : k ∈ xs) (hf : f k = some y) (hl : ∀ j ∈ xs, j < k → f j = none) : xs.findSome? f = some y := by
  obtain ⟨ys, zs, rfl⟩ := List.append_of_mem hk
  refine List.findSome?_eq_some_iff.mpr ⟨ys, k, zs, rfl, hf, fun j hj => ?_⟩
  exact hl j (List.mem_append_left _ hj) ((List.pairwise_append.mp hs).2.2 j hj k List.mem_cons_self)

theorem mem_cellCores {ok : Nat → Bool} {cell c : Nat} : c ∈ cellCores ok cell ↔ c / 8 = cell ∧ ok c = true := by
  simp only [cellCores, List.mem_filter, List.mem_map, List.mem_range]
  refine and_congr_left fun _ => ⟨fun ⟨i, hi, e⟩ => by omega, fun h => ⟨c % 8, Nat.mod_lt _ (by decide), by omega⟩⟩

theorem cellCores_sorted (ok : Nat → Bool) (cell : Nat) : (cellCores ok cell).Pairwise (· < ·) :=
  List.Pairwise.filter _ (List.pairwise_map.mpr (List.pairwise_lt_range.imp fun h => by omega))

section first
variable {x : Placing} {loose : Bool} {need : Need} {cores : List Nat} {c : Nat} {o : Occ} {sp : Spot}

theorem Placing.first_none (h : ∀ d ∈ cores, (x.occ d).fit loose need none = none) : x.first loose need cores = none :=
  List.findSome?_eq_none_iff.mpr fun d hd => by rw [h d hd]; rfl

/-- A block goes to the first core of a list with room for it. -/
theorem Placing.first_of_split {xs ys : List Nat} (hx : ∀ d ∈ xs, (x.occ d).fit loose need none = none)
    (hf : (x.occ c).fit loose need none = some (o, sp)) : x.first loose need (xs ++ c :: ys) = some (c, o, sp) :=
  List.findSome?_eq_some_iff.mpr ⟨xs, c, ys, rfl, by rw [hf]; rfl, fun d hd => by rw [hx d hd]; rfl⟩

/-- Of a rising list of cores a block takes the lowest with room. -/
theorem Placing.first_of_lowest (hs : cores.Pairwise (· < ·)) (hc : c ∈ cores)
    (hf : (x.occ c).fit loose need none = some (o, sp))
    (hl : ∀ d ∈ cores, d < c → (x.occ d).fit loose need none = none) : x.first loose need cores = some (c, o, sp) :=
  findSome?_of_lowest hs hc (by rw [hf]; rfl) fun d hd h => by rw [hl d hd h]; rfl

end first

/-- A core that a block may use has no room for it, when none that it may use has. -/
theorem not_fit {ok : Prop} {f : Option (Occ × Spot)} (h : ¬ (ok ∧ f.isSome = true)) (ho : ok) : f = none := by
  cases f with
  | none => rfl
  | some y => exact absurd ⟨ho, rfl⟩ h

section cell
variable {x : Placing} {loose : Bool} {need : Need} {ok : Nat → Nat → Bool} {cell c r : Nat} {o : Occ} {sp : Spot}

/-- The lowest-numbered core of a cell that a block may use and that has room for it (R42). -/
theorem Placing.first_in_cell (hc : c / 8 = cell) (ho : ok r c = true) (hf : (x.occ c).fit loose need none = some (o, sp))
    (hl : ∀ d, d / 8 = cell → d < c → ¬ (ok r d = true ∧ ((x.occ d).fit loose need none).isSome = true)) :
    x.first loose need (cellCores (ok r) cell) = some (c, o, sp) :=
  Placing.first_of_lowest (cellCores_sorted _ _) (mem_cellCores.mpr ⟨hc, ho⟩) hf fun d hd h =>
    not_fit (hl d (mem_cellCores.mp hd).1 h) (mem_cellCores.mp hd).2

theorem Placing.first_in_full_cell
    (h : ∀ d, d / 8 = cell → ¬ (ok r d = true ∧ ((x.occ d).fit loose need none).isSome = true)) :
    x.first loose need (cellCores (ok r) cell) = none :=
  Placing.first_none fun d hd => not_fit (h d (mem_cellCores.mp hd).1) (mem_cellCores.mp hd).2

/-- A member of a cluster takes a core of its cell (R42). -/
theorem Placing.members_placed {rs : List Nat} (h : x.first loose need (cellCores (ok r) cell) = some (c, o, sp)) :
    Placing.members loose need ok cell (r :: rs) x = Placing.members loose need ok cell rs (x.put c r o sp) := by
  rw [Placing.members, h]

/-- A member for which its cell has no room waits (R42). -/
theorem Placing.members_waiting {rs : List Nat} (h : x.first loose need (cellCores (ok r) cell) = none) :
    Placing.members loose need ok cell (r :: rs) x =
      Placing.members loose need ok cell rs { x with waiting := x.waiting ++ [(r, cell)] } := by
  rw [Placing.members, h]

/-- A cluster of one block has no other members. -/
theorem othersOf_one (p : Nat) : othersOf 1 p = [] := rfl

/-- At launch a cluster of one block takes the lowest-numbered core with room (R19, R42). -/
theorem Placing.atLaunch_lowest (hw : x.waiting = []) (h192 : c < 192) (ho : ok r c = true)
    (hf : (x.occ c).fit loose need none = some (o, sp))
    (hl : ∀ d, d < c → ¬ (ok r d = true ∧ ((x.occ d).fit loose need none).isSome = true)) :
    x.atLaunch loose need ok 1 r = some (x.put c r o sp) := by
  refine findSome?_of_lowest (k := c / 8) List.pairwise_lt_range (List.mem_range.mpr (by omega)) ?_ fun cell _ hc => ?_
  · simp only [hw, List.any_nil, Bool.false_eq_true, ↓reduceIte, Nat.mul_one]
    rw [Placing.first_in_cell rfl ho hf fun d _ h => hl d h]
    rfl
  · simp only [hw, List.any_nil, Bool.false_eq_true, ↓reduceIte, Nat.mul_one]
    rw [Placing.first_in_full_cell fun d hd => hl d (by omega)]
    rfl

theorem Placing.atLaunch_none (hl : ∀ d, ¬ (ok r d = true ∧ ((x.occ d).fit loose need none).isSome = true)) :
    x.atLaunch loose need ok 1 r = none := by
  refine List.findSome?_eq_none_iff.mpr fun cell _ => ?_
  split
  · rfl
  · rw [Placing.first_in_full_cell fun d _ => (Nat.mul_one r).symm ▸ hl d]
    rfl

/-- At a refill a cluster of one block takes the first core, in the order given, with room (R20, R42). -/
theorem Placing.refill_first {xs ys : List Nat} (hw : x.waiting = [])
    (hx : ∀ d ∈ xs, ¬ (ok r d = true ∧ ((x.occ d).fit false need none).isSome = true)) (ho : ok r c = true)
    (hf : (x.occ c).fit false need none = some (o, sp)) :
    x.refill need ok (xs ++ c :: ys) 1 r = some (x.put c r o sp) := by
  unfold Placing.refill
  simp only [hw, List.any_nil, Bool.not_false, Bool.and_true, Nat.mul_one]
  rw [List.filter_append, List.filter_cons_of_pos ho, Placing.first_of_split (fun d hd => ?_) hf]
  · rfl
  · obtain ⟨hd, hok⟩ := List.mem_filter.mp hd
    exact not_fit (hx d hd) hok

theorem Placing.refill_none {cores : List Nat}
    (h : ∀ d ∈ cores, ¬ (ok r d = true ∧ ((x.occ d).fit false need none).isSome = true)) :
    x.refill need ok cores 1 r = none := by
  unfold Placing.refill
  rw [Placing.first_none fun d hd => ?_]
  · rfl
  · obtain ⟨hd, hok⟩ := List.mem_filter.mp hd
    exact not_fit (h d hd) (by rw [Nat.mul_one] at hok; exact (Bool.and_eq_true _ _ ▸ hok).1)

/-- A member that waits takes a core of its cell (R42). -/
theorem Placing.settle_one (h : x.first false need (cellCores (ok r) cell) = some (c, o, sp)) :
    Placing.settle need ok [(r, cell)] x = x.put c r o sp := by
  simp only [Placing.settle, h]

end cell

/-! ### Cores that have freed (R20) -/

/-- The order of the cores that have freed: when, then by number. -/
def FreedBefore (x y : Nat × Nat) : Prop := x.1 < y.1 ∨ (x.1 = y.1 ∧ x.2 < y.2)

/-- A core that has freed stands before the place at which another enters. -/
def standsBefore (at_ core : Nat) (x : Nat × Nat) : Bool := decide (x.1 < at_ ∨ (x.1 = at_ ∧ x.2 < core))

/-- A core that is not among those that have freed enters after those that stand before its place. -/
theorem Launch.enterFreed_new {l : Launch} {at_ core : Nat} (hc : core ∉ l.freed.map (·.2)) :
    (l.enterFreed at_ core).freed =
      l.freed.filter (standsBefore at_ core) ++ (at_, core) :: l.freed.filter fun x => !standsBefore at_ core x := by
  have hn : (l.freed.any fun x => decide (x.2 = core)) = false := by
    simpa using fun a b h e => hc (List.mem_map.mpr ⟨(a, b), h, e⟩)
  simp only [Launch.enterFreed, hn, Bool.false_eq_true, ↓reduceIte, List.append_assoc, List.singleton_append]
  rfl

/-- A core enters at its place among those that have freed, which stay in order. -/
theorem Launch.enterFreed_sorted {l : Launch} {at_ core : Nat} (hs : l.freed.Pairwise FreedBefore)
    (hc : core ∉ l.freed.map (·.2)) : ((at_, core) :: l.freed).Perm (l.enterFreed at_ core).freed ∧
      (l.enterFreed at_ core).freed.Pairwise FreedBefore := by
  rw [Launch.enterFreed_new hc]
  refine ⟨?_, List.pairwise_append.mpr ⟨hs.filter _, List.pairwise_cons.mpr ⟨fun y hy => ?_, hs.filter _⟩, fun x hx y hy => ?_⟩⟩
  · exact ((List.filter_append_perm _ l.freed).symm.cons _).trans List.perm_middle.symm
  · obtain ⟨hm, hp⟩ := List.mem_filter.mp hy
    have hne : y.2 ≠ core := fun h => hc (List.mem_map.mpr ⟨y, hm, h⟩)
    simp only [standsBefore, Bool.not_eq_true', decide_eq_false_iff_not] at hp
    unfold FreedBefore
    omega
  · have hb : FreedBefore x (at_, core) := by simpa [standsBefore, FreedBefore] using (List.mem_filter.mp hx).2
    rcases List.mem_cons.mp hy with rfl | hy
    · exact hb
    · have hp := (List.mem_filter.mp hy).2
      simp only [standsBefore, Bool.not_eq_true', decide_eq_false_iff_not] at hp
      unfold FreedBefore at hb ⊢
      omega

end Sys2Proof.Machine
end

section
namespace Sys2Proof.Machine
open Sys2Proof

/-! ## How a placement starts a block (R25, R30, R36, R49, R150) -/

/-- A table whose entries are changed one by one and keep their keys. -/
theorem KMap.get?_map_entries {α β : Type} {g : Nat × α → Nat × β} (hg : ∀ e, (g e).1 = e.1) (m : KMap α) (k : Nat) :
    KMap.get? (m.map g) k = (m.get? k).map fun v => (g (k, v)).2 := by
  induction m with
  | nil => rfl
  | cons e m ih =>
    obtain ⟨j, v⟩ := e
    have e : g (j, v) = (j, (g (j, v)).2) := Prod.ext (hg _) rfl
    rw [List.map_cons, e]
    simp only [KMap.get?, ih]
    by_cases h : k = j
    · subst h; simp
    · by_cases h' : k < j <;> simp [h, h']

/-! ### The placement log -/

/-- What a placement log's entry can change: memory and what keeps account of it, and of a launch the old values in its
view and the outcome it will report. -/
structure State.Logged (s t : State) : Prop where
  rest : { t with launches := s.launches, mem := s.mem, poison := s.poison, diePoison := s.diePoison, homes := s.homes,
                  views := s.views, l2 := s.l2, past := s.past } = s
  launch : ∀ k l, s.launches.get? k = some l → ∃ v o, t.launches.get? k = some { l with view := v, outcome := o }

theorem State.Logged.refl (s : State) : s.Logged s := ⟨rfl, fun _ l h => ⟨l.view, l.outcome, h⟩⟩

theorem State.Logged.trans {s t u : State} (h : s.Logged t) (h' : t.Logged u) : s.Logged u := by
  refine ⟨?_, fun k l hl => ?_⟩
  · have e := h.rest
    rw [← h'.rest] at e
    exact e
  · obtain ⟨v, o, ht⟩ := h.launch k l hl
    obtain ⟨v', o', hu⟩ := h'.launch k _ ht
    exact ⟨v', o', hu⟩

section
variable {s t : State} (h : s.Logged t)
include h

theorem State.Logged.now_eq : t.now = s.now := (congrArg State.now h.rest :)
theorem State.Logged.seq_eq : t.seq = s.seq := (congrArg State.seq h.rest :)
theorem State.Logged.ctl_eq : t.ctl = s.ctl := (congrArg State.ctl h.rest :)
theorem State.Logged.asids_eq : t.asids = s.asids := (congrArg State.asids h.rest :)
theorem State.Logged.takes_eq : t.takes = s.takes := (congrArg State.takes h.rest :)
theorem State.Logged.grants_eq : t.grants = s.grants := (congrArg State.grants h.rest :)

end

theorem State.logged_poke (s : State) (by_ : Option Nat) (a : Nat) (bs : List Byte) : s.Logged (s.poke by_ a bs) := by
  refine ⟨rfl, fun k l hl => ?_⟩
  have h := KMap.get?_map_entries (g := fun e : Nat × Launch =>
    if e.2.dqm && e.2.quantumOpen && decide (some e.1 ≠ by_) then
      (e.1, { e.2 with view := noteOld s.rawByte e.2.view a bs }) else e) (fun e => by split <;> rfl) s.launches k
  rw [hl] at h
  unfold State.poke
  rw [h]
  dsimp only [Option.map_some]
  split
  · exact ⟨_, _, rfl⟩
  · exact ⟨l.view, l.outcome, rfl⟩

theorem State.logged_noteWrite (s : State) (a v : Nat) : s.Logged (s.noteWrite a v) := by
  unfold State.noteWrite
  split
  · exact ⟨rfl, fun _ l h => ⟨l.view, l.outcome, h⟩⟩
  · exact State.Logged.refl s

theorem State.logged_sysWrite {s t : State} {asid root va : Nat} {bs : List Byte}
    (h : s.sysWrite asid root va bs = some t) : s.Logged t := by
  unfold State.sysWrite at h
  split at h
  case h_2 => nomatch h
  split at h
  case h_2 => nomatch h
  split at h
  · cases h
    exact (s.logged_poke none _ bs).trans (State.logged_noteWrite _ _ _)
  · nomatch h

theorem State.logged_sysStore {asid root : Nat} (fuel : Nat) {s t : State} {va : Nat} {bs : List Byte}
    (h : s.sysStore asid root fuel va bs = some t) : s.Logged t := by
  induction fuel generalizing s va bs with
  | zero => cases h; exact .refl _
  | succ n ih =>
    unfold State.sysStore at h
    split at h
    · cases h; exact .refl _
    · dsimp only at h
      split at h
      · nomatch h
      · next u hu => exact (State.logged_sysWrite hu).trans (ih h)

/-- A launch that is changed in what a placement log can change. -/
theorem State.logged_modLaunch (s : State) (k : Nat) (o : Launch → Byte) :
    s.Logged (s.modLaunch k fun l => { l with outcome := o l }) := by
  refine ⟨rfl, fun j l hl => ?_⟩
  rw [State.modLaunch_launches]
  by_cases h : j = k
  · subst h
    exact ⟨l.view, o l, KMap.get?_modify_self _ hl⟩
  · exact ⟨l.view, l.outcome, (KMap.get?_modify_ne _ _ h).trans hl⟩

theorem State.logged_logEntry (s : State) (k : Nat) (l : Launch) (rank core sect start : Nat) :
    s.Logged (s.logEntry k l rank core sect start) := by
  unfold State.logEntry
  split
  · split
    · next h => exact State.logged_sysStore 2 h
    · exact s.logged_modLaunch k _
  · exact .refl s

/-- A run that asks for no placement log has none written. -/
theorem State.logEntry_off (s : State) (k : Nat) {l : Launch} (h : l.flags.getLsbD 1 = false) (rank core sect start : Nat) :
    s.logEntry k l rank core sect start = s := by
  unfold State.logEntry
  rw [h]
  rfl

/-- An entry of the log stands within one line. -/
theorem State.sysStore_entry {s : State} {asid root va x : Nat} (h8 : va % 8 = 0) :
    s.sysStore asid root 2 va (natLe 8 x) = s.sysWrite asid root va (natLe 8 x) := by
  have hk : (natLe 8 x).length ≤ 64 - va % 64 := by rw [length_natLe]; omega
  have hne : natLe 8 x ≠ [] := fun e => by have := length_natLe 8 x; rw [e] at this; nomatch this
  unfold State.sysStore
  rw [if_neg hne]
  dsimp only
  rw [List.take_of_length_le hk, List.drop_of_length_le hk]
  cases s.sysWrite asid root va (natLe 8 x) <;> rfl

/-- The bytes of memory once an entry has been written (R49). -/
theorem State.rawByte_logEntry {s : State} {k : Nat} {l : Launch} (rank core sect start : Nat) {va a : Nat} {x : Xlate}
    (hf : l.flags.getLsbD 1 = true) (hva : va = (l.log.toNat + 8 * rank) % 2 ^ 57) (h8 : va % 8 = 0) (hm : s.MemCanon)
    (hw : s.walk l.asid l.root va = .leaf x) (hr : s.route (x.target va) = .here (.mem a))
    (hp : x.permits .write false = true) (hv : s.inView (.here (.mem a)) = false) (y : Nat) :
    (s.logEntry k l rank core sect start).rawByte y = if a ≤ y ∧ y < a + 8 then
      (natLe 8 (start * 2 ^ 32 + sect * 2 ^ 16 + core)).getD (y - a) 0 else s.rawByte y := by
  have hst : s.sysWrite l.asid l.root va (natLe 8 (start * 2 ^ 32 + sect * 2 ^ 16 + core)) =
      some ((s.poke none a (natLe 8 (start * 2 ^ 32 + sect * 2 ^ 16 + core))).noteWrite a (s.completion a)) := by
    simp only [State.sysWrite, hw, hr, hp, hv, Bool.not_false, Bool.and_self, ↓reduceIte]
  unfold State.logEntry
  rw [hf, if_pos rfl, ← hva, State.sysStore_entry h8, hst]
  rw [State.rawByte_of_mem (State.noteWrite_mem _ _ _), State.rawByte_poke none a y _ hm, length_natLe]

/-! ### Waves and blocks -/

/-- The key of the wave at place `i` of a block's waves, a compute wave before its shadow. -/
def seatKey (l : Launch) (block i : Nat) : Nat :=
  waveKey block (if l.record.options.getLsbD 1 then i / 2 else i) (l.record.options.getLsbD 1 && decide (i % 2 = 1))

/-- The waves a block can have: 16, each with its shadow where the run pairs them. -/
def seats (l : Launch) : Nat := if l.record.options.getLsbD 1 then 32 else 16

theorem seatKey_injective {l : Launch} {block i j : Nat} (hi : i < seats l) (hj : j < seats l)
    (h : seatKey l block i = seatKey l block j) : i = j := by
  unfold seatKey waveKey at h
  unfold seats at hi hj
  cases hp : l.record.options.getLsbD 1 <;> simp only [hp, Bool.true_and, Bool.false_and, Bool.false_eq_true,
    ↓reduceIte, decide_eq_true_eq] at h hi hj
  · omega
  · split at h <;> split at h <;> omega

/-- Seating the waves of a block changes the waves alone. -/
theorem State.putWaves_frame (l : Launch) (block core : Nat) (xs : List ((Nat × Nat) × (Nat × Nat))) (i : Nat) (s : State) :
    ∃ ws, s.putWaves l block core i xs = { s with waves := ws } := by
  induction xs generalizing s i with
  | nil => exact ⟨s.waves, rfl⟩
  | cons x xs ih =>
    obtain ⟨ws, e⟩ := ih (i + 1) { s with waves := s.waves.set (seatKey l block i) (freshWave l block
      (if l.record.options.getLsbD 1 then i / 2 else i) (l.record.options.getLsbD 1 && decide (i % 2 = 1)) core x.1.1
      (s.freeSlot core x.1.1) x.1.2 (128 * x.2.1 + x.2.2) s.now s.seq) }
    exact ⟨ws, e⟩

theorem State.putWaves_other (l : Launch) (block core : Nat) (xs : List ((Nat × Nat) × (Nat × Nat))) (i : Nat) (s : State)
    {k : Nat} (hk : ∀ j, i ≤ j → j < i + xs.length → k ≠ seatKey l block j) :
    (s.putWaves l block core i xs).waves.get? k = s.waves.get? k := by
  induction xs generalizing s i with
  | nil => rfl
  | cons x xs ih =>
    rw [List.length_cons] at hk
    refine (ih (i + 1) _ fun j h h' => hk j (by omega) (by omega)).trans ?_
    exact KMap.get?_set_ne _ _ (hk i (Nat.le_refl i) (by omega))

/-- Each wave of a block is seated as a fresh one (R25, R30). -/
theorem State.putWaves_seat (l : Launch) (block core : Nat) (xs : List ((Nat × Nat) × (Nat × Nat))) (i j : Nat) (s : State)
    {x : (Nat × Nat) × (Nat × Nat)} (hx : xs[j]? = some x) (hi : i + xs.length ≤ seats l) : ∃ slot,
    (s.putWaves l block core i xs).waves.get? (seatKey l block (i + j)) = some (freshWave l block
      (if l.record.options.getLsbD 1 then (i + j) / 2 else i + j) (l.record.options.getLsbD 1 && decide ((i + j) % 2 = 1))
      core x.1.1 slot x.1.2 (128 * x.2.1 + x.2.2) s.now s.seq) := by
  induction xs generalizing s i j with
  | nil => nomatch hx
  | cons e xs ih =>
    rw [List.length_cons] at hi
    cases j with
    | zero =>
      cases hx
      refine ⟨s.freeSlot core x.1.1, (State.putWaves_other l block core xs (i + 1) _ fun m h h' e => ?_).trans ?_⟩
      · have := seatKey_injective (by omega) (by omega) e
        omega
      · exact KMap.get?_set_self _ _ _
    | succ j =>
      have e : i + (j + 1) = i + 1 + j := by omega
      rw [e]
      exact ih (i + 1) j _ hx (by omega)

/-- A snapshot changes what the block keeps for its rollback, and nothing else (R393). -/
theorem State.snapshot_frame (s : State) (b : Nat) : ∃ bs, s.snapshot b = { s with blocks := bs } := by
  unfold State.snapshot
  (repeat' split) <;> exact ⟨_, rfl⟩

theorem State.snapshot_block {s : State} {b : Nat} {blk : Block} (h : s.blocks.get? b = some blk) :
    ∃ n c, (s.snapshot b).blocks.get? b = some { blk with snap := n, consumed := c } := by
  unfold State.snapshot
  rw [h]
  dsimp only
  split
  · exact ⟨blk.snap, blk.consumed, h⟩
  · split
    · exact ⟨_, _, KMap.get?_modify_self _ h⟩
    · exact ⟨blk.snap, blk.consumed, h⟩

/-- The log entry that the start of a block makes (R49). -/
def State.logStart (s : State) (k : Nat) (l : Launch) (rank core : Nat) (p : Spot) : State :=
  s.logEntry k l rank core (p.waves.headD (0, 0)).1 (if l.dqm then l.bounds + 1 else l.starts)

/-- A block and its waves put on a core. -/
def State.seatBlock (s : State) (k : Nat) (l : Launch) (rank core : Nat) (p im : Spot) : State :=
  State.putWaves { s with blocks := s.blocks.set (blockKey k rank) (freshBlock k l rank core p im 0) } l (blockKey k rank)
    core 0 (p.waves.zip im.waves)

theorem State.seatBlock_frame (s : State) (k : Nat) (l : Launch) (rank core : Nat) (p im : Spot) : ∃ ws,
    s.seatBlock k l rank core p im =
      { s with blocks := s.blocks.set (blockKey k rank) (freshBlock k l rank core p im 0), waves := ws } :=
  State.putWaves_frame l (blockKey k rank) core (p.waves.zip im.waves) 0
    { s with blocks := s.blocks.set (blockKey k rank) (freshBlock k l rank core p im 0) }

/-- Each wave of a block is seated as a fresh one (R25, R30). -/
theorem State.seatBlock_wave (s : State) (k : Nat) (l : Launch) (rank core : Nat) {p im : Spot}
    (hlen : p.waves.length = im.waves.length) (hmax : p.waves.length ≤ seats l) {i : Nat} {x : Nat × Nat}
    (hx : p.waves[i]? = some x) : ∃ slot run, (s.seatBlock k l rank core p im).waves.get? (seatKey l (blockKey k rank) i) =
      some (freshWave l (blockKey k rank) (if l.record.options.getLsbD 1 then i / 2 else i)
        (l.record.options.getLsbD 1 && decide (i % 2 = 1)) core x.1 slot x.2 run s.now s.seq) := by
  have hi : i < p.waves.length := (List.getElem?_eq_some_iff.mp hx).1
  have hz : (p.waves.zip im.waves)[i]? = some (x, im.waves[i]'(hlen ▸ hi)) :=
    List.getElem?_zip_eq_some.mpr ⟨hx, List.getElem?_eq_getElem _⟩
  obtain ⟨slot, h⟩ := State.putWaves_seat l (blockKey k rank) core _ 0 i
    { s with blocks := s.blocks.set (blockKey k rank) (freshBlock k l rank core p im 0) } hz (by rw [List.length_zip]; omega)
  rw [Nat.zero_add] at h
  exact ⟨slot, _, h⟩

/-- A launch with one block more started. -/
def Launch.startedWith (l : Launch) (rank : Nat) : Launch :=
  { l with starts := l.starts + 1, startedRanks := l.startedRanks.set rank () }

section start
variable {s : State} {k : Nat} {l : Launch} (hl : s.launches.get? k = some l) (hst : l.standing = none)
  (rank core : Nat) (p im : Spot)
include hl hst

/-- The start of a block makes its log entry, seats the block and its waves, counts it, and takes its snapshot. -/
theorem State.startBlock_eq : s.startBlock k rank core p im = ((((s.logStart k l rank core p).seatBlock k l rank core p im).modLaunch
    k fun l => l.startedWith rank).snapshot (blockKey k rank)) := by
  simp only [State.startBlock, hl, State.launchFor, State.dispatched, hst, Option.bind_none, Option.isSome_none,
    Bool.false_eq_true, ↓reduceIte]
  rfl

/-- The start of a block changes, beside its log entry, the waves, the blocks and the count of the launch. -/
theorem State.startBlock_frame : ∃ ws bs, s.startBlock k rank core p im = { s.logStart k l rank core p with
    waves := ws, blocks := bs, launches := (s.logStart k l rank core p).launches.modify k fun l => l.startedWith rank } := by
  obtain ⟨bs, hb⟩ := State.snapshot_frame (((s.logStart k l rank core p).seatBlock k l rank core p im).modLaunch
    k fun l => l.startedWith rank) (blockKey k rank)
  obtain ⟨ws, hw⟩ := (s.logStart k l rank core p).seatBlock_frame k l rank core p im
  exact ⟨ws, bs, by rw [State.startBlock_eq hl hst, hb, hw]; rfl⟩

/-- Memory after the start of a block is memory after its log entry. -/
theorem State.startBlock_mem : (s.startBlock k rank core p im).mem = (s.logStart k l rank core p).mem := by
  obtain ⟨ws, bs, e⟩ := State.startBlock_frame hl hst rank core p im
  rw [e]

/-- The launch after the start of a block. -/
theorem State.startBlock_launch : ∃ v o, (s.startBlock k rank core p im).launches.get? k =
    some (({ l with view := v, outcome := o } : Launch).startedWith rank) := by
  obtain ⟨ws, bs, e⟩ := State.startBlock_frame hl hst rank core p im
  have hu : s.Logged (s.logStart k l rank core p) := s.logged_logEntry _ _ _ _ _ _
  obtain ⟨v, o, h⟩ := hu.launch k l hl
  exact ⟨v, o, by rw [e]; exact KMap.get?_modify_self _ h⟩

/-- A block starts on its core with its memories all 0 and its ticket its rank (R36, R150). -/
theorem State.startBlock_block : ∃ n c, (s.startBlock k rank core p im).blocks.get? (blockKey k rank) =
    some { freshBlock k l rank core p im 0 with snap := n, consumed := c } := by
  obtain ⟨ws, hw⟩ := (s.logStart k l rank core p).seatBlock_frame k l rank core p im
  rw [State.startBlock_eq hl hst]
  refine State.snapshot_block ?_
  rw [State.modLaunch_blocks, hw]
  exact KMap.get?_set_self _ _ _

/-- A wave starts at the entry, its shadow one word on, with all lanes active and its registers 0 (R25, R30). -/
theorem State.startBlock_wave (hlen : p.waves.length = im.waves.length) (hmax : p.waves.length ≤ seats l) {i : Nat}
    {x : Nat × Nat} (hx : p.waves[i]? = some x) : ∃ slot run,
    (s.startBlock k rank core p im).waves.get? (seatKey l (blockKey k rank) i) = some (freshWave l (blockKey k rank)
      (if l.record.options.getLsbD 1 then i / 2 else i) (l.record.options.getLsbD 1 && decide (i % 2 = 1))
      core x.1 slot x.2 run s.now s.seq) := by
  obtain ⟨slot, run, h⟩ := (s.logStart k l rank core p).seatBlock_wave k l rank core hlen hmax hx
  obtain ⟨bs, hb⟩ := State.snapshot_frame (((s.logStart k l rank core p).seatBlock k l rank core p im).modLaunch
    k fun l => l.startedWith rank) (blockKey k rank)
  have hu : s.Logged (s.logStart k l rank core p) := s.logged_logEntry _ _ _ _ _ _
  rw [hu.now_eq, hu.seq_eq] at h
  exact ⟨slot, run, by rw [State.startBlock_eq hl hst, hb]; exact h⟩

end start

end Sys2Proof.Machine
end

section
namespace Sys2Proof.Machine
open Sys2Proof

/-! ## Events of a launch (R19, R20, R39, R42, R183, R300, R407) -/

/-! ### The next placement of a run -/

/-- Two changes of a launch that give the same are the same. -/
theorem State.modLaunch_congr {s : State} {k : Nat} {l : Launch} (h : s.launches.get? k = some l) {f g : Launch → Launch}
    (e : f l = g l) : s.modLaunch k f = s.modLaunch k g := by
  simp only [State.modLaunch, KMap.modify, h, e]

section placeOne
variable {s : State} {k : Nat} {l : Launch} (hd : l.dqm = false) (hst : l.standing = none) (hwh : l.whole = false)
  (hrp : l.replays = false)
include hd

/-- A free-mode run sees the cores as they are. -/
theorem State.placing_free : s.placing k l = ⟨s.physOcc, [], []⟩ := by
  unfold State.placing
  rw [hd]
  rfl

theorem State.usable_free : s.usable k l = s.mayUse k l := by
  funext r
  unfold State.usable
  rw [hd]
  rfl

/-- A block of a free-mode run starts as its place is found. -/
theorem State.adopt_put (r c : Nat) (o : Occ) (sp : Spot) :
    s.adopt k l ((s.placing k l).put c r o sp) = s.startBlock k r c sp sp := by
  unfold State.adopt
  rw [hd, State.placing_free hd]
  rfl

theorem State.adopt_nothing : s.adopt k l (s.placing k l) = s := by
  unfold State.adopt
  rw [hd, State.placing_free hd]
  rfl

include hst hwh hrp

/-- A run that has been offered the cores goes on by refills (R20). -/
theorem State.placeOne_offered (ho : l.offered = true) : s.placeOne k l = (s.refillOne k l).map fun x =>
    (s.adopt k l x.1).modLaunch k fun l => { l with cpos := x.2, waiting := x.1.waiting } := by
  unfold State.placeOne
  rw [hd, hst, hwh, hrp, ho]
  rfl

/-- A run that has not been offered the cores is offered them as at its launch (R19). -/
theorem State.placeOne_unoffered (ho : l.offered = false) : s.placeOne k l = some (s.placeAtLaunch k) := by
  unfold State.placeOne
  rw [hd, hst, hwh, hrp, ho]
  rfl

omit hd hwh hrp in
/-- A block starts; its launch notes how far its clusters have come. -/
theorem State.started_offered (hl : s.launches.get? k = some l) (ho : l.offered = true) (r c : Nat) (sp : Spot) (cpos : Nat) :
    ((s.startBlock k r c sp sp).modLaunch k fun l => { l with cpos := cpos, waiting := [] }) =
      (s.startBlock k r c sp sp).modLaunch k fun l => { l with cpos := cpos, waiting := [], offered := true } := by
  obtain ⟨v, o, h⟩ := State.startBlock_launch hl hst r c sp sp
  exact State.modLaunch_congr h (by simp only [Launch.startedWith, ho])

/-- The next cluster of one block takes the first core, in the order in which cores freed, with room (R20, R42). -/
theorem State.placeOne_refill (hl : s.launches.get? k = some l) (ho : l.offered = true) (hw : l.waiting = [])
    (hm : l.record.members = 1) (hc : l.cpos < l.record.clusters) {xs ys : List Nat} {c : Nat} {o : Occ} {sp : Spot}
    (hf : l.freed.map (·.2) = xs ++ c :: ys)
    (hx : ∀ d ∈ xs, ¬ (s.mayUse k l l.cpos d = true ∧ ((s.physOcc d).fit false l.record.need none).isSome = true))
    (hu : s.mayUse k l l.cpos c = true) (hfit : (s.physOcc c).fit false l.record.need none = some (o, sp)) :
    s.placeOne k l = some ((s.startBlock k l.cpos c sp sp).modLaunch k fun l' =>
      { l' with cpos := l.cpos + 1, waiting := [], offered := true }) := by
  have hp := State.placing_free (s := s) (k := k) hd
  have hr : s.refillOne k l = some ((s.placing k l).put c l.cpos o sp, l.cpos + 1) := by
    simp only [State.refillOne, hw, Placing.settle, hm, State.usable_free hd, Launch.refillCores, hf]
    rw [if_neg (by rw [hp]; simp), if_neg (by omega),
      Placing.refill_first (by rw [hp]) (by rw [hp]; exact hx) hu (by rw [hp]; exact hfit)]
    rfl
  rw [State.placeOne_offered hd hst hwh hrp ho, hr, Option.map_some, State.adopt_put hd, hp]
  exact congrArg some (State.started_offered hst hl ho _ _ _ _)

theorem State.placeOne_refill_none (ho : l.offered = true) (hw : l.waiting = []) (hm : l.record.members = 1)
    (h : l.record.clusters ≤ l.cpos ∨ ∀ c ∈ l.freed.map (·.2),
      ¬ (s.mayUse k l l.cpos c = true ∧ ((s.physOcc c).fit false l.record.need none).isSome = true)) :
    s.placeOne k l = none := by
  have hp := State.placing_free (s := s) (k := k) hd
  rw [State.placeOne_offered hd hst hwh hrp ho, Option.map_eq_none_iff]
  simp only [State.refillOne, hw, Placing.settle, hm, State.usable_free hd, Launch.refillCores]
  rw [if_neg (by rw [hp]; simp)]
  split
  · rfl
  next hn =>
  rw [Placing.refill_none, Option.map_none]
  rw [hp]
  exact h.resolve_left hn

/-- A member that waits takes the lowest-numbered core of its cell with room, before any cluster (R42). -/
theorem State.placeOne_member (hl : s.launches.get? k = some l) (ho : l.offered = true) {r c cell : Nat} {o : Occ} {sp : Spot}
    (hw : l.waiting = [(r, cell)]) (hc : c / 8 = cell) (hu : s.mayUse k l r c = true)
    (hfit : (s.physOcc c).fit false l.record.need none = some (o, sp))
    (hlow : ∀ d, d / 8 = cell → d < c →
      ¬ (s.mayUse k l r d = true ∧ ((s.physOcc d).fit false l.record.need none).isSome = true)) :
    s.placeOne k l = some ((s.startBlock k r c sp sp).modLaunch k fun l' =>
      { l' with cpos := l.cpos, waiting := [], offered := true }) := by
  have hp := State.placing_free (s := s) (k := k) hd
  have hr : s.refillOne k l = some ((s.placing k l).put c r o sp, l.cpos) := by
    simp only [State.refillOne, hw, State.usable_free hd]
    rw [Placing.settle_one (Placing.first_in_cell hc hu (by rw [hp]; exact hfit) (by rw [hp]; exact hlow)),
      if_pos (by simp [Placing.put])]
  rw [State.placeOne_offered hd hst hwh hrp ho, hr, Option.map_some, State.adopt_put hd, hp]
  exact congrArg some (State.started_offered hst hl ho _ _ _ _)

/-- The last cluster of one block, as the run is launched, takes the lowest-numbered core with room (R19). -/
theorem State.placeOne_launch (hl : s.launches.get? k = some l) (ho : l.offered = false) (hm : l.record.members = 1)
    (hc : l.cpos + 1 = l.record.clusters) {c : Nat} {o : Occ} {sp : Spot} (hu : s.mayUse k l l.cpos c = true)
    (hfit : (s.physOcc c).fit false l.record.need none = some (o, sp))
    (hlow : ∀ d, d < c →
      ¬ (s.mayUse k l l.cpos d = true ∧ ((s.physOcc d).fit false l.record.need none).isSome = true)) :
    s.placeOne k l = some ((s.startBlock k l.cpos c sp sp).modLaunch k fun l' =>
      { l' with cpos := l.cpos + 1, waiting := [], offered := true }) := by
  have hp := State.placing_free (s := s) (k := k) hd
  have h192 : c < 192 := by
    simp only [State.mayUse, Bool.and_eq_true, decide_eq_true_eq] at hu
    exact hu.1.1
  rw [State.placeOne_unoffered hd hst hwh hrp ho]
  simp only [State.placeAtLaunch, hl, hm, State.usable_free hd, show l.record.clusters - l.cpos = 1 by omega,
    Placing.allAtLaunch]
  rw [Placing.atLaunch_lowest (by rw [hp]) h192 hu (by rw [hp]; exact hfit) (by rw [hp]; exact hlow)]
  dsimp only
  rw [State.adopt_put hd, hp]
  rfl

theorem State.placeOne_launch_none (hl : s.launches.get? k = some l) (ho : l.offered = false) (hm : l.record.members = 1)
    (hc : l.cpos + 1 = l.record.clusters)
    (h : ∀ c, ¬ (s.mayUse k l l.cpos c = true ∧ ((s.physOcc c).fit false l.record.need none).isSome = true)) :
    s.placeOne k l = some (s.modLaunch k fun l => { l with waiting := [], offered := true }) := by
  have hp := State.placing_free (s := s) (k := k) hd
  rw [State.placeOne_unoffered hd hst hwh hrp ho]
  simp only [State.placeAtLaunch, hl, hm, State.usable_free hd, show l.record.clusters - l.cpos = 1 by omega,
    Placing.allAtLaunch]
  rw [Placing.atLaunch_none (by rw [hp]; exact h)]
  dsimp only
  rw [State.adopt_nothing hd, hp]
  exact congrArg some (State.modLaunch_congr hl rfl)

end placeOne

/-! ### What waits for contiguous room (R39) -/

section waits
variable {s : State} {l : Launch}

/-- What fails to fit for want of contiguous room, of a free-mode run whose next cluster is one block: that block, on each
core of the mask with room but for holes. -/
theorem State.mem_torn (hd : l.dqm = false) (hst : l.standing = none) (hwh : l.whole = false) (hrp : l.replays = false)
    (hw : l.waiting = []) (hm : l.record.members = 1) (x : Want) : x ∈ s.torn l ↔
      l.cpos < l.record.clusters ∧ x.rank = l.cpos ∧ x.core < 192 ∧ l.record.mask.getLsbD x.core = true ∧
      x.blocks = [(l.record.need, none)] ∧ (s.physOcc x.core).fit false l.record.need none = none ∧
      ((s.physOcc x.core).fit true l.record.need none).isSome = true := by
  have hneed (r : Nat) : s.needOf l r = l.record.need := by
    simp [State.needOf, State.launchFor, State.dispatched, hst]
  have hall (loose : Bool) (o : Occ) : o.fitAll loose [(l.record.need, none)] = (o.fit loose l.record.need none).isSome := by
    unfold Occ.fitAll
    cases o.fit loose l.record.need none <;> rfl
  have hwants (loose : Bool) (occ : Nat → Occ) : x ∈ s.wants l loose occ ↔
      l.cpos < l.record.clusters ∧ ∃ c, c < 192 ∧ l.record.mask.getLsbD c = true ∧
        (⟨l.cpos, c, [(l.record.need, none)]⟩ : Want) = x := by
    simp only [State.wants, State.waiters, State.nextWant, hd, hst, hwh, hrp, hw, hm, hneed, Bool.not_false, ↓reduceIte,
      Bool.false_eq_true, List.flatMap_nil, List.nil_append, List.any_nil, Bool.and_true, Nat.mul_one]
    split
    · next h => simp [h, Launch.inMask, and_assoc]
    · next h => simp [h]
  unfold State.torn
  rw [List.mem_filter, hwants]
  constructor
  · rintro ⟨⟨hc, c, h192, hk, rfl⟩, hf⟩
    simpa [hall, hc, h192, hk] using hf
  · rintro ⟨hc, hr, h192, hk, hb, hf⟩
    obtain ⟨rank, core, blocks⟩ := x
    dsimp only at hr h192 hk hb hf
    subst hr hb
    exact ⟨⟨hc, core, h192, hk, rfl⟩, by simpa [hall] using hf⟩

/-- The times since when things wait are by rank. -/
theorem foldl_set_rank {f : Nat → Nat} {r : Nat} {xs : List Want} {m : KMap Nat}
    (h : (∃ x ∈ xs, x.rank = r) ∨ m.get? r = some (f r)) :
    (xs.foldl (fun m x => m.set x.rank (f x.rank)) m).get? r = some (f r) := by
  induction xs generalizing m with
  | nil => exact h.resolve_left fun ⟨_, hx, _⟩ => nomatch hx
  | cons y ys ih =>
    refine ih ?_
    by_cases e : y.rank = r
    · subst e
      exact .inr (KMap.get?_set_self _ _ _)
    · rcases h with ⟨x, hx, hr⟩ | h
      · rcases List.mem_cons.mp hx with rfl | hx
        · exact absurd hr e
        · exact .inl ⟨x, hx, hr⟩
      · exact .inr ((KMap.get?_set_ne _ _ fun h => e h.symm).trans h)

/-- What waits keeps the time since when it waits. -/
theorem State.waitTimes_torn {x : Want} (hx : x ∈ s.torn l) :
    (s.waitTimes l).get? x.rank = some (l.waitFrom.getD x.rank s.now) :=
  foldl_set_rank (f := fun r => l.waitFrom.getD r s.now) (.inl ⟨x, List.mem_append_left _ hx, rfl⟩)

/-- Of two things that wait, the one on the lower-numbered core, the earlier listed of two on one core. -/
def lowerWant (best : Option Want) (x : Want) : Option Want :=
  match best with
  | none => some x
  | some b => if x.core < b.core then some x else some b

theorem foldl_lowerWant (xs : List Want) (b : Want) : ∃ y ∈ b :: xs, xs.foldl lowerWant (some b) = some y ∧
    ∀ z ∈ b :: xs, y.core ≤ z.core := by
  induction xs generalizing b with
  | nil => exact ⟨b, List.mem_cons_self, rfl, by simp⟩
  | cons x xs ih =>
    by_cases h : x.core < b.core
    · obtain ⟨y, hy, e, hl⟩ := ih x
      refine ⟨y, List.mem_cons_of_mem _ hy, by rw [List.foldl_cons, lowerWant, if_pos h, e], fun z hz => ?_⟩
      rcases List.mem_cons.mp hz with rfl | hz
      · exact (hl x List.mem_cons_self).trans h.le
      · exact hl z hz
    · obtain ⟨y, hy, e, hl⟩ := ih b
      refine ⟨y, ?_, by rw [List.foldl_cons, lowerWant, if_neg h, e], fun z hz => ?_⟩
      · rcases List.mem_cons.mp hy with rfl | hy
        · exact List.mem_cons_self
        · exact List.mem_cons_of_mem _ (List.mem_cons_of_mem _ hy)
      · rcases List.mem_cons.mp hz with rfl | hz
        · exact hl z List.mem_cons_self
        rcases List.mem_cons.mp hz with rfl | hz
        · exact (hl b List.mem_cons_self).trans (Nat.not_lt.mp h)
        · exact hl z (List.mem_cons_of_mem _ hz)

/-- Something fails to fit for want of contiguous room, and has waited for 4,096 cycles (R39). -/
def State.LongTorn (s : State) (l : Launch) (x : Want) : Prop :=
  x ∈ s.torn l ∧ ∃ t, l.waitFrom.get? x.rank = some t ∧ t + 4096 ≤ s.now

theorem State.mem_waited {x : Want} : x ∈ (s.torn l).filter (fun x => l.waited s.now x.rank) ↔ s.LongTorn l x := by
  simp [State.LongTorn, Launch.waited, Option.any_eq_true]

theorem State.toDrain_eq (s : State) (l : Launch) :
    s.toDrain l = ((s.torn l).filter fun x => l.waited s.now x.rank).foldl lowerWant none := rfl

/-- A drain goes for the lowest-numbered core on which something has waited long enough. -/
theorem State.toDrain_some {x : Want} (hx : s.LongTorn l x) : ∃ y, s.toDrain l = some y ∧ s.LongTorn l y ∧
    ∀ z, s.LongTorn l z → y.core ≤ z.core := by
  rw [State.toDrain_eq]
  simp only [← State.mem_waited] at hx ⊢
  generalize (s.torn l).filter (fun x => l.waited s.now x.rank) = xs at hx
  cases xs with
  | nil => nomatch hx
  | cons b xs =>
    obtain ⟨y, hy, e, hl⟩ := foldl_lowerWant xs b
    exact ⟨y, e, hy, hl⟩

theorem State.toDrain_none (h : ∀ x, ¬ s.LongTorn l x) : s.toDrain l = none := by
  rw [State.toDrain_eq, List.eq_nil_iff_forall_not_mem.mpr fun x hx => h x (State.mem_waited.mp hx)]
  rfl

/-- A launch drains a core when one of the cores says so. -/
theorem State.draining_iff (hc : KMap.wf s.cores = true) (k : Nat) :
    s.draining k = true ↔ ∃ c r, (s.core c).drains = some (k, r) := by
  simp only [State.draining, List.any_eq_true, Option.any_eq_true, decide_eq_true_eq, Prod.exists]
  constructor
  · rintro ⟨c, v, hm, a, r, hd, rfl⟩
    refine ⟨c, r, ?_⟩
    rw [State.core, KMap.getD, KMap.get?_of_mem hc hm]
    exact hd
  · rintro ⟨c, r, hd⟩
    unfold State.core KMap.getD at hd
    cases e : KMap.get? s.cores c with
    | none => rw [e] at hd; nomatch hd
    | some v => exact ⟨c, v, KMap.mem_of_get? e, k, r, by rw [e] at hd; exact hd, rfl⟩

/-- A drain begins on the lowest core on which something has waited long enough (R39). -/
theorem exec_drain_begins (hc : KMap.wf s.cores = true) (hl : s.launches.get? s.subj.a = some l) {x : Want}
    (hx : s.LongTorn l x) (hlow : ∀ y, s.LongTorn l y → x.core ≤ y.core)
    (hb : ¬ ∃ c r, (s.core c).drains = some (s.subj.a, r)) (hn : (s.core x.core).drains = none) :
    ∃ t y, exec .drain s = .next t ∧ s.LongTorn l y ∧ y.core = x.core ∧
      (t.core x.core).drains = some (s.subj.a, y.rank) ∧ { t with cores := s.cores } = s ∧
      ∀ k, k ≠ x.core → t.core k = s.core k := by
  obtain ⟨y, he, hy, hyl⟩ := State.toDrain_some hx
  have hyx : y.core = x.core := Nat.le_antisymm (hyl x hx) (hlow y hy)
  have hd : s.draining s.subj.a = false := by
    rw [← Bool.not_eq_true, State.draining_iff hc]
    exact hb
  refine ⟨s.modCore x.core fun k => { k with drains := some (s.subj.a, y.rank) }, y, ?_, hy, hyx, ?_, rfl, fun k hk => ?_⟩
  · simp only [exec, execDrain, hl, Option.bind_some, he, hd, hyx, hn, Bool.not_false, Option.isNone_none, Bool.and_self,
      ↓reduceIte]
  · rw [State.core_modCore _ _ _ hc, if_pos rfl]
  · rw [State.core_modCore _ _ _ hc, if_neg hk]

/-- A launch drains one core at a time, and none before something has waited long enough. -/
theorem exec_drain_idle (hc : KMap.wf s.cores = true) (hl : s.launches.get? s.subj.a = some l)
    (h : (∀ x, ¬ s.LongTorn l x) ∨ ∃ c r, (s.core c).drains = some (s.subj.a, r)) : exec .drain s = .next s := by
  simp only [exec, execDrain, hl, Option.bind_some]
  rcases h with h | h
  · rw [State.toDrain_none h]
  · have hd := (State.draining_iff hc s.subj.a).mpr h
    cases s.toDrain l with
    | none => rfl
    | some x => simp only [hd, Bool.not_true, Bool.false_and, Bool.false_eq_true, ↓reduceIte]

end waits

/-! ### Cores that free, and what waits (R20, R39) -/

/-- Cores keep their place among those that have freed while they have room; the launch is as it was. -/
theorem State.pruneFreed_launch {s : State} {k : Nat} {l : Launch} (hl : s.launches.get? k = some l) : ∃ fr,
    s.pruneFreed.launches.get? k = some { l with freed := fr } ∧ ∀ x ∈ l.freed, l.dqm = false →
      ((s.physOcc x.2).fit false l.record.need none).isSome = true → x ∈ fr := by
  unfold State.pruneFreed
  rw [KMap.get?_map_entries (fun e => by split <;> rfl), hl]
  dsimp only [Option.map_some]
  split
  · exact ⟨l.freed, rfl, fun x hx _ _ => hx⟩
  · exact ⟨_, rfl, fun x hx hd hf => List.mem_filter.mpr ⟨hx, by rw [hd]; exact hf⟩⟩

theorem State.pruneFreed_none {s : State} {k : Nat} (hl : s.launches.get? k = none) :
    s.pruneFreed.launches.get? k = none := by
  unfold State.pruneFreed
  rw [KMap.get?_map_entries (fun e => by split <;> rfl), hl]
  rfl

/-- A core enters among those that have freed for each launch that shares it, before full ones are struck. -/
def State.withFreed (s : State) (launch core im : Nat) : State :=
  { s with seq := s.seq + 1, launches := s.launches.map fun e =>
      if e.2.dqm then (if e.1 = launch then (e.1, e.2.enterFreed s.seq im) else e) else (e.1, e.2.enterFreed s.now core) }

theorem State.noteFreed_eq (s : State) (launch core im : Nat) :
    s.noteFreed launch core im = (s.withFreed launch core im).pruneFreed := rfl

theorem State.withFreed_launches (s : State) (launch core im k : Nat) : (s.withFreed launch core im).launches.get? k =
    (s.launches.get? k).map fun l => if l.dqm then (if k = launch then l.enterFreed s.seq im else l)
      else l.enterFreed s.now core := by
  unfold State.withFreed
  rw [KMap.get?_map_entries (fun e => by (repeat' split) <;> rfl)]
  congr 1
  funext l
  dsimp only
  (repeat' split) <;> rfl

/-- A core that was not among those that have freed enters; the launch is else as it was. -/
theorem Launch.enterFreed_frame (l : Launch) (at_ core : Nat) : ∃ fr, l.enterFreed at_ core = { l with freed := fr } ∧
    (core ∉ l.freed.map (·.2) → (at_, core) ∈ fr) := by
  unfold Launch.enterFreed
  split
  · next hc => exact ⟨l.freed, rfl, fun hn => absurd (by simpa using hc) hn⟩
  · exact ⟨_, rfl, fun _ => List.mem_append_left _ (List.mem_append_right _ List.mem_cons_self)⟩

/-- A core that frees enters among those that have freed, of a free-mode launch, if there is room on it (R20). -/
theorem State.noteFreed_launch {s : State} {k : Nat} {l : Launch} (hl : s.launches.get? k = some l) (hd : l.dqm = false)
    (a core im : Nat) : ∃ fr, (s.noteFreed a core im).launches.get? k = some { l with freed := fr } ∧
      (core ∉ l.freed.map (·.2) → ((s.physOcc core).fit false l.record.need none).isSome = true → (s.now, core) ∈ fr) := by
  obtain ⟨fr, e, hm⟩ := l.enterFreed_frame s.now core
  have h : (s.withFreed a core im).launches.get? k = some { l with freed := fr } := by
    rw [← e, State.withFreed_launches, hl, Option.map_some, if_neg (by simp [hd])]
  obtain ⟨fr', hp, hk⟩ := State.pruneFreed_launch h
  exact ⟨fr', hp, fun hn hf => hk _ (hm hn) hd hf⟩

/-- What noting that a core has freed changes: a number is drawn, and launches note it. -/
theorem State.noteFreed_frame (s : State) (a core im : Nat) : ∃ n ls,
    s.noteFreed a core im = { s with seq := n, launches := ls } ∧
      ∀ k, s.launches.get? k = none → KMap.get? ls k = none :=
  ⟨_, _, rfl, fun k hk => State.pruneFreed_none (s := s.withFreed a core im) (by rw [State.withFreed_launches, hk]; rfl)⟩

/-- A launch with the times since when it waits. -/
def Launch.noted (s : State) (l : Launch) : Launch := { l with waitFrom := s.waitTimes l }

/-- A core with the drain that goes on. -/
def Core.noted (s : State) (c : Nat) (k : Core) : Core := { k with drains := k.drains.filter (s.drainsOn c) }

/-- The waiting times of the launches and the drains that go on, before full cores are struck. -/
def State.withWaits (s : State) : State :=
  { s with launches := s.launches.map fun e => (e.1, e.2.noted s), cores := s.cores.map fun e => (e.1, e.2.noted s e.1) }

theorem State.noteWaits_eq (s : State) : s.noteWaits = s.withWaits.pruneFreed := rfl

theorem State.withWaits_launches (s : State) (k : Nat) :
    s.withWaits.launches.get? k = (s.launches.get? k).map (Launch.noted s) := KMap.get?_map s.launches (Launch.noted s) k

/-- A core after the drains that go on have been noted. -/
theorem State.core_noteWaits (s : State) (c : Nat) : s.noteWaits.core c = (s.core c).noted s c := by
  have h := KMap.get?_map_entries (g := fun e : Nat × Core => (e.1, e.2.noted s e.1)) (fun _ => rfl) s.cores c
  have hc : s.noteWaits.core c = (KMap.get? (s.cores.map fun e => (e.1, e.2.noted s e.1)) c).getD Core.reset := rfl
  rw [hc, h]
  unfold State.core KMap.getD
  cases KMap.get? s.cores c <;> rfl

theorem State.physOcc_noteWaits (s : State) (c : Nat) : s.noteWaits.physOcc c = s.physOcc c := by
  have h : (s.noteWaits.core c).tenures = (s.core c).tenures := by rw [State.core_noteWaits]; rfl
  unfold State.physOcc State.accUsed
  rw [h]
  rfl

/-- A launch once it has noted what waits. -/
theorem State.noteWaits_launch {s : State} {k : Nat} {l : Launch} (hl : s.launches.get? k = some l) : ∃ fr,
    s.noteWaits.launches.get? k = some { l.noted s with freed := fr } ∧
      ∀ x ∈ l.freed, l.dqm = false → ((s.physOcc x.2).fit false l.record.need none).isSome = true → x ∈ fr := by
  have h : s.withWaits.launches.get? k = some (l.noted s) := by
    rw [State.withWaits_launches, hl]
    rfl
  obtain ⟨fr, e, hk⟩ := State.pruneFreed_launch h
  refine ⟨fr, e, fun x hx hd hf => hk x hx hd ?_⟩
  rw [← State.physOcc_noteWaits] at hf
  exact hf

theorem State.noteWaits_none {s : State} {k : Nat} (hl : s.launches.get? k = none) : s.noteWaits.launches.get? k = none :=
  State.pruneFreed_none (s := s.withWaits) (by rw [State.withWaits_launches, hl]; rfl)

/-! ### The end of a run (R183, R300) -/

theorem foldl_noteFreed_frame (launch : Nat) (xs : List (Nat × Core)) (s : State) : ∃ n ls,
    xs.foldl (fun s e => s.noteFreed launch e.1 e.1) s = { s with seq := n, launches := ls } ∧
      ∀ k, s.launches.get? k = none → KMap.get? ls k = none := by
  induction xs generalizing s with
  | nil => exact ⟨s.seq, s.launches, rfl, fun _ h => h⟩
  | cons x xs ih =>
    obtain ⟨n, ls, e, h⟩ := s.noteFreed_frame launch x.1 x.1
    obtain ⟨n', ls', e', h'⟩ := ih (s.noteFreed launch x.1 x.1)
    rw [e] at e' h'
    exact ⟨n', ls', by rw [List.foldl_cons, e]; exact e', fun k hk => h' k (h k hk)⟩

/-- A core without the tenures of a launch. -/
def Core.sansTenures (launch : Nat) (k : Core) : Core :=
  { k with tenures := k.tenures.filter fun t => decide (t.2.launch ≠ launch) }

/-- The machine without a launch, its tenures and what was kept for its collectives (R338). -/
def State.sansLaunch (s : State) (launch : Nat) (l : Launch) : State :=
  { s with
    cores := s.cores.map fun e => (e.1, e.2.sansTenures launch)
    pool := s.pool.filter fun p => decide (p.launch ≠ launch)
    colls := s.colls.filter fun e => decide (e.1 / 16 ≠ l.tag.toNat)
    early := s.early.filter fun m => decide (m.tag ≠ l.tag)
    launches := s.launches.erase launch }

theorem State.tenures_endDrain (s : State) (launch c : Nat) :
    ((s.endDrain launch).core c).tenures = (s.core c).tenures := by
  unfold State.endDrain State.core KMap.getD
  rw [KMap.get?_map_entries (fun e => by split <;> rfl)]
  cases KMap.get? s.cores c with
  | none => rfl
  | some v =>
    simp only [Option.map_some, Option.getD_some]
    split <;> rfl

theorem State.tenures_sansLaunch (s : State) (launch : Nat) (l : Launch) (c : Nat) :
    ((s.sansLaunch launch l).core c).tenures = (s.core c).tenures.filter fun t => decide (t.2.launch ≠ launch) := by
  rw [State.core_map (s := s) (t := s.sansLaunch launch l) (f := Core.sansTenures launch) rfl rfl]
  rfl

/-- A launch that ends is gone, with its drain; the cores that its tenures leave are noted as freed (R20, R338). -/
theorem State.dropLaunch_frame {s : State} (hw : KMap.wf s.launches = true) (launch : Nat) (l : Launch) : ∃ n ls,
    s.dropLaunch launch l = { (s.sansLaunch launch l).endDrain launch with seq := n, launches := ls } ∧
      KMap.get? ls launch = none := by
  obtain ⟨n, ls, e, h⟩ := foldl_noteFreed_frame launch
    (s.cores.filter fun e => e.2.tenures.any fun t => decide (t.2.launch = launch)) ((s.sansLaunch launch l).endDrain launch)
  exact ⟨n, ls, e, h launch ((KMap.get?_erase hw).trans (if_pos rfl))⟩

/-- A run whose blocks have all retired ends with one completion message (R183, R300). -/
theorem exec_runCompletion_over {s : State} {l : Launch} (hr : s.TablesRise) (hl : s.launches.get? s.subj.a = some l)
    (ho : s.runOver s.subj.a l = true) (hdom : l.domain = none) : ∃ t, exec .runCompletion s = .next t ∧
      t.launches.get? s.subj.a = none ∧ t.mem = s.mem ∧ t.waves = s.waves ∧
      (∀ c e n, (t.core c).tenures.get? e = some n → (e, n) ∈ (s.core c).tenures ∧ n.launch ≠ s.subj.a) ∧
      t.grants = s.grants ++ [⟨s.portFor ((ownDev + l.endpoint.toNat % 4096) % 16), msgClass 0x0002,
        ⟨0x0002, l.endpoint, l.tag, [0, 0, 255, l.outcome] ++ natLe 4 0 ++ natLe 8 (if l.dqm then l.bounds else 0)⟩⟩] := by
  obtain ⟨-, -, -, hwl⟩ := hr
  let u := s.complete l.endpoint l.tag 0 0 0xFF l.outcome 0 (if l.dqm then l.bounds else 0)
  obtain ⟨n, ls, e, hn⟩ := State.dropLaunch_frame (s := u) hwl s.subj.a l
  refine ⟨(u.dropLaunch s.subj.a l).noteWaits, ?_, ?_, ?_, ?_, fun c i v hv => ?_, ?_⟩
  · simp only [exec, execRunCompletion, hl, ho, hdom, Option.isSome_none, Bool.false_eq_true, ↓reduceIte]
    rfl
  · exact State.noteWaits_none (by rw [e]; exact hn)
  · rw [State.noteWaits_mem, State.dropLaunch_mem, State.complete_mem]
  · rw [e]; rfl
  · have ht : ((u.dropLaunch s.subj.a l).core c).tenures = (s.core c).tenures.filter fun t => decide (t.2.launch ≠ s.subj.a) := by
      rw [e]
      exact (State.tenures_endDrain _ _ _).trans (u.tenures_sansLaunch _ _ _)
    rw [State.core_noteWaits, Core.noted, ht] at hv
    obtain ⟨hm, hp⟩ := List.mem_filter.mp (KMap.mem_of_get? hv)
    exact ⟨hm, of_decide_eq_true hp⟩
  · rw [e]; rfl

/-! ### The retirement of a block (R32, R223, R407) -/

/-- An entry of a table of which some entries are kept. -/
theorem KMap.get?_of_filter {α : Type} {m : KMap α} (hm : m.wf = true) {p : Nat × α → Bool} {k : Nat} {v : α}
    (h : KMap.get? (m.filter p) k = some v) : m.get? k = some v ∧ p (k, v) = true := by
  obtain ⟨hk, hp⟩ := List.mem_filter.mp (KMap.mem_of_get? h)
  exact ⟨KMap.get?_of_mem hm hk, hp⟩

/-- Counting tickets moves S and the tickets beyond it alone (R220). -/
theorem advanceTickets_frame (n : Nat) (l : Launch) : ∃ t a, advanceTickets n l = { l with tickets := t, takenAhead := a } := by
  induction n generalizing l with
  | zero => exact ⟨l.tickets, l.takenAhead, rfl⟩
  | succ n ih =>
    unfold advanceTickets
    split
    · exact ⟨l.tickets, l.takenAhead, rfl⟩
    · exact ih _

/-- A ticket that hardware takes is marked abandoned (R223). -/
theorem Launch.take_abandoned (l : Launch) (r : Nat) : ∃ t a, l.take r true =
    { l with tickets := t, takenAhead := a, abandoned := l.abandoned.set r () } :=
  advanceTickets_frame _ _

/-- The ticket that a block of a free-mode run holds is taken by hardware and abandoned (R223). -/
theorem State.abandonTicket_run {s : State} {k : Nat} {b : Block} {l : Launch} (hb : s.blocks.get? k = some b)
    (hl : s.launches.get? b.launch = some l) (hst : l.standing = none) (hd : l.dqm = false) : ∃ b' l',
    (s.abandonTicket k).traps = s.traps ∧ (s.abandonTicket k).blocks.get? k = some b' ∧ b'.halt = b.halt ∧
      (s.abandonTicket k).launches.get? b.launch = some l' ∧
      ∀ r, b.ticket = some r → b'.ticket = none ∧ (l'.abandoned.get? r).isSome = true := by
  unfold State.abandonTicket
  rw [hb]
  dsimp only
  rw [hl]
  cases ht : b.ticket with
  | none => exact ⟨b, l, rfl, hb, rfl, hl, fun r h => nomatch h⟩
  | some n =>
    obtain ⟨t, a, et⟩ := l.take_abandoned n
    simp only [hst, hd, Option.isSome_none, Bool.false_eq_true, ↓reduceIte]
    refine ⟨{ b with ticket := none }, l.take n true, rfl, KMap.get?_modify_self _ hb, rfl, KMap.get?_modify_self _ hl,
      fun r h => ⟨rfl, ?_⟩⟩
    cases h
    rw [et]
    simp

section retire
variable {s : State} {k a : Nat} {b : Block} {l : Launch} (hb : s.blocks.get? k = some b) (hba : b.launch = a)
  (hl : s.launches.get? a = some l) (hst : l.standing = none) (hd : l.dqm = false)
include hb hba hl hst

/-- A block of a run that retires is gone with its waves; its rank is among the retired, and a ticket it holds is taken. -/
theorem State.retireBlock_run : ∃ (u : State) (l' : Launch), s.retireBlock k = u.noteFreed a b.core b.imCore ∧
    u.waves = s.waves.filter (fun e => decide (e.2.block ≠ k)) ∧ u.blocks = s.blocks.erase k ∧ u.now = s.now ∧
    u.launches.get? a = some l' ∧ l'.freed = l.freed ∧ l'.record = l.record ∧ l'.dqm = l.dqm ∧
    (l'.retiredRanks.get? b.rank).isSome = true ∧ ∀ r, b.ticket = some r → (l'.abandoned.get? r).isSome = true := by
  subst hba
  unfold State.retireBlock
  rw [hb]
  refine ⟨_, _, rfl, rfl, rfl, rfl, KMap.get?_modify_self _ hl, ?_⟩
  simp only [hst, Option.isSome_none, Bool.false_eq_true, ↓reduceIte]
  cases ht : b.ticket with
  | none => exact ⟨rfl, rfl, rfl, by simp [hst], fun r h => nomatch h⟩
  | some r =>
    obtain ⟨t, a, e⟩ := l.take_abandoned r
    simp only [e, hst]
    simp

include hd

/-- A block whose waves have exited and whose accesses are done retires, and its waves with it (R32, R183). -/
theorem exec_blockRetirement_done (hs : s.subj.a = k) (hr : s.TablesRise) (hh : b.halt = none)
    (hx : s.allExited k = true) (hf : s.exitFault k = none) (hdn : s.blockDone k = true) :
    ∃ t l', exec .blockRetirement s = .next t ∧ t.mem = s.mem ∧ t.blocks.get? k = none ∧
      (∀ j v, t.waves.get? j = some v → v.block ≠ k ∧ s.waves.get? j = some v) ∧
      t.launches.get? a = some l' ∧ (l'.retiredRanks.get? b.rank).isSome = true ∧
      (b.core ∉ l.freed.map (·.2) → ((t.physOcc b.core).fit false l.record.need none).isSome = true →
        (s.now, b.core) ∈ l'.freed) ∧
      ∀ r, b.ticket = some r → (l'.abandoned.get? r).isSome = true := by
  obtain ⟨-, hww, hwb, -⟩ := hr
  obtain ⟨u, l', e, huw, hub, hun, hul, hfr, hrec, hdq, hret, hab⟩ := State.retireBlock_run hb hba hl hst
  obtain ⟨fr, hv, hin⟩ := State.noteFreed_launch hul (hdq.trans hd) a b.core b.imCore
  obtain ⟨fr', ht, hkeep⟩ := State.noteWaits_launch hv
  refine ⟨(u.noteFreed a b.core b.imCore).noteWaits, _, ?_, ?_, ?_, fun j w hj => ?_, ht, hret, fun hn hroom => ?_, hab⟩
  · have hl' : s.launches.get? b.launch = some l := hba ▸ hl
    simp only [exec, execBlockRetirement, hs, hb, hl', hst, hd, hh, hx, hdn, hf, e, Option.isSome_none, Bool.or_self,
      Bool.not_true, Bool.false_eq_true, ↓reduceIte]
  · rw [State.noteWaits_mem, ← State.retireBlock_mem s k, e]
  · have hg := KMap.get?_erase (k := k) (j := k) hwb
    rw [if_pos rfl, ← hub] at hg
    exact hg
  · have hw : KMap.get? (s.waves.filter fun e => decide (e.2.block ≠ k)) j = some w := huw ▸ hj
    obtain ⟨hg, hp⟩ := KMap.get?_of_filter hww hw
    exact ⟨of_decide_eq_true hp, hg⟩
  · rw [State.physOcc_noteWaits, ← hrec] at hroom
    rw [← hun]
    rw [← hfr] at hn
    exact hkeep _ (hin hn hroom) (hdq.trans hd) hroom

omit hd in
/-- The halt of a block in place of its retirement (R407). -/
theorem State.haltAtExit_eq {key : Nat} {w : Wave} (d : Deferred) (hw : s.waves.get? key = some w) (hsn : b.snap = none) :
    s.haltAtExit k key d = (((s.modWave key fun w => { w with deferred := w.deferred.filter fun x => decide (x ≠ d) }).modBlock k
      fun b => { b with halt := some ⟨d.cause, key, true, true⟩ }).post { waveRec l key w b d.cause d.addr 0 d.detail with
        halt := true, job := d.job, batch := d.batch }).abandonTicket k := by
  subst hba
  simp only [State.haltAtExit, hw, hb, hl, hst, hsn, Option.isSome_none, Bool.false_and, Bool.false_eq_true, ↓reduceIte]

/-- A deferred fault of an exited wave halts its block, and the hardware takes its ticket (R223, R407). -/
theorem State.haltAtExit_run {key : Nat} {w : Wave} (d : Deferred) (hw : s.waves.get? key = some w)
    (hsn : b.snap = none) : ∃ r b' l', (s.haltAtExit k key d).traps = s.traps ++ [r] ∧ r.cause = d.cause ∧
      r.addr = d.addr ∧ r.mask = 0 ∧ r.pc = w.pc ∧ r.halt = true ∧ (s.haltAtExit k key d).blocks.get? k = some b' ∧
      b'.halt.isSome = true ∧ (s.haltAtExit k key d).launches.get? a = some l' ∧
      ∀ r, b.ticket = some r → b'.ticket = none ∧ (l'.abandoned.get? r).isSome = true := by
  rw [State.haltAtExit_eq hb hba hl hst d hw hsn]
  subst hba
  obtain ⟨b', l', ht, hb', hh, hl', hab⟩ := State.abandonTicket_run (s := ((s.modWave key fun w =>
    { w with deferred := w.deferred.filter fun x => decide (x ≠ d) }).modBlock k
      fun b => { b with halt := some ⟨d.cause, key, true, true⟩ }).post { waveRec l key w b d.cause d.addr 0 d.detail with
        halt := true, job := d.job, batch := d.batch }) (KMap.get?_modify_self _ hb) hl hst hd
  rw [ht]
  exact ⟨_, b', l', rfl, rfl, rfl, rfl, rfl, rfl, hb', by rw [hh]; rfl, hl', hab⟩

end retire

/-! ### The parts of the statement -/

/-- A launch drains a core for its own cluster alone, or for the run that is placed whole (R39, R45). -/
theorem State.mayUse_drained {s : State} {k a c r rank : Nat} {l : Launch} (hd : (s.core c).drains = some (a, r))
    (h : s.mayUse k l rank c = true) : a = k ∧ (l.whole = true ∨ rank / l.clusterSize = r / l.clusterSize) := by
  unfold State.mayUse at h
  rw [hd] at h
  simp only [Bool.and_eq_true, Bool.or_eq_true, decide_eq_true_eq] at h
  exact ⟨h.2.1, h.2.2.imp_right Eq.symm⟩

section events
variable {s : State} {l : Launch} (hl : s.launches.get? s.subj.a = some l)
include hl

/-- A launch that has its turn takes its next placement, if there is one (R42, R297). -/
theorem exec_clusterPlacement_turn {u : State} (hf : l.dqm = true ∨ s.firstOffer s.subj.a = true)
    (hu : s.placeOne s.subj.a l = some u) : exec .clusterPlacement s = .next u.noteWaits := by
  have h : (l.dqm || s.firstOffer s.subj.a) = true := by simpa using hf
  simp only [exec, execClusterPlacement, hl, h, hu, ↓reduceIte]

theorem exec_clusterPlacement_waits (hd : l.dqm = false) (hf : s.firstOffer s.subj.a = false) :
    exec .clusterPlacement s = .next s := by
  simp only [exec, execClusterPlacement, hl, hd, hf, Bool.or_self, Bool.false_eq_true, ↓reduceIte]

theorem exec_clusterPlacement_none (hn : s.placeOne s.subj.a l = none) : exec .clusterPlacement s = .next s := by
  simp only [exec, execClusterPlacement, hl, hn]
  split <;> rfl

theorem exec_runCompletion_early (h : s.runOver s.subj.a l = false) : exec .runCompletion s = .next s := by
  simp only [exec, execRunCompletion, hl, h, Bool.false_eq_true, ↓reduceIte]

end events

section block
variable {s : State} {k : Nat} {b : Block} {l : Launch} (hs : s.subj.a = k) (hb : s.blocks.get? k = some b)
  (hl : s.launches.get? b.launch = some l) (hst : l.standing = none) (hd : l.dqm = false) (hh : b.halt = none)
include hs hb hl hst hd hh

/-- A block does not retire before its waves have exited and its accesses are done. -/
theorem exec_blockRetirement_early (h : s.allExited k = false ∨ s.blockDone k = false) :
    exec .blockRetirement s = .next s := by
  have hc : (!s.allExited k || !s.blockDone k) = true := by
    rcases h with h | h <;> simp [h]
  simp only [exec, execBlockRetirement, hs, hb, hl, hst, hd, hh, Option.isSome_none, Bool.false_or, hc, ↓reduceIte]

/-- A block with a deferred fault of an exited wave halts instead of retiring (R407). -/
theorem exec_blockRetirement_fault {key : Nat} {d : Deferred} (hx : s.allExited k = true) (hdn : s.blockDone k = true)
    (hf : s.exitFault k = some (key, d)) : exec .blockRetirement s = .next (s.haltAtExit k key d) := by
  simp only [exec, execBlockRetirement, hs, hb, hl, hst, hd, hh, hx, hdn, hf, Option.isSome_none, Bool.not_true,
    Bool.or_self, Bool.false_eq_true, ↓reduceIte]

end block

/-- Settles O41, a lemma for each part: room on a core and the placement of members, the order of the cores that have freed,
the next placement of a run, the start of a block, what waits and drains, the end of a run, the retirement of a block. -/
theorem launchEvents : Obligations.LaunchEvents := by
  unfold Obligations.LaunchEvents
  refine ⟨fun o p g sc ac sp h16 hf => ?_, fun x need ok cell r rs => ⟨fun c o sp hc ho hf hlow => ?_, fun h => ?_⟩,
    fun l at_ core hs hc => Launch.enterFreed_sorted hs hc, fun s l hr hl => ⟨?_, ?_, ?_, ?_, ?_, ?_, ?_, ?_, ?_, ?_, ?_, ?_⟩⟩
  · obtain ⟨hsc, hac, k, b, hw, hk, hlen, hrun, hfirst⟩ := Occ.fit_one_wave h16 hf
    exact ⟨freeRun_lowest hsc, freeRun_lowest hac, k, b, hw, hk, ⟨hlen, b, (freeRun_lowest hrun).1⟩, freeRun_lowest hrun,
      fun j hj hfit => hfirst j hj hfit.1 hfit.2⟩
  · exact Placing.members_placed (Placing.first_in_cell hc ho hf hlow)
  · exact Placing.members_waiting (Placing.first_in_full_cell h)
  · exact fun u hf hu => exec_clusterPlacement_turn hl hf hu
  · exact fun hd hf => exec_clusterPlacement_waits hl hd hf
  · exact fun hn => exec_clusterPlacement_none hl hn
  · intro hd hst hwh hrp
    refine ⟨fun ho hw hm => ⟨fun hc xs c ys o sp hfr hx hu hfit => ?_, fun h => ?_⟩, fun ho r cell c o sp hw hc hu hfit hlow => ?_,
      fun ho hm hc => ⟨fun c o sp hu hfit hlow => ?_, fun h => ?_⟩⟩
    · exact State.placeOne_refill hd hst hwh hrp hl ho hw hm hc hfr hx hu hfit
    · exact State.placeOne_refill_none hd hst hwh hrp ho hw hm h
    · exact State.placeOne_member hd hst hwh hrp hl ho hw hc hu hfit hlow
    · exact State.placeOne_launch hd hst hwh hrp hl ho hm hc hu hfit hlow
    · exact State.placeOne_launch_none hd hst hwh hrp hl ho hm hc h
  · intro rank core p im hst hlen paired hmax _ key va entry
    obtain ⟨n, c, hb⟩ := State.startBlock_block hl hst rank core p im
    obtain ⟨v, o, hl'⟩ := State.startBlock_launch hl hst rank core p im
    have hmem := State.startBlock_mem hl hst rank core p im
    refine ⟨_, _, rfl, hb, fun hf => ?_, fun hf h8 hm x a hwalk hroute hper hview y => ?_, rfl, rfl, rfl, rfl, rfl,
      by simp [freshBlock, hst], rfl, rfl, rfl, fun i x hx => ?_, _, hl', by simp [Launch.startedWith], rfl⟩
    · rw [hmem, State.logStart, State.logEntry_off s _ hf]
    · rw [State.rawByte_of_mem hmem, State.logStart, State.rawByte_logEntry rank core _ _ hf rfl h8 hm hwalk hroute hper hview]
    · obtain ⟨slot, run, hw⟩ := State.startBlock_wave hl hst rank core p im hlen hmax hx
      refine ⟨_, hw, rfl, rfl, rfl, rfl, rfl, rfl, ?_, rfl, rfl, rfl, rfl, rfl, rfl, rfl, rfl, rfl, rfl, rfl⟩
      simp only [freshWave]
      split <;> simp
  · exact fun hd hst hwh hrp hw hm x => State.mem_torn hd hst hwh hrp hw hm x
  · exact fun x hx => State.waitTimes_torn hx
  · exact ⟨fun x hx hlow hb hn => exec_drain_begins hr.1 hl hx hlow hb hn, fun h => exec_drain_idle hr.1 hl h⟩
  · exact fun c a r rank hd hu => State.mayUse_drained hd hu
  · exact fun h => exec_runCompletion_early hl h
  · exact fun ho hdom => exec_runCompletion_over hr hl ho hdom
  · intro k b s1 hb hba hst hd hh
    have hlb : s1.launches.get? b.launch = some l := hba ▸ hl
    refine ⟨fun h => exec_blockRetirement_early rfl hb hlb hst hd hh h, fun hx hf hdn => ?_, fun key d w hx hdn hf hw hsn => ?_⟩
    · exact exec_blockRetirement_done hb hba hl hst hd rfl hr hh hx hf hdn
    · obtain ⟨r, b', l', ht, hc, ha, hm, hp, hrh, hb', hh', hl', hab⟩ := State.haltAtExit_run (s := s1) hb hba hl hst hd d hw hsn
      exact ⟨_, r, b', l', exec_blockRetirement_fault rfl hb hlb hst hd hh hx hdn hf, ht, hc, ha, hm, hp, hrh, hb', hh',
        State.haltAtExit_mem _ _ _ _, hl', hab⟩

end Sys2Proof.Machine
end

section
namespace Sys2Proof.Machine
open Sys2Proof

/-! ## Commands (R14, R34, R35, R292 to R296, R300) -/

/-! ### The launch queue -/

/-- With no command waiting, a command event changes nothing. -/
theorem State.takeCommand_none {s : State} (h : s.nextCommand = none) (kind : Nat → Bool) (f : List Byte → State → State) :
    s.takeCommand kind f = s := by
  unfold State.takeCommand
  rw [h]

section command
variable {s : State} {bs : List Byte} (h : s.nextCommand = some bs)
include h

theorem State.takeCommand_other {kind : Nat → Bool} (hk : kind (leAt bs 0 4) = false) (f : List Byte → State → State) :
    s.takeCommand kind f = s := by
  unfold State.takeCommand
  rw [h]
  dsimp only
  rw [hk, if_neg Bool.false_ne_true]

/-- A command of the event's own kind is taken. -/
theorem State.takeCommand_own {kind : Nat → Bool} (hk : kind (leAt bs 0 4) = true) (f : List Byte → State → State) :
    s.takeCommand kind f = f bs s.advance := by
  unfold State.takeCommand
  rw [h]
  dsimp only
  rw [hk, if_pos rfl]

end command

/-- No command waits while the queue is off, or when TAIL has been reached. -/
theorem State.nextCommand_none {s : State} (h : s.ctl.lqOn = false ∨ s.ctl.lqHead = s.ctl.lqTail) : s.nextCommand = none :=
  if_neg fun ⟨ho, hn⟩ => h.elim (fun e => by rw [e] at ho; nomatch ho) hn

/-- Each command event takes commands of one kind, the last of those that are reserved (R294, R296). -/
theorem exec_command {i : Instr} {own : Nat → Prop}
    (hi : (i = .runCommand ∧ own = fun k => k = 1) ∨ (i = .loadCommand ∧ own = fun k => k = 2) ∨
      (i = .unloadCommand ∧ own = fun k => k = 3) ∨ (i = .reservedCommand ∧ own = fun k => k = 0 ∨ 4 ≤ k)) (s : State) :
    ∃ kind f, exec i s = .next (s.takeCommand kind f) ∧ ∀ k, ¬ own k → kind k = false := by
  rcases hi with ⟨rfl, rfl⟩ | ⟨rfl, rfl⟩ | ⟨rfl, rfl⟩ | ⟨rfl, rfl⟩
  · exact ⟨_, _, rfl, fun k h => by simpa using h⟩
  · exact ⟨_, _, rfl, fun k h => by simpa using h⟩
  · exact ⟨_, _, rfl, fun k h => by simpa using h⟩
  · exact ⟨_, _, rfl, fun k h => by simpa using h⟩

/-- LQCTL as it is written (R292). -/
def Ctl.writeQueueCtl (val : DWord) (k : Ctl) : Ctl :=
  if !k.ready then k else
    let size := (val.extractLsb' 0 4).toNat
    let k := if k.lqOn then k else { k with lqSize := if size < 9 then size else 8 }
    if val.getLsbD 63 then (if k.lqOn then k else { k with lqOn := true, lqHead := 0, lqTail := 0 })
    else { k with lqOn := false }

theorem exec_launchQueueEnable (val : DWord) (s : State) :
    exec (.launchQueueEnable val) s = .next (s.modCtl (Ctl.writeQueueCtl val)) := rfl

section writeQueueCtl
variable {k : Ctl} (hr : k.ready = true) (val : DWord)
include hr

/-- Writing LQCTL changes the queue's own fields alone. -/
theorem Ctl.writeQueueCtl_rest : { k.writeQueueCtl val with
    lqOn := k.lqOn, lqSize := k.lqSize, lqHead := k.lqHead, lqTail := k.lqTail } = k := by
  unfold Ctl.writeQueueCtl
  cases ho : k.lqOn <;> cases hv : val.getLsbD 63 <;> cases k <;> simp_all

theorem Ctl.writeQueueCtl_on : (k.writeQueueCtl val).lqOn = val.getLsbD 63 := by
  unfold Ctl.writeQueueCtl
  cases ho : k.lqOn <;> cases hv : val.getLsbD 63 <;> simp [hr, ho]

theorem Ctl.writeQueueCtl_size : (k.writeQueueCtl val).lqSize = if k.lqOn then k.lqSize
    else if (val.extractLsb' 0 4).toNat < 9 then (val.extractLsb' 0 4).toNat else 8 := by
  unfold Ctl.writeQueueCtl
  cases ho : k.lqOn <;> cases hv : val.getLsbD 63 <;> simp [hr, ho]

theorem Ctl.writeQueueCtl_opens (ho : k.lqOn = false) (hv : val.getLsbD 63 = true) :
    (k.writeQueueCtl val).lqHead = 0 ∧ (k.writeQueueCtl val).lqTail = 0 := by
  simp [Ctl.writeQueueCtl, hr, ho, hv]

theorem Ctl.writeQueueCtl_keeps (h : k.lqOn = true ∨ val.getLsbD 63 = false) :
    (k.writeQueueCtl val).lqHead = k.lqHead ∧ (k.writeQueueCtl val).lqTail = k.lqTail := by
  unfold Ctl.writeQueueCtl
  cases ho : k.lqOn <;> cases hv : val.getLsbD 63 <;> simp_all

end writeQueueCtl

/-- A notify moves TAIL, unless it runs past the ring or the queue is off (R293). -/
theorem exec_notify_spec {s : State} {src : BitVec 16} (tail : Word) (hd : s.deaf = false) (hk : knownType src) :
    (s.ctl.lqOn = true → (tail - s.ctl.lqHead).toNat ≤ 2 ^ (s.ctl.lqSize + 4) →
      exec (.notify src tail) s = .next { s with ctl := { s.ctl with lqTail := tail } }) ∧
    (s.ctl.lqOn = false ∨ 2 ^ (s.ctl.lqSize + 4) < (tail - s.ctl.lqHead).toNat → exec (.notify src tail) s = .next s) := by
  simp only [exec, execNotify, State.hear_known hd hk]
  refine ⟨fun ho hn => ?_, fun h => ?_⟩
  · rw [if_pos (by rw [ho]; exact decide_eq_true hn)]
    rfl
  · rw [if_neg]
    rintro hc
    simp only [Bool.and_eq_true, decide_eq_true_eq] at hc
    exact h.elim (fun e => by rw [e] at hc; nomatch hc.1) fun e => absurd hc.2 (Nat.not_le.mpr e)

/-! ### Answers -/

/-- The answer to a command that is not carried out: its code, its status and a slot (R300). -/
theorem State.complete_refusal (s : State) (ep : BitVec 16) (tag : Word) (code st slot : Nat) :
    { s.complete ep tag code st slot 0 0 0 with grants := s.grants } = s ∧
    s.Sent (s.complete ep tag code st slot 0 0 0) 0x0002 ep tag
      (natLe 1 code ++ natLe 1 st ++ natLe 1 slot ++ List.replicate 13 0) := by
  refine ⟨rfl, ?_⟩
  unfold State.Sent State.complete State.send
  rw [State.emit_grants]
  simp only [List.append_assoc]
  rfl

section taken
variable {s : State} {bs : List Byte} (h : s.nextCommand = some bs)
include h

/-- A command of a reserved kind is answered with code 1 (R296). -/
theorem exec_reservedCommand (hk : leAt bs 0 4 = 0 ∨ 4 ≤ leAt bs 0 4) : exec .reservedCommand s =
    .next (s.advance.complete (endpointOf bs) (tagOf bs) 1 0 0xFF 0 0 0) :=
  congrArg Host.Outcome.next (State.takeCommand_own h (by simpa using hk) _)

theorem exec_unloadCommand (hk : leAt bs 0 4 = 3) : exec .unloadCommand s = .next (s.advance.takeUnload bs) :=
  congrArg Host.Outcome.next (State.takeCommand_own h (by simp [hk]) _)

theorem exec_runCommand (hk : leAt bs 0 4 = 1) : exec .runCommand s = .next (s.advance.takeRun bs) :=
  congrArg Host.Outcome.next (State.takeCommand_own h (by simp [hk]) _)

end taken

/-! ### Unloads (R276, R296) -/

/-- The refusal of an unload. -/
def State.refuseUnload (s : State) (bs : List Byte) (code : Nat) : State :=
  s.complete (endpointOf bs) (tagOf bs) code 0 (leAt bs 0x18 1) 0 0 0

theorem State.takeUnload_reserved {s : State} {bs : List Byte} (h : unloadReserved bs = false) :
    s.takeUnload bs = s.refuseUnload bs 2 := by
  simp only [State.takeUnload, h, Bool.not_false, ↓reduceIte]
  rfl

section unload
variable {s : State} {bs : List Byte} (hr : unloadReserved bs = true)
include hr

theorem State.takeUnload_absent (h : s.programs.get? (leAt bs 0x18 1) = none) : s.takeUnload bs = s.refuseUnload bs 6 := by
  simp only [State.takeUnload, hr, Bool.not_true, Bool.false_eq_true, ↓reduceIte, h, Option.bind_none]
  rfl

variable {q : Program} {l : Launch} (hq : s.programs.get? (leAt bs 0x18 1) = some q) (hl : s.launches.get? q.launch = some l)
include hq hl

theorem State.takeUnload_foreign (h : l.asid ≠ leAt bs 0xA 2 ∨ q.state = 0b11) : s.takeUnload bs = s.refuseUnload bs 6 := by
  simp only [State.takeUnload, hr, Bool.not_true, Bool.false_eq_true, ↓reduceIte, hq, hl, Option.bind_some, Option.map_some, h]
  rfl

theorem State.takeUnload_own (ha : l.asid = leAt bs 0xA 2) (hs : q.state ≠ 0b11) : s.takeUnload bs =
    { s with programs := (s.programs.set (leAt bs 0x18 1)
      { q with state := 0b11, unloadTag := tagOf bs, unloadEp := endpointOf bs }) } := by
  simp only [State.takeUnload, hr, Bool.not_true, Bool.false_eq_true, ↓reduceIte, hq, hl, Option.bind_some, Option.map_some, ha,
    hs, ne_eq, not_true_eq_false, or_self, State.modProgram, KMap.modify]

end unload

end Sys2Proof.Machine
end

section
namespace Sys2Proof.Machine
open Sys2Proof

/-! ## The checks of a run (R14, R34, R35, R296) -/

/-! ### Bytes of a command -/

theorem leNat_lt (bs : List Byte) (n : Nat) : leNat (bs.take n) < 256 ^ n := by
  induction n generalizing bs with
  | zero => simp [leNat]
  | succ n ih =>
    cases bs with
    | nil => simp [leNat]
    | cons b bs =>
      have hb := b.isLt
      have := ih bs
      rw [List.take_succ_cons, leNat, Nat.pow_succ]
      omega

theorem leAt_lt (bs : List Byte) (off n : Nat) : leAt bs off n < 256 ^ n := leNat_lt _ n

theorem leAt_drop (bs : List Byte) (d off n : Nat) : leAt (bs.drop d) off n = leAt bs (d + off) n := by
  rw [leAt, leAt, List.drop_drop]

/-- The bit of a number is the bit of the byte that holds it. -/
theorem leNat_bit (bs : List Byte) (n d : Nat) (h : d / 8 < n) :
    leNat (bs.take n) / 2 ^ d % 2 = leNat ((bs.drop (d / 8)).take 1) / 2 ^ (d % 8) % 2 := by
  induction n generalizing bs d with
  | zero => omega
  | succ n ih =>
    cases bs with
    | nil => simp [leNat]
    | cons b bs =>
      have hb := b.isLt
      rw [List.take_succ_cons, leNat]
      by_cases h8 : d < 8
      · rw [Nat.div_eq_of_lt h8, Nat.mod_eq_of_lt h8, List.drop_zero, List.take_succ_cons, List.take_zero, leNat, leNat]
        have : d = 0 ∨ d = 1 ∨ d = 2 ∨ d = 3 ∨ d = 4 ∨ d = 5 ∨ d = 6 ∨ d = 7 := by omega
        rcases this with rfl | rfl | rfl | rfl | rfl | rfl | rfl | rfl <;> omega
      · obtain ⟨e, rfl⟩ : ∃ e, d = e + 8 := ⟨d - 8, by omega⟩
        have hd : (e + 8) / 8 = e / 8 + 1 := by omega
        have hp : (b.toNat + 256 * leNat (bs.take n)) / 2 ^ (e + 8) = leNat (bs.take n) / 2 ^ e := by
          rw [Nat.pow_add, Nat.mul_comm (2 ^ e), ← Nat.div_div_eq_div_mul]
          congr 1
          omega
        rw [hp, ih bs e (by omega), hd, List.drop_succ_cons, Nat.add_mod_right]

theorem zeroIn_iff (bs : List Byte) (off n : Nat) : zeroIn bs off n = true ↔ ∀ k, k < n → leAt bs (off + k) 1 = 0 := by
  have hz (b : Byte) : b = 0 ↔ b.toNat = 0 := BitVec.toNat_inj.symm
  have hk (k : Nat) : leAt bs (off + k) 1 = 0 ↔ ∀ b, (bs.drop off)[k]? = some b → b = 0 := by
    rw [leAt, ← List.drop_drop, ← List.head?_drop]
    cases (bs.drop off).drop k with
    | nil => simp [leNat]
    | cons b xs => simpa [leNat] using (hz b).symm
  simp only [zeroIn, List.all_eq_true, beq_iff_eq, hk, List.mem_iff_getElem?, List.getElem?_take]
  constructor
  · exact fun h k hk b hb => h b ⟨k, by rw [if_pos hk]; exact hb⟩
  · rintro h b ⟨k, hb⟩
    split at hb
    · next hk => exact h k hk b hb
    · nomatch hb

theorem alignedVa_iff (a n : Nat) : alignedVa a n = true ↔ a % n = 0 ∧ a < 2 ^ 57 := by
  simp [alignedVa]

theorem toNat_ofNat_leAt {w n : Nat} (h : 256 ^ n = 2 ^ w) (bs : List Byte) (off : Nat) :
    (BitVec.ofNat w (leAt bs off n)).toNat = leAt bs off n := by
  rw [BitVec.toNat_ofNat, ← h, Nat.mod_eq_of_lt (leAt_lt bs off n)]

/-! ### The lowest code that applies -/

/-- Of checks whose codes rise, the lowest code that fails is the answer. -/
theorem firstFail_lowest {xs : List (Nat × Bool)} (hp : xs.Pairwise fun a b => a.1 < b.1) {c : Nat} (hc : (c, false) ∈ xs)
    (hl : ∀ d, (d, false) ∈ xs → c ≤ d) : firstFail xs = c := by
  induction xs with
  | nil => nomatch hc
  | cons x xs ih =>
    obtain ⟨d, ok⟩ := x
    obtain ⟨hd, hxs⟩ := List.pairwise_cons.mp hp
    cases ok with
    | true =>
      have hc' : (c, false) ∈ xs := by simpa using hc
      exact ih hxs hc' fun e he => hl e (List.mem_cons_of_mem _ he)
    | false =>
      refine Nat.le_antisymm ?_ (hl d List.mem_cons_self)
      rcases List.mem_cons.mp hc with e | h
      · exact (congrArg Prod.fst e).ge
      · exact (hd _ h).le

/-- When no check fails, the answer is 0. -/
theorem firstFail_none {xs : List (Nat × Bool)} (h : ∀ d, (d, false) ∉ xs) : firstFail xs = 0 := by
  induction xs with
  | nil => rfl
  | cons x xs ih =>
    obtain ⟨d, ok⟩ := x
    cases ok with
    | true => exact ih fun e he => h e (List.mem_cons_of_mem _ he)
    | false => exact absurd List.mem_cons_self (h d)

/-- Two lists of checks, the second judged when the first has not failed, are one list. -/
theorem firstFail_append {xs : List (Nat × Bool)} (h : ∀ x ∈ xs, x.1 ≠ 0) (ys : List (Nat × Bool)) :
    (if firstFail xs ≠ 0 then firstFail xs else firstFail ys) = firstFail (xs ++ ys) := by
  induction xs with
  | nil => rfl
  | cons x xs ih =>
    obtain ⟨d, ok⟩ := x
    cases ok with
    | true => exact ih fun e he => h e (List.mem_cons_of_mem _ he)
    | false => exact if_pos (h _ List.mem_cons_self)

/-! ### The command's checks (R296) -/

/-- The command's checks, by rising code. -/
def State.runChecks (s : State) (bs : List Byte) (table : Option (List Byte)) : List (Nat × Bool) := [
  (0x02, runReserved bs),
  (0x03, !s.boundElse (leAt bs 0xA 2) (leAt bs 0x10 8)),
  (0x04, rootOk bs && (!flagOf bs 1 || alignedVa (leAt bs 0x18 8) 8) && (!flagOf bs 3 || alignedVa (leAt bs 0x20 8) 64)),
  (0x05, !flagOf bs 3 || match table with
    | none => false
    | some t => (groupsOf t).all fun g => !g.valid || g.list.contains ownDev),
  (0x07, !(flagOf bs 2 && (BitVec.ofNat 32 (leAt bs 0xA4 4)).getLsbD 0))]

theorem State.runCode_eq (s : State) (bs : List Byte) (table : Option (List Byte)) :
    s.runCode bs table = firstFail (s.runChecks bs table) := rfl

theorem State.runChecks_rise (s : State) (bs : List Byte) (table : Option (List Byte)) :
    (s.runChecks bs table).Pairwise fun a b => a.1 < b.1 := by
  simp [State.runChecks]

/-- The table of domain groups that a run names (R295). -/
def State.groupTable (s : State) (bs : List Byte) : Option (List Byte) :=
  s.sysBytes (leAt bs 0xA 2) (leAt bs 0x10 8) (leAt bs 0x20 8) 512

/-- The command's codes that apply, as R296 words them. -/
def State.RunBad (s : State) (bs : List Byte) (c : Nat) : Prop :=
  let zero (off n : Nat) : Prop := ∀ k, k < n → leAt bs (off + k) 1 = 0
  let va (off n : Nat) : Prop := leAt bs off 8 % n = 0 ∧ leAt bs off 8 < 2 ^ 57
  (c = 2 ∧ ¬ (leAt bs 0xA 2 < 2 ^ 12 ∧ leAt bs 0xC 4 < 2 ^ 4 ∧ zero 0x28 0x58 ∧
    (flagOf bs 3 = true → flagOf bs 0 = true) ∧ (flagOf bs 2 = true → flagOf bs 1 = true))) ∨
  (c = 3 ∧ ∃ r, s.asids.get? (leAt bs 0xA 2) = some r ∧ r ≠ leAt bs 0x10 8) ∨
  (c = 4 ∧ ¬ (leAt bs 0x10 8 % 4096 = 0 ∧ leAt bs 0x10 8 < 2 ^ 48 ∧ (flagOf bs 1 = true → va 0x18 8) ∧
    (flagOf bs 3 = true → va 0x20 64))) ∨
  (c = 5 ∧ flagOf bs 3 = true ∧ (s.groupTable bs = none ∨ ∃ t i, s.groupTable bs = some t ∧ i < 16 ∧
    leAt t (32 * i + 0x12) 1 = 1 ∧ leAt t (32 * i + ownDev / 8) 1 / 2 ^ (ownDev % 8) % 2 = 0)) ∨
  (c = 7 ∧ flagOf bs 2 = true ∧ leAt bs 0xA4 4 % 2 = 1)

theorem State.boundElse_iff (s : State) (asid root : Nat) :
    s.boundElse asid root = true ↔ ∃ r, s.asids.get? asid = some r ∧ r ≠ root := by
  unfold State.boundElse
  cases s.asids.get? asid <;> simp

theorem runReserved_iff (bs : List Byte) : runReserved bs = true ↔
    leAt bs 0xA 2 < 2 ^ 12 ∧ leAt bs 0xC 4 < 2 ^ 4 ∧ (∀ k, k < 0x58 → leAt bs (0x28 + k) 1 = 0) ∧
      (flagOf bs 3 = true → flagOf bs 0 = true) ∧ (flagOf bs 2 = true → flagOf bs 1 = true) := by
  simp only [runReserved, Bool.and_eq_true, decide_eq_true_eq, zeroIn_iff, Bool.or_eq_true, Bool.not_eq_true', and_assoc]
  cases flagOf bs 3 <;> cases flagOf bs 2 <;> simp

/-- A device is a member of a table's group when its bit is set. -/
theorem groupOf_contains {d : Nat} (h : d < 144) (bs : List Byte) :
    (groupOf bs).list.contains d = true ↔ leAt bs (d / 8) 1 / 2 ^ (d % 8) % 2 = 1 := by
  rw [List.contains_iff_mem, Group.list, List.mem_filter, List.mem_range, and_iff_right h, groupOf,
    BitVec.getLsbD_ofNat, decide_eq_true h, Bool.true_and, Nat.testBit_eq_decide_div_mod_eq, decide_eq_true_eq, leAt, leAt,
    leNat_bit _ _ _ (by omega : d / 8 < 18), List.drop_zero]

/-- The device is a member of every group of the table that is valid (code 5). -/
theorem groupsOf_all_iff (h : ownDev < 144) (t : List Byte) :
    ((groupsOf t).all fun g => !g.valid || g.list.contains ownDev) = true ↔
      ∀ i, i < 16 → leAt t (32 * i + 0x12) 1 = 1 → leAt t (32 * i + ownDev / 8) 1 / 2 ^ (ownDev % 8) % 2 ≠ 0 := by
  have hv (bs : List Byte) : (groupOf bs).valid = true ↔ leAt bs 0x12 1 = 1 := by simp [groupOf]
  simp only [groupsOf, List.all_map, List.all_eq_true, List.mem_range, Function.comp_apply, Bool.or_eq_true,
    groupOf_contains h, Bool.not_eq_true', ← Bool.not_eq_true, hv, leAt_drop]
  refine forall₂_congr fun i _ => ?_
  omega

theorem bit_zero_iff (n : Nat) : (BitVec.ofNat 32 n).getLsbD 0 = true ↔ n % 2 = 1 := by
  rw [BitVec.getLsbD_ofNat, Nat.testBit_zero]
  simp

theorem State.runCheck_groups (h : ownDev < 144) (table : Option (List Byte)) : (match table with
      | none => false
      | some t => (groupsOf t).all fun g => !g.valid || g.list.contains ownDev) = false ↔
    table = none ∨ ∃ t i, table = some t ∧ i < 16 ∧ leAt t (32 * i + 0x12) 1 = 1 ∧
      leAt t (32 * i + ownDev / 8) 1 / 2 ^ (ownDev % 8) % 2 = 0 := by
  cases table with
  | none => simp
  | some t =>
    dsimp only
    rw [← Bool.not_eq_true, groupsOf_all_iff h]
    simp

/-- A check of the command fails just when its code applies; that the device is in the groups of the table is read from its
bit, which the table has for devices below 144. -/
theorem State.mem_runChecks (h : ownDev < 144) (s : State) (bs : List Byte) (c : Nat) :
    (c, false) ∈ s.runChecks bs (if flagOf bs 3 then s.groupTable bs else none) ↔ s.RunBad bs c := by
  have h4 : (rootOk bs && (!flagOf bs 1 || alignedVa (leAt bs 0x18 8) 8) && (!flagOf bs 3 || alignedVa (leAt bs 0x20 8) 64)) =
      true ↔ leAt bs 0x10 8 % 4096 = 0 ∧ leAt bs 0x10 8 < 2 ^ 48 ∧
        (flagOf bs 1 = true → leAt bs 0x18 8 % 8 = 0 ∧ leAt bs 0x18 8 < 2 ^ 57) ∧
        (flagOf bs 3 = true → leAt bs 0x20 8 % 64 = 0 ∧ leAt bs 0x20 8 < 2 ^ 57) := by
    simp only [rootOk, Bool.and_eq_true, Bool.or_eq_true, alignedVa_iff, beq_iff_eq, decide_eq_true_eq, and_assoc]
    cases flagOf bs 1 <;> cases flagOf bs 3 <;> simp
  simp only [State.runChecks, List.mem_cons, Prod.mk.injEq, List.not_mem_nil, or_false]
  refine or_congr (and_congr_right fun _ => ?_) (or_congr (and_congr_right fun _ => ?_) (or_congr (and_congr_right fun _ => ?_)
    (or_congr (and_congr_right fun _ => ?_) (and_congr_right fun _ => ?_))))
  · rw [eq_comm, ← Bool.not_eq_true, runReserved_iff]
  · rw [eq_comm, Bool.not_eq_false', State.boundElse_iff]
  · rw [eq_comm, ← Bool.not_eq_true, h4]
  · cases hf : flagOf bs 3 with
    | false => simp
    | true => rw [if_pos rfl, Bool.not_true, Bool.false_or, eq_comm, State.runCheck_groups h]; simp
  · rw [eq_comm, Bool.not_eq_false', Bool.and_eq_true, bit_zero_iff]

/-! ### The record's checks (R14, R34, R35) -/

/-- The record's checks, by rising code: its limits, then what is asked of the cores. -/
def LaunchRec.limitChecks (r : LaunchRec) (bs : List Byte) : List (Nat × Bool) := [
  (0x01, r.entry.toNat % 4 == 0 && decide (r.entry.toNat < 2 ^ 57)),
  (0x02, decide (1 ≤ r.gx) && decide (1 ≤ r.gy) && decide (1 ≤ r.gz) && decide (r.gx * r.gy * r.gz ≤ 2 ^ 31)),
  (0x03, decide (1 ≤ r.kx * r.ky * r.kz) && decide (r.kx * r.ky * r.kz ≤ 8) && r.gx % r.kx == 0 && r.gy % r.ky == 0 &&
    r.gz % r.kz == 0),
  (0x04, decide (1 ≤ r.waves) && decide (r.waves ≤ 16)),
  (0x05, decide (1 ≤ r.regCount) && decide (r.regCount ≤ 256)),
  (0x06, decide (r.slice ≤ 4096) && r.slice % 4 == 0),
  (0x07, decide (r.shared ≤ 262144)),
  (0x08, decide (r.acc ≤ 524288)),
  (0x09, decide (r.options.toNat < 16)),
  (0x0A, quantumOk r.quantum),
  (0x0B, zeroIn bs 0x2C 4 && zeroIn bs 0x50 48),
  (0x0C, decide (r.mask ≠ 0))]

@[inherit_doc LaunchRec.limitChecks]
def LaunchRec.roomChecks (r : LaunchRec) (whole : Bool) : List (Nat × Bool) := [
  (0x0D, (Occ.empty.fit false r.need none).isSome),
  (0x0E, r.cellFits),
  (0x0F, !whole || (r.wholePlan false (fun _ c => r.mask.getLsbD c) fun _ => Occ.empty).isSome),
  (0x10, !(r.options.getLsbD 0 && r.options.getLsbD 1))]

theorem runStatus_eq (r : LaunchRec) (bs : List Byte) (whole : Bool) :
    runStatus r bs whole = firstFail (r.limitChecks bs ++ r.roomChecks whole) :=
  (show runStatus r bs whole = if firstFail (r.limitChecks bs) ≠ 0 then firstFail (r.limitChecks bs)
    else firstFail (r.roomChecks whole) from rfl).trans (firstFail_append (by simp [LaunchRec.limitChecks]) _)

theorem LaunchRec.statusChecks_rise (r : LaunchRec) (bs : List Byte) (whole : Bool) :
    (r.limitChecks bs ++ r.roomChecks whole).Pairwise fun a b => a.1 < b.1 := by
  simp [LaunchRec.limitChecks, LaunchRec.roomChecks]

/-- The record's codes that apply, as R34 and R35 word them. -/
def RunWrong (bs : List Byte) (live : BitVec 192) (c : Nat) : Prop :=
  let rec_ := recordOf (bs.drop 0x80) live
  let zero (off n : Nat) : Prop := ∀ k, k < n → leAt bs (off + k) 1 = 0
  let f (off n : Nat) : Nat := leAt bs (0x80 + off) n
  let limits (x lo hi : Nat) : Prop := lo ≤ x ∧ x ≤ hi
  (c = 0x01 ∧ ¬ (f 0 8 % 4 = 0 ∧ f 0 8 < 2 ^ 57)) ∨
  (c = 0x02 ∧ ¬ (1 ≤ f 8 4 ∧ 1 ≤ f 0xC 4 ∧ 1 ≤ f 0x10 4 ∧ f 8 4 * f 0xC 4 * f 0x10 4 ≤ 2 ^ 31)) ∨
  (c = 0x03 ∧ ¬ (1 ≤ f 0x14 1 ∧ 1 ≤ f 0x15 1 ∧ 1 ≤ f 0x16 1 ∧ f 0x14 1 * f 0x15 1 * f 0x16 1 ≤ 8 ∧
    f 8 4 % f 0x14 1 = 0 ∧ f 0xC 4 % f 0x15 1 = 0 ∧ f 0x10 4 % f 0x16 1 = 0)) ∨
  (c = 0x04 ∧ ¬ limits (f 0x17 1) 1 16) ∨ (c = 0x05 ∧ ¬ limits (f 0x18 2) 1 256) ∨
  (c = 0x06 ∧ ¬ (f 0x1A 2 ≤ 4096 ∧ f 0x1A 2 % 4 = 0)) ∨ (c = 0x07 ∧ 262144 < f 0x1C 4) ∨ (c = 0x08 ∧ 524288 < f 0x20 4) ∨
  (c = 0x09 ∧ 2 ^ 4 ≤ f 0x24 4) ∨ (c = 0x0A ∧ ¬ (f 0x28 4 = 0 ∨ limits (f 0x28 4) 1024 65536)) ∨
  (c = 0x0B ∧ ¬ (zero 0xAC 4 ∧ zero 0xD0 48)) ∨ (c = 0x0C ∧ rec_.mask = 0) ∨
  (c = 0x0D ∧ Occ.empty.fit false rec_.need none = none) ∨
  (c = 0x0E ∧ ∀ cell, cell < 24 → (Placing.members false rec_.need (fun _ c => rec_.mask.getLsbD c) cell
    (List.range rec_.members) ⟨fun _ => Occ.empty, [], []⟩).waiting ≠ []) ∨
  (c = 0x0F ∧ flagOf bs 0 = true ∧ rec_.wholePlan false (fun _ c => rec_.mask.getLsbD c) (fun _ => Occ.empty) = none) ∨
  (c = 0x10 ∧ f 0x24 4 % 4 = 3)

/-- A cluster that no cell can hold at once (code 0x0E). -/
theorem LaunchRec.cellFits_false_iff (r : LaunchRec) : r.cellFits = false ↔ ∀ cell, cell < 24 →
    (Placing.members false r.need (fun _ c => r.mask.getLsbD c) cell (List.range r.members)
      ⟨fun _ => Occ.empty, [], []⟩).waiting ≠ [] := by
  simp [LaunchRec.cellFits]

theorem quantumOk_iff (q : Nat) : quantumOk q = true ↔ q = 0 ∨ (1024 ≤ q ∧ q ≤ 65536) := by
  simp [quantumOk]

theorem mul3_pos_iff (a b c : Nat) : 1 ≤ a * b * c ↔ 1 ≤ a ∧ 1 ≤ b ∧ 1 ≤ c := by
  simp only [Nat.one_le_iff_ne_zero, Nat.mul_ne_zero_iff, and_assoc]

theorem bits_both_iff (n : Nat) : ((BitVec.ofNat 32 n).getLsbD 0 = true ∧ (BitVec.ofNat 32 n).getLsbD 1 = true) ↔ n % 4 = 3 := by
  rw [bit_zero_iff, BitVec.getLsbD_ofNat, Nat.testBit_eq_decide_div_mod_eq]
  simp only [Nat.reduceLT, decide_true, Bool.true_and, decide_eq_true_eq]
  omega

section fields
variable (bs : List Byte) (live : BitVec 192)

theorem recordOf_entry : (recordOf (bs.drop 0x80) live).entry.toNat = leAt bs (0x80 + 0) 8 := by
  rw [recordOf, leAt_drop, toNat_ofNat_leAt (by decide)]

theorem recordOf_options : (recordOf (bs.drop 0x80) live).options = BitVec.ofNat 32 (leAt bs (0x80 + 0x24) 4) :=
  congrArg (BitVec.ofNat 32) (leAt_drop bs 0x80 0x24 4)

end fields

/-- A check of the record fails just when its code applies. -/
theorem mem_statusChecks (bs : List Byte) (live : BitVec 192) (c : Nat) :
    (c, false) ∈ (recordOf (bs.drop 0x80) live).limitChecks (bs.drop 0x80) ++
      (recordOf (bs.drop 0x80) live).roomChecks (flagOf bs 0) ↔ RunWrong bs live c := by
  have step {p q p' q' r : Prop} (h : q ↔ q') (h' : p ↔ p') : (r ∧ q ∨ p) ↔ (r ∧ q' ∨ p') :=
    or_congr (and_congr_right fun _ => h) h'
  have zero (off n : Nat) : zeroIn (bs.drop 0x80) off n = true ↔ ∀ k, k < n → leAt bs (0x80 + off + k) 1 = 0 := by
    simp only [zeroIn_iff, leAt_drop, Nat.add_assoc]
  simp only [LaunchRec.limitChecks, LaunchRec.roomChecks, List.cons_append, List.nil_append, List.mem_cons, Prod.mk.injEq,
    List.not_mem_nil, or_false]
  refine step ?_ (step ?_ (step ?_ (step ?_ (step ?_ (step ?_ (step ?_ (step ?_ (step ?_ (step ?_ (step ?_ (step ?_ (step ?_
    (step ?_ (step ?_ (and_congr_right fun _ => ?_))))))))))))))) <;> rw [eq_comm, ← Bool.not_eq_true]
  · rw [recordOf_entry, Bool.and_eq_true, beq_iff_eq, decide_eq_true_eq]
  · simp only [Bool.and_eq_true, decide_eq_true_eq, and_assoc, recordOf, leAt_drop]
  · simp only [Bool.and_eq_true, decide_eq_true_eq, beq_iff_eq, and_assoc, mul3_pos_iff, recordOf, leAt_drop]
  · simp only [Bool.and_eq_true, decide_eq_true_eq, recordOf, leAt_drop]
  · simp only [Bool.and_eq_true, decide_eq_true_eq, recordOf, leAt_drop]
  · simp only [Bool.and_eq_true, decide_eq_true_eq, beq_iff_eq, recordOf, leAt_drop]
  · simp only [decide_eq_true_eq, Nat.not_le, recordOf, leAt_drop]
  · simp only [decide_eq_true_eq, Nat.not_le, recordOf, leAt_drop]
  · rw [recordOf_options, toNat_ofNat_leAt (by decide), decide_eq_true_eq, Nat.not_lt]
    rfl
  · simp only [quantumOk_iff, recordOf, leAt_drop]
  · rw [Bool.and_eq_true, zero, zero]
  · rw [decide_eq_true_eq, not_not]
  · rw [Bool.not_eq_true, Option.isSome_eq_false_iff, Option.isNone_iff_eq_none]
  · rw [Bool.not_eq_true, LaunchRec.cellFits_false_iff]
  · cases flagOf bs 0 <;> simp
  · rw [Bool.not_eq_true', Bool.not_eq_false, Bool.and_eq_true, recordOf_options, bits_both_iff]

end Sys2Proof.Machine
end

section
namespace Sys2Proof.Machine
open Sys2Proof

/-! ## What placing keeps of a launch and of the state (R19, R42 to R50) -/

/-- A launch with what its placement has come to, and a run without a placement log has no fault to report of it. -/
def Launch.Kept (l l' : Launch) : Prop :=
  { l' with cpos := l.cpos, waiting := l.waiting, waitFrom := l.waitFrom, freed := l.freed, plans := l.plans,
            starts := l.starts, begun := l.begun, offered := l.offered, startedRanks := l.startedRanks,
            quantumOpen := l.quantumOpen, view := l.view, outcome := l.outcome } = l ∧
  (l.flags.getLsbD 1 = false → l'.outcome = l.outcome)

theorem Launch.Kept.refl (l : Launch) : l.Kept l := ⟨rfl, fun _ => rfl⟩

section
variable {l l' : Launch} (h : l.Kept l')
include h

theorem Launch.Kept.standing_eq : l'.standing = l.standing := (congrArg Launch.standing h.1 :)
theorem Launch.Kept.flags_eq : l'.flags = l.flags := (congrArg Launch.flags h.1 :)

end

/-- Placing the blocks of a launch changes the launch, blocks, waves, cores and, for its log, memory. -/
structure State.Placed (s : State) (k : Nat) (l : Launch) (t : State) : Prop where
  rest : { t with launches := s.launches, blocks := s.blocks, waves := s.waves, cores := s.cores, mem := s.mem,
                  poison := s.poison, diePoison := s.diePoison, homes := s.homes, views := s.views, l2 := s.l2,
                  past := s.past } = s
  launch : ∃ l', t.launches.get? k = some l' ∧ l.Kept l'
  quiet : l.flags.getLsbD 1 = false → t.mem = s.mem

section Placed
variable {s t : State} {k : Nat} {l : Launch}

theorem State.Placed.refl (h : s.launches.get? k = some l) : s.Placed k l s := ⟨rfl, ⟨l, h, .refl l⟩, fun _ => rfl⟩

theorem State.Placed.ctl_eq (h : s.Placed k l t) : t.ctl = s.ctl := (congrArg State.ctl h.rest :)
theorem State.Placed.asids_eq (h : s.Placed k l t) : t.asids = s.asids := (congrArg State.asids h.rest :)
theorem State.Placed.takes_eq (h : s.Placed k l t) : t.takes = s.takes := (congrArg State.takes h.rest :)
theorem State.Placed.grants_eq (h : s.Placed k l t) : t.grants = s.grants := (congrArg State.grants h.rest :)

theorem State.Placed.modLaunch (h : s.Placed k l t) {f : Launch → Launch} (hf : ∀ l', l.Kept l' → l.Kept (f l')) :
    s.Placed k l (t.modLaunch k f) := by
  obtain ⟨hr, ⟨l', hl, hk⟩, hm⟩ := h
  exact ⟨hr, ⟨f l', KMap.get?_modify_self f hl, hf l' hk⟩, hm⟩

theorem State.Placed.setWaves (h : s.Placed k l t) (ws : KMap Wave) : s.Placed k l { t with waves := ws } :=
  ⟨h.rest, h.launch, h.quiet⟩

variable (hst : l.standing = none)
include hst

theorem State.Placed.startBlock (h : s.Placed k l t) (rank core : Nat) (p im : Spot) :
    s.Placed k l (t.startBlock k rank core p im) := by
  obtain ⟨hr, ⟨l', hl, hk⟩, hm⟩ := h
  have hst' : l'.standing = none := hk.standing_eq.trans hst
  have hlog : t.Logged (t.logStart k l' rank core p) := t.logged_logEntry _ _ _ _ _ _
  obtain ⟨ws, bs, e⟩ := State.startBlock_frame hl hst' rank core p im
  refine ⟨?_, ?_, fun hf => ?_⟩
  · have hlr := hlog.rest
    rw [← hlr] at hr
    rw [e]
    exact hr
  · obtain ⟨v, o, hv⟩ := hlog.launch k l' hl
    refine ⟨({ l' with view := v, outcome := o } : Launch).startedWith rank, by rw [e]; exact KMap.get?_modify_self _ hv,
      hk.1, fun hf => ?_⟩
    have hq : t.logStart k l' rank core p = t := State.logEntry_off t k (by rw [hk.flags_eq, hf]) _ _ _ _
    rw [hq, hl] at hv
    exact (congrArg Launch.outcome (Option.some.inj hv)).symm.trans (hk.2 hf)
  · rw [State.startBlock_mem hl hst', State.logStart, State.logEntry_off t k (by rw [hk.flags_eq, hf])]
    exact hm hf

theorem State.Placed.adopt (h : s.Placed k l t) (l₁ : Launch) (x : Placing) : s.Placed k l (t.adopt k l₁ x) := by
  unfold State.adopt
  split
  · exact h.modLaunch fun _ hk => hk
  · exact List.foldlRecOn x.spots _ h fun u hu y _ => hu.startBlock hst y.1 y.2.1 y.2.2 y.2.2

theorem State.Placed.placeAtLaunch (h : s.Placed k l t) : s.Placed k l (t.placeAtLaunch k) := by
  unfold State.placeAtLaunch
  split
  · exact h
  · exact (h.adopt hst _ _).modLaunch fun _ hk => hk

theorem State.Placed.realise (h : s.Placed k l t) : s.Placed k l (t.realise k) := by
  unfold State.realise
  split
  · exact h
  · dsimp only
    split
    · exact h
    · refine State.Placed.modLaunch ?_ fun _ hk => hk
      refine List.foldlRecOn _ _ h fun u hu y _ => ?_
      split
      · exact hu
      · exact hu.startBlock hst _ _ _ _

omit hst in
theorem State.Placed.tryOpen (h : s.Placed k l t) : s.Placed k l (t.tryOpen k) := by
  unfold State.tryOpen
  split
  · exact h
  · refine iteInduction (motive := s.Placed k l) (fun _ => ?_) fun _ => h
    exact (h.setWaves _).modLaunch fun _ hk => hk

theorem State.Placed.placeOne (h : s.Placed k l t) {l' : Launch} (hl : t.launches.get? k = some l') {u : State}
    (hu : t.placeOne k l' = some u) : s.Placed k l u := by
  obtain ⟨l'', hl'', hk⟩ := h.launch
  have hst' : l'.standing = none := by
    rw [Option.some.inj (hl.symm.trans hl'')]
    exact hk.standing_eq.trans hst
  unfold State.placeOne at hu
  simp only [hst'] at hu
  split at hu
  · split at hu
    · nomatch hu
    · exact Option.some.inj hu ▸ (h.realise hst).tryOpen
  · split at hu
    · split at hu
      · nomatch hu
      · obtain ⟨x, -, rfl⟩ := Option.map_eq_some_iff.mp hu
        exact (h.adopt hst _ _).modLaunch fun _ hk => hk
    · split at hu
      · split at hu
        · nomatch hu
        · obtain ⟨x, -, rfl⟩ := Option.map_eq_some_iff.mp hu
          exact h.adopt hst _ _
      · split at hu
        · obtain ⟨x, -, rfl⟩ := Option.map_eq_some_iff.mp hu
          exact (h.adopt hst _ _).modLaunch fun _ hk => hk
        · exact Option.some.inj hu ▸ h.placeAtLaunch hst

theorem State.Placed.stepsOf (n : Nat) (h : s.Placed k l t) : s.Placed k l (State.beginRun.stepsOf k n t) := by
  induction n generalizing t with
  | zero => exact h
  | succ n ih =>
    obtain ⟨l', hl, -⟩ := h.launch
    unfold State.beginRun.stepsOf
    rw [hl]
    dsimp only
    split
    · exact h
    · next u hu =>
      split at hu
      · exact ih (h.placeOne hst hl hu)
      · nomatch hu

theorem State.Placed.beginRun (h : s.Placed k l t) : s.Placed k l (t.beginRun k) := by
  unfold State.beginRun
  split
  · exact h
  · split
    · exact ((h.placeAtLaunch hst).realise hst).tryOpen
    · split
      · exact h.stepsOf hst _
      · split
        · exact h.placeAtLaunch hst
        · exact h

omit hst in
theorem State.Placed.noteWaits (h : s.Placed k l t) : s.Placed k l t.noteWaits := by
  obtain ⟨l', hl, hk⟩ := h.launch
  obtain ⟨fr, hn, -⟩ := State.noteWaits_launch hl
  exact ⟨h.rest, ⟨_, hn, hk⟩, h.quiet⟩

end Placed

end Sys2Proof.Machine
end

section
namespace Sys2Proof.Machine
open Sys2Proof

/-! ## Taking a run (R19, R294 to R296) -/

theorem State.sysRead_advance (s : State) (asid root fuel va n : Nat) :
    s.advance.sysRead asid root fuel va n = s.sysRead asid root fuel va n := by
  induction fuel generalizing va n with
  | zero => rfl
  | succ fuel ih =>
    have hp (k : Nat) : s.advance.sysPiece asid root va k = s.sysPiece asid root va k := rfl
    simp only [State.sysRead, ih, hp]

/-- Taking a command leaves what its table reads. -/
theorem State.groupTable_advance (s : State) (bs : List Byte) : s.advance.groupTable bs = s.groupTable bs :=
  s.sysRead_advance _ _ _ _ _

/-- The launch that a run command becomes. -/
def State.runLaunch (s : State) (bs : List Byte) : Launch :=
  freshLaunch bs (recordOf (bs.drop 0x80) s.ctl.coreLive)
    (match if flagOf bs 3 then s.groupTable bs else none with
      | some t => groupsOf t
      | none => [])
    ((recordOf (bs.drop 0x80) s.ctl.coreLive).options.getLsbD 0) none s.now s.seq

/-- The state in which the blocks of a run are placed. -/
def State.runTaken (s : State) (bs : List Byte) : State :=
  { s.bind bs with launches := s.launches.set s.takes (s.runLaunch bs), takes := s.takes + 1, seq := s.seq + 1 }

section takeRun
variable {s : State} {bs : List Byte}

/-- The codes of a run that fails a check of the command. -/
theorem State.takeRun_bad {c : Nat} (hc : c ≠ 0)
    (h : firstFail (s.runChecks bs (if flagOf bs 3 then s.groupTable bs else none)) = c) :
    s.takeRun bs = s.complete (endpointOf bs) (tagOf bs) c 0 0xFF 0 0 0 := by
  unfold State.takeRun
  dsimp only
  rw [State.runCode_eq]
  unfold State.groupTable at h
  rw [h, if_pos hc]

variable (h : firstFail (s.runChecks bs (if flagOf bs 3 then s.groupTable bs else none)) = 0)
include h

theorem State.takeRun_wrong {c : Nat} (hc : c ≠ 0) (hw : runStatus (recordOf (bs.drop 0x80) s.ctl.coreLive) (bs.drop 0x80)
    (flagOf bs 0) = c) : s.takeRun bs = (s.bind bs).complete (endpointOf bs) (tagOf bs) 0 c 0xFF 0 0 0 := by
  have hb : (s.bind bs).ctl = s.ctl := rfl
  unfold State.takeRun
  dsimp only
  rw [State.runCode_eq]
  unfold State.groupTable at h
  rw [h, if_neg (by decide), hb, hw, if_pos hc]

theorem State.takeRun_accepted (hw : runStatus (recordOf (bs.drop 0x80) s.ctl.coreLive) (bs.drop 0x80) (flagOf bs 0) = 0) :
    s.takeRun bs = ((s.runTaken bs).beginRun s.takes).noteWaits := by
  have hb : (s.bind bs).ctl = s.ctl := rfl
  unfold State.takeRun
  dsimp only
  rw [State.runCode_eq]
  unfold State.groupTable at h
  rw [h, if_neg (by decide), hb, hw, if_neg (by decide)]
  rfl

end takeRun

theorem State.RunBad.ne_zero {s : State} {bs : List Byte} {c : Nat} (h : s.RunBad bs c) : c ≠ 0 := by
  rcases h with ⟨rfl, -⟩ | ⟨rfl, -⟩ | ⟨rfl, -⟩ | ⟨rfl, -⟩ | ⟨rfl, -⟩ <;> decide

theorem firstFail_run_bad (hdev : ownDev < 144) {s : State} {bs : List Byte} {c : Nat} (h : s.RunBad bs c)
    (hl : ∀ d, s.RunBad bs d → c ≤ d) : firstFail (s.runChecks bs (if flagOf bs 3 then s.groupTable bs else none)) = c :=
  firstFail_lowest (s.runChecks_rise bs _) ((s.mem_runChecks hdev bs c).mpr h) fun d hd => hl d ((s.mem_runChecks hdev bs d).mp hd)

theorem firstFail_run_good (hdev : ownDev < 144) {s : State} {bs : List Byte} (h : ∀ d, ¬ s.RunBad bs d) :
    firstFail (s.runChecks bs (if flagOf bs 3 then s.groupTable bs else none)) = 0 :=
  firstFail_none fun d hd => h d ((s.mem_runChecks hdev bs d).mp hd)

section record
variable {bs : List Byte} {live : BitVec 192}

theorem runStatus_wrong {c : Nat} (h : RunWrong bs live c) (hl : ∀ d, RunWrong bs live d → c ≤ d) :
    runStatus (recordOf (bs.drop 0x80) live) (bs.drop 0x80) (flagOf bs 0) = c := by
  rw [runStatus_eq]
  exact firstFail_lowest (LaunchRec.statusChecks_rise _ _ _) ((mem_statusChecks bs live c).mpr h)
    fun d hd => hl d ((mem_statusChecks bs live d).mp hd)

theorem RunWrong.ne_zero {c : Nat} (h : RunWrong bs live c) : c ≠ 0 := by
  rintro rfl
  have := (mem_statusChecks bs live 0).mpr h
  simp [LaunchRec.limitChecks, LaunchRec.roomChecks] at this

variable (h : ∀ d, ¬ RunWrong bs live d)
include h

theorem runStatus_right : runStatus (recordOf (bs.drop 0x80) live) (bs.drop 0x80) (flagOf bs 0) = 0 := by
  rw [runStatus_eq]
  exact firstFail_none fun d hd => h d ((mem_statusChecks bs live d).mp hd)

/-- A record that is accepted keeps the limits of R14. -/
theorem recordOf_limits : let r := recordOf (bs.drop 0x80) live
    r.kx * r.ky * r.kz ≤ 8 ∧ r.waves ≤ 16 ∧ r.mask ≠ 0 := by
  have ok {i d : Nat} {b : Bool} (hm : ((recordOf (bs.drop 0x80) live).limitChecks (bs.drop 0x80))[i]? = some (d, b)) :
      b = true := by
    refine Bool.eq_true_of_not_eq_false fun e => h d ((mem_statusChecks bs live d).mp (List.mem_append_left _ ?_))
    exact List.mem_of_getElem? (e ▸ hm)
  have h3 := ok (i := 2) rfl
  have h4 := ok (i := 3) rfl
  have hc := ok (i := 11) rfl
  simp only [Bool.and_eq_true, decide_eq_true_eq] at h3 h4 hc
  obtain ⟨⟨⟨⟨-, hk⟩, -⟩, -⟩, -⟩ := h3
  exact ⟨hk, h4.2, hc⟩

end record

/-! ### What a run command does or is answered with -/

/-- Taking a command leaves the codes that apply. -/
theorem State.runBad_advance (s : State) (bs : List Byte) (c : Nat) : s.advance.RunBad bs c ↔ s.RunBad bs c := by
  unfold State.RunBad
  rw [State.groupTable_advance]
  rfl

/-- A run that is refused leaves launches, blocks and memory as they are, whether or not its address space is bound (R296). -/
theorem exec_run_refused {s : State} {m : KMap Nat} {ep : BitVec 16} {tag : Word} {a b : Nat}
    (h : exec .runCommand s = .next (({ s.advance with asids := m } : State).complete ep tag a b 0xFF 0 0 0)) :
    ∃ t, exec .runCommand s = .next t ∧ t.ctl.lqHead = s.ctl.lqHead + 1 ∧ t.launches = s.launches ∧ t.blocks = s.blocks ∧
      t.mem = s.mem ∧ s.Sent t 0x0002 ep tag (natLe 1 a ++ natLe 1 b ++ [255] ++ List.replicate 13 0) :=
  ⟨_, h, rfl, rfl, rfl, rfl, (({ s.advance with asids := m } : State).complete_refusal ep tag a b 0xFF).2⟩

section run
variable {s : State} {bs : List Byte} (hn : s.nextCommand = some bs) (hk : leAt bs 0 4 = 1) (hdev : ownDev < 144)
include hn hk hdev

theorem exec_run_bad {c : Nat} (h : s.RunBad bs c) (hl : ∀ d, s.RunBad bs d → c ≤ d) : exec .runCommand s =
    .next (s.advance.complete (endpointOf bs) (tagOf bs) c 0 0xFF 0 0 0) := by
  refine (exec_runCommand hn hk).trans (congrArg Host.Outcome.next (State.takeRun_bad h.ne_zero ?_))
  exact firstFail_run_bad hdev ((s.runBad_advance bs c).mpr h) fun d hd => hl d ((s.runBad_advance bs d).mp hd)

variable (hb : ∀ d, ¬ s.RunBad bs d)
include hb

omit hn hk in
theorem firstFail_advance_good : firstFail (s.advance.runChecks bs (if flagOf bs 3 then s.advance.groupTable bs else none)) = 0 :=
  firstFail_run_good hdev fun d hd => hb d ((s.runBad_advance bs d).mp hd)

theorem exec_run_wrong {c : Nat} (h : RunWrong bs s.ctl.coreLive c) (hl : ∀ d, RunWrong bs s.ctl.coreLive d → c ≤ d) :
    exec .runCommand s = .next ((s.advance.bind bs).complete (endpointOf bs) (tagOf bs) 0 c 0xFF 0 0 0) :=
  (exec_runCommand hn hk).trans (congrArg Host.Outcome.next
    (State.takeRun_wrong (firstFail_advance_good hdev hb) h.ne_zero (runStatus_wrong h hl)))

/-- The blocks of an accepted run are placed (R19, R296). -/
theorem exec_run_accepted (hw : ∀ d, ¬ RunWrong bs s.ctl.coreLive d) :
    ∃ t, exec .runCommand s = .next t ∧ (s.advance.runTaken bs).Placed s.takes (s.advance.runLaunch bs) t :=
  ⟨_, (exec_runCommand hn hk).trans (congrArg Host.Outcome.next
      (State.takeRun_accepted (firstFail_advance_good hdev hb) (runStatus_right hw))),
    ((State.Placed.refl (KMap.get?_set_self _ _ _)).beginRun rfl).noteWaits⟩

omit hn hk hdev in
/-- The groups of an accepted run are those of its table. -/
theorem State.runLaunch_groups : (s.advance.runLaunch bs).groups =
    if flagOf bs 3 then groupsOf ((s.groupTable bs).getD []) else [] := by
  have hg : (s.advance.runLaunch bs).groups = match if flagOf bs 3 then s.groupTable bs else none with
      | some t => groupsOf t
      | none => [] := by rw [← State.groupTable_advance]; rfl
  rw [hg]
  cases hf : flagOf bs 3 with
  | false => rfl
  | true =>
    cases ht : s.groupTable bs with
    | none => exact absurd (Or.inr (Or.inr (Or.inr (Or.inl ⟨rfl, hf, Or.inl ht⟩)))) (hb 5)
    | some t => rfl

end run

/-- On a device of 0 to 143 the launch queue and its commands do as R292 to R296 say. A group table has a bit for each of
those devices alone (R295), and the model's own device number has no bound: where it is 144, or 152 and above, the bit that
the statement reads lies outside the bits of the members. -/
theorem commandsAndRuns_of_ownDev_lt (hdev : ownDev < 144) : Obligations.CommandsAndRuns := by
  unfold Obligations.CommandsAndRuns
  refine ⟨fun s => ⟨fun val hr => ?_, fun src tail hd hk => exec_notify_spec tail hd hk, fun i own hi => ?_, fun bs hn => ?_⟩,
    fun s bs hn hk => ?_⟩
  · exact ⟨_, exec_launchQueueEnable val s, congrArg (fun k => { s with ctl := k }) (Ctl.writeQueueCtl_rest hr val),
      Ctl.writeQueueCtl_on hr val, Ctl.writeQueueCtl_size hr val, Ctl.writeQueueCtl_opens hr val,
      Ctl.writeQueueCtl_keeps hr val⟩
  · obtain ⟨kind, f, he, hkind⟩ := exec_command hi s
    refine ⟨fun h => ?_, fun bs hn hk => ?_⟩
    · rw [he, State.takeCommand_none (State.nextCommand_none h)]
    · rw [he, State.takeCommand_other hn (hkind _ hk)]
  · refine ⟨fun hk => ⟨_, exec_reservedCommand hn hk, s.advance.complete_refusal _ _ _ _ _⟩, fun hk => ?_⟩
    have ans {code : Nat} (h : s.advance.takeUnload bs = s.advance.refuseUnload bs code) : ∃ t, exec .unloadCommand s = .next t ∧
        { t with grants := s.grants } = { s with ctl := { s.ctl with lqHead := s.ctl.lqHead + 1 } } ∧
        s.Sent t 0x0002 (endpointOf bs) (tagOf bs)
          (natLe 1 code ++ [0] ++ natLe 1 (leAt bs 0x18 1) ++ List.replicate 13 0) :=
      ⟨_, (exec_unloadCommand hn hk).trans (congrArg Host.Outcome.next h), s.advance.complete_refusal _ _ _ _ _⟩
    exact ⟨fun hr => ans (State.takeUnload_reserved hr), fun hr hq => ans (State.takeUnload_absent hr hq),
      fun q l hr hq hl => ⟨fun h => ans (State.takeUnload_foreign hr hq hl h), fun ha hs =>
        (exec_unloadCommand hn hk).trans (congrArg Host.Outcome.next (State.takeUnload_own hr hq hl ha hs))⟩⟩
  · refine ⟨fun c hc => ?_, fun c hb hc => ?_, fun hb hw => ?_⟩
    · exact exec_run_refused (m := s.asids) (exec_run_bad hn hk hdev hc.1 hc.2)
    · exact exec_run_refused (exec_run_wrong hn hk hdev hb hc.1 hc.2)
    · obtain ⟨hkk, hwv, hmask⟩ := recordOf_limits hw
      refine ⟨hkk, hwv, hmask, fun c _ h => ?_, ?_⟩
      · exact (Bool.and_eq_true _ _ ▸ (BitVec.getLsbD_and ▸ h)).2
      · obtain ⟨t, he, ht⟩ := exec_run_accepted hn hk hdev hb hw
        obtain ⟨l, hl, hkept⟩ := ht.launch
        refine ⟨t, l, he, congrArg Ctl.lqHead ht.ctl_eq, ht.takes_eq, fun hf => ⟨ht.quiet hf, ht.grants_eq, hkept.2 hf⟩, ?_,
          hl, (congrArg Launch.record hkept.1 :), (congrArg Launch.tag hkept.1 :), (congrArg Launch.endpoint hkept.1 :),
          (congrArg Launch.asid hkept.1 :), (congrArg Launch.root hkept.1 :), hkept.standing_eq,
          (congrArg Launch.dqm hkept.1 :), (congrArg Launch.groups hkept.1 :).trans (State.runLaunch_groups hb),
          (congrArg Launch.bounds hkept.1 :), (congrArg Launch.tickets hkept.1 :)⟩
        rw [ht.asids_eq]
        exact KMap.get?_set_self _ _ _

end Sys2Proof.Machine
end

section
namespace Sys2Proof.Machine
open Sys2Proof

/-! ## The tables and the on-chip memories through a step (R30, R149, R150)

Every function of the machine has one lemma, `X_tidy`: it keeps the tables and the on-chip memories canonical. The
tables are seen through `TablesTidy`, so that `simp` reads a change of other fields as no change at all. -/

/-- The byte memories of a block, and those of its snapshot, are in canonical form. -/
def BytesCanon (scr acc : KMap Byte) (snap : Option Snapshot) : Prop :=
  KMap.canon 0 scr = true ∧ KMap.canon 0 acc = true ∧
  ∀ n, snap = some n → KMap.canon 0 n.scr = true ∧ KMap.canon 0 n.acc = true

/-- The tables rise, and every block in them, resident, saved or checkpointed, is canonical. -/
def TablesTidy (cores : KMap Core) (waves : KMap Wave) (blocks : KMap Block) (launches : KMap Launch)
    (saved : KMap Saved) (kept : KMap SavedLaunch) : Prop :=
  (KMap.wf cores = true ∧ KMap.wf waves = true ∧ KMap.wf blocks = true ∧ KMap.wf launches = true) ∧
  (∀ e ∈ blocks, e.2.Canon) ∧ (∀ e ∈ saved, e.2.block.Canon) ∧ ∀ e ∈ kept, ∀ v ∈ e.2.blocks, v.2.block.Canon

/-- What every step keeps: the tables rise, and the on-chip memories are canonical. -/
def State.Tidy (s : State) : Prop := TablesTidy s.cores s.waves s.blocks s.launches s.saved s.savedLaunches

theorem State.tidy_iff {s : State} : s.Tidy ↔ s.OnChipCanon ∧ s.TablesRise := And.comm

/-! ### Records and tables -/

@[simp] theorem Block.canon_mk
    (l r n cl m p co w g sh sl sb sg sc spo ab ag ac su ki h k t ta pi q d sn cn ge ic is ia) :
    (Block.mk l r n cl m p co w g sh sl sb sg sc spo ab ag ac su ki h k t ta pi q d sn cn ge ic is ia).Canon ↔
      BytesCanon sc ac sn := Iff.rfl

@[simp] theorem bytesCanon_block (b : Block) : BytesCanon b.scr b.acc b.snap ↔ b.Canon := Iff.rfl

/-- A change of the snapshot that keeps its memories canonical. -/
@[simp] theorem bytesCanon_mapSnap {scr acc : KMap Byte} {snap : Option Snapshot} {f : Snapshot → Snapshot}
    (h : BytesCanon scr acc snap)
    (hf : ∀ n, KMap.canon 0 n.scr = true → KMap.canon 0 n.acc = true →
      KMap.canon 0 (f n).scr = true ∧ KMap.canon 0 (f n).acc = true) : BytesCanon scr acc (snap.map f) := by
  refine ⟨h.1, h.2.1, fun n hn => ?_⟩
  obtain ⟨m, hm, rfl⟩ := Option.map_eq_some_iff.mp hn
  exact hf m (h.2.2 m hm).1 (h.2.2 m hm).2

@[simp] theorem State.tidy_mk
    (f1 f2 f3 f4 f5 f6 f7 f8 f9 f10 f11 f12 f13 C L B W f14 f15 f16 f17 f18 f19 f20 f21 f22
    f23 f24 f25 f26 S K f27 f28 f29 f30 f31 f32 f33 f34 f35 f36 f37 f38) :
    (State.mk f1 f2 f3 f4 f5 f6 f7 f8 f9 f10 f11 f12 f13 C L B W f14 f15 f16 f17 f18 f19 f20 f21 f22
    f23 f24 f25 f26 S K f27 f28 f29 f30 f31 f32 f33 f34 f35 f36 f37 f38).Tidy ↔ TablesTidy C W B L S K := Iff.rfl

@[simp] theorem tablesTidy_state (s : State) :
    TablesTidy s.cores s.waves s.blocks s.launches s.saved s.savedLaunches ↔ s.Tidy := Iff.rfl

/-- A table rises when its entries do, pair by pair. -/
theorem KMap.wf_iff_pairwise {α : Type} {m : KMap α} : m.wf = true ↔ m.Pairwise fun x y => x.1 < y.1 := by
  have above (b : Nat) (m : KMap α) :
      KMap.above (some b) m = true ↔ (∀ e ∈ m, b < e.1) ∧ m.Pairwise fun x y => x.1 < y.1 := by
    induction m generalizing b with
    | nil => simp [KMap.above]
    | cons e m ih =>
      simp only [KMap.above, Bool.and_eq_true, decide_eq_true_eq, ih, List.forall_mem_cons, List.pairwise_cons]
      exact ⟨fun ⟨h, hb, hp⟩ => ⟨⟨h, fun x hx => h.trans (hb x hx)⟩, hb, hp⟩, fun ⟨⟨h, _⟩, hb, hp⟩ => ⟨h, hb, hp⟩⟩
  cases m with
  | nil => simp [KMap.wf, KMap.above]
  | cons e m => simp only [KMap.wf, KMap.above, above, List.pairwise_cons]

/-- A change of the entries that keeps their keys keeps them rising. -/
theorem KMap.wf_map {α : Type} {m : KMap α} {f : Nat × α → Nat × α} (hf : ∀ e, (f e).1 = e.1) (h : m.wf = true) :
    KMap.wf (m.map f) = true := by
  rw [KMap.wf_iff_pairwise] at h ⊢
  exact List.pairwise_map.mpr (by simpa only [hf] using h)

/-- A change of an entry leaves the keys as they are. -/
theorem KMap.keys_modify {α : Type} (m : KMap α) (k : Nat) (f : α → α) : (m.modify k f).keys = m.keys := by
  have set (m : KMap α) (v u : α) (h : m.get? k = some u) : (m.set k v).keys = m.keys := by
    induction m with
    | nil => nomatch h
    | cons e m ih =>
      unfold KMap.get? at h
      unfold KMap.set
      (repeat' split at h) <;> grind [KMap.keys]
  unfold KMap.modify
  split
  · rfl
  · next u h => exact set m _ u h

theorem KMap.wf_modify_iff {α : Type} {m : KMap α} {k : Nat} {f : α → α} : (m.modify k f).wf = true ↔ m.wf = true := by
  have keys (m : KMap α) : m.wf = true ↔ m.keys.Pairwise (· < ·) := KMap.wf_iff_pairwise.trans List.pairwise_map.symm
  rw [keys, keys, KMap.keys_modify]

theorem KMap.wf_filter {α : Type} {m : KMap α} (p : Nat × α → Bool) (h : m.wf = true) :
    KMap.wf (m.filter p) = true := by
  rw [KMap.wf_iff_pairwise] at h ⊢
  exact h.filter p

/-- What a table holds after a write was there before, or has been written. -/
theorem KMap.mem_set {α : Type} {m : KMap α} {k : Nat} {v : α} {e : Nat × α} (h : e ∈ m.set k v) :
    e = (k, v) ∨ e ∈ m := by
  induction m with
  | nil => exact .inl (List.mem_singleton.mp h)
  | cons x m ih =>
    unfold KMap.set at h
    (repeat' split at h) <;> grind

theorem KMap.mem_erase {α : Type} {m : KMap α} {k : Nat} {e : Nat × α} (h : e ∈ m.erase k) : e ∈ m := by
  induction m with
  | nil => exact h
  | cons x m ih =>
    unfold KMap.erase at h
    (repeat' split at h) <;> grind

section tables
variable {C : KMap Core} {W : KMap Wave} {B : KMap Block} {L : KMap Launch} {S : KMap Saved} {K : KMap SavedLaunch}

@[simp] theorem tablesTidy_modWave {k : Nat} {f : Wave → Wave} :
    TablesTidy C (W.modify k f) B L S K ↔ TablesTidy C W B L S K := by
  simp only [TablesTidy, KMap.wf_modify_iff]

@[simp] theorem tablesTidy_modLaunch {k : Nat} {f : Launch → Launch} :
    TablesTidy C W B (L.modify k f) S K ↔ TablesTidy C W B L S K := by
  simp only [TablesTidy, KMap.wf_modify_iff]

variable (h : TablesTidy C W B L S K)
include h

@[simp] theorem tablesTidy_putCore (k : Nat) (v : Core) : TablesTidy (C.put Core.reset k v) W B L S K :=
  ⟨⟨KMap.wf_put k v h.1.1, h.1.2⟩, h.2⟩

/-- A change of cores that keeps their keys. -/
theorem tablesTidy_mapCores {f : Nat × Core → Nat × Core} (hf : ∀ e, (f e).1 = e.1) :
    TablesTidy (C.map f) W B L S K := ⟨⟨KMap.wf_map hf h.1.1, h.1.2⟩, h.2⟩

@[simp] theorem tablesTidy_setWave (k : Nat) (v : Wave) : TablesTidy C (W.set k v) B L S K :=
  ⟨⟨h.1.1, KMap.wf_set v h.1.2.1, h.1.2.2⟩, h.2⟩

/-- A change of waves that keeps their keys. -/
theorem tablesTidy_mapWaves {f : Nat × Wave → Nat × Wave} (hf : ∀ e, (f e).1 = e.1) :
    TablesTidy C (W.map f) B L S K := ⟨⟨h.1.1, KMap.wf_map hf h.1.2.1, h.1.2.2⟩, h.2⟩

@[simp] theorem tablesTidy_filterWaves (p : Nat × Wave → Bool) : TablesTidy C (W.filter p) B L S K :=
  ⟨⟨h.1.1, KMap.wf_filter p h.1.2.1, h.1.2.2⟩, h.2⟩

@[simp] theorem tablesTidy_setLaunch (k : Nat) (v : Launch) : TablesTidy C W B (L.set k v) S K :=
  ⟨⟨h.1.1, h.1.2.1, h.1.2.2.1, KMap.wf_set v h.1.2.2.2⟩, h.2⟩

@[simp] theorem tablesTidy_eraseLaunch (k : Nat) : TablesTidy C W B (L.erase k) S K :=
  ⟨⟨h.1.1, h.1.2.1, h.1.2.2.1, KMap.wf_erase h.1.2.2.2⟩, h.2⟩

/-- A change of launches that keeps their keys. -/
theorem tablesTidy_mapLaunches {f : Nat × Launch → Nat × Launch} (hf : ∀ e, (f e).1 = e.1) :
    TablesTidy C W B (L.map f) S K := ⟨⟨h.1.1, h.1.2.1, h.1.2.2.1, KMap.wf_map hf h.1.2.2.2⟩, h.2⟩

@[simp] theorem tablesTidy_setBlock (k : Nat) {v : Block} (hv : v.Canon) : TablesTidy C W (B.set k v) L S K := by
  refine ⟨⟨h.1.1, h.1.2.1, KMap.wf_set v h.1.2.2.1, h.1.2.2.2⟩, fun e he => ?_, h.2.2⟩
  rcases KMap.mem_set he with rfl | he
  · exact hv
  · exact h.2.1 e he

@[simp] theorem tablesTidy_modBlock (k : Nat) {f : Block → Block} (hf : ∀ b : Block, b.Canon → (f b).Canon) :
    TablesTidy C W (B.modify k f) L S K := by
  unfold KMap.modify
  split
  · exact h
  · next v e => exact tablesTidy_setBlock h k (hf v (h.2.1 _ (KMap.mem_of_get? e)))

/-- A change of blocks that keeps their keys, and their memories canonical. -/
theorem tablesTidy_mapBlocks {f : Nat × Block → Nat × Block} (hf : ∀ e, (f e).1 = e.1)
    (hc : ∀ e, e.2.Canon → (f e).2.Canon) : TablesTidy C W (B.map f) L S K :=
  ⟨⟨h.1.1, h.1.2.1, KMap.wf_map hf h.1.2.2.1, h.1.2.2.2⟩,
    List.forall_mem_map.mpr fun e he => hc e (h.2.1 e he), h.2.2⟩

@[simp] theorem tablesTidy_eraseBlock (k : Nat) : TablesTidy C W (B.erase k) L S K :=
  ⟨⟨h.1.1, h.1.2.1, KMap.wf_erase h.1.2.2.1, h.1.2.2.2⟩, fun e he => h.2.1 e (KMap.mem_erase he), h.2.2⟩

@[simp] theorem tablesTidy_setSaved (k : Nat) {v : Saved} (hv : v.block.Canon) : TablesTidy C W B L (S.set k v) K := by
  refine ⟨h.1, h.2.1, fun e he => ?_, h.2.2.2⟩
  rcases KMap.mem_set he with rfl | he
  · exact hv
  · exact h.2.2.1 e he

@[simp] theorem tablesTidy_eraseSaved (k : Nat) : TablesTidy C W B L (S.erase k) K :=
  ⟨h.1, h.2.1, fun e he => h.2.2.1 e (KMap.mem_erase he), h.2.2.2⟩

@[simp] theorem tablesTidy_setKept (k : Nat) {v : SavedLaunch} (hv : ∀ x ∈ v.blocks, x.2.block.Canon) :
    TablesTidy C W B L S (K.set k v) := by
  refine ⟨h.1, h.2.1, h.2.2.1, fun e he => ?_⟩
  rcases KMap.mem_set he with rfl | he
  · exact hv
  · exact h.2.2.2 e he

end tables

/-- A walk over a list keeps the machine tidy when each of its steps does. -/
theorem foldl_tidy {α : Type} {f : State → α → State} (h : ∀ s x, s.Tidy → (f s x).Tidy) (xs : List α) {s : State}
    (hs : s.Tidy) : (xs.foldl f s).Tidy := by
  induction xs generalizing s with
  | nil => exact hs
  | cons x xs ih => exact ih (h s x hs)

section
variable {s : State}

@[simp] theorem State.modCtl_tidy {f : Ctl → Ctl} : (s.modCtl f).Tidy ↔ s.Tidy := Iff.rfl

@[simp] theorem State.modWave_tidy {k : Nat} {f : Wave → Wave} : (s.modWave k f).Tidy ↔ s.Tidy := tablesTidy_modWave

@[simp] theorem State.modLaunch_tidy {k : Nat} {f : Launch → Launch} : (s.modLaunch k f).Tidy ↔ s.Tidy :=
  tablesTidy_modLaunch

@[simp] theorem State.modProgram_tidy {k : Nat} {f : Program → Program} : (s.modProgram k f).Tidy ↔ s.Tidy := Iff.rfl

@[simp] theorem State.post_tidy {r : TrapRec} : (s.post r).Tidy ↔ s.Tidy := Iff.rfl

@[simp] theorem State.emit_tidy {p : Nat} {m : OutMsg} : (s.emit p m).Tidy ↔ s.Tidy := Iff.rfl

@[simp] theorem State.nextSeq_tidy : s.nextSeq.Tidy ↔ s.Tidy := Iff.rfl

@[simp] theorem State.bringL2_tidy {a n : Nat} {dirty : Bool} : (s.bringL2 a n dirty).Tidy ↔ s.Tidy := Iff.rfl

@[simp] theorem State.joinWalk_tidy {core asid va : Nat} : (s.joinWalk core asid va).Tidy ↔ s.Tidy := Iff.rfl

variable (hs : s.Tidy)
include hs

/-- A resident block of a tidy machine is canonical. -/
theorem State.Tidy.block {k : Nat} {b : Block} (h : s.blocks.get? k = some b) : b.Canon :=
  hs.2.1 _ (KMap.mem_of_get? h)

/-- A change of every core. -/
theorem State.Tidy.mapCores (f : Nat × Core → Core) : State.Tidy { s with cores := s.cores.map fun e => (e.1, f e) } :=
  tablesTidy_mapCores hs fun _ => rfl

/-- A change of waves that keeps their keys. -/
theorem State.Tidy.mapWaves {f : Nat × Wave → Nat × Wave} (hf : ∀ e, (f e).1 = e.1) :
    State.Tidy { s with waves := s.waves.map f } := tablesTidy_mapWaves hs hf

@[simp] theorem State.modCore_tidy (c : Nat) (f : Core → Core) : (s.modCore c f).Tidy := tablesTidy_putCore hs _ _

@[simp] theorem State.modBlock_tidy (k : Nat) {f : Block → Block} (hf : ∀ b : Block, b.Canon → (f b).Canon) :
    (s.modBlock k f).Tidy := tablesTidy_modBlock hs _ hf

end
end Sys2Proof.Machine
end

section
namespace Sys2Proof.Machine
open Sys2Proof

section
variable {s : State}

@[simp] theorem State.raiseFlags_tidy (c : Ctx) (f : Nat → Flags) : (s.raiseFlags c f).Tidy ↔ s.Tidy := by
  simp [State.raiseFlags]

@[simp] theorem State.awaitWalks_tidy (key : Nat) (ks : List Nat) : (s.awaitWalks key ks).Tidy ↔ s.Tidy := by
  simp [State.awaitWalks]

@[simp] theorem State.stallWave_tidy (key : Nat) : (s.stallWave key).Tidy ↔ s.Tidy := by simp [State.stallWave]

@[simp] theorem State.blockWave_tidy (key : Nat) (b : Blocked) : (s.blockWave key b).Tidy ↔ s.Tidy := by
  simp [State.blockWave]

@[simp] theorem State.endQuantum_tidy (c : Ctx) : (s.endQuantum c).Tidy ↔ s.Tidy := by
  unfold State.endQuantum
  (repeat' split) <;> simp

@[simp] theorem State.countSkid_tidy (key b : Nat) : (s.countSkid key b).Tidy ↔ s.Tidy := by
  unfold State.countSkid
  (repeat' split) <;> simp

@[simp] theorem State.retireAt_tidy (c : Ctx) (size : Nat) (x : Series) : (s.retireAt c size x).Tidy ↔ s.Tidy := by
  simp [State.retireAt]

@[simp] theorem State.retireJump_tidy (c : Ctx) (x : Series) : (s.retireJump c x).Tidy ↔ s.Tidy := by
  simp [State.retireJump]

@[simp] theorem Ctx.helpersKept_tidy (c : Ctx) : (Ctx.helpersKept c s).Tidy ↔ s.Tidy := by simp [Ctx.helpersKept]

variable (hs : s.Tidy)
include hs

/-! ### Operations of the state -/

@[simp] theorem State.modWavesOf_tidy (b : Nat) (f : Wave → Wave) : (s.modWavesOf b f).Tidy :=
  tablesTidy_mapWaves hs fun e => by split <;> rfl

@[simp] theorem State.keepView_tidy (a : Nat) : (s.keepView a).Tidy := by
  unfold State.keepView
  (repeat' split) <;> simp [hs]

@[simp] theorem State.poke_tidy (by_ : Option Nat) (a : Nat) (bs : List Byte) : (s.poke by_ a bs).Tidy :=
  tablesTidy_mapLaunches hs fun e => by split <;> rfl

@[simp] theorem State.writeLoc_tidy (by_ : Option Nat) (l : Loc) (bs : List Byte) : (s.writeLoc by_ l bs).Tidy := by
  cases l with
  | mem a => exact State.poke_tidy hs by_ a bs
  | scr b off => exact State.modBlock_tidy hs _ fun b hb => Block.canon_pokeScr off bs hb

@[simp] theorem State.abandonTicket_tidy (b : Nat) : (s.abandonTicket b).Tidy := by
  unfold State.abandonTicket
  (repeat' split) <;> simp [hs]

@[simp] theorem State.takeHaltAs_tidy (mk : TrapRec → TrapRec) (key cause : Nat) (addr : DWord) (mask : Mask)
    (detail : Word) : (s.takeHaltAs mk key cause addr mask detail).Tidy := by
  unfold State.takeHaltAs
  (repeat' split) <;> try dsimp only
  all_goals simp [hs]

@[simp] theorem State.takeHalt_tidy (key cause : Nat) (addr : DWord) (mask : Mask) (detail : Word) :
    (s.takeHalt key cause addr mask detail).Tidy := State.takeHaltAs_tidy hs _ _ _ _ _ _

@[simp] theorem State.takePark_tidy (key : Nat) (addr : DWord) (mask : Mask) (lane : Nat) :
    (s.takePark key addr mask lane).Tidy := by
  unfold State.takePark
  (repeat' split) <;> simp [hs]

@[simp] theorem State.takeTimer_tidy (key : Nat) : (s.takeTimer key).Tidy := by
  unfold State.takeTimer
  (repeat' split) <;> (try dsimp only) <;> (try split) <;> simp [hs]

@[simp] theorem State.snapWave_tidy (key id : Nat) (f : Wave → Wave) : (s.snapWave key id f).Tidy := by
  unfold State.snapWave
  split
  · exact hs
  · next k n e =>
    obtain ⟨w, -, e⟩ := Option.bind_eq_some_iff.mp e
    obtain ⟨m, em, e⟩ := Option.map_eq_some_iff.mp e
    obtain ⟨b, eb, hm⟩ := Option.bind_eq_some_iff.mp em
    cases e
    have hn := (hs.block eb).2.2 n hm
    split
    · exact hs
    · exact State.modBlock_tidy hs _ fun b hb => ⟨hb.1, hb.2.1, fun m e => by cases e; exact hn⟩

@[simp] theorem State.addDeferred_tidy (key : Nat) (d : Deferred) : (s.addDeferred key d).Tidy := by
  simp [hs, State.addDeferred]

@[simp] theorem State.snapshot_tidy (b : Nat) : (s.snapshot b).Tidy := by
  unfold State.snapshot
  (repeat' split) <;> try exact hs
  exact State.modBlock_tidy hs _ fun b hb => ⟨hb.1, hb.2.1, fun n e => by cases e; exact ⟨hb.1, hb.2.1⟩⟩

/-! ### Operands and translations -/

@[simp] theorem State.pop_tidy (c : Ctx) (n : Nat) : (s.pop c n).Holds fun y => y.2.Tidy := by
  unfold State.pop
  (repeat' split) <;> simp [hs, QRes.Holds]

@[simp] theorem State.push_tidy (c : Ctx) (n : Nat) (v : Nat → Word) : (s.push c n v).Tidy := by simp [State.push, hs]

theorem State.readField_tidy (c : Ctx) (r : Nat) : (s.readField c r).Holds fun y => y.2.Tidy := by
  unfold State.readField
  split
  · exact State.pop_tidy hs c _
  · exact hs

theorem State.readRun_tidy (c : Ctx) (r : Reg) (n : Nat) : (s.readRun c r n).Holds fun y => y.2.Tidy := by
  have h := State.readField_tidy hs c r.toNat
  unfold State.readRun
  (repeat' split) <;> simp_all [QRes.Holds]

theorem State.readFields_tidy (c : Ctx) (xs : List (Reg × Nat)) : (s.readFields c xs).Holds fun y => y.2.Tidy := by
  induction xs generalizing s with
  | nil => exact hs
  | cons x xs ih =>
    have h := State.readRun_tidy hs c x.1 x.2
    unfold State.readFields
    split
    · trivial
    · trivial
    · next v t e =>
      rw [e] at h
      have := ih h
      (repeat' split) <;> simp_all [QRes.Holds]

@[simp] theorem State.writeReg_tidy (c : Ctx) (r : Nat) (v : Nat → Word) : (s.writeReg c r v).Tidy := by
  unfold State.writeReg
  (repeat' split) <;> simp [hs]

@[simp] theorem State.writePair_tidy (c : Ctx) (r : Nat) (v : Nat → DWord) : (s.writePair c r v).Tidy := by
  simp [hs, State.writePair]

@[simp] theorem State.fillCore_tidy (core : Nat) (x : Xlate) : (s.fillCore core x).Tidy := by simp [State.fillCore, hs]

@[simp] theorem State.fillTlb_tidy (core : Nat) (x : Xlate) : (s.fillTlb core x).Tidy := State.fillCore_tidy hs core x

@[simp] theorem State.lookup_tidy (outs : List (Nat × Nat)) (core asid root va : Nat) :
    (s.lookup outs core asid root va).Holds State.Tidy := by
  unfold State.lookup
  (repeat' split) <;> simp [hs, Looked.Holds]

@[simp] theorem State.reachAll_tidy (c : Ctx) (xs : List (Nat × DWord)) : (s.reachAll c xs).1.Tidy := by
  induction xs generalizing s with
  | nil => exact hs
  | cons x xs ih =>
    have h := State.lookup_tidy hs c.w.walkOut c.w.core c.l.asid c.l.root (offsetOf x.2)
    unfold State.reachAll
    (repeat' split) <;> simp_all [Looked.Holds]

theorem State.check_tidy (c : Ctx) (as : List (Nat × DWord)) (size : Nat) (p : Purpose) (takes : Takes) :
    (s.check c as size p takes).Holds State.Tidy := by
  unfold State.check
  dsimp only
  (repeat' split) <;> simp [hs, Checked.Holds]

@[simp] theorem State.helperReach_tidy (c : Ctx) (size : Nat) (takes : Takes) (xs : List (Nat × DWord)) :
    (s.helperReach c size takes xs).state.Tidy := by
  induction xs generalizing s with
  | nil => exact hs
  | cons x xs ih =>
    have h := State.check_tidy (s := { s with later := false }) hs c [(x.1, x.2)] size .read takes
    unfold State.helperReach
    split <;> simp_all [Checked.Holds]

/-! ### Issue of a word -/

@[simp] theorem State.unpop_tidy (c : Ctx) : (s.unpop c).Tidy := by simp [State.unpop, hs]

@[simp] theorem State.beginRollback_tidy (key block : Nat) : (s.beginRollback key block).Tidy := by
  simp [State.beginRollback, hs]

@[simp] theorem State.haltWord_tidy (c : Ctx) (cause : Nat) (addr : DWord) (detail : Word) :
    (s.haltWord c cause addr detail).Tidy := by
  unfold State.haltWord
  (repeat' split) <;> simp [hs]

@[simp] theorem State.waits_tidy (c : Ctx) (size : Nat) (t : State) {u : State} (hu : u.Tidy) :
    (s.waits c size t u).Tidy := by
  unfold State.waits
  (repeat' split) <;> simp [hs, hu]

/-- How a word ended keeps the machine tidy when the state that it has come to is. -/
theorem State.settle_tidy (c : Ctx) (size : Nat) {r : Res} (hr : r.Holds State.Tidy) : (s.settle c size r).Tidy := by
  cases r <;> simp only [State.settle] <;> (try split) <;> simp_all [Res.Holds]

@[simp] theorem State.latent_tidy (c : Ctx) (xs : List Nat) : (s.latent c xs).Tidy := by
  induction xs generalizing s with
  | nil => exact hs
  | cons x xs ih => exact ih (by simp [hs])

@[simp] theorem State.consumeError_tidy (c : Ctx) (cause : Nat) : (s.consumeError c cause).Tidy := by
  unfold State.consumeError
  (repeat' split) <;> simp [hs]

theorem Ctx.helpersOnly_tidy (c : Ctx) (f : Form) (body : Ctx → List (List LaneVec) → State → Res)
    (hb : ∀ c ops s, s.Tidy → (body c ops s).Holds State.Tidy) : (c.helpersOnly f body s).Holds State.Tidy := by
  have hr := State.readFields_tidy hs c f.reads
  unfold Ctx.helpersOnly
  dsimp only
  split
  · exact hs
  · split
    · next ops s1 e =>
      rw [e] at hr
      have hb := hb c ops { s1 with later := false } hr
      split <;> simp_all [Res.Holds]
    · exact hs

/-- A word keeps the machine tidy when what its form does keeps it. -/
theorem issue_tidy (f : Form) {body : Ctx → List (List LaneVec) → State → Res}
    (hb : ∀ c ops s, s.Tidy → (body c ops s).Holds State.Tidy) : nextHolds State.Tidy (issue f body s) := by
  unfold issue
  split
  · trivial
  · next key w b l _ =>
    dsimp only
    split
    · exact (State.stallWave_tidy _).mpr hs
    split
    · exact iteInduction (motive := State.Tidy) (fun _ => (State.stallWave_tidy _).mpr hs)
        fun _ => State.settle_tidy hs _ _ (Ctx.helpersOnly_tidy hs _ _ _ hb)
    split
    · exact State.takeHalt_tidy hs _ _ _ _ _
    split
    · exact (State.stallWave_tidy _).mpr hs
    split
    · exact State.consumeError_tidy (State.modWave_tidy.mpr hs) _ _
    split
    · exact State.consumeError_tidy hs _ _
    split
    · exact State.takeHalt_tidy hs _ _ _ _ _
    · exact (State.blockWave_tidy _ _).mpr hs
    · have hr := State.readFields_tidy hs
        ⟨key, w, b, l, w.lanesFor f.g f.u, if f.u then 0 else f.helperLanes w, f.u⟩ f.reads
      split
      · exact State.takeHalt_tidy hs _ _ _ _ _
      · exact (State.blockWave_tidy _ _).mpr hs
      · next ops s1 e =>
        rw [e] at hr
        exact State.settle_tidy hs _ _ (hb _ _ _ (State.latent_tidy hr _ _))

omit hs in
theorem closing_tidy (g : Guard) (u : Bool) {run : State → Host.Outcome State Fault Refusal}
    (h : nextHolds State.Tidy (run s)) : nextHolds State.Tidy (closing g u run s) := by
  unfold closing
  split
  · next e _ =>
    rw [e] at h
    (repeat' split) <;> simp_all [nextHolds]
  · exact h

theorem issueAlu_tidy (g : Guard) (u : Bool) (size : Nat) (d : Reg) (reads : List (Reg × Nat))
    (v : Ctx → List (List LaneVec) → Nat → Word) : nextHolds State.Tidy (issueAlu g u size d reads v s) :=
  issue_tidy hs _ fun c _ _ h => State.writeReg_tidy h c _ _

theorem issueAluPair_tidy (g : Guard) (u : Bool) (d : Reg) (reads : List (Reg × Nat))
    (v : Ctx → List (List LaneVec) → Nat → DWord) : nextHolds State.Tidy (issueAluPair g u d reads v s) :=
  issue_tidy hs _ fun c _ _ h => State.writePair_tidy h c _ _

theorem issueFloat_tidy (g : Guard) (u : Bool) (d : Reg) (reads : List (Reg × Nat))
    (v : Ctx → List (List LaneVec) → Nat → Word × Flags) : nextHolds State.Tidy (issueFloat g u d reads v s) :=
  issue_tidy hs _ fun c _ _ h => (State.raiseFlags_tidy c _).mpr (State.writeReg_tidy h c _ _)

/-! ### Control flow -/

@[simp] theorem Ctx.go_tidy (c : Ctx) (target : DWord) (call : Bool) : (Ctx.go c target call s).Holds State.Tidy := by
  unfold Ctx.go
  dsimp only
  (repeat' split) <;> simp [hs, Res.Holds]

theorem issueJump_tidy (off : BitVec 21) (g : Guard) (u call : Bool) :
    nextHolds State.Tidy (issueJump off g u call s) := by
  refine issue_tidy hs _ fun c ops s hs => ?_
  split
  · exact Ctx.go_tidy hs c _ call
  · trivial

theorem issueJumpReg_tidy (a : Reg) (g : Guard) (u call : Bool) :
    nextHolds State.Tidy (issueJumpReg a g u call s) := by
  refine issue_tidy hs _ fun c ops s hs => ?_
  dsimp only
  split
  · exact Ctx.go_tidy hs c _ call
  · trivial

theorem execRet_tidy (g : Guard) : nextHolds State.Tidy (execRet g s) := by
  refine issue_tidy hs _ fun c ops s hs => ?_
  dsimp only
  (repeat' split) <;> simp_all [Res.Holds]

theorem execJoinSet_tidy (off : BitVec 21) (g : Guard) : nextHolds State.Tidy (execJoinSet off g s) := by
  refine issue_tidy hs _ fun c ops s hs => ?_
  (repeat' split) <;> simp_all [Res.Holds]

theorem execJoin_tidy (g : Guard) : nextHolds State.Tidy (execJoin g s) := by
  refine issue_tidy hs _ fun c ops s hs => ?_
  (repeat' split) <;> simp_all [Res.Holds]

theorem execYield_tidy (g : Guard) : nextHolds State.Tidy (execYield g s) := by
  refine issue_tidy hs _ fun c ops s hs => ?_
  (repeat' split) <;> simp_all [Res.Holds]

theorem execNop_tidy (g : Guard) : nextHolds State.Tidy (execNop g s) := issue_tidy hs _ fun _ _ _ h => h

theorem execTrap_tidy (imm : BitVec 14) (g : Guard) : nextHolds State.Tidy (execTrap imm g s) :=
  issue_tidy hs _ fun _ _ _ _ => trivial

theorem execTrret_tidy (g : Guard) : nextHolds State.Tidy (execTrret g s) := by
  refine issue_tidy hs _ fun c ops s hs => ?_
  (repeat' split) <;> simp_all [Res.Holds]

@[simp] theorem State.adoptMap_tidy (core sect : Nat) : (s.adoptMap core sect).Tidy := by simp [State.adoptMap, hs]

theorem execLmapLd_tidy (g : Guard) : nextHolds State.Tidy (execLmapLd g s) := by
  refine issue_tidy hs _ fun c ops s hs => ?_
  (repeat' split) <;> simp_all [Res.Holds]

theorem execUndefinedWord_tidy (pfx : Option (BitVec 25)) (w : BitVec 32) :
    nextHolds State.Tidy (execUndefinedWord pfx w s) := issue_tidy hs _ fun _ _ _ _ => trivial

/-! ### Special registers -/

theorem execMovS_tidy (d : Reg) (sr : SReg) (g : Guard) (u : Bool) : nextHolds State.Tidy (execMovS d sr g u s) := by
  refine issue_tidy hs _ fun c ops s hs => ?_
  (repeat' split) <;> simp_all [Res.Holds]

@[simp] theorem State.setSreg_tidy (c : Ctx) (r : SReg) (v : LaneVec) : (s.setSreg c r v).Tidy := by
  unfold State.setSreg
  dsimp only
  (repeat' split) <;> simp [hs]

theorem execMovSW_tidy (d : Reg) (sr : SReg) (g : Guard) (u : Bool) : nextHolds State.Tidy (execMovSW d sr g u s) := by
  refine issue_tidy hs _ fun c ops s hs => ?_
  (repeat' split) <;> simp_all [Res.Holds]

theorem execWbase_tidy (imm : BitVec 14) (g : Guard) : nextHolds State.Tidy (execWbase imm g s) := by
  refine issue_tidy hs _ fun c ops s hs => ?_
  (repeat' split) <;> simp_all [Res.Holds]

end
end Sys2Proof.Machine
end

section
namespace Sys2Proof.Machine
open Sys2Proof

section
variable {s : State}

@[simp] theorem State.noteWrite_tidy (a v : Nat) : (s.noteWrite a v).Tidy ↔ s.Tidy := by
  unfold State.noteWrite
  (repeat' split) <;> simp

@[simp] theorem State.noteUnripe_tidy (by_ : Option Nat) (a n v : Nat) :
    (s.noteUnripe by_ a n v).Tidy ↔ s.Tidy := by
  unfold State.noteUnripe
  (repeat' split) <;> simp

@[simp] theorem State.buffer_tidy (key : Nat) (es : List Buffered) (space : Nat) :
    (s.buffer key es space).Tidy ↔ s.Tidy := by simp [State.buffer]

@[simp] theorem State.ask_tidy (key acc : Nat) (q : Ask) : (s.ask key acc q).2.Tidy ↔ s.Tidy := by simp [State.ask]

@[simp] theorem State.askAll_tidy (key acc : Nat) (xs : List Ask) : (s.askAll key acc xs).2.Tidy ↔ s.Tidy := by
  induction xs generalizing s with
  | nil => rfl
  | cons x xs ih => simp_all [State.askAll]

@[simp] theorem State.sendAsks_tidy (c : Ctx) (qs : List Ask) (rs rh : List Reach) :
    (s.sendAsks c qs rs rh).Tidy ↔ s.Tidy := by
  simp [State.sendAsks]

@[simp] theorem State.holdFor_tidy (c : Ctx) (a : Access) : (s.holdFor c a).Tidy ↔ s.Tidy := by simp [State.holdFor]

@[simp] theorem State.writePart_tidy (key : Nat) (a : Access) (p : Part) (v : Nat → Word) :
    (s.writePart key a p v).Tidy ↔ s.Tidy := by simp [State.writePart]

@[simp] theorem State.zeroLost_tidy (c : Ctx) (d : Reg) (size : Nat) (rh : List Reach) :
    (s.zeroLost c d size rh).Tidy ↔ s.Tidy := by simp [State.zeroLost]

@[simp] theorem State.deferLoad_tidy (c : Ctx) (d : Reg) (size : Nat) (signed : Bool) (rs rh : List Reach) :
    (s.deferLoad c d size signed rs rh).Tidy ↔ s.Tidy := by simp [State.deferLoad]

@[simp] theorem State.deferStore_tidy (c : Ctx) (id size : Nat) (data : Nat → Nat) (rs : List Reach) :
    (s.deferStore c id size data rs).Tidy ↔ s.Tidy := by simp [State.deferStore]

@[simp] theorem State.startLater_tidy (c : Ctx) (qs : List Ask) (rs : List Reach) (a : Nat → Access) :
    (s.startLater c qs rs a).Tidy ↔ s.Tidy := by
  unfold State.startLater
  (repeat' split) <;> simp

variable (hs : s.Tidy)
include hs

/-! ### Accesses -/

@[simp] theorem State.fillLine_tidy (core line : Nat) : (s.fillLine core line).Tidy := by
  simp [hs, State.fillLine]

@[simp] theorem State.allocate_tidy (core line : Nat) : (s.allocate core line).Tidy := by
  unfold State.allocate
  (repeat' split) <;> simp [hs]

@[simp] theorem State.readGlobal_tidy (core acq since a n : Nat) :
    (s.readGlobal core acq since a n).2.Tidy := by
  unfold State.readGlobal
  (repeat' split) <;> simp [hs]

@[simp] theorem State.updateCopy_tidy (core a : Nat) (bs : List Byte) :
    (s.updateCopy core a bs).Tidy := by
  unfold State.updateCopy
  (repeat' split) <;> simp [hs]

@[simp] theorem State.dropCopy_tidy (core a : Nat) : (s.dropCopy core a).Tidy := by
  unfold State.dropCopy
  (repeat' split) <;> simp [hs]

@[simp] theorem State.applyStore_tidy (by_ : Option Nat) (core : Nat) (l : Loc) (bs : List Byte) :
    (s.applyStore by_ core l bs).2.Tidy := by
  unfold State.applyStore
  (repeat' split) <;> simp [hs]

@[simp] theorem State.applyRmw_tidy (by_ : Option Nat) (core : Nat) (op : Rmw) (l : Loc) (v w : DWord) :
    (s.applyRmw by_ core op l v w).2.2.Tidy := by
  unfold State.applyRmw
  dsimp only
  (repeat' split) <;> simp [hs]

@[simp] theorem State.stamp_tidy (core k : Nat) (t : Target) : (s.stamp core k t).Tidy := by
  unfold State.stamp
  (repeat' split) <;> simp [hs]

@[simp] theorem State.readFor_tidy (l : Launch) (w : Wave) (since : Nat) (t : Target) (n : Nat)
    (peer : List Byte) :
    (s.readFor l w since t n peer).2.Tidy := by
  unfold State.readFor
  (repeat' split) <;> simp [hs]

@[simp] theorem State.dropAt_tidy (port : Nat) : (s.dropAt port).Tidy := by
  unfold State.dropAt
  (repeat' split) <;> simp [hs]

theorem State.hear_tidy (src : BitVec 16) (agree : Bool) {f : State → State} (hf : (f s).Tidy) :
    (s.hear src agree f).Tidy := by
  unfold State.hear
  (repeat' split) <;> simp [hs, hf]

@[simp] theorem State.keepAnswers_tidy (c : Ctx) : (s.keepAnswers c).Tidy :=
  State.modBlock_tidy hs _ fun b hb => bytesCanon_mapSnap hb fun n h1 h2 => by
    unfold Snapshot.keep
    split <;> exact ⟨h1, h2⟩

@[simp] theorem State.hearAsks_tidy (c : Ctx) (judged : Mask) :
    (s.hearAsks c judged).Holds State.Tidy := by
  unfold State.hearAsks
  dsimp only
  (repeat' split) <;> simp [hs, Asked.Holds]

theorem State.consult_tidy (c : Ctx) (qs : List Ask) (rs rh : List Reach) (judged : Mask) :
    (s.consult c qs rs rh judged).Holds State.Tidy := by
  unfold State.consult
  split
  · exact hs
  split
  · simp [Asked.Holds, hs]
  · exact State.hearAsks_tidy hs c judged

theorem State.gate_tidy (c : Ctx) (as helpers : List (Nat × DWord)) (size : Nat) (p : Purpose)
    (takes : Takes) :
    (s.gate c as helpers size p takes).Holds State.Tidy := by
  unfold State.gate
  dsimp only
  (repeat' split) <;>
    grind [Gate.Holds, Res.Holds, State.check_tidy, Checked.Holds, State.helperReach_tidy, State.awaitWalks_tidy]

@[simp] theorem State.writeRun_tidy (c : Ctx) (d : Reg) (n : Nat) (v : Nat → Nat → Word) :
    (s.writeRun c d n v).Tidy := by
  unfold State.writeRun
  exact foldl_tidy (fun _ x h => by simp [h]) _ hs

@[simp] theorem State.readEach_tidy (l : Launch) (w : Wave) (since n : Nat) (peer : List (Nat × List Byte))
    (xs : List Reach) :
    (s.readEach l w since n peer xs).2.Tidy := by
  induction xs generalizing s with
  | nil => exact hs
  | cons x xs ih => simp_all [State.readEach]

@[simp] theorem State.readAll_tidy (l : Launch) (w : Wave) (since n : Nat) (peer : List (Nat × List Byte))
    (rs : List Reach) :
    (s.readAll l w since n peer rs).2.Tidy := by
  simp [hs, State.readAll]

theorem loadBody_tidy (size : Nat) (signed : Bool) (d : Reg) (off : Int) (c : Ctx) (ops : List (List LaneVec)) :
    (loadBody size signed d off c ops s).Holds State.Tidy := by
  have hg := State.gate_tidy hs c (addrsOf ops 0 off c.t) (addrsOf ops 0 off c.hl) size .read .copy
  unfold loadBody
  split
  · next e => rw [e] at hg; exact hg
  · next rs hs' t e =>
    rw [e, Gate.Holds] at hg
    have hc := State.consult_tidy hg c (readAsks (rs ++ hs') size) rs hs' c.t
    split
    · simp_all [Asked.Holds, Res.Holds]
    · trivial
    · dsimp only
      split <;> simp_all [Asked.Holds, Res.Holds]

@[simp] theorem State.storeAll_tidy (key core n : Nat) (data : Nat → Nat) (rs : List Reach) (v : Nat) :
    (s.storeAll key core n data rs v).2.Tidy := by
  induction rs generalizing s v with
  | nil => exact hs
  | cons r rs ih =>
    unfold State.storeAll
    split
    · exact ih hs v
    · exact ih (by simp [hs]) _

@[simp] theorem State.supersede_tidy (key : Nat) (near : List Reach) (n : Nat) :
    (s.supersede key near n).Tidy := by
  unfold State.supersede
  (repeat' split) <;> simp [hs]

theorem dqmStore_tidy (c : Ctx) (size : Nat) (data : Nat → Nat) (rs : List Reach) :
    (dqmStore c size data rs s).Holds State.Tidy := by
  unfold dqmStore
  dsimp only
  (repeat' split) <;> simp [hs, Res.Holds]

theorem storeBody_tidy (size : Nat) (off : Int) (c : Ctx) (ops : List (List LaneVec)) :
    (storeBody size off c ops s).Holds State.Tidy := by
  have hg := State.gate_tidy hs c (addrsOf ops 1 off c.t) [] size .write .nothing
  unfold storeBody
  split
  · next e => rw [e] at hg; exact hg
  · next rs _ t e =>
    rw [e, Gate.Holds] at hg
    have hc := State.consult_tidy hg c (writeAsks rs size (storeData size ops 0)) rs [] c.t
    dsimp only
    split
    · exact dqmStore_tidy hg c size _ rs
    split
    · simp only [Res.Holds]
      split <;> simp [hg]
    · split <;> simp_all [Asked.Holds, Res.Holds]

@[simp] theorem State.stampPart_tidy (core : Nat) (a : Access) (p : Part) :
    (s.stampPart core a p).Tidy := by
  unfold State.stampPart
  (repeat' split) <;> simp [hs]

@[simp] theorem State.returnPart_tidy (key core : Nat) (a : Access) (p : Part) (ps : List Part) :
    (s.returnPart key core a p ps).Tidy := by
  unfold State.returnPart
  split
  · exact hs
  split
  · exact hs
  · refine foldl_tidy (f := fun s q => (s.writePart key a q (a.word q _)).stampPart core a q)
      (fun _ q h => by simp [h]) _ ?_
    (repeat' split) <;> simp [hs]

@[simp] theorem State.ackPart_tidy (key core : Nat) (a : Access) (p : Part) :
    (s.ackPart key core a p).Tidy := by
  unfold State.ackPart
  (repeat' split) <;> simp [hs]

@[simp] theorem State.performParts_tidy (key core : Nat) (a : Access) (ps : List Part) :
    (s.performParts key core a ps).Tidy := by
  unfold State.performParts
  split
  · exact foldl_tidy (fun _ p h => State.ackPart_tidy h key core a p) ps hs
  · exact foldl_tidy (fun _ p h => State.returnPart_tidy h key core a p ps) _ hs

omit hs in
/-- A part of a store done again on a saved scratchpad keeps it canonical. -/
theorem Access.redo_canon (a : Access) (b : Nat) {x : KMap Byte × Wave} (p : Part) (h : KMap.canon 0 x.1 = true) :
    KMap.canon 0 (a.redo b x p).1 = true := by
  unfold Access.redo
  (repeat' split) <;> (try dsimp only) <;> (try split) <;> simp only [h, putBytes_canon _ _ h]

omit hs in
/-- A snapshot that follows an access stays canonical. -/
theorem Snapshot.follow_canon {n : Snapshot} (b key : Nat) (a : Access) (done left : List Part) (w : Wave)
    (h : KMap.canon 0 n.scr = true ∧ KMap.canon 0 n.acc = true) :
    KMap.canon 0 (n.follow b key a done left w).scr = true ∧
      KMap.canon 0 (n.follow b key a done left w).acc = true := by
  have redone (x : KMap Byte × Wave) (hx : KMap.canon 0 x.1 = true) :
      KMap.canon 0 (done.foldl (a.redo b) x).1 = true :=
    List.foldlRecOn (motive := fun x => KMap.canon 0 x.1 = true) done (a.redo b) hx
      fun _ h p _ => Access.redo_canon a b p h
  unfold Snapshot.follow
  split
  · exact h
  split
  · exact h
  · exact ⟨redone _ h.1, h.2⟩

@[simp] theorem State.partsDone_tidy (key id : Nat) (done left : List Part) :
    (s.partsDone key id done left).Tidy := by
  unfold State.partsDone
  split
  · exact hs
  · dsimp only
    rw [State.modWave_tidy]
    exact State.modBlock_tidy hs _ fun b hb =>
      bytesCanon_mapSnap hb fun n h1 h2 => Snapshot.follow_canon _ _ _ _ _ _ ⟨h1, h2⟩

@[simp] theorem State.perform_tidy (key id : Nat) (lanes : Mask) :
    (s.perform key id lanes).Tidy := by
  unfold State.perform
  (repeat' split) <;> simp [hs]

@[simp] theorem State.drain_tidy (key : Nat) :
    (s.drain key).Tidy := by
  unfold State.drain
  split
  · exact hs
  · exact foldl_tidy (fun _ a h => State.perform_tidy h key a.id _) _ hs

theorem State.firstHold_tidy (c : Ctx) (sc : Scope) : ∀ t ∈ s.firstHold c sc, t.Tidy := by
  unfold State.firstHold
  (repeat' split) <;> simp [hs]

@[simp] theorem State.acquire_tidy (key : Nat) (sc : Scope) :
    (s.acquire key sc).Tidy := by
  unfold State.acquire
  split
  · exact hs
  · have h := foldl_tidy (fun _ (x : Nat × Nat) h => State.perform_tidy h x.1 x.2 (BitVec.allOnes 64))
      (s.published key ‹Wave› sc) hs
    dsimp only
    split
    · exact State.modWave_tidy.mpr h
    · exact h

@[simp] theorem State.stampAll_tidy (core k : Nat) (xs : List Reach) :
    (s.stampAll core k xs).Tidy := by
  induction xs generalizing s with
  | nil => exact hs
  | cons x xs ih => simp_all [State.stampAll]

/-! ### Loads, stores and atomics -/

theorem issueLoad_tidy (d a : Reg) (size : Nat) (signed : Bool) (off : Int) (words : Nat) (g : Guard) (u : Bool) :
    nextHolds State.Tidy (issueLoad d a size signed off words g u s) :=
  issue_tidy hs _ fun c ops _ h => loadBody_tidy h size signed d off c ops

theorem issueStore_tidy (d a : Reg) (size : Nat) (off : Int) (words : Nat) (g : Guard) (u : Bool) :
    nextHolds State.Tidy (issueStore d a size off words g u s) := by
  unfold issueStore
  refine issue_tidy hs _ (fun c ops s hs => ?_)
  grind [storeBody_tidy]

@[simp] theorem State.quietLook_tidy (c : Ctx) (as : List (Nat × DWord)) :
    (s.quietLook c as).2.2.Tidy := by
  simp [hs, State.quietLook]

@[simp] theorem State.prefetchLane_tidy (c : Ctx) (l1 : Bool) (a : DWord) (x : Xlate) :
    (s.prefetchLane c l1 a x).Tidy := by
  unfold State.prefetchLane
  (repeat' split) <;> simp [hs]

theorem issuePrefetch_tidy (a : Reg) (l1 : Bool) (off : Int) (words : Nat) (g : Guard) (u : Bool) :
    nextHolds State.Tidy (issuePrefetch a l1 off words g u s) := by
  refine issue_tidy hs _ (fun c ops s hs => ?_)
  dsimp only
  split
  · simp [Res.Holds, hs]
  · exact foldl_tidy (fun _ x h => State.prefetchLane_tidy h c l1 _ _) _ (State.quietLook_tidy hs c _)

@[simp] theorem State.cinvLane_tidy (c : Ctx) (a : DWord) (x : Xlate) : (s.cinvLane c a x).Tidy := by
  unfold State.cinvLane
  (repeat' split) <;> simp [hs]

theorem execCinv_tidy (a : Reg) (g : Guard) (u : Bool) :
    nextHolds State.Tidy (execCinv a g u s) := by
  refine issue_tidy hs _ (fun c ops s hs => ?_)
  split
  · trivial
  · dsimp only
    split
    · simp [Res.Holds, hs]
    · exact foldl_tidy (fun _ x h => State.cinvLane_tidy h c _ _) _ (State.quietLook_tidy hs c _)

theorem execCinvAll_tidy (g : Guard) (u : Bool) :
    nextHolds State.Tidy (execCinvAll g u s) := by
  unfold execCinvAll
  refine issue_tidy hs _ (fun c ops s hs => ?_)
  simp_all [Res.Holds]

@[simp] theorem State.allocateAll_tidy (core : Nat) (rs : List Reach) :
    (s.allocateAll core rs).Tidy :=
  foldl_tidy (fun _ r h => by (repeat' split) <;> simp [h]) rs hs

@[simp] theorem Ctx.acquired_tidy (c : Ctx) (sc : Scope) :
    (Ctx.acquired c sc s).Tidy := by
  unfold Ctx.acquired
  (repeat' split) <;> simp [hs]

theorem acqBody_tidy (size : Nat) (sc : Scope) (stamped : Bool) (d : Reg) (c : Ctx) (ops : List (List LaneVec)) :
    (acqBody size sc stamped d c ops s).Holds State.Tidy := by
  have hg := State.gate_tidy hs c (addrsOf ops 0 0 c.t) (addrsOf ops 0 0 c.hl) size .read
    (if stamped && !c.l.dqm then .home else .copy)
  unfold acqBody
  split
  · split <;> simp [Res.Holds, hs]
  split
  · next e => rw [e] at hg; exact hg
  · next rs hs' t e =>
    rw [e, Gate.Holds] at hg
    have hc := State.consult_tidy hg c (readAsks (rs ++ hs') size) rs hs' c.t
    split
    · simpa [Res.Holds] using hg
    · split
      · simp_all [Asked.Holds, Res.Holds]
      · trivial
      · next peer u e =>
        rw [e, Asked.Holds] at hc
        dsimp only
        split
        · simp [Res.Holds, hc]
        have hr := State.readAll_tidy hc c.l c.w u.seq size peer (rs ++ hs')
        split
        · exact Ctx.acquired_tidy (State.stampAll_tidy (by simp [hc]) _ _ _) c sc
        · exact Ctx.acquired_tidy (State.writeRun_tidy hr _ _ _ _) c sc

theorem Ctx.secondHold_tidy (c : Ctx) (id : Nat) (sc : Scope)
    {after : List (Nat × List Byte) → State → State}
    (ha : ∀ peer t, t.Tidy → (after peer t).Tidy) :
    (c.secondHold id sc s after).Holds State.Tidy := by
  have hh := State.hearAsks_tidy hs c c.t
  unfold Ctx.secondHold
  (repeat' split) <;> simp_all [Asked.Holds, Res.Holds]

theorem relBody_tidy (size : Nat) (sc : Scope) (stamped : Bool) (c : Ctx) (ops : List (List LaneVec)) :
    (relBody size sc stamped c ops s).Holds State.Tidy := by
  have hg := State.gate_tidy hs c (addrsOf ops 1 0 c.t) [] size .write .nothing
  unfold relBody
  split
  · exact Ctx.secondHold_tidy hs c _ sc fun peer t h => by split <;> simp [h]
  split
  · split <;> exact hs
  split
  · next e => rw [e] at hg; exact hg
  · next rs _ t e =>
    rw [e, Gate.Holds] at hg
    dsimp only
    split
    · exact dqmStore_tidy hg c size _ rs
    split
    · exact hg
    · next t1 e1 =>
      have h1 := State.firstHold_tidy hg c sc t1 e1
      have hc := State.consult_tidy h1 c (writeAsks rs size (storeData size ops 0)) rs [] c.t
      split
      · simpa [Res.Holds] using h1
      · split
        · simp_all [Asked.Holds, Res.Holds]
        · trivial
        · (repeat' split) <;> simp_all [Asked.Holds, Res.Holds]

theorem issueAcq_tidy (d a : Reg) (size : Nat) (sc : Scope) (stamped : Bool) (g : Guard) (u : Bool) :
    nextHolds State.Tidy (issueAcq d a size sc stamped g u s) := by
  unfold issueAcq
  refine issue_tidy hs _ (fun c ops s hs => ?_)
  grind [acqBody_tidy]

theorem issueRel_tidy (d a : Reg) (size : Nat) (sc : Scope) (stamped : Bool) (g : Guard) (u : Bool) :
    nextHolds State.Tidy (issueRel d a size sc stamped g u s) := by
  unfold issueRel
  grind [issue_tidy, closing_tidy, relBody_tidy]

@[simp] theorem State.rmwAll_tidy (key core : Nat) (op : Rmw) (v : Nat → DWord × DWord) (rs : List Reach)
    (k : Nat) : (s.rmwAll key core op v rs k).2.2.Tidy := by
  induction rs generalizing s k with
  | nil => exact hs
  | cons r rs ih =>
    unfold State.rmwAll
    split
    · exact ih hs k
    · exact ih (by simp [hs]) _

@[simp] theorem State.ownRmw_tidy (key : Nat) (op : Rmw) (v : Nat → DWord × DWord) (rs : List Reach) :
    (s.ownRmw key op v rs).2.Tidy := by
  induction rs generalizing s with
  | nil => exact hs
  | cons r rs ih =>
    unfold State.ownRmw
    split
    · exact ih hs
    · exact ih (by split <;> simp [hs])

@[simp] theorem State.writeOld_tidy (c : Ctx) (op : Rmw) (d : Reg) (xs : List (Nat × Nat)) :
    (s.writeOld c op d xs).Tidy := by
  unfold State.writeOld
  (repeat' split) <;> simp [hs]

theorem dqmRmw_tidy (c : Ctx) (op : Rmw) (d : Reg) (v : Nat → DWord × DWord) (rs : List Reach) :
    (dqmRmw c op d v rs s).Holds State.Tidy := by
  unfold dqmRmw
  dsimp only
  (repeat' split) <;> simp [hs, Res.Holds]

theorem rmwBody_tidy (op : Rmw) (sc : Scope) (d : Reg) (c : Ctx) (ops : List (List LaneVec)) :
    (rmwBody op sc d c ops s).Holds State.Tidy := by
  have hg := State.gate_tidy hs c (addrsOf ops 1 0 (if c.w.partDone = 0 then c.t else c.t &&& ~~~c.w.partDone)) []
    op.width .write .home
  unfold rmwBody
  split
  · exact Ctx.secondHold_tidy hs c _ sc fun peer t h => by simp [h]
  split
  · split <;> exact hs
  split
  · next e => rw [e] at hg; exact hg
  · next rs _ t e =>
    rw [e, Gate.Holds] at hg
    dsimp only
    split
    · exact dqmRmw_tidy hg c op d _ rs
    split
    · exact hg
    · next t1 e1 =>
      have h1 := State.firstHold_tidy hg c sc t1 e1
      have hc := State.consult_tidy h1 c (rmwAsks op (op.operands ops) rs) rs [] c.t
      split
      · simpa [Res.Holds] using h1
      · split
        · simp_all [Asked.Holds, Res.Holds]
        · trivial
        · next peer u e =>
          rw [e, Asked.Holds] at hc
          have hw := State.acquire_tidy (State.writeOld_tidy
            (State.rmwAll_tidy hc c.key c.w.core op (op.operands ops) rs 0) c op d
              ((u.rmwAll c.key c.w.core op (op.operands ops) rs 0).1 ++
                peer.map fun p => (p.1, leNat (p.2.take op.width)))) c.key sc
          split <;> simpa [Res.Holds] using hw

theorem issueRmw_tidy (op : Rmw) (d a : Reg) (sc : Scope) (g : Guard) (u : Bool) :
    nextHolds State.Tidy (issueRmw op d a sc g u s) := by
  unfold issueRmw
  grind [issue_tidy, closing_tidy, rmwBody_tidy]

theorem execFence_tidy (sc : Scope) (g : Guard) :
    nextHolds State.Tidy (execFence sc g s) := by
  refine issue_tidy hs _ (fun c ops s hs => ?_)
  split
  · exact hs
  split
  · exact hs
  · next t e => simp [Res.Holds, State.firstHold_tidy hs c sc t e]

theorem pollBody_tidy (p : PollCond) (sc : Scope) (d : Reg) (c : Ctx) (ops : List (List LaneVec)) :
    (pollBody p sc d c ops s).Holds State.Tidy := by
  have hg := State.gate_tidy hs c (addrsOf ops 1 0 c.t) (addrsOf ops 1 0 c.hl) 4 .read .copy
  unfold pollBody
  split
  · (repeat' split) <;> simp [Res.Holds, hs]
  split
  · next e => rw [e] at hg; exact hg
  · next rs hs' t e =>
    rw [e, Gate.Holds] at hg
    have hc := State.consult_tidy hg c (readAsks (rs ++ hs') 4) rs hs' c.t
    split
    · simpa [Res.Holds] using hg
    · split
      · simp_all [Asked.Holds, Res.Holds]
      · trivial
      · next peer u e =>
        rw [e, Asked.Holds] at hc
        have hw := State.writeRun_tidy (State.readAll_tidy hc c.l c.w u.seq 4 peer (rs ++ hs')) c d 1
        have ha (v : Nat → Nat → Word) := Ctx.acquired_tidy (hw v) c sc
        cases hd : c.l.dqm <;> simp only [Bool.false_eq_true, if_true, if_false] <;> split <;>
          simp [Res.Holds, hw, ha]

theorem execPoll_tidy (p : PollCond) (d a : Reg) (sc : Scope) (g : Guard) (u : Bool) :
    nextHolds State.Tidy (execPoll p d a sc g u s) := by
  unfold execPoll
  refine issue_tidy hs _ (fun c ops s hs => ?_)
  grind [pollBody_tidy]


end
end Sys2Proof.Machine
end

section
namespace Sys2Proof.Machine
open Sys2Proof

section
variable {s : State} (hs : s.Tidy)
include hs

/-! ### Barriers and queues -/

omit hs in
@[simp] theorem State.send_tidy (kind dst : BitVec 16) (tag : Word) (payload : List Byte) :
    (s.send kind dst tag payload).Tidy ↔ s.Tidy := Iff.rfl

@[simp] theorem State.passBar_tidy (k : Blocked) (key : Nat) :
    (s.passBar k key).Tidy := by
  unfold State.passBar
  (repeat' split) <;> simp [hs]

@[simp] theorem State.releaseBar_tidy (k : Blocked) (bs : List Nat) :
    (s.releaseBar k bs).Tidy := by
  unfold State.releaseBar
  exact foldl_tidy (fun _ b h => State.snapshot_tidy h b) _ (foldl_tidy (fun _ e h => State.passBar_tidy h k e.1) _ hs)

@[simp] theorem State.domRelease_tidy (m : BarMsg) :
    (s.domRelease m).Tidy := by
  unfold State.domRelease
  split
  · exact hs
  · dsimp only
    have hl : (s.modLaunch ‹Nat × Launch›.1 fun l => { l with domGen := l.domGen + 1, domSent := false }).Tidy :=
      State.modLaunch_tidy.mpr hs
    split
    · exact State.releaseBar_tidy hl _ _
    · exact foldl_tidy (fun _ e h => by simp [h]) _ hl

@[simp] theorem State.domCount_tidy (group : Byte) (tag gen : Word) :
    (s.domCount group tag gen).Tidy := by
  unfold State.domCount
  split
  · exact hs
  · dsimp only
    split
    · exact State.domRelease_tidy (foldl_tidy (fun _ d h => (State.send_tidy _ _ _ _).mpr h) _ (by exact hs)) _
    · exact hs

@[simp] theorem State.domSweep_tidy (group : Byte) (tag : Word) : (s.domSweep group tag).Tidy := by
  unfold State.domSweep
  dsimp only
  (repeat' split) <;> simp [hs]

@[simp] theorem State.domArrive_tidy (l : Launch) (gen : Word) :
    (s.domArrive l gen).Tidy := by
  unfold State.domArrive
  (repeat' split) <;> simp [hs]

@[simp] theorem State.domTry_tidy (launch : Nat) :
    (s.domTry launch).Tidy := by
  unfold State.domTry
  (repeat' split) <;> simp [hs]

@[simp] theorem State.tryBar_tidy (k : Blocked) (key : Nat) :
    (s.tryBar k key).Tidy := by
  unfold State.tryBar
  (repeat' split) <;> simp [hs]

theorem issueBar_tidy (k : Blocked) (allowed : Launch → Bool) (g : Guard) :
    nextHolds State.Tidy (issueBar k allowed g s) := by
  refine closing_tidy g false (issue_tidy hs _ fun c ops s hs => ?_)
  split
  · trivial
  split
  · trivial
  split
  · exact hs
  · next t e =>
    have ht : t.Tidy := by
      cases hd : c.l.dqm <;> simp only [hd, Bool.false_eq_true, if_true, if_false] at e
      · exact State.firstHold_tidy hs c _ t e
      · exact Option.some.inj e ▸ hs
    dsimp only
    split
    · exact ht
    split
    · cases hd : c.l.dqm <;> simp [Res.Holds, ht]
    split
    · (repeat' split) <;> simp [Res.Holds, ht]
    · exact ht

theorem execBarB_tidy (g : Guard) :
    nextHolds State.Tidy (execBarB g s) := issueBar_tidy hs _ _ g

theorem execBarC_tidy (g : Guard) :
    nextHolds State.Tidy (execBarC g s) := issueBar_tidy hs _ _ g

theorem execBarDev_tidy (g : Guard) :
    nextHolds State.Tidy (execBarDev g s) := issueBar_tidy hs _ _ g

theorem execBarDom_tidy (g : Guard) :
    nextHolds State.Tidy (execBarDom g s) := issueBar_tidy hs _ _ g

@[simp] theorem State.afterExit_tidy (b : Nat) :
    (s.afterExit b).Tidy := by
  unfold State.afterExit
  grind [State.tryBar_tidy]

theorem execExit_tidy (g : Guard) :
    nextHolds State.Tidy (execExit g s) := by
  unfold execExit
  refine issue_tidy hs _ fun c ops s hs => ?_
  dsimp only
  (repeat' split) <;> simp_all [Res.Holds]

theorem execTktTake_tidy (g : Guard) :
    nextHolds State.Tidy (execTktTake g s) := by
  refine closing_tidy g true (issue_tidy hs _ fun c ops s hs => ?_)
  (repeat' split) <;> simp [Res.Holds, hs]

theorem execTktWait_tidy (d : Reg) (g : Guard) :
    nextHolds State.Tidy (execTktWait d g s) := by
  refine issue_tidy hs _ fun c ops s hs => ?_
  dsimp only
  have hb (f : Block → Block) (hf : ∀ b : Block, b.Canon → (f b).Canon) :=
    State.acquire_tidy (State.modBlock_tidy hs c.w.block hf) c.key .device
  (repeat' split) <;> simp [Res.Holds, hs, hb]

theorem execQcfg_tidy (a : Reg) (g : Guard) :
    nextHolds State.Tidy (execQcfg a g s) := by
  unfold execQcfg
  refine issue_tidy hs _ fun c ops s hs => ?_
  dsimp only
  (repeat' split) <;> simp_all [Res.Holds]

/-! ### Copy jobs -/

@[simp] theorem State.modJob_tidy (core id : Nat) (f : Job → Job) : (s.modJob core id f).Tidy := by
  simp [State.modJob, hs]

@[simp] theorem State.dropJob_tidy (core id : Nat) : (s.dropJob core id).Tidy := by simp [State.dropJob, hs]

@[simp] theorem State.addJob_tidy (c : Ctx) (kind : JobKind) (desc : List Word)
    (reads writes : List (Nat × Nat)) :
    (s.addJob c kind desc reads writes).Holds State.Tidy := by
  unfold State.addJob
  (repeat' split) <;> simp [hs, Res.Holds]

theorem issueCopy_tidy (kind : JobKind) (a : Reg) (g : Guard) :
    nextHolds State.Tidy (issueCopy kind a g s) := by
  refine issue_tidy hs _ fun c ops s hs => ?_
  dsimp only
  split
  · trivial
  · exact State.addJob_tidy hs c kind _ _ _

theorem execBatch_tidy (d : Reg) (g : Guard) :
    nextHolds State.Tidy (execBatch d g s) := by
  unfold execBatch
  refine issue_tidy hs _ fun c ops s hs => ?_
  (repeat' split) <;> simp_all [Res.Holds]

@[simp] theorem State.raiseDeferred_tidy (key : Nat) (d : Deferred) (mask : Mask) :
    (s.raiseDeferred key d mask).Tidy := by
  unfold State.raiseDeferred
  dsimp only
  (repeat' split) <;> simp [hs]

theorem execWaitB_tidy (a : Reg) (g : Guard) :
    nextHolds State.Tidy (execWaitB a g s) := by
  unfold execWaitB
  refine issue_tidy hs _ fun c ops s hs => ?_
  dsimp only
  (repeat' split) <;> simp_all [Res.Holds]

theorem execWaitC_tidy (l st : BitVec 5) (t : BitVec 4) (g : Guard) :
    nextHolds State.Tidy (execWaitC l st t g s) := by
  unfold execWaitC
  refine issue_tidy hs _ fun c ops s hs => ?_
  dsimp only
  (repeat' split) <;> simp_all [Res.Holds]

theorem State.jobTargets_tidy (core id : Nat) (c : Ctx) (p : Purpose) (as : List DWord) :
    (s.jobTargets core id c p as).Holds State.Tidy := by
  induction as generalizing s with
  | nil => exact hs
  | cons a as ih =>
    have hc := State.check_tidy (s := { s with later := false }) hs c [(0, a)] 4 p
      (if p == .read then .home else .nothing)
    unfold State.jobTargets
    split
    · next r t e =>
      rw [e] at hc
      have ih' := ih (s := { t with later := s.later }) hc
      split
      · next e' => rw [e'] at ih'; exact ih'
      · next e' => rw [e'] at ih'; exact ih'
      · trivial
      · trivial
    · next t e =>
      rw [e] at hc
      exact State.modJob_tidy (s := { t with later := s.later }) hc core id _
    · trivial
    · trivial
    · exact hs

@[simp] theorem State.forget_tidy (tags : List Nat) : (s.forget tags).Tidy := by simp [State.forget, hs]

@[simp] theorem State.jobRead_tidy (core : Nat) (j : Job) (c : Ctx) (as : List DWord) :
    (s.jobRead core j c as).Holds State.Tidy := by
  unfold State.jobRead
  (repeat' split) <;> grind [State.askAll_tidy, State.modJob_tidy, State.jobTargets_tidy, State.forget_tidy,
    Moved.Holds]

@[simp] theorem State.noteWrites_tidy (l : Loc) (n v : Nat) : (s.noteWrites l n v).Tidy := by
  unfold State.noteWrites
  split
  · exact foldl_tidy (fun _ x h => (State.noteWrite_tidy _ _).mpr h) _ hs
  · exact hs

@[simp] theorem State.noteUnripeAt_tidy (l : Loc) (n v : Nat) : (s.noteUnripeAt l n v).Tidy := by
  unfold State.noteUnripeAt
  (repeat' split) <;> simp [hs]

@[simp] theorem State.jobPut_tidy (core id : Nat) (ps : List (Loc × List Byte)) :
    (s.jobPut core id ps).Tidy := by
  induction ps generalizing s with
  | nil => exact hs
  | cons p ps ih =>
    unfold State.jobPut
    exact ih (State.modJob_tidy (State.noteWrites_tidy (State.writeLoc_tidy (State.noteUnripeAt_tidy hs _ _ _) _ _ _)
      _ _ _) _ _ _)

theorem State.jobWrite_tidy (core : Nat) (j : Job) (c : Ctx) (as : List DWord) (bs : List Byte) :
    (s.jobWrite core j c as bs).Holds State.Tidy := by
  unfold State.jobWrite
  (repeat' split) <;> grind [State.askAll_tidy, State.modJob_tidy, State.jobTargets_tidy, State.jobPut_tidy,
      Moved.Holds]

@[simp] theorem State.gatherIndex_tidy (core : Nat) (c : Ctx) (j : Job) :
    (s.gatherIndex core c j).Holds State.Tidy := by
  unfold State.gatherIndex
  grind [State.jobTargets_tidy, Moved.Holds]

theorem State.copyUnit_tidy (core : Nat) (j : Job) (c : Ctx) :
    (s.copyUnit core j c).Holds State.Tidy := by
  unfold State.copyUnit
  (repeat' split) <;> grind [State.jobTargets_tidy, State.jobRead_tidy, State.jobWrite_tidy, State.gatherIndex_tidy,
      Moved.Holds]

/-! ### Collectives -/

@[simp] theorem State.numberColl_tidy (tag : Word) (group : Nat) :
    (s.numberColl tag group).2.Tidy := by simp [State.numberColl, hs]

theorem execColl_tidy (k : CollKind) (a : Reg) (g : Guard) :
    nextHolds State.Tidy (execColl k a g s) := by
  refine closing_tidy g true (issue_tidy hs _ fun c ops s hs => ?_)
  dsimp only
  split
  · trivial
  split
  · trivial
  · have ha (desc : List Word) (rd wr : List (Nat × Nat)) := State.addJob_tidy hs c (.coll k) desc rd wr
    split
    · next x t e =>
      have ht : (Res.done x t).Holds State.Tidy := e ▸ ha _ _ _
      split
      · exact ht
      · exact State.modCore_tidy (State.numberColl_tidy ht _ _) _ _
    · exact ha _ _ _

@[simp] theorem State.sendPart_tidy (l : Launch) (j : Job) (k : CollKind) (dev : Nat) (x : Nat × List Byte) :
    (s.sendPart l j k dev x).Tidy := by simp [State.sendPart, hs]

@[simp] theorem State.sendColl_tidy (l : Launch) (j : Job) (k : CollKind) (dev : Nat) (bs : List Byte) :
    (s.sendColl l j k dev bs).Tidy := by
  unfold State.sendColl
  exact foldl_tidy (fun _ x h => by simp [h]) _ hs

@[simp] theorem State.announce_tidy (l : Launch) (j : Job) (k : CollKind) (g : Group) :
    (s.announce l j k g).Tidy := by
  unfold State.announce
  exact foldl_tidy (fun _ x h => by simp [h]) _ hs

@[simp] theorem State.failJob_tidy (core : Nat) (j : Job) (cause : Nat) (addr : DWord) :
    (s.failJob core j cause addr).Tidy := by
  simp [hs, State.failJob]

@[simp] theorem State.takeSegment_tidy (m : CollMsg) : (s.takeSegment m).Tidy := by
  unfold State.takeSegment
  (repeat' split) <;> simp [hs]

theorem execCollectiveData_tidy (msg : CollMsg) :
    nextHolds State.Tidy (execCollectiveData msg s) :=
  State.hear_tidy hs msg.src true (State.takeSegment_tidy hs msg)

@[simp] theorem State.takeEarly_tidy : s.takeEarly.Tidy := by
  unfold State.takeEarly
  exact foldl_tidy (fun _ x h => by simp [h]) _ hs

theorem State.contribute_tidy (core : Nat) (j : Job) (c : Ctx) (k : CollKind) (g : Group) :
    (s.contribute core j c k g).Holds State.Tidy := by
  have hr := State.jobRead_tidy hs core j c
    (wordAddrs (descSrc j.desc) (collSizes k (dw j.desc 4) g.list.length (g.rankOf ownDev) (dw j.desc 6)).1)
  unfold State.contribute
  dsimp only
  split
  · next e => rw [e] at hr; exact hr
  · trivial
  · trivial
  · next bs t e =>
    rw [e, Moved.Holds] at hr
    split
    · exact State.takeEarly_tidy (State.modJob_tidy (State.announce_tidy hr _ _ _ _) _ _ _)
    · exact State.takeEarly_tidy (State.modJob_tidy (foldl_tidy (fun _ d h =>
      State.sendColl_tidy h _ _ _ _ _) _ hr) _ _ _)

theorem State.collect_tidy (core : Nat) (j : Job) (c : Ctx) (k : CollKind) (g : Group) :
    (s.collect core j c k g).Holds State.Tidy := by
  unfold State.collect
  (repeat' split) <;> grind [State.jobWrite_tidy, Moved.Holds]

theorem State.moveUnit_tidy (core : Nat) (j : Job) :
    (s.moveUnit core j).Holds State.Tidy := by
  unfold State.moveUnit
  split
  · exact hs
  · next c _ =>
    dsimp only
    split
    · exact hs
    split
    · next k _ =>
      split
      · trivial
      · next g _ =>
        split
        · exact State.contribute_tidy hs core j c k g
        · exact State.collect_tidy hs core j c k g
    · exact State.copyUnit_tidy hs core j c

@[simp] theorem State.pauseJob_tidy (core : Nat) (j : Job) (addr : DWord) :
    (s.pauseJob core j addr).Tidy := by
  unfold State.pauseJob
  dsimp only
  (repeat' split) <;> simp [hs]

@[simp] theorem State.moveUnits_tidy (n : Nat) (core id : Nat) :
    (State.moveUnits n s core id).1.Tidy := by
  induction n generalizing s with
  | zero => exact hs
  | succ n ih =>
    unfold State.moveUnits
    split
    · exact hs
    · next j _ =>
      have hm := State.moveUnit_tidy hs core j
      split
      · exact hs
      split
      · next e => rw [e] at hm; exact hm
      · simp [hs]
      · simp [hs]
      · next t e => rw [e] at hm; exact ih (State.modJob_tidy hm _ _ _)

@[simp] theorem State.finishJob_tidy (core id : Nat) : (s.finishJob core id).Tidy := by
  unfold State.finishJob
  (repeat' split) <;> simp [hs]

@[simp] theorem State.runJob_tidy (core id : Nat) :
    (s.runJob core id).Tidy := by
  unfold State.runJob
  (repeat' split) <;> simp [hs]

theorem execCopyJobStart_tidy :
    nextHolds State.Tidy (execCopyJobStart s) := by
  unfold execCopyJobStart
  simp_all [nextHolds]

theorem execCopyJobFault_tidy :
    nextHolds State.Tidy (execCopyJobFault s) := by
  unfold execCopyJobFault
  dsimp only
  (repeat' split) <;> simp_all [nextHolds]

theorem execCopyJobCompletion_tidy :
    nextHolds State.Tidy (execCopyJobCompletion s) := by
  unfold execCopyJobCompletion
  simp_all [nextHolds]


end
end Sys2Proof.Machine
end

section
namespace Sys2Proof.Machine
open Sys2Proof

section
variable {s : State} (hs : s.Tidy)
include hs

/-! ### Matrix and unit words -/

@[simp] theorem State.runsLatent_tidy (c : Ctx) (rs : List RunRead) : (s.runsLatent c rs).Tidy :=
  foldl_tidy (fun _ x h => by dsimp only; split <;> simp [h]) _ hs

theorem State.runStop_tidy {c : Ctx} {reads : List RunRead} {writes : List RegRun} :
    ∀ r ∈ s.runStop c reads writes, r.Holds State.Tidy := by
  unfold State.runStop
  (repeat' split) <;> simp [Res.Holds, hs]

@[simp] theorem State.addOp_tidy (c : Ctx) (o : TileOp) : (s.addOp c o).Holds State.Tidy :=
  State.nextSeq_tidy.mpr (State.modWave_tidy.mpr (State.modCore_tidy hs _ _))

omit hs in
@[simp] theorem State.rnsFault_tidy (core : Nat) : (s.rnsFault core).Holds State.Tidy := trivial

@[simp] theorem State.countStall_tidy (c : Ctx) : (s.countStall c).Tidy := by
  unfold State.countStall
  (repeat' split) <;> simp [hs]

@[simp] theorem State.countIssue_tidy (core : Nat) : (s.countIssue core).Tidy := by simp [State.countIssue, hs]

omit hs in
theorem Res.counted_tidy {r : Res} (cores : List Nat) (h : r.Holds State.Tidy) :
    (r.counted cores).Holds State.Tidy := by
  cases r with
  | done x s => exact foldl_tidy (fun _ core h => State.countIssue_tidy h core) cores h
  | _ => exact h

@[simp] theorem State.gather_tidy (c : Ctx) (gran : Nat) (rs : List Reach) (got : List RemoteReq) :
    (s.gather c gran rs got).2.Tidy := by
  induction rs generalizing s got with
  | nil => exact hs
  | cons r rs ih =>
    unfold State.gather
    split
    · exact ih hs _
    · exact ih (by simp [hs]) got

@[simp] theorem State.fetchRuns_tidy (c : Ctx) (gran : Nat) (tags : List Nat) (rows : List (DWord × Nat)) :
    (s.fetchRuns c gran tags rows).Holds State.Tidy := by
  unfold State.fetchRuns
  (repeat' split) <;> grind [State.check_tidy, State.askAll_tidy, State.forget_tidy, State.gather_tidy, Checked.Holds,
      Fetched.Holds, State.tidy_mk, tablesTidy_state]

@[simp] theorem State.recordHeld_tidy (o : TileOp) (addr : DWord) : (s.recordHeld o addr).Tidy := by
  unfold State.recordHeld
  (repeat' split) <;> simp [hs]

@[simp] theorem State.deferTile_tidy (o : TileOp) (cause : Nat) (addr : DWord) (detail : Word) :
    (s.deferTile o cause addr detail).Tidy := by
  unfold State.deferTile
  (repeat' split) <;> simp [hs]

theorem State.addLoading_tidy (c : Ctx) (o : TileOp) : (s.addLoading c o).Holds State.Tidy := by
  have hf := State.fetchRuns_tidy hs c o.gran [] o.rows
  unfold State.addLoading
  extract_lets as
  split
  · split <;> exact hs
  split
  · exact hs
  split
  · split <;> exact hs
  split
  · exact State.addOp_tidy hs c o
  split
  · next t e => rw [e] at hf; exact State.addOp_tidy hf c _
  · next t e => rw [e] at hf; exact State.addOp_tidy hf c _
  · next t e => rw [e] at hf; exact State.addOp_tidy hf c _
  · next t e => rw [e] at hf; exact State.addOp_tidy hf c _
  · exact State.addOp_tidy (by simp [hs]) c _
  · exact State.modWave_tidy.mpr (State.deferTile_tidy hs _ _ _ _)

theorem issueMma_tidy (t : MmaType) (pair : Bool) (d a : Reg) (g : Guard) :
    nextHolds State.Tidy (issueMma t pair d a g s) := by
  refine issue_tidy hs _ fun c ops s hs => ?_
  extract_lets desc x chunks cores bruns aruns per here there fol us reads o
  split
  · trivial
  split
  · trivial
  split
  · exact State.rnsFault_tidy _
  split
  · trivial
  split
  · trivial
  split
  · split <;> exact hs
  split
  · trivial
  split
  · next r e => exact State.runStop_tidy hs r e
  split
  · exact hs
  split
  · exact State.countStall_tidy hs c
  · have hl := State.runsLatent_tidy hs c reads
    refine Res.counted_tidy _ ?_
    split
    · exact State.addOp_tidy hl c _
    · exact State.addLoading_tidy hl c _

theorem execTld_tidy (a : Reg) (g : Guard) :
    nextHolds State.Tidy (execTld a g s) := by
  refine issue_tidy hs _ fun c ops s hs => ?_
  extract_lets desc x us
  split
  · trivial
  split
  · exact State.rnsFault_tidy _
  split
  · trivial
  split
  · exact hs
  · exact State.addLoading_tidy hs c _

theorem execTst_tidy (a : Reg) (g : Guard) :
    nextHolds State.Tidy (execTst a g s) := by
  refine issue_tidy hs _ fun c ops s hs => ?_
  extract_lets desc x us as src o t
  split
  · trivial
  split
  · exact State.rnsFault_tidy _
  split
  · trivial
  split
  · trivial
  split
  · exact hs
  split
  · split <;> exact hs
  split
  · exact hs
  split
  · split <;> exact hs
  · exact State.addOp_tidy (by unfold t; split <;> simp [hs]) c o

theorem issueUnits_tidy (a : Reg) (g : Guard) (runs : UnitWord → Ctx → List RegRun × List RegRun)
    (okWord : UnitWord → Bool)
    (rns : UnitWord → Bool) (need : Option Nat) (mk : Ctx → State → UnitWord → TileOp → TileOp) :
      nextHolds State.Tidy (issueUnits a g runs okWord rns need mk s) := by
  refine issue_tidy hs _ fun c ops s hs => ?_
  extract_lets u us rw
  split
  · trivial
  split
  · trivial
  split
  · exact State.rnsFault_tidy _
  refine iteInduction (fun _ => trivial) fun _ => ?_
  split
  · trivial
  split
  · next r e => exact State.runStop_tidy hs r e
  split
  · exact hs
  · exact State.addOp_tidy hs c _

theorem execAccZero_tidy (a : Reg) (g : Guard) :
    nextHolds State.Tidy (execAccZero a g s) := issueUnits_tidy hs _ _ _ _ _ _ _

theorem execAccRd_tidy (d a : Reg) (g : Guard) :
    nextHolds State.Tidy (execAccRd d a g s) := issueUnits_tidy hs _ _ _ _ _ _ _

theorem execAccWr_tidy (d a : Reg) (g : Guard) :
    nextHolds State.Tidy (execAccWr d a g s) := issueUnits_tidy hs _ _ _ _ _ _ _

theorem execAccChkTile_tidy (a : Reg) (g : Guard) :
    nextHolds State.Tidy (execAccChkTile a g s) := issueUnits_tidy hs _ _ _ _ _ _ _

theorem execRnsr_tidy (d a : Reg) (g : Guard) :
    nextHolds State.Tidy (execRnsr d a g s) := issueUnits_tidy hs _ _ _ _ _ _ _

@[simp] theorem State.writeResidues_tidy (c : Ctx) (d : Reg) (xs : Nat → List Int) :
    (s.writeResidues c d xs).Tidy :=
  foldl_tidy (fun _ _ h => State.modWave_tidy.mpr h) (List.range 8) hs

theorem issueRnsf_tidy (n : Nat) (xs : List Word → List Int) (d a : Reg) (g : Guard) :
    nextHolds State.Tidy (issueRnsf n xs d a g s) := by
  refine issue_tidy hs _ fun c ops s hs => ?_
  extract_lets dests srcs
  split
  · trivial
  split
  · trivial
  split
  · exact State.rnsFault_tidy _
  split
  · next r e => exact State.runStop_tidy hs r e
  · exact State.writeResidues_tidy (State.runsLatent_tidy hs c _) c d _

theorem execRnsChk_tidy (d a : Reg) (g : Guard) :
    nextHolds State.Tidy (execRnsChk d a g s) := by
  refine issue_tidy hs _ fun c ops s hs => ?_
  split
  · trivial
  split
  · trivial
  split
  · exact State.rnsFault_tidy _
  split
  · next r e => exact State.runStop_tidy hs r e
  split
  · exact hs
  · exact State.addOp_tidy hs c _


end
end Sys2Proof.Machine
end

section
namespace Sys2Proof.Machine
open Sys2Proof

/-! ### Accumulator writes -/

/-- A walk over a list keeps a block canonical when each of its steps does. -/
theorem Block.foldl_canon {α : Type} {f : Block → α → Block} (h : ∀ b x, b.Canon → (f b x).Canon) (xs : List α)
    {b : Block} (hb : b.Canon) : (xs.foldl f b).Canon := by
  induction xs generalizing b with
  | nil => exact hb
  | cons x xs ih => exact ih (h b x hb)

@[simp] theorem Block.setSide_canon {b : Block} (u : Nat) (p : DWord) (kind : Nat) :
    (b.setSide u p kind).Canon ↔ b.Canon := by simp [Block.setSide]

@[simp] theorem Block.reseal_canon {b : Block} (u : Nat) : (b.reseal u).Canon ↔ b.Canon := by
  unfold Block.reseal
  split <;> simp

@[simp] theorem Block.resealSound_canon {b : Block} (u : Nat) : (b.resealSound u).Canon ↔ b.Canon := by
  unfold Block.resealSound
  split <;> simp

section
variable {b : Block} (hb : b.Canon)
include hb

@[simp] theorem Block.setAccs_canon (off n : Nat) (xs : List Nat) : (b.setAccs off n xs).Canon :=
  ⟨hb.1, putBytes_canon _ _ hb.2.1, hb.2.2⟩

@[simp] theorem Block.writeUnit_canon (u kind : Nat) (ws : List Nat) : (b.writeUnit u kind ws).Canon := by
  unfold Block.writeUnit
  dsimp only
  split <;> simp [hb]

theorem Block.loadTile_canon (coff cpitch fmt : Nat) (rows : List (List Nat)) :
    (b.loadTile coff cpitch fmt rows).Canon := by
  unfold Block.loadTile
  exact Block.foldl_canon (fun _ _ h => Block.foldl_canon (fun _ _ h => (Block.setSide_canon _ _ _).mpr h) _
    (Block.setAccs_canon h _ _ _)) _ hb

theorem Block.mmaRow_canon (t : MmaType) (failed : Byte) (base n : Nat) (as : List (List Nat))
    (bs : List (List (List Nat))) : (b.mmaRow t failed base n as bs).1.Canon := by
  unfold Block.mmaRow
  exact Block.foldl_canon (fun _ _ h => (Block.setSide_canon _ _ _).mpr h) _ (Block.setAccs_canon hb _ _ _)

theorem Block.mmaRows_canon (t : MmaType) (failed : Byte) (coff cpitch n : Nat) (bs : List (List (List Nat))) (i : Nat)
    (rows : List (List Nat)) (fl : Flags) : (Block.mmaRows t failed coff cpitch n bs b i rows fl).1.Canon := by
  induction rows generalizing b i fl with
  | nil => exact hb
  | cons row rows ih => exact ih (Block.mmaRow_canon hb t failed _ n _ bs) _ _

end

section
variable {s : State} (hs : s.Tidy)
include hs

/-! ### Tenures -/

@[simp] theorem State.pruneFreed_tidy : s.pruneFreed.Tidy :=
  tablesTidy_mapLaunches hs fun e => by split <;> rfl

@[simp] theorem State.noteFreed_tidy (launch core im : Nat) : (s.noteFreed launch core im).Tidy :=
  State.pruneFreed_tidy (tablesTidy_mapLaunches hs fun e => by (repeat' split) <;> rfl)

@[simp] theorem State.noteImFreed_tidy (launch im : Nat) : (s.noteImFreed launch im).Tidy :=
  State.pruneFreed_tidy (tablesTidy_mapLaunches hs fun e => by split <;> rfl)

@[simp] theorem State.enterTenure_tidy (core : Nat) (t : Tenure) : (s.enterTenure core t).Tidy := by
  simp [State.enterTenure, hs]

@[simp] theorem State.strikeTenure_tidy (core entry : Nat) : (s.strikeTenure core entry).Tidy := by
  simp [State.strikeTenure, hs]

@[simp] theorem State.modTenure_tidy (core entry : Nat) (f : Tenure → Tenure) :
    (s.modTenure core entry f).Tidy := by simp [State.modTenure, hs]

@[simp] theorem State.freeTenure_tidy (core entry : Nat) : (s.freeTenure core entry).Tidy := by
  unfold State.freeTenure
  (repeat' split) <;> simp [hs]

@[simp] theorem State.strikeHandle_tidy (launch : Nat) (h : Word) :
    (s.strikeHandle launch h).Tidy := by
  unfold State.strikeHandle
  (repeat' split) <;> simp [hs]

theorem State.spill_tidy (core entry : Nat) (forOwn : Bool) :
    ∀ t ∈ s.spill core entry forOwn, t.Tidy := by
  -- The search for room is made opaque first: the kernel would run it.
  obtain ⟨fit, hfit⟩ : ∃ fit, s.poolFit = fit := ⟨_, rfl⟩
  unfold State.spill
  rw [hfit]
  clear hfit
  have freed {u : State} (hu : u.Tidy) (pool : List Spilled) (l c i : Nat) :
      (State.noteFreed { u.strikeTenure core entry with pool := pool } l c i).Tidy :=
    State.noteFreed_tidy (s := { u.strikeTenure core entry with pool := pool }) (State.strikeTenure_tidy hu _ _) _ _ _
  (repeat' split) <;> simp only [Option.mem_def, Option.some.injEq, forall_eq', reduceCtorEq, false_imp_iff,
    implies_true]
  all_goals exact freed (State.poke_tidy hs none _ _) _ _ _ _

@[simp] theorem State.unspill_tidy (core imCore : Nat) (p : Spilled) (base im : Nat) :
    (s.unspill core imCore p base im).2.Tidy := by simp [State.unspill, hs]

@[simp] theorem State.bring_tidy (c : Ctx) (n : Named) : (s.bring c n).Holds State.Tidy := by
  unfold State.bring
  split
  · trivial
  · trivial
  · split
    · exact hs
    split
    · trivial
    · trivial
    · simp only [Brought.Holds]
      exact State.noteFreed_tidy (State.enterTenure_tidy (State.strikeTenure_tidy hs _ _) _ _) _ _ _
  · split
    · trivial
    · trivial
    · simp only [Brought.Holds]
      exact State.unspill_tidy hs _ _ _ _ _

@[simp] theorem State.rowFaultAt_tidy (c : Ctx) (h : Word) (row : Nat) :
    (s.rowFaultAt c h row).Holds State.Tidy := by
  simp [hs, State.rowFaultAt, Res.Holds]

theorem State.withTenure_tidy (c : Ctx) (h : Word) (budget : Bool) {k : Nat → Tenure → State → Res}
    (hk : ∀ e t u, u.Tidy → (k e t u).Holds State.Tidy) :
    (s.withTenure c h budget k).Holds State.Tidy := by
  have hb := State.bring_tidy hs c (s.named c.b.launch h)
  unfold State.withTenure
  dsimp only
  split
  · exact hs
  split
  · exact State.countStall_tidy hs c
  split
  · exact hs
  · split <;> exact hs
  · exact hs
  · next e t u eq =>
    rw [eq, Brought.Holds] at hb
    exact Res.counted_tidy _ (hk e t u hb)

@[simp] theorem State.countPin_tidy (c : Ctx) : (s.countPin c).Tidy := by
  unfold State.countPin
  (repeat' split) <;> simp [hs]

@[simp] theorem State.grantPin_tidy (c : Ctx) (d : Nat) (shape : BitVec 4) (base im : Nat) :
    (s.grantPin c d shape base im).Holds State.Tidy := by
  unfold State.grantPin
  grind [State.addOp_tidy, State.enterTenure_tidy, State.countPin_tidy]

theorem execPin_tidy (d a : Reg) (g : Guard) :
    nextHolds State.Tidy (execPin d a g s) := by
  refine closing_tidy g true (issue_tidy hs _ fun c ops s hs => ?_)
  dsimp only
  split
  · trivial
  split
  · trivial
  split
  · trivial
  split
  · next r e => exact State.runStop_tidy hs r e
  split
  · exact hs
  split
  · exact State.grantPin_tidy hs c _ _ _ _
  · exact hs
  · split <;> exact hs

theorem execUnpin_tidy (d a : Reg) (g : Guard) :
    nextHolds State.Tidy (execUnpin d a g s) := by
  refine closing_tidy g true (issue_tidy hs _ fun c ops s hs => ?_)
  extract_lets h' addr n dump size
  clear_value n
  split
  · trivial
  split
  · trivial
  split
  · trivial
  split
  · trivial
  split
  · trivial
  split
  · split <;> exact hs
  split
  · exact hs
  · refine State.withTenure_tidy hs c h' false fun e t u hu => ?_
    split
    · exact State.addOp_tidy (by split <;> simp [hu]) c _
    split
    · exact State.rowFaultAt_tidy hu c h' 0
    split
    · exact State.rowFaultAt_tidy hu c h' _
    · exact State.addOp_tidy (by split <;> simp [hu]) c _

theorem execFwupd_tidy (d a : Reg) (g : Guard) :
    nextHolds State.Tidy (execFwupd d a g s) := by
  refine closing_tidy g true (issue_tidy hs _ fun c ops s hs => ?_)
  extract_lets h' n kk vv runs
  clear_value n
  split
  · trivial
  split
  · trivial
  split
  · trivial
  split
  · trivial
  split
  · next r e => exact State.runStop_tidy hs r e
  · refine State.withTenure_tidy hs c h' true fun e t u hu => ?_
    split
    · exact State.rowFaultAt_tidy hu c h' 0
    · exact State.addOp_tidy hu c _

theorem execFwrd_tidy (d a : Reg) (g : Guard) :
    nextHolds State.Tidy (execFwrd d a g s) := by
  refine issue_tidy hs _ fun c ops s hs => ?_
  extract_lets h' n kk vv reads writes
  clear_value n
  split
  · trivial
  split
  · trivial
  split
  · trivial
  split
  · trivial
  split
  · next r e => exact State.runStop_tidy hs r e
  · refine State.withTenure_tidy hs c h' true fun e t u hu => ?_
    split
    · exact State.rowFaultAt_tidy hu c h' 0
    split
    · exact State.rowFaultAt_tidy hu c h' _
    · exact State.addOp_tidy hu c _

theorem execAccChkTen_tidy (a : Reg) (g : Guard) :
    nextHolds State.Tidy (execAccChkTen a g s) := by
  refine issue_tidy hs _ fun c ops s hs => ?_
  extract_lets h' n
  clear_value n
  split
  · trivial
  split
  · trivial
  split
  · trivial
  · refine State.withTenure_tidy hs c h' false fun e t u hu => ?_
    split
    · exact State.rowFaultAt_tidy hu c h' 0
    · exact State.addOp_tidy hu c _

/-! ### Retirement of matrix operations -/

@[simp] theorem State.modOp_tidy (core id : Nat) (f : TileOp → TileOp) :
    (s.modOp core id f).Tidy := by simp [State.modOp, hs]

@[simp] theorem State.endOp_tidy (core : Nat) (o : TileOp) (fl : Flags) :
    (s.endOp core o fl).Tidy := by
  unfold State.endOp
  (repeat' split) <;> simp [hs]

@[simp] theorem State.failOp_tidy (core : Nat) (o : TileOp) (cause : Nat) (addr : DWord) (detail : Word) :
    (s.failOp core o cause addr detail).Tidy := by
  simp [hs, State.failOp]

@[simp] theorem State.replayOrFail_tidy (core : Nat) (o : TileOp) (addr : DWord) (detail : Word) :
    (s.replayOrFail core o addr detail).Tidy := by
  unfold State.replayOrFail
  (repeat' split) <;> simp [hs]

@[simp] theorem State.resealSound_tidy (us : List (Nat × Nat)) : (s.resealSound us).Tidy :=
  foldl_tidy (fun _ u h => State.modBlock_tidy h _ fun _ hb => (Block.resealSound_canon u.2).mpr hb) us hs

@[simp] theorem State.resealAll_tidy (us : List (Nat × Nat)) : (s.resealAll us).Tidy :=
  foldl_tidy (fun _ u h => State.modBlock_tidy h _ fun _ hb => (Block.reseal_canon u.2).mpr hb) us hs

@[simp] theorem State.settleUnits_tidy {t : State} (core : Nat) (o : TileOp) (fl : Flags) (ht : t.Tidy) :
    (s.settleUnits t core o fl).Tidy := by
  unfold State.settleUnits
  (repeat' split) <;> simp [hs, ht]

@[simp] theorem State.applyMma_tidy (core : Nat) (o : TileOp) (t : MmaType) (coff cpitch n k : Nat) :
    (s.applyMma core o t coff cpitch n k).1.Tidy := by
  unfold State.applyMma
  extract_lets bs part x
  have part_tidy (u : State) (hu : u.Tidy) (b : Nat) (failed : Byte) (rows : List (List Nat)) :
      (part u b failed rows).1.Tidy := by
    unfold part
    split
    · exact hu
    · next e => exact State.modBlock_tidy hu _ fun _ _ => Block.mmaRows_canon (hu.block e) _ _ _ _ _ _ _ _ _
  have first : x.1.Tidy := part_tidy s hs _ _ _
  split
  · exact first
  · exact part_tidy x.1 first _ _ _

@[simp] theorem State.writeDest_tidy (o : TileOp) (lanes : Mask) (v : Nat → Nat → Word) :
    (s.writeDest o lanes v).Tidy := by simp [State.writeDest, hs]

@[simp] theorem State.opShare_tidy (o : TileOp) (f : List Buffered → List Buffered) :
    (s.opShare o f).Tidy := by
  unfold State.opShare
  (repeat' split) <;> simp [hs]

theorem State.storeRun_tidy (c : Ctx) (o : TileOp) (a : DWord) (bs : List Byte) :
    (s.storeRun c o a bs).Holds State.Tidy := by
  have hc := State.check_tidy (s := { s with later := false }) hs c
    ((runAddrs o.gran (a, bs.length)).map fun x => (0, x)) o.gran .write .nothing
  unfold State.storeRun
  dsimp only
  split
  · trivial
  · trivial
  · exact hs
  · next ks t e =>
    rw [e, Checked.Holds] at hc
    exact State.modOp_tidy (s := { t with later := s.later }) hc _ _ _
  · exact hs
  · next rs t e =>
    rw [e, Checked.Holds] at hc
    split
    · exact State.opShare_tidy (s := { t with later := s.later }) hc _ _
    · refine foldl_tidy (fun u p hu => ?_) _ (s := { t with later := s.later }) hc
      split
      · exact State.modOp_tidy ((State.askAll_tidy _ _ _).mpr hu) _ _ _
      · exact State.storeAll_tidy hu _ _ _ _ _ _

@[simp] theorem State.storesAcked_tidy (core : Nat) (o : TileOp) :
    (s.storesAcked core o).Holds State.Tidy := by
  unfold State.storesAcked
  (repeat' split) <;> simp [hs, Stored.Holds]

theorem State.storeOut_tidy (core : Nat) (o : TileOp) (xs : List (DWord × List Byte)) :
    (State.storeOut core o xs s).Holds State.Tidy := by
  induction xs generalizing s with
  | nil =>
    exact State.storesAcked_tidy (State.modOp_tidy hs core o.id fun o => { o with out := some [] }) core o
  | cons x xs ih =>
    unfold State.storeOut
    split
    · exact hs
    · next c _ =>
      have hr := State.storeRun_tidy hs c o x.1 x.2
      split
      · next t e => rw [e] at hr; exact ih hr
      · next t e => rw [e, Moved.Holds] at hr; exact State.modOp_tidy hr _ _ _
      · exact State.modOp_tidy (State.recordHeld_tidy hs _ _) _ _ _
      · exact State.failOp_tidy hs _ _ _ _ _

@[simp] theorem State.chkUnits_tidy (core : Nat) (o : TileOp) (xs : List (Nat × Nat)) :
    (s.chkUnits core o xs).Tidy := by
  induction xs generalizing s with
  | nil => exact State.endOp_tidy hs core o 0
  | cons x xs ih =>
    unfold State.chkUnits
    split
    · exact State.failOp_tidy hs _ _ _ _ _
    · exact ih (State.modBlock_tidy hs _ fun b hb => (Block.resealSound_canon _).mpr hb)

@[simp] theorem State.retireRnsr_tidy (core : Nat) (o : TileOp) (b : Block) :
    (s.retireRnsr core o b).Tidy := by
  unfold State.retireRnsr
  dsimp only
  split
  · exact State.failOp_tidy hs _ _ _ _ _
  · exact State.endOp_tidy (State.writeDest_tidy (State.modCore_tidy hs _ _) _ _ _) _ _ _

@[simp] theorem State.opTenure_tidy (core : Nat) (o : TileOp) (c : Ctx) :
    (s.opTenure core o c).Holds State.Tidy := by
  unfold State.opTenure
  (repeat' split) <;> grind [State.bring_tidy, Brought.Holds, OpTenure.Holds]

theorem State.onTenure_tidy (core : Nat) (o : TileOp) (c : Ctx) (k : Nat → Nat → Tenure → State → State) (hk :
    ∀ n i t u, u.Tidy → (k n i t u).Tidy) :
    (s.onTenure core o c k).Tidy := by
  have h := State.opTenure_tidy hs core o c
  unfold State.onTenure
  split
  · exact hs
  · exact State.failOp_tidy hs _ _ _ _ _
  · next n i t u e =>
    rw [e, OpTenure.Holds] at h
    split
    · exact State.failOp_tidy h _ _ _ _ _
    · exact hk n i t u h

theorem State.putStores_tidy (core : Nat) (o : TileOp)
    (xs : List (DWord × List Byte)) {done : State → State} (hd : ∀ u, u.Tidy → (done u).Tidy) :
    (s.putStores core o xs done).Tidy := by
  have h := State.storeOut_tidy hs core o xs
  unfold State.putStores
  split
  · next t e => rw [e] at h; exact hd t h
  · next t e => rw [e] at h; exact h
  · next t e => rw [e] at h; exact h

@[simp] theorem State.unpinned_tidy (core : Nat) (o : TileOp) (c : Ctx) :
    (s.unpinned core o c).Tidy := by
  unfold State.unpinned
  (repeat' split) <;> grind [State.modTenure_tidy, State.freeTenure_tidy, State.endOp_tidy, State.failOp_tidy,
      State.opShare_tidy, State.opTenure_tidy, OpTenure.Holds]

@[simp] theorem State.retireKind_tidy (core : Nat) (o : TileOp) (c : Ctx) :
    (s.retireKind core o c).Tidy := by
  unfold State.retireKind
  split
  case h_1 => exact State.settleUnits_tidy hs core o _ (State.applyMma_tidy hs core o _ _ _ _ _)
  case h_2 =>
    exact State.settleUnits_tidy hs core o _
      (State.resealAll_tidy (State.modBlock_tidy hs _ fun b hb => Block.loadTile_canon hb _ _ _ _) _)
  case h_3 =>
    split
    · exact State.putStores_tidy hs core o _ fun u hu => State.endOp_tidy hu _ _ _
    split
    · exact State.failOp_tidy hs _ _ _ _ _
    · exact State.putStores_tidy (State.modOp_tidy hs _ _ _) core o _ fun u hu => State.endOp_tidy hu _ _ _
  case h_4 =>
    exact State.endOp_tidy (State.modBlock_tidy hs _ fun b hb =>
      Block.foldl_canon (fun _ _ h => (Block.setSide_canon _ _ _).mpr (Block.setAccs_canon h _ _ _)) _ hb) _ _ _
  case h_6 =>
    exact State.settleUnits_tidy hs core o _ (State.resealAll_tidy (State.modBlock_tidy hs _ fun b hb =>
      Block.foldl_canon (fun _ _ h => Block.writeUnit_canon h _ _ _) _ hb) _)
  case h_7 => exact State.chkUnits_tidy hs _ _ _
  case h_8 | h_11 | h_12 =>
    refine State.onTenure_tidy hs core o c _ fun n i t u hu => ?_
    dsimp only
    (try split) <;> simp [hu]
  case h_10 =>
    split
    · exact State.unpinned_tidy hs _ _ _
    split
    · exact State.putStores_tidy hs core o _ fun u hu => State.unpinned_tidy hu _ _ _
    · refine State.onTenure_tidy hs core o c _ fun n i t u hu => ?_
      split
      · exact State.failOp_tidy hu _ _ _ _ _
      · exact State.putStores_tidy (State.modOp_tidy hu _ _ _) core o _ fun u hu => State.unpinned_tidy hu _ _ _
  all_goals
    (try split) <;> simp [hs]

@[simp] theorem State.retireOp_tidy (core id : Nat) :
    (s.retireOp core id).Tidy := by
  unfold State.retireOp
  (repeat' split) <;> grind [State.fetchRuns_tidy, State.recordHeld_tidy, State.modOp_tidy, State.failOp_tidy,
      State.retireKind_tidy, Fetched.Holds]

@[simp] theorem State.tryRetire_tidy (core id : Nat) :
    (s.tryRetire core id).Tidy := by
  unfold State.tryRetire
  (repeat' split) <;> simp [hs]

theorem execMatrixOperationRetirement_tidy :
    nextHolds State.Tidy (execMatrixOperationRetirement s) := by
  unfold execMatrixOperationRetirement
  simp_all [nextHolds]

@[simp] theorem State.finishTenure_tidy (launch : Nat) (h : Word) :
    (s.finishTenure launch h).Tidy := by
  unfold State.finishTenure
  exact foldl_tidy (fun _ x h => by simp [h]) _ hs

theorem execPairOperationFollowerStart_tidy :
    nextHolds State.Tidy (execPairOperationFollowerStart s) := by
  unfold execPairOperationFollowerStart
  (repeat' split) <;> simp_all [nextHolds]

theorem execPinAllocation_tidy :
    nextHolds State.Tidy (execPinAllocation s) := by
  unfold execPinAllocation
  split
  · exact hs
  split
  · exact hs
  split
  · exact hs
  split
  · exact State.settle_tidy (State.modWave_tidy.mpr hs) _ _ trivial
  · exact State.snapshot_tidy (State.settle_tidy hs _ _ (State.grantPin_tidy hs _ _ _ _ _)) _

theorem execGovernorWindow_tidy :
    nextHolds State.Tidy (execGovernorWindow s) := by
  unfold execGovernorWindow
  simp_all [nextHolds]

theorem execRnsfailWrite_tidy (core : Nat) (bits : BitVec 8) :
    nextHolds State.Tidy (execRnsfailWrite core bits s) := by
  unfold execRnsfailWrite
  (repeat' split) <;> simp_all [nextHolds]

theorem execRnsfailEffect_tidy :
    nextHolds State.Tidy (execRnsfailEffect s) := by
  unfold execRnsfailEffect
  (repeat' split) <;> simp_all [nextHolds]


end
end Sys2Proof.Machine
end

section
namespace Sys2Proof.Machine
open Sys2Proof

section
variable {s : State} (hs : s.Tidy)
include hs

/-! ### Words of a standing program -/

theorem execRset_tidy (a : Reg) (g : Guard) :
    nextHolds State.Tidy (execRset a g s) := by
  unfold execRset
  refine issue_tidy hs _ fun c ops s hs => ?_
  (repeat' split) <;> simp_all [Res.Holds]

theorem execRpost_tidy (a : Reg) (g : Guard) :
    nextHolds State.Tidy (execRpost a g s) := by
  unfold execRpost
  refine issue_tidy hs _ fun c ops s hs => ?_
  (repeat' split) <;> simp_all [Res.Holds]

theorem execRget_tidy (d a : Reg) (g : Guard) :
    nextHolds State.Tidy (execRget d a g s) := by
  unfold execRget
  refine issue_tidy hs _ fun c ops s hs => ?_
  simp_all [Res.Holds]

theorem execQend_tidy (g : Guard) :
    nextHolds State.Tidy (execQend g s) := by
  unfold execQend
  refine issue_tidy hs _ fun c ops s hs => ?_
  simp_all [Res.Holds]

/-! ### Arrivals -/

theorem execLoadDataReturn_tidy :
    nextHolds State.Tidy (execLoadDataReturn s) := by
  unfold execLoadDataReturn
  (repeat' split) <;> simp_all [nextHolds]

theorem execStoreAcknowledgement_tidy :
    nextHolds State.Tidy (execStoreAcknowledgement s) := by
  unfold execStoreAcknowledgement
  (repeat' split) <;> simp_all [nextHolds]

theorem execL1LeaseEnd_tidy :
    nextHolds State.Tidy (execL1LeaseEnd s) := by
  unfold execL1LeaseEnd
  (repeat' split) <;> simp_all [nextHolds]

@[simp] theorem State.wake_tidy (key : Nat) (out : Option Nat) : (s.wake key out).Tidy :=
  tablesTidy_mapCores (tablesTidy_mapWaves hs fun _ => by rfl) fun _ => by rfl

theorem execPageWalk_tidy : nextHolds State.Tidy (execPageWalk s) := by
  have wake (ws : List Walk) (key : Nat) (out : Option Nat) : (State.wake { s with walks := ws } key out).Tidy :=
    State.wake_tidy (s := { s with walks := ws }) hs key out
  unfold execPageWalk
  simp only [nextHolds]
  split
  · exact hs
  · split
    · exact wake _ _ _
    · exact wake _ _ _
    · exact State.wake_tidy (foldl_tidy (fun _ c h => State.fillTlb_tidy h c _) _ (by exact hs)) _ _

theorem execBackoffExpiry_tidy :
    nextHolds State.Tidy (execBackoffExpiry s) := by
  unfold execBackoffExpiry
  (repeat' split) <;> simp_all [nextHolds]

theorem execStarvation_tidy :
    nextHolds State.Tidy (execStarvation s) := by
  unfold execStarvation
  (repeat' split) <;> simp_all [nextHolds]

theorem execTimerTrap_tidy : nextHolds State.Tidy (execTimerTrap s) := by
  unfold execTimerTrap
  (repeat' split) <;> simp_all [nextHolds]

@[simp] theorem State.lateError_tidy (key acc lane : Nat) (addr : DWord) :
    (s.lateError key acc lane addr).Tidy := by
  unfold State.lateError
  (repeat' split) <;> simp [hs]

@[simp] theorem State.lateAnswer_tidy (tag : Nat) : (s.lateAnswer tag).Tidy := by
  unfold State.lateAnswer
  (repeat' split) <;> simp [hs]

@[simp] theorem State.lateChecks_tidy (key : Nat) : (s.lateChecks key).Tidy := by
  unfold State.lateChecks
  split
  · exact hs
  split
  · exact hs
  · exact foldl_tidy (fun _ tag h => State.lateAnswer_tidy h tag) _ hs

@[simp] theorem State.answer_tidy (tag : Nat) (status : Byte) (data : List Byte) :
    (s.answer tag status data).Tidy := by
  unfold State.answer
  (repeat' split) <;> simp [hs]

@[simp] theorem State.hearAnswer_tidy (tag : Nat) (status : Byte) (data : List Byte) (agree : Bool) :
    (s.hearAnswer tag status data agree).Tidy := State.hear_tidy hs _ agree (State.answer_tidy hs tag status data)

theorem execReadResponse_tidy (tag : BitVec 32) (status : BitVec 8) (data : List Byte) :
    nextHolds State.Tidy (execReadResponse tag status data s) := by
  unfold execReadResponse
  simp_all [nextHolds]

theorem execWriteResponse_tidy (tag : BitVec 32) (status : BitVec 8) :
    nextHolds State.Tidy (execWriteResponse tag status s) := by
  unfold execWriteResponse
  simp_all [nextHolds]

theorem execAtomicResponse_tidy (tag : BitVec 32) (status : BitVec 8) (old : List Byte) :
    nextHolds State.Tidy (execAtomicResponse tag status old s) := by
  unfold execAtomicResponse
  simp_all [nextHolds]

theorem execRemoteRequestTimeout_tidy :
    nextHolds State.Tidy (execRemoteRequestTimeout s) := by
  unfold execRemoteRequestTimeout
  (repeat' split) <;> simp_all [nextHolds]

@[simp] theorem State.reply_tidy (kind src : BitVec 16) (tag : Word) (pa : Nat) (status : Byte)
    (data : List Byte) :
    (s.reply kind src tag pa status data).Tidy := by simp [State.reply, hs]

@[simp] theorem State.replyWrite_tidy (x : Option WriteReply) : (s.replyWrite x).Tidy := by
  unfold State.replyWrite
  (repeat' split) <;> simp [hs]

theorem execReservedMessage_tidy :
    nextHolds State.Tidy (execReservedMessage s) := by
  unfold execReservedMessage
  simp_all [nextHolds]

theorem execPortDown_tidy : nextHolds State.Tidy (execPortDown s) := by
  unfold execPortDown
  (repeat' split) <;> simp_all [nextHolds]

theorem execBarrierArrive_tidy (src : BitVec 16) (msg : BarMsg) :
    nextHolds State.Tidy (execBarrierArrive src msg s) := by
  have ht : State.Tidy { s with doms := s.doms ++ [(src, msg)] } := hs
  refine State.hear_tidy hs src true ?_
  dsimp only
  split
  · exact State.domCount_tidy ht _ _ _
  · exact State.domSweep_tidy (foldl_tidy (fun _ g h => State.domCount_tidy h _ _ g) _ ht) _ _

theorem execBarrierRelease_tidy (msg : BarMsg) :
    nextHolds State.Tidy (execBarrierRelease msg s) :=
  State.hear_tidy hs _ true (State.domRelease_tidy hs msg)

/-! ### Traps -/

@[simp] theorem State.drainTiles_tidy (b : Nat) :
    (s.drainTiles b).Tidy := by
  unfold State.drainTiles
  exact foldl_tidy (fun _ x h => by simp [h]) _ hs

@[simp] theorem State.restoreOps_tidy (b : Nat) : (s.restoreOps b).Tidy :=
  tablesTidy_mapCores hs fun _ => by rfl

@[simp] theorem State.performIssued_tidy (b : Nat) :
    (s.performIssued b).Tidy := by
  unfold State.performIssued
  exact State.restoreOps_tidy (State.drainTiles_tidy (foldl_tidy (fun _ e h => by simp [h]) _ hs) b) b

@[simp] theorem State.finishHalt_tidy (b : Nat) :
    (s.finishHalt b).Tidy := by
  unfold State.finishHalt
  split
  · exact hs
  split
  · exact hs
  · have hp (f : Wave → Wave) := State.modWavesOf_tidy (State.performIssued_tidy hs b) b f
    have hd (f : Wave → Wave) (g : Option Halt → Option Halt) :
        (((s.performIssued b).modWavesOf b f).modBlock b fun k => { k with halt := g k.halt }).Tidy :=
      State.modBlock_tidy (hp f) b fun _ h => h
    dsimp only
    (repeat' split) <;> simp [hp, hd]

theorem execBlockHalt_tidy : nextHolds State.Tidy (execBlockHalt s) := by
  unfold execBlockHalt
  simp_all [nextHolds]

@[simp] theorem State.postRecord_tidy (r : TrapRec) (again : Bool) :
    (s.postRecord r again).Tidy := by
  unfold State.postRecord
  (repeat' split) <;> simp [hs]

theorem execTrapRecordPosting_tidy :
    nextHolds State.Tidy (execTrapRecordPosting s) := by
  unfold execTrapRecordPosting
  (repeat' split) <;> simp_all [nextHolds]

theorem execRepost_tidy : nextHolds State.Tidy (execRepost s) := by
  unfold execRepost
  (repeat' split) <;> simp_all [nextHolds]

@[simp] theorem State.dropLost_tidy (b : Nat) : (s.dropLost b).Tidy := by simp [State.dropLost, hs]

@[simp] theorem State.rollBack_tidy (b : Nat) : (s.rollBack b).Tidy := by
  unfold State.rollBack
  split
  · exact hs
  · next blk e =>
    split
    · next h n l _ hn _ =>
      have hb := (hs.block e).2.2 n hn
      extract_lets t live u v
      have ht : t.Tidy := by
        unfold t
        split <;> simp [hs]
      have hv : v.Tidy := State.modBlock_tidy (State.modCore_tidy ht _ _) _ fun k hk => ⟨hb.1, hb.2, hk.2.2⟩
      exact tablesTidy_mapWaves hv fun e => by (repeat' split) <;> rfl
    · exact hs

theorem execRollback_tidy : nextHolds State.Tidy (execRollback s) := by
  unfold execRollback
  split
  · exact hs
  split
  · exact hs
  · extract_lets t u
    have hu : u.Tidy :=
      foldl_tidy (fun _ j h => State.runJob_tidy h _ _) _ (foldl_tidy (fun _ e h => State.drain_tidy h e.1) _ hs)
    split
    · exact State.rollBack_tidy hu _
    · exact hu

@[simp] theorem State.peResult_tidy (res : Byte) : (s.peResult res).Tidy := by simp [State.peResult, hs]

@[simp] theorem State.peWait_tidy (j : PeOp) : (s.peWait j).Tidy := by simp [State.peWait, hs]

theorem State.peRun_tidy (op : Nat)
    (core : BitVec 8) {f : PeOp → State → State} 
    (hf : ∀ j t, t.Tidy → (f j t).Tidy) : (s.peRun op core f).Tidy := by
  unfold State.peRun
  (repeat' split) <;> simp [hs, hf]

@[simp] theorem State.resumeBlock_tidy (b : Nat) :
    (s.resumeBlock b).Tidy := by
  unfold State.resumeBlock
  split
  · exact hs
  · refine State.afterExit_tidy (State.Tidy.mapCores ?_ _) b
    exact State.modBlock_tidy (State.modWavesOf_tidy (State.dropLost_tidy hs b) _ _) _ fun k hk => by
      (repeat' split) <;> exact hk

theorem execResume_tidy : nextHolds State.Tidy (execResume s) := by
  refine State.peRun_tidy hs 3 0 fun j t h => ?_
  have hr (b : Nat) := State.resumeBlock_tidy (State.finishHalt_tidy h b) b
  dsimp only
  (repeat' split) <;> simp [h, hr]

@[simp] theorem State.discardBlock_tidy (b : Nat) :
    (s.discardBlock b).Tidy := by
  have hp := State.dropLost_tidy (State.performIssued_tidy hs b) b
  unfold State.discardBlock
  split
  · exact hs
  split
  · exact hs
  extract_lets t
  split
  · exact State.modWavesOf_tidy (State.modBlock_tidy hp _ fun _ hk => by exact hk) _ _
  · next u v _ =>
    have hu : u.Tidy := State.modWavesOf_tidy hp b _
    have hv : v.Tidy := State.Tidy.mapCores hu _
    exact State.afterExit_tidy (State.modLaunch_tidy.mpr (State.modBlock_tidy hv _ fun _ hk => by exact hk)) b

theorem execDiscard_tidy : nextHolds State.Tidy (execDiscard s) := by
  refine State.peRun_tidy hs 4 0 fun j t h => ?_
  have hd (b : Nat) := State.discardBlock_tidy (State.finishHalt_tidy h b) b
  dsimp only
  (repeat' split) <;> simp [h, hd]

@[simp] theorem State.haltAtExit_tidy (b : Nat) (key : Nat) (d : Deferred) :
    (s.haltAtExit b key d).Tidy := by
  unfold State.haltAtExit
  dsimp only
  (repeat' split) <;> simp [hs]

/-! ### Placement of launches -/

@[simp] theorem State.putWaves_tidy (l : Launch) (block core i : Nat)
    (xs : List ((Nat × Nat) × (Nat × Nat))) :
    (s.putWaves l block core i xs).Tidy := by
  induction xs generalizing s i with
  | nil => exact hs
  | cons x xs ih => exact ih (by exact tablesTidy_setWave hs _ _) (i + 1)

theorem State.sysWrite_tidy (asid root va : Nat) (bs : List Byte) :
    ∀ t ∈ (s.sysWrite asid root va bs), t.Tidy := by
  unfold State.sysWrite
  (repeat' split) <;> grind [State.poke_tidy, State.noteWrite_tidy]

theorem State.sysStore_tidy (asid root fuel va : Nat) (bs : List Byte) :
    ∀ t ∈ s.sysStore asid root fuel va bs, t.Tidy := by
  induction fuel generalizing s va bs with
  | zero =>
    intro t ht
    exact Option.some.inj ht ▸ hs
  | succ n ih =>
    unfold State.sysStore
    split
    · intro t ht
      exact Option.some.inj ht ▸ hs
    · dsimp only
      split
      · simp
      · next u e => exact ih (State.sysWrite_tidy hs asid root va _ u e) _ _

@[simp] theorem State.logEntry_tidy (launch : Nat) (l : Launch) (rank core sect start : Nat) :
    (s.logEntry launch l rank core sect start).Tidy := by
  unfold State.logEntry
  (repeat' split) <;> grind [State.modLaunch_tidy, State.sysStore_tidy]

@[simp] theorem State.startBlock_tidy (launch rank core : Nat) (p im : Spot) :
    (s.startBlock launch rank core p im).Tidy := by
  unfold State.startBlock
  split
  · exact hs
  · next l0 _ =>
    dsimp only
    refine State.snapshot_tidy ?_ _
    have placed {u : State} (hu : u.Tidy) (l : Launch) (gen) :
        let v := freshBlock launch l rank core p im gen
        (State.putWaves { u with blocks := u.blocks.set (blockKey launch rank) v } l (blockKey launch rank) core 0
          (p.waves.zip im.waves)).Tidy :=
      State.putWaves_tidy (by exact tablesTidy_setBlock hu _ ⟨rfl, rfl, fun _ h => nomatch h⟩) _ _ _ _ _
    (repeat' split) <;> simp [hs, placed]

@[simp] theorem State.endDrain_tidy (launch : Nat) : (s.endDrain launch).Tidy :=
  tablesTidy_mapCores hs fun _ => by split <;> rfl

@[simp] theorem State.adopt_tidy (launch : Nat) (l : Launch) (x : Placing) :
    (s.adopt launch l x).Tidy := by
  unfold State.adopt
  split
  · exact State.modLaunch_tidy.mpr hs
  · exact foldl_tidy (fun _ y h => State.startBlock_tidy h _ _ _ _ _) _ hs

@[simp] theorem State.placeAtLaunch_tidy (launch : Nat) :
    (s.placeAtLaunch launch).Tidy := by
  unfold State.placeAtLaunch
  (repeat' split) <;> simp [hs]

@[simp] theorem State.realise_tidy (launch : Nat) :
    (s.realise launch).Tidy := by
  unfold State.realise
  split
  · exact hs
  dsimp only
  split
  · exact hs
  · rw [State.modLaunch_tidy]
    exact foldl_tidy (fun _ x h => by split <;> simp [h]) _ hs

@[simp] theorem State.tryOpen_tidy (launch : Nat) : (s.tryOpen launch).Tidy := by
  unfold State.tryOpen
  split
  · exact hs
  · extract_lets busy again mine
    split
    · exact State.modLaunch_tidy.mpr (State.Tidy.mapWaves hs fun e => by split <;> rfl)
    · exact hs

@[simp] theorem State.refillAll_tidy (launch n : Nat) :
    (State.refillAll launch n s).Tidy := by
  induction n generalizing s with
  | zero => exact hs
  | succ n ih =>
    unfold State.refillAll
    split
    · exact hs
    split
    · exact hs
    · exact ih (State.modLaunch_tidy.mpr (State.adopt_tidy hs _ _ _))

@[simp] theorem State.noteWaits_tidy : s.noteWaits.Tidy :=
  State.pruneFreed_tidy (by exact tablesTidy_mapCores (tablesTidy_mapLaunches hs fun _ => by rfl) fun _ => by rfl)

theorem execDrain_tidy : nextHolds State.Tidy (execDrain s) := by
  unfold execDrain
  (repeat' split) <;> simp_all [nextHolds]

theorem State.relaxOne_tidy (launch p : Nat) (l : Launch) :
    ∀ t ∈ s.relaxOne launch p l, t.Tidy := by
  unfold State.relaxOne
  split
  · simp
  · intro t ht
    obtain ⟨y, -, rfl⟩ := Option.map_eq_some_iff.mp ht
    simp [hs]

theorem State.placeOne_tidy (launch : Nat) (l : Launch) :
    ∀ t ∈ s.placeOne launch l, t.Tidy := by
  unfold State.placeOne
  split
  · dsimp only
    split
    · simp
    · simp [hs]
  split
  · exact State.relaxOne_tidy hs launch _ l
  split
  · split
    · simp
    · intro t ht
      obtain ⟨y, -, rfl⟩ := Option.map_eq_some_iff.mp ht
      simp [hs]
  split
  · split
    · simp
    · intro t ht
      obtain ⟨y, -, rfl⟩ := Option.map_eq_some_iff.mp ht
      simp [hs]
  split
  · intro t ht
    obtain ⟨y, -, rfl⟩ := Option.map_eq_some_iff.mp ht
    simp [hs]
  · simp [hs]

theorem execClusterPlacement_tidy :
    nextHolds State.Tidy (execClusterPlacement s) := by
  unfold execClusterPlacement
  (repeat' split) <;> grind [State.noteWaits_tidy, State.placeOne_tidy, nextHolds]

@[simp] theorem State.retireBlock_tidy (b : Nat) : (s.retireBlock b).Tidy := by
  unfold State.retireBlock
  split
  · exact hs
  · exact State.noteFreed_tidy
      (by exact tablesTidy_filterWaves (tablesTidy_eraseBlock (State.modLaunch_tidy.mpr hs) _) _) _ _ _

theorem execBlockRetirement_tidy :
    nextHolds State.Tidy (execBlockRetirement s) := by
  unfold execBlockRetirement
  (repeat' split) <;> simp_all [nextHolds]

@[simp] theorem State.complete_tidy (ep : BitVec 16) (tag : Word) (status kindStatus slot : Nat)
    (outcome : Byte) (block : Word) (bounds : Nat) :
    (s.complete ep tag status kindStatus slot outcome block bounds).Tidy := by simp [State.complete, hs]

@[simp] theorem State.dropLaunch_tidy (launch : Nat) (l : Launch) : (s.dropLaunch launch l).Tidy := by
  unfold State.dropLaunch
  exact foldl_tidy (fun _ x h => State.noteFreed_tidy h _ _ _) _
    (State.endDrain_tidy (by exact tablesTidy_mapCores (tablesTidy_eraseLaunch hs _) fun _ => by rfl) _)

theorem execRunCompletion_tidy :
    nextHolds State.Tidy (execRunCompletion s) := by
  have ended {u : State} (hu : u.Tidy) (l : Launch) (ep tag a b k o w n) :
      ((u.complete ep tag a b k o w n).dropLaunch u.subj.a l).noteWaits.Tidy :=
    State.noteWaits_tidy (State.dropLaunch_tidy (State.complete_tidy hu _ _ _ _ _ _ _ _) _ _)
  unfold execRunCompletion
  split
  · exact hs
  split
  · split
    · exact ended (State.domArrive_tidy hs _ _) _ _ _ _ _ _ _ _ _
    · exact ended hs _ _ _ _ _ _ _ _ _
  · exact hs


end
end Sys2Proof.Machine
end

section
namespace Sys2Proof.Machine
open Sys2Proof

section
variable {s : State} (hs : s.Tidy)
include hs

/-! ### Boundaries and spills -/

theorem State.commitAsk_tidy (key : Nat) (e : Buffered) : ∀ x ∈ s.commitAsk key e, x.2.Tidy := by
  unfold State.commitAsk
  (repeat' split) <;> simp [hs]

omit hs in
@[simp] theorem State.commitOld_tidy (key : Nat) (dest : List Nat) (lanes : Mask) (old : Nat) :
    (s.commitOld key dest lanes old).Tidy ↔ s.Tidy := by simp [State.commitOld]

@[simp] theorem State.dropCode_tidy (a n : Nat) : (s.dropCode a n).Tidy :=
  State.Tidy.mapCores hs _

@[simp] theorem State.dropLoc_tidy (l : Loc) (n : Nat) : (s.dropLoc l n).Tidy := by
  unfold State.dropLoc
  (repeat' split) <;> simp [hs]

@[simp] theorem State.commitFails_tidy (launch key lane : Nat) (addr : DWord) :
    (s.commitFails launch key lane addr).Tidy := by
  simp [hs, State.commitFails]

omit hs in
@[simp] theorem State.commitBy_tidy (launch v : Nat) : (s.commitBy launch v).Tidy ↔ s.Tidy := by simp [State.commitBy]

@[simp] theorem State.commitHere_tidy (launch key core : Nat) (x : Buffered) :
    (s.commitHere launch key core x).Tidy := by
  unfold State.commitHere
  (repeat' split) <;> simp [hs]

@[simp] theorem State.commitAnswer_tidy (launch key : Nat) (r : RemoteReq) (x : Buffered) :
    (s.commitAnswer launch key r x).Tidy := by
  unfold State.commitAnswer
  (repeat' split) <;> simp [hs]

@[simp] theorem State.commitOn_tidy (launch : Nat) (es : List (Nat × Nat × Buffered)) :
    (State.commitOn launch es s).1.Tidy := by
  induction es generalizing s with
  | nil => exact hs
  | cons e es ih =>
    unfold State.commitOn
    dsimp only
    split
    · split
      · exact ih (by exact State.modLaunch_tidy.mpr hs)
      split
      · exact hs
      · exact ih (by simp [hs])
    · refine iteInduction (motive := fun y : State × Bool => y.1.Tidy) (fun _ => ih (by simp [hs])) fun _ => ?_
      split
      · next x eq => exact State.modLaunch_tidy.mpr (State.commitAsk_tidy hs _ _ x eq)
      · exact ih (by simp [hs])

@[simp] theorem State.commit_tidy (launch : Nat) (l : Launch) :
    (s.commit launch l).Tidy := by
  unfold State.commit
  dsimp only
  (repeat' split) <;> simp [hs]

@[simp] theorem State.enterJob_tidy (core : Nat) (j : Job) (tag : Word) :
    (s.enterJob core j tag).Tidy := by
  unfold State.enterJob
  (repeat' split) <;> simp [hs]

@[simp] theorem State.runJobs_tidy (tag : Word) (xs : List (Nat × Nat)) :
    (State.runJobs tag xs s).1.Tidy := by
  induction xs generalizing s with
  | nil => exact hs
  | cons x xs ih =>
    unfold State.runJobs
    split
    · exact ih hs
    · dsimp only
      split
      · exact ih (by simp [hs])
      · simp [hs]

@[simp] theorem State.boundaryBar_tidy (k : Blocked) (key : Nat) :
    (s.boundaryBar k key).Tidy := by
  unfold State.boundaryBar
  (repeat' split) <;> simp [hs]

@[simp] theorem State.boundaryTicket_tidy (key : Nat) :
    (s.boundaryTicket key).Tidy := by
  unfold State.boundaryTicket
  split
  · exact hs
  · next c _ =>
    split
    · dsimp only
      split
      · exact State.settle_tidy hs c 1 (State.writeReg_tidy hs _ _ _)
      · split
        · have hb (a : Bool) : (s.modBlock c.w.block fun b => { b with tktAband := a }).Tidy :=
            State.modBlock_tidy hs _ fun _ hk => hk
          exact State.settle_tidy (hb _) c 1 (State.writeReg_tidy (hb _) _ _ _)
        · exact hs
    · exact hs

@[simp] theorem State.boundaryWaits_tidy (launch : Nat) :
    (s.boundaryWaits launch).Tidy :=
  foldl_tidy (fun _ k h => State.boundaryTicket_tidy h k) _
    (foldl_tidy (fun _ k h => State.boundaryBar_tidy h .barDev k) _
      (foldl_tidy (fun _ k h => State.boundaryBar_tidy h .barC k) _ hs))

@[simp] theorem State.killFailing_tidy (launch : Nat) (tag : Word) (n : Nat) :
    (State.killFailing launch tag n s).Tidy := by
  induction n generalizing s with
  | zero => exact hs
  | succ n ih =>
    unfold State.killFailing
    split
    · exact hs
    · exact ih (by simp [hs])

@[simp] theorem State.killDoomed_tidy (launch : Nat) : (s.killDoomed launch).Tidy := by
  unfold State.killDoomed
  exact foldl_tidy (fun _ x h => by simp [h]) _ hs

@[simp] theorem State.close_tidy (launch : Nat) :
    (s.close launch).Tidy := by
  have hd : (((s.wavesIn launch).map (·.1)).foldl State.drain s).Tidy :=
    foldl_tidy (fun _ k h => State.drain_tidy h k) _ hs
  unfold State.close
  dsimp only
  split
  · exact hd
  split
  · exact State.modLaunch_tidy.mpr hd
  · exact State.killFailing_tidy (State.modLaunch_tidy.mpr (State.killDoomed_tidy hd _)) _ _ _

@[simp] theorem State.boundaryFront_tidy (launch : Nat) :
    (s.boundaryFront launch).1.Tidy := by
  unfold State.boundaryFront
  (repeat' split) <;> grind [State.commit_tidy, State.runJobs_tidy, State.boundaryWaits_tidy, State.close_tidy]

@[simp] theorem State.freeImagined_tidy (launch : Nat) (h : Word) :
    (s.freeImagined launch h).Tidy := by simp [State.freeImagined, hs]

@[simp] theorem State.spillRounds_tidy (core : Nat) (own : Option Nat) (ws : List (Nat × Nat × BitVec 4)) (n : Nat) :
    (State.spillRounds core own ws n s).Tidy := by
  induction n generalizing s with
  | zero => exact hs
  | succ n ih =>
    unfold State.spillRounds
    split
    · exact hs
    split
    · exact hs
    split
    · exact hs
    · split
      · dsimp only
        split
        · simp [hs]
        · exact ih (by simp [hs])
      split
      · next u e => exact ih (State.spill_tidy hs _ _ _ u e)
      · split <;> simp [hs]
    · exact ih (by simp [hs])
    · exact hs

@[simp] theorem State.relievePins_tidy (core : Nat) (own : Option Nat) (ws : List (Nat × Nat × BitVec 4)) :
    (s.relievePins core own ws).Tidy := by
  unfold State.relievePins
  (repeat' split) <;> simp [hs]

@[simp] theorem State.boundarySpills_tidy (launch : Nat) :
    (s.boundarySpills launch).Tidy := by
  unfold State.boundarySpills
  exact foldl_tidy (fun _ x h => by simp [h]) _ hs

@[simp] theorem State.boundaryRetire_tidy (launch : Nat) (bs : List Nat) :
    (State.boundaryRetire launch bs s).Tidy := by
  induction bs generalizing s with
  | nil => exact hs
  | cons b bs ih =>
    unfold State.boundaryRetire
    refine ih ?_
    (repeat' split) <;> simp [hs]

omit hs in
/-- A snapshot that begins its quantum again stays canonical. -/
theorem Block.canon_freshQuantum {b : Block} (h : b.Canon) :
    Block.Canon { b with snap := b.snap.map Snapshot.freshQuantum } :=
  bytesCanon_mapSnap h fun _ h1 h2 => ⟨h1, h2⟩

@[simp] theorem State.nextQuanta_tidy (launch : Nat) : (s.nextQuanta launch).Tidy := by
  unfold State.nextQuanta
  refine State.modLaunch_tidy.mpr (tablesTidy_mapBlocks (tablesTidy_mapWaves hs fun e => ?_) (fun e => ?_)
    fun e he => ?_)
  · split <;> rfl
  · split <;> rfl
  · split
    · exact Block.canon_freshQuantum he
    · exact he

theorem execQuantumBoundary_tidy :
    nextHolds State.Tidy (execQuantumBoundary s) := by
  unfold execQuantumBoundary
  split
  · exact hs
  split
  · exact hs
  · have hf := State.boundaryFront_tidy hs s.subj.a
    dsimp only
    split
    · have hr := State.nextQuanta_tidy (State.boundarySpills_tidy (State.boundaryRetire_tidy hf s.subj.a
        (((s.boundaryFront s.subj.a).1.blocksOf s.subj.a).map (·.1))) s.subj.a) s.subj.a
      exact State.noteWaits_tidy (State.tryOpen_tidy (State.realise_tidy hr _) _)
    · exact hf

@[simp] theorem State.spillUntil_tidy (core : Nat) (p : Tenure → Bool) (ok : State → Bool) (n : Nat) :
    (State.spillUntil core p ok n s).Tidy := by
  induction n generalizing s with
  | zero => exact hs
  | succ n ih =>
    unfold State.spillUntil
    split
    · exact hs
    split
    · exact hs
    split
    · dsimp only
      split
      · simp [hs]
      · exact ih (by simp [hs])
    split
    · exact hs
    · next u e => exact ih (State.spill_tidy hs _ _ _ u e)

theorem execPressureSpill_tidy :
    nextHolds State.Tidy (execPressureSpill s) := by
  unfold execPressureSpill
  grind [State.noteWaits_tidy, State.relievePins_tidy, State.spillUntil_tidy, nextHolds]


end
end Sys2Proof.Machine
end

section
namespace Sys2Proof.Machine
open Sys2Proof

section
variable {s : State}

@[simp] theorem State.modRes_tidy (q : Program) (id : Nat) (f : ResEntry → ResEntry) :
    (s.modRes q id f).Tidy ↔ s.Tidy := by simp [State.modRes]

@[simp] theorem State.badEquation_tidy (l : Launch) (id : Nat) (addr : Nat) :
    (s.badEquation l id addr).Tidy ↔ s.Tidy := by simp [State.badEquation]

@[simp] theorem State.applyBump_tidy (q : Program) (j : Nat) (b : Word) :
    (s.applyBump q j b).Tidy ↔ s.Tidy := by simp [State.applyBump]

@[simp] theorem State.endEntry_tidy (q : Program) (id : Nat) (f : ResEntry → ResEntry) :
    (s.endEntry q id f).Tidy ↔ s.Tidy := by simp [State.endEntry]

@[simp] theorem State.ackInput_tidy (m : InputMsg) (status : Nat) (g : DWord) (bound : Nat) :
    (s.ackInput m status g bound).Tidy ↔ s.Tidy := by simp [State.ackInput]

@[simp] theorem State.answerSub_tidy (m : SubMsg) (state : Nat) (q : Program) :
    (s.answerSub m state q).Tidy ↔ s.Tidy := by simp [State.answerSub]

@[simp] theorem State.postItems_tidy (l : Launch) (q : Program) (id : Nat) (d : Word) (list n k : Nat) :
    (s.postItems l q id d list n k).Tidy ↔ s.Tidy := by
  induction n generalizing s k with
  | zero => rfl
  | succ n ih =>
    unfold State.postItems
    rw [ih]
    (repeat' split) <;> simp

@[simp] theorem State.postAll_tidy (l : Launch) (q : Program) (id : Nat) (d : Word) :
    (s.postAll l q id d).Tidy ↔ s.Tidy := by
  unfold State.postAll
  dsimp only
  (repeat' split) <;> simp

variable (hs : s.Tidy)
include hs

/-! ### Standing programs -/

@[simp] theorem State.leave_tidy (p : Nat) (q : Program) (id : Nat) : (s.leave p q id).Tidy := by
  have retired (key : Nat) (f : Nat × Core → Core) :
      (State.retireBlock { s with cores := s.cores.map fun e => (e.1, f e) } key).Tidy :=
    State.retireBlock_tidy (State.Tidy.mapCores hs f) key
  unfold State.leave
  dsimp only
  (repeat' split) <;> simp [hs, retired]

@[simp] theorem State.retireRelax_tidy (p : Nat) (l : Launch) (q : Program) (id : Nat) :
    (s.retireRelax p l q id).Tidy := by
  simp [State.retireRelax, State.leave_tidy hs p q id]

@[simp] theorem State.killRelax_tidy (p : Nat) (l : Launch) (q : Program) (id : Nat) (d : Dispatched) :
    (s.killRelax p l q id d).Tidy := by
  simp [hs, State.killRelax]

@[simp] theorem State.journalBytes_tidy (l : Launch) (q : Program) (off : Nat) (bs : List Byte) :
    (s.journalBytes l q off bs).Tidy := by
  unfold State.journalBytes
  cases e : s.sysStore l.asid l.root (bs.length / 64 + 1) (q.jbase.toNat + off) bs with
  | none => exact hs
  | some t => exact State.sysStore_tidy hs _ _ _ _ _ t e

@[simp] theorem State.journalWrite_tidy (p : Nat) (l : Launch) (q : Program) (e : JournalEntry) :
    (s.journalWrite p l q e).Tidy := by
  unfold State.journalWrite
  dsimp only
  (repeat' split) <;> simp [hs]

theorem State.journalOne_tidy (p : Nat) (l : Launch) (q : Program) :
    ∀ t ∈ (s.journalOne p l q), t.Tidy := by
  unfold State.journalOne
  (repeat' split) <;> simp [hs]

@[simp] theorem State.journalLate_tidy (p : Nat) (l : Launch) (n : Nat) :
    (State.journalLate p l n s).Tidy := by
  induction n generalizing s with
  | zero => exact hs
  | succ n ih =>
    unfold State.journalLate
    split
    · exact hs
    · next t e =>
      obtain ⟨q, -, ht⟩ := Option.bind_eq_some_iff.mp e
      exact ih (State.journalOne_tidy hs p l q t ht)

@[simp] theorem State.journal_tidy (p : Nat) (l : Launch) (e : JournalEntry) :
    (s.journal p l e).Tidy := by
  unfold State.journal
  (repeat' split) <;> simp [hs]

theorem State.replayTake_tidy (p : Nat) (l : Launch) (bound kind : Nat) {f : List Byte → List Byte → State → State}
    (hf : ∀ h data t, t.Tidy → (f h data t).Tidy) (n : Nat) : (State.replayTake p l bound kind f n s).Tidy := by
  induction n generalizing s with
  | zero => exact hs
  | succ n ih =>
    unfold State.replayTake
    split
    · exact hs
    split
    · exact ih (hf _ _ _ hs)
    · exact hs

@[simp] theorem State.replayEnd_tidy (p : Nat) (l : Launch) : (s.replayEnd p l).Tidy := by
  unfold State.replayEnd
  (repeat' split) <;> simp [hs]

@[simp] theorem State.notice_tidy (p : Nat) : (s.notice p).Tidy := by
  unfold State.notice
  split
  · exact hs
  · exact State.modProgram_tidy.mpr (foldl_tidy (fun _ _ h => (State.send_tidy _ _ _ _).mpr h) _ hs)

@[simp] theorem State.evaluate_tidy (p : Nat) : (s.evaluate p).Tidy := by
  unfold State.evaluate
  (repeat' split) <;> simp [hs]

@[simp] theorem State.dispatch_tidy (p : Nat) (l : Launch) (q : Program) (slot id : Nat) :
    (s.dispatch p l q slot id).Tidy := by
  unfold State.dispatch
  extract_lets e n s1 s2 bs ok d s3
  have h1 : s1.Tidy := foldl_tidy (fun _ i h => by split <;> simp [h]) _ hs
  have h3 : s3.Tidy := State.modProgram_tidy.mpr ((State.modRes_tidy _ _ _).mpr h1)
  split
  · exact h3
  · exact (State.badEquation_tidy _ _ _).mpr h3

@[simp] theorem State.fillSlots_tidy (p : Nat) (l : Launch) (n slot : Nat) :
    (State.fillSlots p l n slot s).Tidy := by
  induction n generalizing s slot with
  | zero => exact hs
  | succ n ih =>
    unfold State.fillSlots
    (repeat' split) <;> simp [ih, hs]

@[simp] theorem State.relaxAll_tidy (launch p n : Nat) :
    (State.relaxAll launch p n s).Tidy := by
  induction n generalizing s with
  | zero => exact hs
  | succ n ih =>
    unfold State.relaxAll
    split
    · exact hs
    split
    · exact hs
    · next t e => exact ih (State.relaxOne_tidy hs launch p _ t e)

@[simp] theorem State.decisions_tidy (p : Nat) :
    (s.decisions p).Tidy := by
  unfold State.decisions
  (repeat' split) <;> simp [hs]

@[simp] theorem State.serve_tidy (p : Nat) (l : Launch) (q : Program) (x : PendSnap)
    (others : List PendSnap) :
    (s.serve p l q x others).Tidy := by
  unfold State.serve
  refine foldl_tidy (fun _ i h => by split <;> simp [h]) _ ?_
  split <;> simp [hs]

@[simp] theorem State.serveAll_tidy (p : Nat) (l : Launch) (done xs : List PendSnap) :
    (State.serveAll p l done xs s).Tidy := by
  induction xs generalizing s done with
  | nil => exact hs
  | cons x xs ih =>
    unfold State.serveAll
    split
    · exact hs
    split
    · exact ih (by simp [hs]) done
    · refine ih ?_ _
      have hf (q : Program) (xs : List Nat) :
          (xs.foldl (fun s i => s.modRes q i fun e => { e with hold := true }) s).Tidy :=
        foldl_tidy (fun _ i h => by simp [h]) _ hs
      split <;> simp [hf]

@[simp] theorem State.forceSubs_tidy (q : Program) (start len : Nat) :
    (s.forceSubs q start len).Tidy := by
  unfold State.forceSubs
  exact foldl_tidy (fun _ x h => by simp [h]) _ hs

@[simp] theorem State.land_tidy (p : Nat) (l : Launch) (m : InputMsg) (replayed : Bool) :
    (s.land p l m replayed).Tidy := by
  have ack (t : State) (status : Nat) (g : DWord) (bound : Nat) (ht : t.Tidy) :
      (if replayed then t else t.ackInput m status g bound).Tidy := by
    split <;> simp [ht]
  unfold State.land
  split
  · exact hs
  dsimp only
  next q _ =>
  split
  · exact ack s 5 0 0 hs
  have hl := State.journalLate_tidy hs p l (q.late.length + 1)
  split
  · exact ack _ 2 0 0 hl
  · exact ack _ 0 _ _ (State.forceSubs_tidy (State.journal_tidy (State.modProgram_tidy.mpr
      (foldl_tidy (fun _ x h => by simp [h]) _ hl)) p l _) _ _ _)

@[simp] theorem State.afterEvent_tidy (p : Nat) :
    (s.afterEvent p).Tidy := by
  simp [State.afterEvent, hs]

theorem State.serveFree_tidy (p : Nat) (l : Launch) (q : Program) :
    ∀ t ∈ (s.serveFree p l q), t.Tidy := by
  unfold State.serveFree
  (repeat' split) <;> simp [hs]

@[simp] theorem State.replayKills_tidy (p : Nat) (l : Launch) (bound : Nat) :
    (s.replayKills p l bound).Tidy := by
  unfold State.replayKills
  split
  · exact hs
  · exact State.replayTake_tidy hs p l bound 3 (fun h data t ht => by simp [ht]) _

@[simp] theorem State.boundaryRelax_tidy (p : Nat) (l : Launch) (ids : List Nat) :
    (State.boundaryRelax p l ids s).Tidy := by
  induction ids generalizing s with
  | nil => exact hs
  | cons id ids ih =>
    unfold State.boundaryRelax
    refine ih ?_
    split
    · exact hs
    extract_lets key dead
    clear_value dead
    split
    · simp [hs]
    split <;> simp [hs]

@[simp] theorem State.boundaryRest_tidy (p launch : Nat) (l : Launch) :
    (s.boundaryRest p launch l).Tidy := by
  unfold State.boundaryRest
  extract_lets ids s1 s1c s2 s3 s4 s5
  have h1 : s1.Tidy := State.boundaryRelax_tidy hs p l ids
  have h2 : s2.Tidy := by
    unfold s2
    split
    · exact h1
    · exact foldl_tidy (fun _ m h => State.land_tidy h p l m false) _
        (State.replayTake_tidy (State.modProgram_tidy.mpr h1) p l _ 1 (fun h data t ht =>
          State.land_tidy ht p l _ true) _)
  have h3 : s3.Tidy := by
    exact State.evaluate_tidy (State.decisions_tidy h2 p) p
  have h4 : s4.Tidy := by
    unfold s4
    split
    · exact h3
    next q _ =>
    have h := State.replayEnd_tidy (State.replayTake_tidy h3 p l q.bound 2 (f := fun h _ s =>
      let x : PendSnap :=
        ⟨⟨0, 0, 0, true, BitVec.ofNat 32 (leAt h 0x14 4), BitVec.ofNat 64 (leAt h 0x18 8)⟩, true, true⟩
      s.modProgram p fun q => { q with snaps := q.snaps ++ [x] }) (fun h data t ht => ht) (2 ^ 32)) p l
    dsimp only
    split
    · exact h
    · exact State.serveAll_tidy h p l [] _
  exact State.noteWaits_tidy (State.tryOpen_tidy (State.realise_tidy (State.nextQuanta_tidy h4 launch) launch) launch)

omit hs in
theorem State.boundaryFrom_tidy (p launch : Nat) (l : Launch) {f : Program → Program} {x : State × Bool}
    (hx : x.1.Tidy) :
    nextHolds State.Tidy (if x.2 then .next ((x.1.modProgram p f).boundaryRest p launch l) else .next x.1) := by
  split
  · exact State.boundaryRest_tidy (State.modProgram_tidy.mpr hx) p launch l
  · exact hx

theorem execStandingBoundary_tidy :
    nextHolds State.Tidy (execStandingBoundary s) := by
  unfold execStandingBoundary
  dsimp only
  split
  · exact hs
  split
  · exact hs
  next q _ _ l _ =>
  refine iteInduction (fun _ => hs) fun _ => ?_
  refine iteInduction (fun _ => ?_) fun _ => ?_
  · exact State.boundaryFrom_tidy _ _ l (State.boundaryFront_tidy hs _)
  refine iteInduction (fun _ => ?_) fun _ => ?_
  · exact State.boundaryFrom_tidy _ _ l (State.boundaryFront_tidy (State.replayKills_tidy hs _ l _) _)
  refine iteInduction (fun _ => ?_) fun _ => hs
  exact State.boundaryRest_tidy (State.modProgram_tidy.mpr hs) _ _ l

theorem execDeferredJournalEntry_tidy :
    nextHolds State.Tidy (execDeferredJournalEntry s) := by
  unfold execDeferredJournalEntry
  simp only [nextHolds]
  split
  · exact hs
  · next q l _ =>
    cases e : s.journalOne s.subj.a l q with
    | none => exact hs
    | some t => exact State.journalOne_tidy hs _ l q t e

theorem execRelaxationPlacement_tidy :
    nextHolds State.Tidy (execRelaxationPlacement s) := by
  unfold execRelaxationPlacement
  (repeat' split) <;> grind [State.noteWaits_tidy, State.placeOne_tidy, nextHolds]

theorem execRelaxationRetirement_tidy :
    nextHolds State.Tidy (execRelaxationRetirement s) := by
  have retired (l : Launch) (q : Program) :
      (((s.retireRelax s.subj.a l q s.subj.b).afterEvent s.subj.a).noteWaits).Tidy :=
    State.noteWaits_tidy (State.afterEvent_tidy (State.retireRelax_tidy hs _ l q _) _)
  unfold execRelaxationRetirement
  dsimp only
  (repeat' split) <;> simp_all [nextHolds]

theorem execRelaxationKill_tidy :
    nextHolds State.Tidy (execRelaxationKill s) := by
  have killed (key : Nat) (l : Launch) (q : Program) (d : Dispatched) :
      ((((s.performIssued key).killRelax s.subj.a l q s.subj.b d).afterEvent s.subj.a).noteWaits).Tidy :=
    State.noteWaits_tidy (State.afterEvent_tidy (State.killRelax_tidy (State.performIssued_tidy hs key) _ l q _ d) _)
  unfold execRelaxationKill
  dsimp only
  (repeat' split) <;> simp_all [nextHolds]

theorem execInputWrite_tidy (msg : InputMsg) :
    nextHolds State.Tidy (execInputWrite msg s) := by
  unfold execInputWrite
  (repeat' split) <;> grind [State.modProgram_tidy, State.hear_tidy, State.ackInput_tidy, nextHolds]

theorem execInputLanding_tidy :
    nextHolds State.Tidy (execInputLanding s) := by
  unfold execInputLanding
  dsimp only
  (repeat' split) <;> simp_all [nextHolds]

@[simp] theorem State.takeSnap_tidy (p : Nat) (q : Program) (l : Launch) (m : SnapMsg) :
    (s.takeSnap p q l m).Tidy := by
  unfold State.takeSnap
  dsimp only
  split
  · split <;> simp [hs]
  split
  · simp [hs]
  · exact State.modProgram_tidy.mpr (foldl_tidy (fun _ i h => by simp [h]) _ hs)

theorem execSnapshotRequest_tidy (msg : SnapMsg) :
    nextHolds State.Tidy (execSnapshotRequest msg s) := by
  refine State.hear_tidy hs msg.src true ?_
  split
  · exact hs
  split
  · exact hs
  · exact State.takeSnap_tidy hs _ _ _ msg

theorem execSnapshotServe_tidy :
    nextHolds State.Tidy (execSnapshotServe s) := by
  unfold execSnapshotServe
  simp only [nextHolds]
  split
  · exact hs
  · next q l _ =>
    split
    · exact hs
    cases e : s.serveFree s.subj.a l q with
    | none => exact hs
    | some t => exact State.serveFree_tidy hs _ l q t e

theorem execSubscribe_tidy (msg : SubMsg) :
    nextHolds State.Tidy (execSubscribe msg s) := by
  unfold execSubscribe
  (repeat' split) <;> grind [State.modProgram_tidy, State.hear_tidy, State.send_tidy, State.answerSub_tidy, nextHolds,
      State.Tidy]

theorem execUnloadCompletion_tidy :
    nextHolds State.Tidy (execUnloadCompletion s) := by
  unfold execUnloadCompletion
  dsimp only
  split
  · exact hs
  split
  · exact State.noteWaits_tidy (State.dropLaunch_tidy (State.complete_tidy (by exact hs) _ _ _ _ _ _ _ _) _ _)
  · exact hs

theorem execResidualEntryError_tidy :
    nextHolds State.Tidy (execResidualEntryError s) := by
  unfold execResidualEntryError
  dsimp only
  (repeat' split) <;> simp_all [nextHolds]

end
end Sys2Proof.Machine
end

section
namespace Sys2Proof.Machine
open Sys2Proof

section
variable {s : State}

@[simp] theorem State.bind_tidy (bs : List Byte) : (s.bind bs).Tidy ↔ s.Tidy := by simp [State.bind]

variable (hs : s.Tidy)
include hs

/-! ### Commands -/

theorem execLaunchQueueEnable_tidy (val : BitVec 64) :
    nextHolds State.Tidy (execLaunchQueueEnable val s) := by
  unfold execLaunchQueueEnable
  (repeat' split) <;> simp_all [nextHolds]

theorem execNotify_tidy (src : BitVec 16) (tail : BitVec 32) :
    nextHolds State.Tidy (execNotify src tail s) := by
  unfold execNotify
  grind [State.modCtl_tidy, State.hear_tidy, nextHolds]

@[simp] theorem State.advance_tidy : s.advance.Tidy := by simp [State.advance, hs]

theorem State.takeCommand_tidy (kind : Nat → Bool) {f : List Byte → State → State}
    (hf : ∀ bs t, t.Tidy → (f bs t).Tidy) :
    (s.takeCommand kind f).Tidy := by
  unfold State.takeCommand
  split
  · exact hs
  split
  · exact hf _ _ hs
  · exact hs

theorem State.beginRun_stepsOf_tidy (launch n : Nat) :
    (State.beginRun.stepsOf launch n s).Tidy := by
  induction n generalizing s with
  | zero => exact hs
  | succ n ih =>
    unfold State.beginRun.stepsOf
    split
    · exact hs
    · next l _ =>
      split
      · exact hs
      · next t e =>
        split at e
        · exact ih (State.placeOne_tidy hs launch l t e)
        · nomatch e

@[simp] theorem State.beginRun_tidy (launch : Nat) :
    (s.beginRun launch).Tidy := by
  unfold State.beginRun
  split
  · exact hs
  split
  · exact State.tryOpen_tidy (State.realise_tidy (State.placeAtLaunch_tidy hs _) _) _
  split
  · exact State.beginRun_stepsOf_tidy hs launch _
  split <;> simp [hs]

@[simp] theorem State.takeRun_tidy (bs : List Byte) :
    (State.takeRun bs s).Tidy := by
  unfold State.takeRun
  have begun {u : State} (hu : u.Tidy) (l : Launch) (key : Nat) :
      (State.beginRun
        { u with launches := u.launches.set key l, takes := key + 1, seq := u.seq + 1 } key).noteWaits.Tidy :=
    State.noteWaits_tidy (State.beginRun_tidy (by exact tablesTidy_setLaunch hu _ _) _)
  have hb := (State.bind_tidy bs).mpr hs
  extract_lets asid root table code t r st key l
  split
  · exact State.complete_tidy hs _ _ _ _ _ _ _ _
  split
  · exact State.complete_tidy hb _ _ _ _ _ _ _ _
  · exact begun hb _ _

theorem execRunCommand_tidy : nextHolds State.Tidy (execRunCommand s) :=
  State.takeCommand_tidy hs _ fun bs _ h => State.takeRun_tidy h bs

@[simp] theorem State.install_tidy (bs h : List Byte) (slot base : Nat) (mask : BitVec 192)
    (eqs : List EqBlock) : (s.install bs h slot base mask eqs).Tidy := by
  unfold State.install
  extract_lets n dqm r key l q s1 s2 s3 s4
  have h1 : s1.Tidy := tablesTidy_setLaunch hs _ _
  have h2 : s2.Tidy := foldl_tidy (fun _ i h => by exact h) _ h1
  have h3 : s3.Tidy := State.replayEnd_tidy (State.complete_tidy (State.notice_tidy h2 slot) _ _ _ _ _ _ _ _) slot l
  have h4 : s4.Tidy := State.afterEvent_tidy h3 slot
  split
  · exact State.noteWaits_tidy (State.tryOpen_tidy (State.realise_tidy h4 _) _)
  · exact State.noteWaits_tidy h4

@[simp] theorem State.takeLoad_tidy (bs : List Byte) :
    (State.takeLoad bs s).Tidy := by
  unfold State.takeLoad
  dsimp only
  (repeat' split) <;> simp [hs]

theorem execLoadCommand_tidy :
    nextHolds State.Tidy (execLoadCommand s) :=
  State.takeCommand_tidy hs _ fun bs _ h => State.takeLoad_tidy h bs

@[simp] theorem State.takeUnload_tidy (bs : List Byte) : (State.takeUnload bs s).Tidy := by
  unfold State.takeUnload
  dsimp only
  (repeat' split) <;> simp [hs]

theorem execUnloadCommand_tidy :
    nextHolds State.Tidy (execUnloadCommand s) :=
  State.takeCommand_tidy hs _ fun bs _ h => State.takeUnload_tidy h bs

theorem execReservedCommand_tidy :
    nextHolds State.Tidy (execReservedCommand s) :=
  State.takeCommand_tidy hs _ fun _ _ h => State.complete_tidy h _ _ _ _ _ _ _ _

/-! ### Pre-emption -/

@[simp] theorem State.settleBlock_tidy (b : Nat) :
    (s.settleBlock b).Tidy :=
  foldl_tidy (fun _ j h => by split <;> simp [h]) _ (State.performIssued_tidy hs b)

theorem State.takeOff_tidy (b : Nat) (blk : Block) {v : Saved} (hv : v.block.Canon) : (s.takeOff b blk v).Tidy := by
  unfold State.takeOff
  extract_lets t u
  have hu : u.Tidy := State.modCore_tidy (State.dropLost_tidy hs b) _ _
  exact tablesTidy_setSaved (tablesTidy_filterWaves (tablesTidy_eraseBlock hu _) _) _ hv

theorem State.preempt_tidy (at_ b : Nat) {blk : Block} (l : Launch) (hb : blk.Canon) :
    (s.preempt at_ b blk l).Tidy := by
  unfold State.preempt
  extract_lets gen v s1 s2
  have hv : v.block.Canon := hb
  clear_value v
  have h1 : s1.Tidy := State.poke_tidy hs _ _ _
  clear_value s1
  have h2 : s2.Tidy := h1
  exact State.noteFreed_tidy (State.takeOff_tidy h2 b blk hv) _ _ _

theorem execPreemptBlock_tidy :
    nextHolds State.Tidy (execPreemptBlock s) := by
  refine State.peRun_tidy hs 1 0 fun j t h => ?_
  have hb (b : Nat) : ((t.finishHalt b).settleBlock b).Tidy := by simp [h]
  have hp (b : Nat) {blk : Block} (l : Launch) (e : ((t.finishHalt b).settleBlock b).blocks.get? b = some blk) :=
    State.noteWaits_tidy (State.preempt_tidy (hb b) j.addr.toNat b l ((hb b).block e))
  dsimp only
  split
  · simp [h]
  split
  · simp [h]
  split
  · simp [h]
  split
  · simp [h]
  split
  · simp [hb]
  · next e =>
    split
    · simp [hp _ _ e]
    · simp [hb]

/-! #### Images written back -/

/-- The memories that a saved block brings back are canonical. -/
def Saved.MemoriesCanon (v : Saved) : Prop := KMap.canon 0 v.block.scr = true ∧ KMap.canon 0 v.block.acc = true

omit hs in
theorem canonBytes_canon (m : KMap Byte) : KMap.canon 0 (canonBytes m) = true :=
  List.foldlRecOn (motive := fun m => KMap.canon 0 m = true) m _ rfl fun _ h e _ => KMap.canon_put e.1 e.2 h

omit hs in
theorem Block.fromSections_canon (b : Block) (xs : List Section) :
    KMap.canon 0 (b.fromSections xs).scr = true ∧ KMap.canon 0 (b.fromSections xs).acc = true := by
  have fresh (bs : List Byte) : KMap.canon 0 (putBytes [] 0 bs) = true := putBytes_canon 0 bs rfl
  unfold Block.fromSections
  constructor <;> (repeat' split) <;> simp only [fresh, canonBytes_canon]

omit hs in
theorem Saved.fromSections_canon {v u : Saved} {gen : Nat} {xs : List Section} (e : v.fromSections gen xs = some u) :
    u.MemoriesCanon := by
  unfold Saved.fromSections at e
  dsimp only at e
  split at e
  · nomatch e
  · cases e
    exact Block.fromSections_canon _ xs

omit hs in
theorem loadImages_canon {gen : Nat} {vs us : List (Nat × Saved)} {ims : List (List Byte)}
    (e : loadImages gen vs ims = some us) : ∀ x ∈ us, x.2.MemoriesCanon := by
  induction vs generalizing us ims with
  | nil =>
    cases e
    nofun
  | cons v vs ih =>
    cases ims with
    | nil => nomatch e
    | cons im ims =>
      unfold loadImages at e
      split at e
      · next e1 e2 =>
        cases e
        exact List.forall_mem_cons.mpr ⟨Saved.fromSections_canon e1, ih e2⟩
      · nomatch e

theorem State.putBack_tidy (b : Nat) {v : Saved} (l : Launch) (core : Nat) (p : Spot) (bases : List Nat)
    (hv : v.MemoriesCanon) : (s.putBack b v l core p bases).Tidy := by
  unfold State.putBack
  extract_lets old blk keys rank s1 s2 s3 s4
  have hb : blk.Canon := ⟨hv.1, hv.2, nofun⟩
  have h1 : s1.Tidy := tablesTidy_eraseSaved (tablesTidy_setBlock hs b hb) b
  have h2 : s2.Tidy := foldl_tidy (fun _ e h => by exact tablesTidy_setWave h _ _) _ h1
  have h3 : s3.Tidy := foldl_tidy (fun _ x h => State.enterTenure_tidy h core _) _ h2
  have h4 : s4.Tidy := State.modCore_tidy h3 _ _
  exact State.afterExit_tidy (State.snapshot_tidy h4 b) b

theorem execRestoreBlock_tidy (core : BitVec 8) :
    nextHolds State.Tidy (execRestoreBlock core s) := by
  refine State.peRun_tidy hs 2 core fun j t h => ?_
  dsimp only
  split
  · simp [h]
  split
  · simp [h]
  split
  · simp [h]
  split
  · simp [h]
  · next v _ _ v' e =>
    split
    · split
      · simp [h]
      · exact State.peResult_tidy (State.noteWaits_tidy (State.putBack_tidy (by exact h) _ _ _ _ _
          (Saved.fromSections_canon e))) 0
    · simp [h]

@[simp] theorem State.goOnAfter_tidy (launch : Nat) (l : Launch) :
    (s.goOnAfter launch l).Tidy := by
  unfold State.goOnAfter
  (repeat' split) <;> simp [hs]

@[simp] theorem State.again_tidy (launch : Nat) (l : Launch) : (s.again launch l).Tidy := by
  unfold State.again
  extract_lets keys mine s1
  have h1 : s1.Tidy := tablesTidy_mapCores (tablesTidy_mapWaves hs fun e => by split <;> rfl) fun _ => by rfl
  exact foldl_tidy (fun _ x h => by simp [h]) _ h1

theorem execCheckpointLaunch_tidy :
    nextHolds State.Tidy (execCheckpointLaunch s) := by
  refine State.peRun_tidy hs 5 0 fun j t h => ?_
  split
  · simp [h]
  next k l _ =>
  extract_lets keys u c bs need v w
  have hu : u.Tidy := foldl_tidy (fun _ b h => by simp [h]) keys h
  have hv : v.Tidy := State.poke_tidy hu _ _ _
  have hw : w.Tidy := tablesTidy_setKept hv _ (List.forall_mem_map.mpr fun e he => hu.2.1 e (List.mem_of_mem_filter he))
  split
  · exact State.goOnAfter_tidy (by simp [h]) _ _
  split
  · simp [hu]
  · exact State.goOnAfter_tidy (State.modCtl_tidy.mpr (State.peResult_tidy (State.again_tidy hw k l) 0)) _ _

theorem State.putAll_tidy (l : Launch) {vs : List (Nat × Saved)} (hv : ∀ e ∈ vs, e.2.MemoriesCanon) :
    ∀ t ∈ State.putAll l vs s, t.Tidy := by
  induction vs generalizing s with
  | nil => simpa [State.putAll] using hs
  | cons v vs ih =>
    obtain ⟨b, v⟩ := v
    rw [State.putAll_cons]
    intro t ht
    obtain ⟨x, -, hx⟩ := Option.bind_eq_some_iff.mp ht
    obtain ⟨hv, hvs⟩ := List.forall_mem_cons.mp hv
    exact ih (State.putBack_tidy hs b l x.1 x.2.1 x.2.2 hv) hvs t hx

@[simp] theorem State.putProgram_tidy (q : Program) (slot base : Nat) (tail : List Byte) :
    (s.putProgram q slot base tail).Tidy := by
  unfold State.putProgram
  exact foldl_tidy (fun _ x h => by exact h) _ (by exact hs)

theorem State.restoreLaunch_tidy (c : SavedLaunch) {blocks : List (Nat × Saved)} (key : Nat) (tail : List Byte)
    (hv : ∀ e ∈ blocks, e.2.MemoriesCanon) : ∀ t ∈ s.restoreLaunch c blocks key tail, t.Tidy := by
  have hb := hv
  have place (a : KMap Nat) (u : State) (l : Launch) (hu : u.Tidy) :
      ∀ t ∈ (State.putAll l blocks { u with launches := u.launches.set key l, asids := a }).map
        fun s => s.goOnAfter key l,
        t.Tidy := by
    intro t ht
    obtain ⟨v, hv, rfl⟩ := Option.map_eq_some_iff.mp ht
    exact State.goOnAfter_tidy (State.putAll_tidy (by exact tablesTidy_setLaunch hu _ _) l hb v hv) key l
  intro t ht
  unfold State.restoreLaunch at ht
  extract_lets bound place' at ht
  split at ht
  · exact place bound s _ hs t ht
  split at ht
  · exact place bound _ _ (State.putProgram_tidy hs _ _ _ _) t ht
  · nomatch ht

theorem execRestoreLaunch_tidy (core : BitVec 8) :
    nextHolds State.Tidy (execRestoreLaunch core s) := by
  refine State.peRun_tidy hs 6 core fun j t h => ?_
  dsimp only
  have hw : (t.peWait j).Tidy := by simp [h]
  have hp (st) : (t.peResult st).Tidy := by simp [h]
  split
  · exact hp 3
  split
  · exact hp 3
  split
  · exact hp 4
  split
  · exact hp 6
  split
  · exact hp 3
  refine iteInduction (motive := fun u : State => u.Tidy) (fun _ => hp 3) fun _ => ?_
  split
  · exact hw
  · next c vs ec _ _ u e =>
    obtain ⟨_, -, ev⟩ := Option.bind_eq_some_iff.mp ec
    obtain ⟨_, ev, ep⟩ := Option.map_eq_some_iff.mp ev
    cases ep
    have hu := State.restoreLaunch_tidy h c _ _ (loadImages_canon ev) u e
    simp [hu]


end
end Sys2Proof.Machine
end

section
namespace Sys2Proof.Machine
open Sys2Proof

section
variable {s : State} (hs : s.Tidy)
include hs

/-! ### The module -/

@[simp] theorem State.modWindow_tidy (n : Nat) (f : Window → Window) : (s.modWindow n f).Tidy := by
  simp [State.modWindow, hs]

@[simp] theorem State.dropViews_tidy (w : Window) : (s.dropViews w).Tidy :=
  State.Tidy.mapCores hs _

@[simp] theorem State.writeWindow_tidy (n : Nat) (val : DWord) : (s.writeWindow n val).Tidy := by
  unfold State.writeWindow
  dsimp only
  (repeat' split) <;> simp [hs]

@[simp] theorem State.dropXlates_tidy (job : Nat × Nat × Nat) : (s.dropXlates job).Tidy :=
  State.Tidy.mapCores hs _

@[simp] theorem State.startXlt_tidy (scope asid va : Nat) : (s.startXlt scope asid va).Tidy := by
  simp [State.startXlt, hs]

theorem State.peCommand_tidy (op : Nat) (core : BitVec 8) :
    nextHolds State.Tidy (s.peCommand op core) := by
  unfold State.peCommand
  extract_lets t
  have ht : t.Tidy := hs
  split
  · exact execPreemptBlock_tidy ht
  · exact execRestoreBlock_tidy ht core
  · exact execResume_tidy ht
  · exact execDiscard_tidy ht
  · exact execCheckpointLaunch_tidy ht
  · exact execRestoreLaunch_tidy ht core
  · exact ht

@[simp] theorem State.attest_tidy : s.attest.Tidy := by
  unfold State.attest
  (repeat' split) <;> simp [hs]

@[simp] theorem State.attestOn_tidy : s.attestOn.Tidy := by
  unfold State.attestOn
  split
  · exact hs
  split
  · simp [hs]
  split
  · exact hs
  dsimp only
  split
  · exact hs
  · exact State.replyWrite_tidy (State.attest_tidy (by exact hs)) _

@[simp] theorem State.ctlPut_tidy (r : CtlReg) (v : DWord) :
    (s.ctlPut r v).Tidy := by
  unfold State.ctlPut
  (repeat' split) <;> grind [State.modCore_tidy, State.modProgram_tidy, State.modCtl_tidy, execLaunchQueueEnable_tidy,
      State.modWindow_tidy, State.writeWindow_tidy, State.startXlt_tidy, State.peCommand_tidy, State.attest_tidy,
      nextHolds]

@[simp] theorem State.keepWrite_tidy (r : CtlReg) (v : DWord) (w : Option WriteReply) :
    (s.keepWrite r v w).Tidy := by
  unfold State.keepWrite
  (repeat' split) <;> simp [hs]

@[simp] theorem State.ctlWrite_tidy (r : CtlReg) (v : DWord) :
    (s.ctlWrite r v).Tidy := by
  unfold State.ctlWrite
  (repeat' split) <;> simp [hs]

theorem execRegisterWrite_tidy (off : BitVec 25) (val : BitVec 64) :
    nextHolds State.Tidy (execRegisterWrite off val s) := by
  unfold execRegisterWrite
  (repeat' split) <;> simp_all [nextHolds]

theorem execTrapRingEnable_tidy (val : BitVec 64) :
    nextHolds State.Tidy (execTrapRingEnable val s) := by
  unfold execTrapRingEnable
  simp_all [nextHolds]

theorem execFormatWindowEnable_tidy (n : Fin 16) (val : BitVec 64) :
    nextHolds State.Tidy (execFormatWindowEnable n val s) := by
  unfold execFormatWindowEnable
  simp_all [nextHolds]

theorem execFormatWindowDisable_tidy (n : Fin 16) (val : BitVec 64) :
    nextHolds State.Tidy (execFormatWindowDisable n val s) := by
  unfold execFormatWindowDisable
  simp_all [nextHolds]

theorem execXltInvalidatePage_tidy (asid : BitVec 12) :
    nextHolds State.Tidy (execXltInvalidatePage asid s) := by
  unfold execXltInvalidatePage
  simp_all [nextHolds]

theorem execXltInvalidateAsid_tidy (asid : BitVec 12) :
    nextHolds State.Tidy (execXltInvalidateAsid asid s) := by
  unfold execXltInvalidateAsid
  simp_all [nextHolds]

theorem execXltInvalidateAll_tidy :
    nextHolds State.Tidy (execXltInvalidateAll s) := by
  unfold execXltInvalidateAll
  simp_all [nextHolds]

theorem execXltInvalidationComplete_tidy :
    nextHolds State.Tidy (execXltInvalidationComplete s) := by
  unfold execXltInvalidationComplete
  show State.Tidy _
  split
  · exact hs
  extract_lets t t1 free t2 t3
  have h1 : t1.Tidy := foldl_tidy (fun _ k h => State.wake_tidy h _ _) _ (State.dropXlates_tidy hs _)
  have h3 : t3.Tidy := h1
  split
  · exact h3
  · exact State.replyWrite_tidy (State.startXlt_tidy (State.modCtl_tidy.mpr h3) _ _ _) _

theorem execAttestationReport_tidy :
    nextHolds State.Tidy (execAttestationReport s) := by
  unfold execAttestationReport
  (repeat' split) <;> simp_all [nextHolds]

omit hs in
/-- A device without power has empty tables. -/
theorem State.dark_tidy (s : State) : s.dark.Tidy := by
  simp [State.dark, State.reset, TablesTidy, KMap.wf, KMap.above]

@[simp] theorem State.laneTest_tidy (lanes : List LaneTest) : (s.laneTest lanes).Tidy :=
  foldl_tidy (fun _ t h => by dsimp only; split <;> simp [h]) lanes hs

theorem execPowerOn_tidy (sigOk : Bool) (lanes : List LaneTest) (dead : List Nat) :
    nextHolds State.Tidy (execPowerOn sigOk lanes dead s) := by
  unfold execPowerOn
  show State.Tidy _
  split
  · exact hs
  extract_lets dark s1 s2
  have h2 : s2.Tidy := State.dark_tidy s
  split
  · exact State.modCtl_tidy.mpr (State.laneTest_tidy h2 lanes)
  · exact h2

omit hs in
theorem execPowerRemoval_tidy :
    nextHolds State.Tidy (execPowerRemoval s) :=
  State.dark_tidy s

theorem execThermalLimit_tidy (inlet : BitVec 16) :
    nextHolds State.Tidy (execThermalLimit inlet s) := by
  unfold execThermalLimit
  (repeat' split) <;> simp_all [nextHolds]

theorem execThermalClear_tidy (inlet : BitVec 16) :
    nextHolds State.Tidy (execThermalClear inlet s) := by
  unfold execThermalClear
  (repeat' split) <;> simp_all [nextHolds]

theorem execPowerCapEnforce_tidy (fwgov watts : BitVec 16) :
    nextHolds State.Tidy (execPowerCapEnforce fwgov watts s) := by
  unfold execPowerCapEnforce
  (repeat' split) <;> simp_all [nextHolds]

@[simp] theorem State.corrected_tidy : s.corrected.Tidy := by simp [State.corrected, hs]

@[simp] theorem State.dropHolder_tidy (line : Nat) (x : Option Nat) : (s.dropHolder line x).Tidy := by
  unfold State.dropHolder
  (repeat' split) <;> simp [hs]

@[simp] theorem State.dropClean_tidy (line : Nat) : (s.dropClean line).Tidy := by
  simp [hs, State.dropClean]

@[simp] theorem State.readFirst_tidy (hit : Loc → Nat → Bool) :
    (s.readFirst hit).Tidy :=
  foldl_tidy (fun _ e h => foldl_tidy (fun _ a h => State.perform_tidy h e.1 a.id _) _ h) _ hs

@[simp] theorem State.strike_tidy (x : SoftError) :
    (s.strike x).Tidy := by
  unfold State.strike
  split
  case h_5 =>
    exact State.modBlock_tidy hs _ fun b hb => ⟨hb.1, KMap.canon_put _ _ hb.2.1, hb.2.2⟩
  all_goals (repeat' split) <;> simp [hs]

theorem execSoftError_tidy (where_ : SoftError) :
    nextHolds State.Tidy (execSoftError where_ s) := by
  unfold execSoftError
  (repeat' split) <;> simp_all [nextHolds]

@[simp] theorem State.ctlServe_tidy (x : CtlAccess) :
    (s.ctlServe x).Tidy := by
  unfold State.ctlServe
  (repeat' split) <;> simp [hs]

@[simp] theorem State.ctlAccess_tidy (x : CtlAccess) :
    (s.ctlAccess x).Tidy := by
  unfold State.ctlAccess
  (repeat' split) <;> simp [hs]

@[simp] theorem State.serveBehind_tidy :
    s.serveBehind.Tidy := by
  unfold State.serveBehind
  split
  · exact hs
  · exact foldl_tidy (fun _ x h => State.ctlAccess_tidy h x) _ (by exact hs)

theorem execRemoteRead_tidy (src : BitVec 16) (tag : BitVec 32) (addr : BitVec 64) (len : BitVec 32) :
    nextHolds State.Tidy (execRemoteRead src tag addr len s) := by
  refine State.hear_tidy hs src true ?_
  (repeat' split) <;> simp [hs]

theorem execRemoteWrite_tidy (src : BitVec 16) (tag : BitVec 32) (addr : BitVec 64) (data : List Byte) :
    nextHolds State.Tidy (execRemoteWrite src tag addr data s) := by
  refine State.hear_tidy hs src true ?_
  split
  · simp [hs]
  split
  · simp [hs]
  split
  · exact State.reply_tidy (State.noteWrites_tidy (State.poke_tidy hs _ _ _) _ _ _) _ _ _ _ _ _
  · simp [hs]

theorem execRemoteAtomic_tidy (src : BitVec 16) (tag : BitVec 32) (addr : BitVec 64) (op : RemoteOp) :
    nextHolds State.Tidy (execRemoteAtomic src tag addr op s) := by
  refine State.hear_tidy hs src _ ?_
  split
  · simp [hs]
  split
  · simp [hs]
  dsimp only
  split
  · refine State.reply_tidy (State.noteWrites_tidy ?_ _ _ _) _ _ _ _ _ _
    split <;> simp [hs]
  · simp [hs]

theorem State.comesBack_tidy (port : Nat) (m : OutMsg) :
    ∀ o ∈ s.comesBack port m, nextHolds State.Tidy o := by
  intro o ho
  unfold State.comesBack at ho
  extract_lets t src addr len at ho
  have ht : t.Tidy := hs
  split at ho <;> cases ho
  · exact execRemoteRead_tidy ht _ _ _ _
  · exact execReadResponse_tidy ht _ _ _
  · exact execRemoteWrite_tidy ht _ _ _ _
  · exact execWriteResponse_tidy ht _ _
  · exact execRemoteAtomic_tidy ht _ _ _ _
  · exact execAtomicResponse_tidy ht _ _ _

theorem execMessageGrant_tidy :
    nextHolds State.Tidy (execMessageGrant s) := by
  unfold execMessageGrant
  split
  · exact hs
  split
  · exact hs
  next m gs _ =>
  extract_lets out
  split
  · cases e : State.comesBack { s with grants := gs } s.subj.a m with
    | none => exact hs
    | some o => exact State.comesBack_tidy (s := { s with grants := gs }) hs _ m o e
  · exact hs


end
end Sys2Proof.Machine
end

section
namespace Sys2Proof.Machine
open Sys2Proof

section
variable {s : State} (hs : s.Tidy)
include hs

/-! ### The dispatcher -/

theorem issueQuad_tidy (d a : Reg) (g : Guard) (from_ : Nat → Nat) :
    nextHolds State.Tidy (issueQuad d a g from_ s) :=
  issue_tidy hs _ fun c ops s h => by simp [Res.Holds, h]

theorem issueLanes_tidy (d : Reg) (g : Guard) (reads : List (Reg × Nat))
    (v : Ctx → List (List LaneVec) → Nat → Word × Flags)
    : nextHolds State.Tidy (issueLanes d g reads v s) :=
  issue_tidy hs _ fun c ops s h => by simp [Res.Holds, h]

theorem exec_tidy (i : Instr) : nextHolds State.Tidy (exec i s) := by
  cases i with
  | j | call =>
    exact issueJump_tidy (hs := hs) ..
  | jr | callr =>
    exact issueJumpReg_tidy (hs := hs) ..
  | add | sub | addi | addiP | mul | mulh | mulhu | and | andi | andiP | or | ori | oriP | xor | xori | xoriP | shli
    | shri | srai | shl | shr | sra | seteq | setlt | setltu | sel | min | max | minu | maxu | rol | ror | bfx | bfi
    | popc | clz | ctz | brev | bswap | neg | not | abs | sextB | sextH | movi | moviP | mov | rand | eqId | eqTheta =>
    exact issueAlu_tidy (hs := hs) ..
  | addD | subD | adda | movD | eqGen =>
    exact issueAluPair_tidy (hs := hs) ..
  | maskAny | maskAll | maskLo | maskHi | maskCnt | shflPick | shflXor | redAddF32 | redMinF32 | redMaxF32 | redAdd
    | redMin | redMax | scanAddF32 | scanAdd =>
    exact issueLanes_tidy (hs := hs) ..
  | qxH | qxV | qxD | qxB0 | qxB1 | qxB2 | qxB3 =>
    exact issueQuad_tidy (hs := hs) ..
  | addF32 | subF32 | mulF32 | fmaF32 | minF32 | maxF32 | seteqF32 | setltF32 | setleF32 | setunF32 | rcpF32
    | rsqrtF32 | sqrtF32 | exp2F32 | log2F32 | sinF32 | cosF32 | rintF32 | floorF32 | ceilF32 | truncF32 | classF32
    | fabsF32 | fnegF32 | addBf16x2 | mulBf16x2 | fmaBf16x2 | addF16x2 | mulF16x2 | fmaF16x2 | minBf16x2 | maxBf16x2
    | minF16x2 | maxF16x2 | cvt | pack | unpack | packB4 =>
    exact issueFloat_tidy (hs := hs) ..
  | ldW | ldWP | ldD | ldDP | ldQ | ldQP | ldH | ldHP | ldHu | ldHuP | ldB | ldBP | ldBu | ldBuP =>
    exact issueLoad_tidy (hs := hs) ..
  | stW | stWP | stD | stDP | stQ | stQP | stH | stHP | stB | stBP =>
    exact issueStore_tidy (hs := hs) ..
  | pfL1 | pfL1P | pfL2 | pfL2P =>
    exact issuePrefetch_tidy (hs := hs) ..
  | ldAcqW | ldAcqD | ldScW | ldScD =>
    exact issueAcq_tidy (hs := hs) ..
  | stRelW | stRelD | stScW | stScD =>
    exact issueRel_tidy (hs := hs) ..
  | atom | atomD | atomF32 | casW | casD =>
    exact issueRmw_tidy (hs := hs) ..
  | copy1d | copy2d | copyG =>
    exact issueCopy_tidy (hs := hs) ..
  | mma | mmaPair =>
    exact issueMma_tidy (hs := hs) ..
  | rnsfI16 | rnsfI32 =>
    exact issueRnsf_tidy (hs := hs) ..
  | powerOn => exact execPowerOn_tidy (hs := hs) ..
  | thermalLimit => exact execThermalLimit_tidy (hs := hs) ..
  | thermalClear => exact execThermalClear_tidy (hs := hs) ..
  | powerCapEnforce => exact execPowerCapEnforce_tidy (hs := hs) ..
  | registerWrite => exact execRegisterWrite_tidy (hs := hs) ..
  | launchQueueEnable => exact execLaunchQueueEnable_tidy (hs := hs) ..
  | trapRingEnable => exact execTrapRingEnable_tidy (hs := hs) ..
  | formatWindowEnable => exact execFormatWindowEnable_tidy (hs := hs) ..
  | formatWindowDisable => exact execFormatWindowDisable_tidy (hs := hs) ..
  | xltInvalidatePage => exact execXltInvalidatePage_tidy (hs := hs) ..
  | xltInvalidateAsid => exact execXltInvalidateAsid_tidy (hs := hs) ..
  | rnsfailWrite => exact execRnsfailWrite_tidy (hs := hs) ..
  | restoreBlock => exact execRestoreBlock_tidy (hs := hs) ..
  | restoreLaunch => exact execRestoreLaunch_tidy (hs := hs) ..
  | notify => exact execNotify_tidy (hs := hs) ..
  | inputWrite => exact execInputWrite_tidy (hs := hs) ..
  | snapshotRequest => exact execSnapshotRequest_tidy (hs := hs) ..
  | subscribe => exact execSubscribe_tidy (hs := hs) ..
  | remoteRead => exact execRemoteRead_tidy (hs := hs) ..
  | remoteWrite => exact execRemoteWrite_tidy (hs := hs) ..
  | remoteAtomic => exact execRemoteAtomic_tidy (hs := hs) ..
  | readResponse => exact execReadResponse_tidy (hs := hs) ..
  | writeResponse => exact execWriteResponse_tidy (hs := hs) ..
  | atomicResponse => exact execAtomicResponse_tidy (hs := hs) ..
  | collectiveData => exact execCollectiveData_tidy (hs := hs) ..
  | barrierArrive => exact execBarrierArrive_tidy (hs := hs) ..
  | barrierRelease => exact execBarrierRelease_tidy (hs := hs) ..
  | undefinedWord => exact execUndefinedWord_tidy (hs := hs) ..
  | exit => exact execExit_tidy (hs := hs) ..
  | nop => exact execNop_tidy (hs := hs) ..
  | joinSet => exact execJoinSet_tidy (hs := hs) ..
  | join => exact execJoin_tidy (hs := hs) ..
  | yield => exact execYield_tidy (hs := hs) ..
  | ret => exact execRet_tidy (hs := hs) ..
  | trap => exact execTrap_tidy (hs := hs) ..
  | trret => exact execTrret_tidy (hs := hs) ..
  | lmapLd => exact execLmapLd_tidy (hs := hs) ..
  | movS => exact execMovS_tidy (hs := hs) ..
  | movSW => exact execMovSW_tidy (hs := hs) ..
  | wbase => exact execWbase_tidy (hs := hs) ..
  | cinv => exact execCinv_tidy (hs := hs) ..
  | cinvAll => exact execCinvAll_tidy (hs := hs) ..
  | fence => exact execFence_tidy (hs := hs) ..
  | poll => exact execPoll_tidy (hs := hs) ..
  | barB => exact execBarB_tidy (hs := hs) ..
  | barC => exact execBarC_tidy (hs := hs) ..
  | barDev => exact execBarDev_tidy (hs := hs) ..
  | barDom => exact execBarDom_tidy (hs := hs) ..
  | tktTake => exact execTktTake_tidy (hs := hs) ..
  | tktWait => exact execTktWait_tidy (hs := hs) ..
  | qcfg => exact execQcfg_tidy (hs := hs) ..
  | batch => exact execBatch_tidy (hs := hs) ..
  | waitB => exact execWaitB_tidy (hs := hs) ..
  | waitC => exact execWaitC_tidy (hs := hs) ..
  | coll => exact execColl_tidy (hs := hs) ..
  | tld => exact execTld_tidy (hs := hs) ..
  | tst => exact execTst_tidy (hs := hs) ..
  | accZero => exact execAccZero_tidy (hs := hs) ..
  | accRd => exact execAccRd_tidy (hs := hs) ..
  | accWr => exact execAccWr_tidy (hs := hs) ..
  | accChkTile => exact execAccChkTile_tidy (hs := hs) ..
  | accChkTen => exact execAccChkTen_tidy (hs := hs) ..
  | pin => exact execPin_tidy (hs := hs) ..
  | unpin => exact execUnpin_tidy (hs := hs) ..
  | fwupd => exact execFwupd_tidy (hs := hs) ..
  | fwrd => exact execFwrd_tidy (hs := hs) ..
  | rnsr => exact execRnsr_tidy (hs := hs) ..
  | rnsChk => exact execRnsChk_tidy (hs := hs) ..
  | rset => exact execRset_tidy (hs := hs) ..
  | rpost => exact execRpost_tidy (hs := hs) ..
  | rget => exact execRget_tidy (hs := hs) ..
  | qend => exact execQend_tidy (hs := hs) ..
  | softError => exact execSoftError_tidy (hs := hs) ..
  | powerRemoval => exact execPowerRemoval_tidy ..
  | xltInvalidateAll => exact execXltInvalidateAll_tidy (hs := hs) ..
  | xltInvalidationComplete => exact execXltInvalidationComplete_tidy (hs := hs) ..
  | rnsfailEffect => exact execRnsfailEffect_tidy (hs := hs) ..
  | attestationReport => exact execAttestationReport_tidy (hs := hs) ..
  | preemptBlock => exact execPreemptBlock_tidy (hs := hs) ..
  | resume => exact execResume_tidy (hs := hs) ..
  | discard => exact execDiscard_tidy (hs := hs) ..
  | checkpointLaunch => exact execCheckpointLaunch_tidy (hs := hs) ..
  | runCommand => exact execRunCommand_tidy (hs := hs) ..
  | loadCommand => exact execLoadCommand_tidy (hs := hs) ..
  | unloadCommand => exact execUnloadCommand_tidy (hs := hs) ..
  | clusterPlacement => exact execClusterPlacement_tidy (hs := hs) ..
  | drain => exact execDrain_tidy (hs := hs) ..
  | blockRetirement => exact execBlockRetirement_tidy (hs := hs) ..
  | runCompletion => exact execRunCompletion_tidy (hs := hs) ..
  | quantumBoundary => exact execQuantumBoundary_tidy (hs := hs) ..
  | standingBoundary => exact execStandingBoundary_tidy (hs := hs) ..
  | deferredJournalEntry => exact execDeferredJournalEntry_tidy (hs := hs) ..
  | relaxationPlacement => exact execRelaxationPlacement_tidy (hs := hs) ..
  | relaxationRetirement => exact execRelaxationRetirement_tidy (hs := hs) ..
  | relaxationKill => exact execRelaxationKill_tidy (hs := hs) ..
  | inputLanding => exact execInputLanding_tidy (hs := hs) ..
  | snapshotServe => exact execSnapshotServe_tidy (hs := hs) ..
  | unloadCompletion => exact execUnloadCompletion_tidy (hs := hs) ..
  | residualEntryError => exact execResidualEntryError_tidy (hs := hs) ..
  | reservedMessage => exact execReservedMessage_tidy (hs := hs) ..
  | messageGrant => exact execMessageGrant_tidy (hs := hs) ..
  | portDown => exact execPortDown_tidy (hs := hs) ..
  | remoteRequestTimeout => exact execRemoteRequestTimeout_tidy (hs := hs) ..
  | loadDataReturn => exact execLoadDataReturn_tidy (hs := hs) ..
  | storeAcknowledgement => exact execStoreAcknowledgement_tidy (hs := hs) ..
  | l1LeaseEnd => exact execL1LeaseEnd_tidy (hs := hs) ..
  | pageWalk => exact execPageWalk_tidy (hs := hs) ..
  | copyJobStart => exact execCopyJobStart_tidy (hs := hs) ..
  | copyJobFault => exact execCopyJobFault_tidy (hs := hs) ..
  | copyJobCompletion => exact execCopyJobCompletion_tidy (hs := hs) ..
  | matrixOperationRetirement => exact execMatrixOperationRetirement_tidy (hs := hs) ..
  | pairOperationFollowerStart => exact execPairOperationFollowerStart_tidy (hs := hs) ..
  | pinAllocation => exact execPinAllocation_tidy (hs := hs) ..
  | pressureSpill => exact execPressureSpill_tidy (hs := hs) ..
  | governorWindow => exact execGovernorWindow_tidy (hs := hs) ..
  | backoffExpiry => exact execBackoffExpiry_tidy (hs := hs) ..
  | starvation => exact execStarvation_tidy (hs := hs) ..
  | timerTrap => exact execTimerTrap_tidy (hs := hs) ..
  | blockHalt => exact execBlockHalt_tidy (hs := hs) ..
  | trapRecordPosting => exact execTrapRecordPosting_tidy (hs := hs) ..
  | repost => exact execRepost_tidy (hs := hs) ..
  | rollback => exact execRollback_tidy (hs := hs) ..
  | reservedCommand => exact execReservedCommand_tidy (hs := hs) ..

/-! ### Fetch -/

@[simp] theorem State.codeWord_tidy (w : Wave) (l : Launch) (a : Nat) :
    (s.codeWord w l a).2.Tidy := by
  unfold State.codeWord
  (repeat' split) <;> simp [hs]

@[simp] theorem State.fetchAt_tidy (key : Nat) (w : Wave) (l : Launch) (va : Nat) :
    (s.fetchAt key w l va).Holds State.Tidy := by
  unfold State.fetchAt
  (repeat' split) <;> grind [State.lookup_tidy, State.awaitWalks_tidy, State.codeWord_tidy, CodeFetch.Holds,
    Looked.Holds]

@[simp] theorem State.fetchFault_tidy (key : Nat) (w : Wave) (k : Nat) :
    (s.fetchFault key w k).Tidy := by
  unfold State.fetchFault
  (repeat' split) <;> simp [hs]

@[simp] theorem State.fetchInstr_tidy (key : Nat) (w : Wave) (l : Launch) :
    (s.fetchInstr key w l).Holds State.Tidy := by
  unfold State.fetchInstr
  (repeat' split) <;> grind [State.fetchAt_tidy, CodeFetch.Holds, Ready.Holds]

/-! ### Turns -/

@[simp] theorem State.recount_tidy (since : Nat) : (s.recount since).Tidy :=
  State.Tidy.mapWaves hs fun _ => rfl

/-! ### The step -/

@[simp] theorem State.settled_tidy (ver : Nat) (quiet : Bool) : (State.settled ver quiet s).Tidy := by
  unfold State.settled
  extract_lets u
  have hu : u.Tidy := hs
  split
  · exact hu
  · exact State.recount_tidy (by exact State.serveBehind_tidy hu) _

theorem State.happen_tidy (i : Instr) (subj : Subject) :
    nextHolds State.Tidy (s.happen i subj) :=
  finish_holds (exec_tidy (s := { s with cur := none, subj := subj }) hs i) fun _ ht =>
    State.settled_tidy ht s.ver false

@[simp] theorem State.undoCloses_tidy (key : Nat) (w : Wave) : (s.undoCloses key w).Tidy := by
  unfold State.undoCloses
  (repeat' split) <;> simp [hs]

omit hs in
@[simp] theorem State.issued_tidy (w : Wave) (l : Launch) (key : Nat) {u : State} (hu : u.Tidy) :
    (s.issued w l key u).Tidy := by
  unfold State.issued
  split
  · exact State.settled_tidy hu _ _
  · exact State.settled_tidy (State.modCore_tidy (State.lateChecks_tidy (State.undoCloses_tidy hu key w) key) _ _) _ _

theorem State.issueFrom_tidy (key : Nat) (w : Wave) (l : Launch) :
    nextHolds State.Tidy (s.issueFrom key w l) := by
  have settle (t : State) (ht : t.Tidy) : nextHolds State.Tidy (.next (t.settled s.ver false)) :=
    State.settled_tidy ht s.ver false
  have hf := State.fetchInstr_tidy hs key w l
  unfold State.issueFrom
  split
  · exact settle _ (by simp [hs])
  split
  · exact settle _ (by simp [hs])
  · exact settle _ (by simp [hs])
  · next t e => exact settle t (by rw [e] at hf; exact hf)
  · next i t e =>
    rw [e] at hf
    exact finish_holds (exec_tidy (s := { t with cur := some key }) hf i) fun u hu => State.issued_tidy w l key hu

theorem State.section_tidy (core sect : Nat) :
    nextHolds State.Tidy (s.section core sect) := by
  unfold State.section
  (repeat' split) <;> grind [State.settled_tidy, State.issueFrom_tidy, nextHolds]

theorem State.auto_tidy : nextHolds State.Tidy s.auto := by
  unfold State.auto
  split
  · exact State.happen_tidy hs _ _
  split
  · exact State.section_tidy hs _ _
  · exact State.settled_tidy (s := { s with now := s.now + 1 }) hs s.ver false

@[simp] theorem State.after_tidy (c : Choice) : (s.after c).Tidy := by
  unfold State.after
  split
  · exact hs
  · exact (State.recount_tidy (s := { s with now := s.now + c.elapse, ver := s.ver + 1 }) hs s.now :)

theorem step_tidy : nextHolds State.Tidy (step s) := by
  unfold step
  split
  · exact State.auto_tidy hs
  next c rest _ =>
  have ht : State.Tidy { s.after c with sched := rest } := State.after_tidy hs c
  dsimp only
  split
  · exact State.auto_tidy ht
  · exact State.section_tidy ht _ _
  · exact State.happen_tidy ht _ _

end

/-- Settles O60, by a walk through the machine's functions: each of them changes an entry of a table under its key, adds
or removes one where the order asks, and writes the on-chip memories only byte by byte from canonical ones. -/
theorem tablesStayCanonical : Obligations.TablesStayCanonical := by
  intro s t hc hr e
  have h := step_tidy (State.tidy_iff.mpr ⟨hc, hr⟩)
  rw [e] at h
  exact State.tidy_iff.mp h
end Sys2Proof.Machine
end


section
namespace Sys2Proof.Machine
open Sys2Proof

/-! ## A queue whose producer has exited with a load still on its way into it (R31)

The model lets such a queue's consumer wait for the load's words: it faults only once none can come. -/

namespace ExitedProducer

/-- A run of one block of a compute wave and its shadow. -/
def launch : Launch :=
  freshLaunch [] ⟨0, 1, 1, 1, 1, 1, 1, 1, 8, 0, 0, 0, 2, 0, 0, 1⟩ [] false none 0 0

def block : Block := freshBlock 0 launch 0 0 ⟨0, 0, []⟩ ⟨0, 0, []⟩ 0

/-- The consumer of queue 0. -/
def consumer : Wave := freshWave launch 0 0 false 0 0 0 0 0 0 0

/-- Its partner, which has exited; a load of it will still push its words into queue 0. -/
def producer : Wave :=
  { freshWave launch 0 0 true 0 0 0 1 0 0 0 with
    exited := true
    outst := [⟨0, false, 4, false, [], 0, [], none, none, none, none, some 0, []⟩] }

def state : State :=
  { State.reset with
    launches := [(0, launch)], blocks := [(0, block)]
    waves := [(waveKey 0 0 false, consumer), (waveKey 0 0 true, producer)] }

def ctx : Ctx := ⟨waveKey 0 0 false, consumer, block, launch, BitVec.allOnes 64, 0, false⟩

end ExitedProducer

/-- Refutes O13: a partner that has exited with a load still to push its words into the empty queue leaves the pop
Blocked, where the statement has it fault with 0x21. -/
theorem not_queuesAreFifo : ¬ Obligations.QueuesAreFifo := by
  unfold Obligations.QueuesAreFifo
  intro h
  have hpop := (h ExitedProducer.state ExitedProducer.ctx 0 ExitedProducer.block (fun _ => 0) (by decide)).2.1
    (by decide) (by decide)
  have hexit : ExitedProducer.state.exitedWave ExitedProducer.ctx.partner = true := by decide
  have hwait : ExitedProducer.state.pop ExitedProducer.ctx 0 = .wait 0 := by rfl
  rw [hexit, hwait] at hpop
  nomatch hpop

end Sys2Proof.Machine
end

section
namespace Sys2Proof.Machine
open Sys2Proof

/-! ## What a word that retires does to its wave (R62, R107) -/

/-- The wave an issuing word belongs to is the one the state holds under its key. -/
theorem State.issuing_wave {s : State} {f : Form} {c : Ctx} (h : s.issuing f = some c) :
    s.waves.get? c.key = some c.w := by
  have hp := (State.issuing_parties h).1
  unfold State.parties at hp
  split at hp
  · nomatch hp
  · split at hp
    · nomatch hp
    · split at hp
      · nomatch hp
      · split at hp
        · nomatch hp
        · cases hp
          assumption

/-- The block of an issuing word is the one the state holds under its wave's block number. -/
theorem State.issuing_block {s : State} {f : Form} {c : Ctx} (h : s.issuing f = some c) :
    s.blocks.get? c.w.block = some c.b := by
  have hp := (State.issuing_parties h).1
  unfold State.parties at hp
  split at hp
  · nomatch hp
  · split at hp
    · nomatch hp
    · split at hp
      · nomatch hp
      · split at hp
        · nomatch hp
        · cases hp
          assumption

theorem OnlyWave.refl {s : State} {c : Ctx} {w : Wave} (h : s.waves.get? c.key = some w) : OnlyWave s c s w :=
  ⟨h, fun _ _ => rfl, rfl⟩

theorem OnlyWave.trans {s t u : State} {c : Ctx} {w w' : Wave} (h : OnlyWave s c t w) (h' : OnlyWave t c u w') :
    OnlyWave s c u w' where
  wave := h'.wave
  others k hk := (h'.others k hk).trans (h.others k hk)
  rest := by rw [← h.rest, ← h'.rest]

theorem OnlyWave.now {s t : State} {c : Ctx} {w : Wave} (h : OnlyWave s c t w) : t.now = s.now := by
  rw [← h.rest]

theorem OnlyWave.modWave {s : State} {c : Ctx} {w : Wave} (h : s.waves.get? c.key = some w) (f : Wave → Wave) :
    OnlyWave s c (s.modWave c.key f) (f w) where
  wave := KMap.get?_modify_self f h
  others _ hk := KMap.get?_modify_ne _ f hk
  rest := rfl

/-- A wave as retirement leaves it, at the address `pc`; `k` is its count of instructions since the block's halt. -/
def Wave.retiredAt (w : Wave) (l : Launch) (now : Nat) (x : Series) (pc : DWord) (k : Nat) : Wave :=
  { (w.retire l now x) with pc := pc, skid := k }

section retiredAt
variable (w : Wave) (l : Launch) (now : Nat) (x : Series) (pc : DWord) (k : Nat)

@[simp] theorem Wave.retiredAt_regs : (w.retiredAt l now x pc k).regs = w.regs := w.retire_regs l now x
@[simp] theorem Wave.retiredAt_active : (w.retiredAt l now x pc k).active = w.active := w.retire_active l now x
@[simp] theorem Wave.retiredAt_stack : (w.retiredAt l now x pc k).stack = w.stack := w.retire_stack l now x
@[simp] theorem Wave.retiredAt_outst : (w.retiredAt l now x pc k).outst = w.outst := w.retire_outst l now x
@[simp] theorem Wave.retiredAt_level : (w.retiredAt l now x pc k).level = (w.serve x now).level := rfl
@[simp] theorem Wave.retiredAt_polls : (w.retiredAt l now x pc k).polls = (w.serve x now).polls := rfl
@[simp] theorem Wave.retiredAt_backoff : (w.retiredAt l now x pc k).backoff = (w.serve x now).backoff := rfl

@[simp] theorem Wave.retiredAt_bookOf (v : Wave) : (w.retiredAt l now x pc k).bookOf v = w.bookOf v := by
  cases x <;> simp [Wave.retiredAt, Wave.retire, Wave.serve, Wave.bookOf]

theorem Wave.retired_retiredAt {c : Ctx} (h : w.retired = c.w.retired) : Retired c (w.retiredAt l now x pc k) pc where
  count := by rw [← h]; exact w.retire_retired l now x
  at_pc := rfl

end retiredAt

/-- Counting a word against a block's halt changes a wave's count only. -/
theorem State.countSkid_onlyWave {s : State} {c : Ctx} {w : Wave} (h : s.waves.get? c.key = some w) (b : Nat) :
    ∃ k, OnlyWave s c (s.countSkid c.key b) { w with skid := k } := by
  have same : OnlyWave s c s { w with skid := w.skid } := .refl h
  unfold State.countSkid
  split
  · exact ⟨_, same⟩
  · split
    · exact ⟨_, same⟩
    · split
      · exact ⟨_, same⟩
      · by_cases hh : w.halted = true
        · have hm := OnlyWave.modWave h fun w => if w.halted then w else { w with skid := w.skid + 1 }
          rw [if_pos hh] at hm
          exact ⟨_, hm⟩
        · have hm := OnlyWave.modWave h fun w => if w.halted then w else { w with skid := w.skid + 1 }
          rw [if_neg hh] at hm
          exact ⟨_, hm⟩

/-- A word that moves on to the next address changes its wave only. -/
theorem State.retireAt_onlyWave {s : State} {c : Ctx} {w : Wave} (h : s.waves.get? c.key = some w) (size : Nat)
    (x : Series) : ∃ k, OnlyWave s c (s.retireAt c size x)
      (w.retiredAt c.l s.now x (w.pc + BitVec.ofNat 64 (4 * size)) k) := by
  have hm := OnlyWave.modWave h fun w => { (w.retire c.l s.now x) with pc := w.pc + BitVec.ofNat 64 (4 * size) }
  obtain ⟨k, hk⟩ := State.countSkid_onlyWave hm.wave c.w.block
  exact ⟨k, hm.trans hk⟩

/-- A word that has set its wave's address changes its wave only. -/
theorem State.retireJump_onlyWave {s : State} {c : Ctx} {w : Wave} (h : s.waves.get? c.key = some w)
    (x : Series) : ∃ k, OnlyWave s c (s.retireJump c x) (w.retiredAt c.l s.now x w.pc k) := by
  have hm := OnlyWave.modWave h fun w => w.retire c.l s.now x
  obtain ⟨k, hk⟩ := State.countSkid_onlyWave hm.wave c.w.block
  rw [← w.retire_pc c.l s.now x]
  exact ⟨k, hm.trans hk⟩

/-- The word has retired at `pc`: only its wave has changed, to `w` with the bookkeeping of retirement. -/
def State.Retires (s : State) (c : Ctx) (t : State) (w : Wave) (x : Series) (pc : DWord) : Prop :=
  ∃ k, OnlyWave s c t (w.retiredAt c.l s.now x pc k)

theorem State.Retires.onlyWave {s t : State} {c : Ctx} {w : Wave} {x : Series} {pc : DWord}
    (h : s.Retires c t w x pc) (hw : w.retired = c.w.retired) :
    ∃ w', OnlyWave s c t w' ∧ Retired c w' pc ∧ w'.level = (w.serve x s.now).level ∧
      w'.polls = (w.serve x s.now).polls ∧ w'.bookOf c.w = w.bookOf c.w := by
  obtain ⟨k, ho⟩ := h
  exact ⟨_, ho, w.retired_retiredAt _ _ _ _ _ hw, w.retiredAt_level _ _ _ _ _, w.retiredAt_polls _ _ _ _ _,
    w.retiredAt_bookOf _ _ _ _ _ _⟩

section settled
variable {s : State} {f : Form} {c : Ctx} {body : Ctx → List (List LaneVec) → State → Res}

/-- A clear word that changes its wave only, and moves on. -/
theorem issue_clear_done (h : Clear s f c) {x : Series} {t : State} {w : Wave} (ho : OnlyWave s c t w)
    (hpc : w.pc = c.w.pc) (hb : body c (c.operands f.reads) s = .done x t) :
    ∃ t, issue f body s = .next t ∧ s.Retires c t w x (c.after f.size) := by
  obtain ⟨k, hk⟩ := State.retireAt_onlyWave ho.wave f.size x
  rw [hpc, ho.now] at hk
  refine ⟨_, issue_clear h, k, ?_⟩
  rw [hb, State.settle, h.inside]
  exact ho.trans hk

/-- A clear word that changes its wave only, its address too. -/
theorem issue_clear_jump (h : Clear s f c) {x : Series} {t : State} {w : Wave} (ho : OnlyWave s c t w)
    (hb : body c (c.operands f.reads) s = .jump x t) :
    ∃ t, issue f body s = .next t ∧ s.Retires c t w x w.pc := by
  obtain ⟨k, hk⟩ := State.retireJump_onlyWave ho.wave x
  rw [ho.now] at hk
  refine ⟨_, issue_clear h, k, ?_⟩
  rw [hb, State.settle]
  exact ho.trans hk

/-- A clear word that halts its block with a cause that no rollback answers. -/
theorem issue_clear_halt (h : Clear s f c) {cause : Nat} {addr : DWord} {detail : Word} (hc : cause ≠ 0x17)
    (hb : body c (c.operands f.reads) s = .halt cause addr detail) :
    issue f body s = .next (s.takeHalt c.key cause addr c.t detail) := by
  rw [issue_clear h, hb, State.settle, State.haltWord, if_neg fun hx => hc hx.1]

end settled

end Sys2Proof.Machine
end

section
namespace Sys2Proof.Machine
open Sys2Proof

/-! ## `join.set`, `join` and `yield` (R143, R241 to R243) -/

theorem splitStack_pathsOf (ps : List (DWord × Mask)) (r : DWord) (m : Mask) (rest : List StackEntry) :
    splitStack (pathsOf ps ++ .token r m :: rest) = (ps, some (r, m), rest) := by
  induction ps with
  | nil => rfl
  | cons p ps ih => exact congrArg (fun x => ((p.1, p.2) :: x.1, x.2.1, x.2.2)) ih

theorem splitStack_no_token {st : List StackEntry} (h : hasToken st = false) : (splitStack st).2.1 = none := by
  induction st with
  | nil => rfl
  | cons e st ih =>
    cases e with
    | token r m => simp [hasToken] at h
    | path p m => exact ih (by simpa [hasToken] using h)

theorem targetOk_iff (t : Int) : targetOk t = true ↔ 0 ≤ t ∧ t ≤ 2 ^ 57 - 4 := by
  simp only [targetOk, Bool.and_eq_true, decide_eq_true_eq]

/-- The statement's target of an offset is the one that passes the model's range check. -/
theorem offsetTarget_eq (off : BitVec 21) (c : Ctx) : offsetTarget off c =
    if targetOk (jTarget c.w.pc off) then some (BitVec.ofInt 64 (jTarget c.w.pc off)) else none :=
  if_congr (targetOk_iff _).symm rfl rfl

section clear
variable {g : Guard} {s : State} {c : Ctx}

theorem joinSet_out_of_range {off : BitVec 21} (h : Clear s (controlForm g false []) c)
    (ht : offsetTarget off c = none) : exec (.joinSet off g) s = .next (s.takeHalt c.key 0x07 0 c.t 0) := by
  have hr : targetOk (jTarget c.w.pc off) = false := by simpa [offsetTarget_eq] using ht
  exact issue_clear_halt h (by decide) (by simp [hr])

theorem joinSet_full {off : BitVec 21} {target : DWord} (h : Clear s (controlForm g false []) c)
    (ht : offsetTarget off c = some target) (hf : 16 ≤ c.w.stack.length) :
    exec (.joinSet off g) s = .next (s.takeHalt c.key 0x05 0 c.t 0) := by
  have hr : targetOk (jTarget c.w.pc off) = true := by
    by_contra hn
    simp [offsetTarget_eq, hn] at ht
  exact issue_clear_halt h (by decide) (by simp [hr, hf])

theorem joinSet_pushes {off : BitVec 21} {target : DWord} (h : Clear s (controlForm g false []) c)
    (ht : offsetTarget off c = some target) (hf : c.w.stack.length < 16) :
    ∃ t w', exec (.joinSet off g) s = .next t ∧ OnlyWave s c t w' ∧ Retired c w' (c.after 1) ∧
      w'.bookOf c.w = { c.w with stack := .token target 0 :: c.w.stack } := by
  have hr : targetOk (jTarget c.w.pc off) = true := by
    by_contra hn
    simp [offsetTarget_eq, hn] at ht
  have htarget : BitVec.ofInt 64 (jTarget c.w.pc off) = target := by simpa [offsetTarget_eq, hr] using ht
  obtain ⟨t, he, ho⟩ : ∃ t, exec (.joinSet off g) s = .next t ∧
      s.Retires c t { c.w with stack := .token target 0 :: c.w.stack } .plain (c.after 1) :=
    issue_clear_done h (.modWave (State.issuing_wave h.ctx) fun w => { w with stack := .token target 0 :: w.stack })
      rfl (by
      simp only [hr, htarget, Nat.not_le.mpr hf, Bool.not_true, Bool.false_eq_true, if_false])
  obtain ⟨w', hw, hret, -, -, hbook⟩ := ho.onlyWave rfl
  exact ⟨t, w', he, hw, hret, hbook⟩

/-- `join` with no token on the stack. -/
theorem join_no_token (h : Clear s (controlForm g false []) c) (ht : hasToken c.w.stack = false) :
    exec (.join g) s = .next (s.takeHalt c.key 0x04 0 c.t 0) := by
  have hn := splitStack_no_token ht
  refine issue_clear_halt h (by decide) ?_
  rcases hsp : splitStack c.w.stack with ⟨ps, tok, rest⟩
  rw [hsp] at hn
  cases hn
  rfl

section token
variable {r : DWord} {m : Mask} {rest : List StackEntry} {ps : List (DWord × Mask)}

/-- `join` whose token has another address. -/
theorem join_elsewhere (h : Clear s (controlForm g false []) c) (hst : c.w.stack = pathsOf ps ++ .token r m :: rest)
    (hr : r ≠ c.w.pc) : exec (.join g) s = .next (s.takeHalt c.key 0x04 0 c.t 0) := by
  refine issue_clear_halt h (by decide) ?_
  rw [hst, splitStack_pathsOf]
  exact if_pos hr

/-- The last path's `join`: all arrived lanes run on. -/
theorem join_last (h : Clear s (controlForm g false []) c) (hst : c.w.stack = .token c.w.pc m :: rest) :
    ∃ t, exec (.join g) s = .next t ∧
      s.Retires c t { c.w with active := m ||| c.w.active, stack := rest } .plain (c.after 1) :=
  issue_clear_done h (.modWave (State.issuing_wave h.ctx) _) rfl (by
    rw [hst, show splitStack (.token c.w.pc m :: rest) = ([], some (c.w.pc, m), rest) from rfl]
    exact if_neg fun hn => hn rfl)

/-- `join` with paths left: the next of them runs. -/
theorem join_next {p : DWord} {k : Mask} (h : Clear s (controlForm g false []) c)
    (hst : c.w.stack = pathsOf ((p, k) :: ps) ++ .token c.w.pc m :: rest) :
    ∃ t, exec (.join g) s = .next t ∧ s.Retires c t
      { c.w with pc := p, active := k, stack := pathsOf ps ++ .token c.w.pc (m ||| c.w.active) :: rest } .plain p :=
  issue_clear_jump h (.modWave (State.issuing_wave h.ctx) _) (by
    rw [hst, splitStack_pathsOf]
    exact if_neg fun hn => hn rfl)

/-- `yield` with another path: it runs, and the running one waits behind the others. -/
theorem yield_next {p : DWord} {k : Mask} (h : Clear s (controlForm g false []) c)
    (hst : c.w.stack = pathsOf ((p, k) :: ps) ++ .token r m :: rest) :
    ∃ t, exec (.yield g) s = .next t ∧ s.Retires c t { c.w with
      pc := p, active := k, stack := pathsOf ps ++ .path c.next c.w.active :: .token r m :: rest } .yields p :=
  issue_clear_jump h (.modWave (State.issuing_wave h.ctx) _) (by
    rw [hst, splitStack_pathsOf])

end token

/-- `yield` with no other path above a token only moves on. -/
theorem yield_alone (h : Clear s (controlForm g false []) c)
    (hst : hasToken c.w.stack = false ∨ ∃ r m rest, c.w.stack = .token r m :: rest) :
    ∃ t, exec (.yield g) s = .next t ∧ s.Retires c t c.w .yields (c.after 1) := by
  refine issue_clear_done h (.refl (State.issuing_wave h.ctx)) rfl ?_
  rcases hst with ht | ⟨r, m, rest, ht⟩
  · have hn := splitStack_no_token ht
    rcases hsp : splitStack c.w.stack with ⟨ps, tok, rest⟩
    rw [hsp] at hn
    cases hn
    cases ps <;> rfl
  · rw [ht]
    rfl

end clear

/-- Settles O17: each word by what lies above the nearest token of its stack; the target of a `join.set` is judged
before the full stack (log entry 75). -/
theorem joinsAndYield : Obligations.JoinsAndYield := by
  unfold Obligations.JoinsAndYield
  refine ⟨fun off g s c h => ⟨joinSet_out_of_range h, fun target ht =>
    ⟨joinSet_full h ht, joinSet_pushes h ht⟩⟩, fun g s c h => ⟨join_no_token h, fun r m rest ps hst =>
    ⟨join_elsewhere h hst, fun hr => ?_, ?_⟩, fun ht => ?_⟩⟩
  · subst hr
    cases ps with
    | nil =>
      obtain ⟨t, he, ho⟩ := join_last h hst
      obtain ⟨w', hw, hret, -, -, hbook⟩ := ho.onlyWave rfl
      exact ⟨t, w', he, hw, hret, hbook⟩
    | cons p more =>
      obtain ⟨t, he, ho⟩ := join_next h hst
      obtain ⟨w', hw, hret, -, -, hbook⟩ := ho.onlyWave rfl
      exact ⟨t, w', he, hw, hret, hbook⟩
  · cases ps with
    | nil =>
      obtain ⟨t, he, ho⟩ := yield_alone h (.inr ⟨r, m, rest, hst⟩)
      obtain ⟨w', hw, hret, hlevel, -, hbook⟩ := ho.onlyWave rfl
      exact ⟨t, w', he, hw, hlevel, hret, hbook⟩
    | cons p more =>
      obtain ⟨t, he, ho⟩ := yield_next h hst
      obtain ⟨w', hw, hret, hlevel, -, hbook⟩ := ho.onlyWave rfl
      exact ⟨t, w', he, hw, hlevel, hret, hbook⟩
  · obtain ⟨t, he, ho⟩ := yield_alone h (.inl ht)
    obtain ⟨w', hw, hret, hlevel, -, hbook⟩ := ho.onlyWave rfl
    exact ⟨t, w', he, hw, hlevel, hret, hbook⟩

end Sys2Proof.Machine
end

section
namespace Sys2Proof.Machine
open Sys2Proof

/-! ## An `exit` that completes a barrier (R172, R218, R245)

The last wave to arrive exits. The barrier then releases the two waves that wait at it, and the acquire of the first
performs the store that the second published at block scope as it arrived. -/

namespace ReleasingExit

/-- A run of one block of three waves. -/
def launch : Launch :=
  freshLaunch [] ⟨0, 1, 1, 1, 1, 1, 1, 3, 8, 0, 0, 0, 0, 0, 0, 1⟩ [] false none 0 0

def block : Block := freshBlock 0 launch 0 0 ⟨0, 0, []⟩ ⟨0, 0, []⟩ 0

/-- The wave that exits. -/
def leaving : Wave := freshWave launch 0 0 false 0 0 0 0 0 0 0

/-- A wave that waits at `bar.b`. -/
def waiting (n : Nat) : Wave := { freshWave launch 0 0 false 0 0 0 n 0 0 0 with blocked := some .barB }

/-- A wave that waits at `bar.b`, with a store of 5 to address 0x20000 that it has published at block scope. -/
def publishing : Wave :=
  { waiting 2 with
    outst := [⟨7, true, 4, false, [], 0, [⟨0, .here (.mem 0x20000), 0, 5, 0⟩], none, none, none, some .block, none,
      []⟩] }

def state : State :=
  { State.reset with
    launches := [(0, launch)], blocks := [(0, block)]
    waves := [(0, leaving), (1, waiting 1), (2, publishing)]
    cur := some 0 }

def form : Form := controlForm .always false []

def ctx : Ctx := ⟨0, leaving, block, launch, leaving.executing .always false, form.helperLanes leaving, false⟩

theorem clear : Clear state form ctx where
  ctx := by decide
  some_lane := by decide
  in_range := by decide
  settled := by decide
  agrees := by decide
  sound := by decide
  no_queue := by decide
  inside := by decide

/-- The state after the `exit`. -/
def after : State :=
  state.settle ctx 1 (.jumpEnd .plain ((state.modWave 0 fun w =>
    { w with live := 0, active := 0, stack := [], exited := true, mxflags := [] }).afterExit 0))

/-- The store that the released wave's acquire performs has changed memory. -/
theorem after_mem : after.mem ≠ state.mem := by decide

theorem exec_exit : exec (.exit .always) state = .next after := by
  have hleft : ctx.w.active &&& ~~~ctx.t = 0 := by decide
  have hlive : ctx.w.live &&& ~~~ctx.t = 0 := by decide
  calc exec (.exit .always) state = execExit .always state := rfl
    _ = .next after := by
      unfold execExit
      rw [issue_clear (show Clear state (controlForm .always false []) ctx from clear), hleft, hlive]
      rfl

end ReleasingExit

/-- Refutes O18: an `exit` that completes a barrier lets the waves that wait there go on, and the acquire of one of
them performs the store that another has published (R172), where the statement has memory as before. -/
theorem not_exitNopTrapWbase : ¬ Obligations.ExitNopTrapWbase := by
  unfold Obligations.ExitNopTrapWbase
  intro h
  obtain ⟨t, w', hexec, -, hmem, -⟩ := h.1 .always ReleasingExit.state ReleasingExit.ctx ReleasingExit.clear
  rw [ReleasingExit.exec_exit] at hexec
  cases hexec
  exact ReleasingExit.after_mem hmem

end Sys2Proof.Machine
end

section
namespace Sys2Proof.Machine
open Sys2Proof

/-! ## The integer rows are what the machine computes (R76 to R83)

One lemma per operation: the machine's bit-vector operation is the row's operation on numbers. -/

theorem Word.add_eq (x y : Word) : x + y = BitVec.ofNat 32 (x.toNat + y.toNat) := by
  simp [BitVec.ofNat_add]

theorem Word.addInt_eq (x y : Word) : x + y = BitVec.ofInt 32 (x.toInt + y.toInt) := by
  simp [BitVec.ofInt_add]

theorem Word.sub_eq (x y : Word) : x - y = BitVec.ofInt 32 (x.toInt - y.toInt) := by
  simp [Int.sub_eq_add_neg, BitVec.ofInt_add, BitVec.ofInt_neg, BitVec.sub_eq_add_neg]

theorem Word.mul_eq (x y : Word) : x * y = BitVec.ofNat 32 (x.toNat * y.toNat) := by
  simp [BitVec.ofNat_mul]

theorem mulHigh_eq (x y : Word) : mulHigh x y = BitVec.ofInt 32 (x.toInt * y.toInt / 2 ^ 32) := by
  apply BitVec.eq_of_toNat_eq
  have hp : ((x.signExtend 64 * y.signExtend 64).toNat : Int) = x.toInt * y.toInt % 2 ^ 64 := by
    have hm : x.signExtend 64 * y.signExtend 64 = BitVec.ofInt 64 (x.toInt * y.toInt) := by
      rw [BitVec.ofInt_mul]; rfl
    rw [hm, BitVec.toNat_ofInt]
    omega
  simp only [mulHigh, BitVec.extractLsb'_toNat, BitVec.toNat_ofInt, Nat.shiftRight_eq_div_pow]
  omega

theorem mulHighU_eq (x y : Word) : mulHighU x y = BitVec.ofNat 32 (x.toNat * y.toNat / 2 ^ 32) := by
  apply BitVec.eq_of_toNat_eq
  have hp : (x.setWidth 64 * y.setWidth 64).toNat = x.toNat * y.toNat := by
    have hlt : x.toNat * y.toNat < 2 ^ 64 := (Nat.mul_lt_mul'' x.isLt y.isLt).trans_eq (by norm_num)
    rw [BitVec.toNat_mul, BitVec.toNat_setWidth_of_le (by decide), BitVec.toNat_setWidth_of_le (by decide),
      Nat.mod_eq_of_lt hlt]
  simp only [mulHighU, BitVec.extractLsb'_toNat, BitVec.toNat_ofNat, Nat.shiftRight_eq_div_pow, hp]

theorem shl_eq (x : Word) (n : Nat) : x <<< n = BitVec.ofNat 32 (x.toNat * 2 ^ n) := by
  apply BitVec.eq_of_toNat_eq
  simp [Nat.shiftLeft_eq]

theorem shr_eq (x : Word) (n : Nat) : x >>> n = BitVec.ofNat 32 (x.toNat / 2 ^ n) := by
  apply BitVec.eq_of_toNat_eq
  rw [BitVec.toNat_ushiftRight, BitVec.toNat_ofNat, Nat.shiftRight_eq_div_pow,
    Nat.mod_eq_of_lt (Nat.lt_of_le_of_lt (Nat.div_le_self _ _) x.isLt)]

theorem sar_eq (x : Word) (n : Nat) : x.sshiftRight n = BitVec.ofInt 32 (x.toInt / 2 ^ n) := by
  rw [BitVec.sshiftRight, Int.shiftRight_eq_div_pow]
  norm_cast

theorem shiftLeft_eq (x y : Word) :
    shiftLeft x y = if countOf y < 32 then BitVec.ofNat 32 (x.toNat * 2 ^ countOf y) else 0 := by
  unfold shiftLeft countOf
  split
  · exact shl_eq _ _
  · next h => exact BitVec.shiftLeft_eq_zero (by omega)

theorem shiftArith_eq (x y : Word) : shiftArith x y =
    BitVec.ofInt 32 (x.toInt / 2 ^ (if countOf y < 32 then countOf y else 31)) := by
  have hmin : min (y.toNat % 256) 31 = if countOf y < 32 then countOf y else 31 := by
    unfold countOf
    split <;> omega
  rw [shiftArith, sar_eq, hmin]

theorem boolWord_decide (p : Prop) [Decidable p] : boolWord (decide p) = if p then 1 else 0 := by
  by_cases h : p <;> simp [boolWord, h]

theorem getLsbD_zero_iff (x : Word) : x.getLsbD 0 = true ↔ x.toNat % 2 = 1 := by
  simp [BitVec.getLsbD, Nat.testBit_zero]

/-- The two parts of a rotation have no bit in common. -/
theorem shl_and_shr (x : Word) {m n : Nat} (h : m + n = 32) : x <<< m &&& x >>> n = 0#32 := by
  ext i hi
  simp only [BitVec.getElem_and, BitVec.getElem_shiftLeft, BitVec.getElem_ushiftRight, BitVec.getElem_zero]
  by_cases hm : i < m
  · simp [hm]
  · rw [BitVec.getLsbD_of_ge x (n + i) (by omega)]
    exact Bool.and_false _

theorem rotateLeft_eq (x : Word) {r : Nat} (hr : r < 32) : x.rotateLeft r =
    BitVec.ofNat 32 (x.toNat * 2 ^ r + x.toNat / 2 ^ (32 - r)) := by
  rw [BitVec.rotateLeft_eq_rotateLeftAux_of_lt hr, BitVec.rotateLeftAux,
    ← BitVec.add_eq_or_of_and_eq_zero _ _ (shl_and_shr x (by omega)), shl_eq, shr_eq, BitVec.ofNat_add]

theorem rotateRight_eq (x : Word) {r : Nat} (hr : r < 32) : x.rotateRight r =
    BitVec.ofNat 32 (x.toNat / 2 ^ r + x.toNat * 2 ^ (32 - r)) := by
  rw [BitVec.rotateRight_eq_rotateRightAux_of_lt hr, BitVec.rotateRightAux, BitVec.or_comm,
    ← BitVec.add_eq_or_of_and_eq_zero _ _ (shl_and_shr x (by omega)), shl_eq, shr_eq, BitVec.ofNat_add,
    BitVec.add_comm]

theorem fieldWidth_eq (c : Word) : fieldWidth c = ctlWidth c := by
  have hp : fieldPos c = ctlPos c := rfl
  rw [fieldWidth, ctlWidth, hp]
  split <;> omega

theorem fieldWidth_le (c : Word) : fieldWidth c ≤ 32 := by
  simp only [fieldWidth]
  omega

theorem and_mask_eq (x : Word) {w : Nat} (hw : w ≤ 32) :
    x &&& BitVec.ofNat 32 (2 ^ w - 1) = BitVec.ofNat 32 (x.toNat % 2 ^ w) := by
  have hle : 2 ^ w ≤ 2 ^ 32 := Nat.pow_le_pow_right (by decide) hw
  have hpos : 0 < 2 ^ w := Nat.two_pow_pos w
  have hx : x.toNat % 2 ^ w < 2 ^ w := Nat.mod_lt _ hpos
  apply BitVec.eq_of_toNat_eq
  rw [BitVec.toNat_and, BitVec.toNat_ofNat, BitVec.toNat_ofNat, Nat.mod_eq_of_lt (by omega : 2 ^ w - 1 < 2 ^ 32),
    Nat.and_two_pow_sub_one_eq_mod, Nat.mod_eq_of_lt (hx.trans_le hle)]

theorem bitExtract_eq (x c : Word) :
    bitExtract x c = BitVec.ofNat 32 (bitField x.toNat (ctlPos c) (ctlWidth c)) := by
  have hp : fieldPos c = ctlPos c := rfl
  rw [bitExtract, and_mask_eq _ (fieldWidth_le c), BitVec.toNat_ushiftRight, Nat.shiftRight_eq_div_pow,
    fieldWidth_eq, hp, bitField]

/-- Clearing the bits of a mask takes their value away, and setting them adds the new value. -/
theorem and_not_or_eq (x v m : Word) : (x &&& ~~~m) ||| (v &&& m) = x - (x &&& m) + (v &&& m) := by
  have hdis : (x &&& ~~~m) &&& (v &&& m) = 0#32 := by
    ext i hi
    simp only [BitVec.getElem_and, BitVec.getElem_not, BitVec.getElem_zero]
    cases m[i] <;> simp
  have hsplit : (x &&& ~~~m) + (x &&& m) = x := by
    rw [BitVec.add_eq_or_of_and_eq_zero]
    · ext i hi
      simp only [BitVec.getElem_or, BitVec.getElem_and, BitVec.getElem_not]
      cases m[i] <;> simp
    · ext i hi
      simp only [BitVec.getElem_and, BitVec.getElem_not, BitVec.getElem_zero]
      cases m[i] <;> simp
  rw [← BitVec.add_eq_or_of_and_eq_zero _ _ hdis]
  exact congrArg (· + (v &&& m)) (BitVec.eq_sub_iff_add_eq.mpr hsplit)

theorem ofNat_shl (a p : Nat) : BitVec.ofNat 32 a <<< p = BitVec.ofNat 32 (a * 2 ^ p) := by
  apply BitVec.eq_of_toNat_eq
  rw [BitVec.toNat_shiftLeft, BitVec.toNat_ofNat, BitVec.toNat_ofNat, Nat.shiftLeft_eq, Nat.mod_mul_mod]

theorem and_field_eq (x : Word) {p w : Nat} (hw : w ≤ 32) : x &&& (BitVec.ofNat 32 (2 ^ w - 1) <<< p) =
    BitVec.ofNat 32 (bitField x.toNat p w * 2 ^ p) := by
  have hshift : x &&& (BitVec.ofNat 32 (2 ^ w - 1) <<< p) = (x >>> p &&& BitVec.ofNat 32 (2 ^ w - 1)) <<< p := by
    ext i hi
    simp only [BitVec.getElem_and, BitVec.getElem_shiftLeft, BitVec.getElem_ushiftRight]
    by_cases hp : i < p
    · simp [hp]
    · simp [hp, show p + (i - p) = i by omega, BitVec.getLsbD_eq_getElem hi]
  rw [hshift, and_mask_eq _ hw, ofNat_shl, BitVec.toNat_ushiftRight, Nat.shiftRight_eq_div_pow, bitField]

theorem shl_and_field_eq (v : Word) {p w : Nat} (hw : w ≤ 32) : v <<< p &&& (BitVec.ofNat 32 (2 ^ w - 1) <<< p) =
    BitVec.ofNat 32 (v.toNat % 2 ^ w * 2 ^ p) := by
  rw [← BitVec.shiftLeft_and_distrib, and_mask_eq _ hw, ofNat_shl]

theorem bitInsert_eq (x v c : Word) : bitInsert x v c = BitVec.ofNat 32
    (x.toNat - bitField x.toNat (ctlPos c) (ctlWidth c) * 2 ^ ctlPos c + v.toNat % 2 ^ ctlWidth c * 2 ^ ctlPos c) := by
  have hp : fieldPos c = ctlPos c := rfl
  have hle : bitField x.toNat (ctlPos c) (ctlWidth c) * 2 ^ ctlPos c ≤ x.toNat :=
    (Nat.mul_le_mul_right _ (Nat.mod_le _ _)).trans (Nat.div_mul_le_self _ _)
  have hsub (n k : Nat) (h : k ≤ n) : BitVec.ofNat 32 n - BitVec.ofNat 32 k = BitVec.ofNat 32 (n - k) := by
    rw [eq_comm, BitVec.eq_sub_iff_add_eq, ← BitVec.ofNat_add, Nat.sub_add_cancel h]
  simp only [bitInsert]
  rw [and_not_or_eq, and_field_eq _ (fieldWidth_le c), shl_and_field_eq _ (fieldWidth_le c), fieldWidth_eq, hp,
    BitVec.ofNat_add, ← hsub _ _ hle, BitVec.ofNat_toNat, BitVec.setWidth_eq]

theorem popCount_eq (x : Word) : popCount x =
    BitVec.ofNat 32 (((List.range 32).map fun i => x.toNat / 2 ^ i % 2).foldl (· + ·) 0) := by
  rw [popCount, ← List.sum_eq_foldl]
  refine congrArg (BitVec.ofNat 32) ?_
  induction List.range 32 with
  | nil => rfl
  | cons i xs ih =>
    rw [List.countP_cons, List.map_cons, List.sum_cons, ih, ← Nat.toNat_testBit, Nat.add_comm, BitVec.getLsbD]
    cases x.toNat.testBit i <;> rfl

/-- The length of the prefix of the numbers below `n` that have a property which `k` is the first to lack. -/
theorem length_takeWhile_range {p : Nat → Bool} {n k : Nat} (hk : k < n) (h : ∀ j < k, p j = true)
    (hn : p k = false) : ((List.range n).takeWhile p).length = k := by
  obtain ⟨m, rfl⟩ : ∃ m, n = k + (m + 1) := ⟨n - k - 1, by omega⟩
  rw [List.range_add, List.range_succ_eq_map, List.takeWhile_append_of_pos fun j hj => h j (List.mem_range.mp hj)]
  simp [hn]

theorem takeWhile_range_all {p : Nat → Bool} {n : Nat} (h : ∀ j < n, p j = true) :
    ((List.range n).takeWhile p).length = n := by
  rw [List.takeWhile_eq_self_iff.mpr fun j hj => h j (List.mem_range.mp hj), List.length_range]

theorem leadZeros_eq (x : Word) : leadZeros x =
    BitVec.ofNat 32 (((List.range 32).takeWhile fun i => !x.getLsbD (31 - i)).length) := by
  rw [leadZeros]
  refine congrArg (BitVec.ofNat 32) ?_
  split
  · next h => rw [takeWhile_range_all fun j _ => by simp [h]]
  · next h =>
    have h0 : x.toNat ≠ 0 := fun h' => h (BitVec.eq_of_toNat_eq h')
    have hlog : x.toNat.log2 < 32 := (Nat.log2_lt h0).mpr x.isLt
    refine (length_takeWhile_range (by omega) (fun j hj => ?_) ?_).symm
    · rw [BitVec.getLsbD, Nat.testBit_lt_two_pow]
      · rfl
      · exact (Nat.log2_lt h0).mp (by omega)
    · rw [BitVec.getLsbD, show 31 - (31 - x.toNat.log2) = x.toNat.log2 by omega, Nat.testBit_log2 h0]
      rfl

theorem trailZeros_eq (x : Word) : trailZeros x =
    BitVec.ofNat 32 (((List.range 32).takeWhile fun i => !x.getLsbD i).length) := by
  rw [trailZeros]
  refine congrArg (BitVec.ofNat 32) ?_
  cases hf : (List.range 32).find? fun i => x.getLsbD i with
  | none => exact (takeWhile_range_all (List.find?_range_eq_none.mp hf)).symm
  | some k =>
    obtain ⟨hk, hmem, hlow⟩ := List.find?_range_eq_some.mp hf
    exact (length_takeWhile_range (List.mem_range.mp hmem) hlow (by simp [hk])).symm

/-- The bits that the steps of the reversal have set. -/
theorem getLsbD_reverseSteps (x : Word) (xs : List Nat) (r : Word) (j : Nat) (hj : j < 32) :
    (xs.foldl (fun r i => if x.getLsbD i then r ||| ((1 : Word) <<< (31 - i)) else r) r).getLsbD j =
      (r.getLsbD j || xs.any fun i => x.getLsbD i && decide (31 - i = j)) := by
  induction xs generalizing r with
  | nil => simp
  | cons i xs ih =>
    rw [List.foldl_cons, ih, List.any_cons]
    by_cases hi : x.getLsbD i
    · have hone : ((1 : Word) <<< (31 - i)).getLsbD j = decide (31 - i = j) := by
        rw [show (1 : Word) = 1#32 from rfl, BitVec.getLsbD_shiftLeft, BitVec.getLsbD_one, Bool.eq_iff_iff]
        simp only [Bool.and_eq_true, Bool.not_eq_true', decide_eq_true_eq, decide_eq_false_iff_not]
        omega
      rw [if_pos hi, BitVec.getLsbD_or, hone, hi, Bool.true_and, Bool.or_assoc]
    · simp [hi]

theorem bitReverse_eq (x : Word) : bitReverse x = x.reverse := by
  apply BitVec.eq_of_getLsbD_eq
  intro j hj
  rw [bitReverse, getLsbD_reverseSteps x _ _ j hj, BitVec.getLsbD_reverse, BitVec.getMsbD,
    Bool.eq_iff_iff]
  have hzero : (0 : Word).getLsbD j = false := BitVec.getLsbD_zero
  simp only [hzero, Bool.or_eq_true, List.any_eq_true, List.mem_range, Bool.and_eq_true, decide_eq_true_eq, hj,
    Bool.false_eq_true, false_or, true_and]
  constructor
  · rintro ⟨i, hi, hx, rfl⟩
    rwa [show 32 - 1 - (31 - i) = i by omega]
  · exact fun hx => ⟨32 - 1 - j, by omega, hx, by omega⟩

theorem byteSwap_eq (x : Word) : byteSwap x = BitVec.ofNat 32
      (bitField x.toNat 0 8 * 2 ^ 24 + bitField x.toNat 8 8 * 2 ^ 16 + bitField x.toNat 16 8 * 2 ^ 8 +
        bitField x.toNat 24 8) := by
  apply BitVec.eq_of_toNat_eq
  have hb (n : Nat) : (x.extractLsb' n 8).toNat = bitField x.toNat n 8 := by
    rw [BitVec.extractLsb'_toNat, Nat.shiftRight_eq_div_pow, bitField]
  have hlt (n : Nat) : bitField x.toNat n 8 < 2 ^ 8 := Nat.mod_lt _ (by decide)
  have h0 := hlt 0
  have h8 := hlt 8
  have h16 := hlt 16
  have h24 := hlt 24
  rw [byteSwap, BitVec.toNat_append, BitVec.toNat_append, BitVec.toNat_append, hb, hb, hb, hb,
    ← Nat.shiftLeft_add_eq_or_of_lt h8, ← Nat.shiftLeft_add_eq_or_of_lt h16, ← Nat.shiftLeft_add_eq_or_of_lt h24,
    BitVec.toNat_ofNat]
  simp only [Nat.shiftLeft_eq]
  omega

theorem Word.neg_eq (x : Word) : -x = BitVec.ofInt 32 (-x.toInt) := by
  simp [BitVec.ofInt_neg]

theorem Word.not_eq (x : Word) : ~~~x = BitVec.ofNat 32 (2 ^ 32 - 1 - x.toNat) := by
  apply BitVec.eq_of_toNat_eq
  have hx := x.isLt
  simp only [BitVec.toNat_not, BitVec.toNat_ofNat]
  omega

theorem Word.abs_eq (x : Word) : (if x.msb then -x else x) = BitVec.ofNat 32 x.toInt.natAbs := by
  rw [BitVec.msb_eq_toInt, ← BitVec.ofInt_natCast]
  by_cases h : x.toInt < 0
  · rw [Int.ofNat_natAbs_of_nonpos h.le, BitVec.ofInt_neg, BitVec.ofInt_toInt]
    simp [h]
  · rw [Int.natAbs_of_nonneg (not_lt.mp h), BitVec.ofInt_toInt]
    simp [h]

theorem sextB_eq (x : Word) : (x.setWidth 8).signExtend 32 = BitVec.ofInt 32 ((x.toNat : Int).bmod (2 ^ 8)) := by
  rw [BitVec.signExtend, BitVec.toInt_setWidth]

theorem sextH_eq (x : Word) : (x.setWidth 16).signExtend 32 = BitVec.ofInt 32 ((x.toNat : Int).bmod (2 ^ 16)) := by
  rw [BitVec.signExtend, BitVec.toInt_setWidth]

end Sys2Proof.Machine
end

section
namespace Sys2Proof.Machine
open Sys2Proof

theorem min_eq (x y : Word) : (if x.sle y then x else y) = if y.toInt < x.toInt then y else x := by
  by_cases h : x.toInt ≤ y.toInt
  · rw [if_pos (BitVec.sle_iff_toInt_le.mpr h), if_neg (not_lt.mpr h)]
  · rw [if_neg fun hs => h (BitVec.sle_iff_toInt_le.mp hs), if_pos (not_le.mp h)]

theorem max_eq (x y : Word) : (if x.sle y then y else x) = if x.toInt < y.toInt then y else x := by
  rcases lt_trichotomy x.toInt y.toInt with h | h | h
  · rw [if_pos (BitVec.sle_iff_toInt_le.mpr h.le), if_pos h]
  · rw [BitVec.eq_of_toInt_eq h]
    simp
  · rw [if_neg fun hs => absurd (BitVec.sle_iff_toInt_le.mp hs) (not_le.mpr h), if_neg (not_lt.mpr h.le)]

theorem minu_eq (x y : Word) : (if x.ule y then x else y) = if y.toNat < x.toNat then y else x := by
  by_cases h : x.toNat ≤ y.toNat
  · rw [if_pos (BitVec.ule_iff_toNat_le.mpr h), if_neg (not_lt.mpr h)]
  · rw [if_neg fun hs => h (BitVec.ule_iff_toNat_le.mp hs), if_pos (not_le.mp h)]

theorem maxu_eq (x y : Word) : (if x.ule y then y else x) = if x.toNat < y.toNat then y else x := by
  rcases lt_trichotomy x.toNat y.toNat with h | h | h
  · rw [if_pos (BitVec.ule_iff_toNat_le.mpr h.le), if_pos h]
  · rw [BitVec.eq_of_toNat_eq h]
    simp
  · rw [if_neg fun hs => absurd (BitVec.ule_iff_toNat_le.mp hs) (not_le.mpr h), if_neg (not_lt.mpr h.le)]

theorem seteq_eq (x y : Word) : boolWord (x == y) = if x = y then 1 else 0 := by
  by_cases h : x = y <;> simp [boolWord, h]

theorem setlt_eq (x y : Word) : boolWord (x.slt y) = if x.toInt < y.toInt then 1 else 0 := boolWord_decide _

theorem setltu_eq (x y : Word) : boolWord (x.ult y) = if x.toNat < y.toNat then 1 else 0 := boolWord_decide _

theorem addImm_eq (x : Word) (k : BitVec 7) : x + k.signExtend 32 = BitVec.ofInt 32 (x.toInt + k.toInt) := by
  rw [BitVec.ofInt_add, BitVec.ofInt_toInt]
  rfl

theorem shiftImm_toNat (k : BitVec 5) : (k.setWidth 32).toNat = k.toNat :=
  BitVec.toNat_setWidth_of_le (by decide)

theorem shlImm_eq (x : Word) (k : BitVec 5) :
    x <<< (k.setWidth 32).toNat = BitVec.ofNat 32 (x.toNat * 2 ^ k.toNat) := by
  rw [shl_eq, shiftImm_toNat]

theorem shrImm_eq (x : Word) (k : BitVec 5) :
    x >>> (k.setWidth 32).toNat = BitVec.ofNat 32 (x.toNat / 2 ^ k.toNat) := by
  rw [shr_eq, shiftImm_toNat]

theorem sarImm_eq (x : Word) (k : BitVec 5) :
    x.sshiftRight (k.setWidth 32).toNat = BitVec.ofInt 32 (x.toInt / 2 ^ k.toNat) := by
  rw [sar_eq, shiftImm_toNat]

/-- An integer word is its row, issued. -/
theorem exec_alu {i : Instr} {r : AluRow} (h : aluRow i = some r) (s : State) :
    exec i s = issueAlu r.g r.u r.size r.d r.reads (fun _ ops => r.val ops) s := by
  have row {g : Guard} {u : Bool} {size : Nat} {d : Reg} {reads : List (Reg × Nat)}
      {v v' : Ctx → List (List LaneVec) → Nat → Word} (hv : ∀ c ops k, v c ops k = v' c ops k) :
      issueAlu g u size d reads v s = issueAlu g u size d reads v' s := by
    rw [funext fun c => funext fun ops => funext fun k => hv c ops k]
  cases i <;> cases h
  case add => exact row fun _ _ _ => Word.add_eq _ _
  case sub => exact row fun _ _ _ => Word.sub_eq _ _
  case mul => exact row fun _ _ _ => Word.mul_eq _ _
  case mulh => exact row fun _ _ _ => mulHigh_eq _ _
  case mulhu => exact row fun _ _ _ => mulHighU_eq _ _
  case shl => exact row fun _ _ _ => shiftLeft_eq _ _
  case shr => exact row fun _ _ _ => shr_eq _ _
  case sra => exact row fun _ _ _ => shiftArith_eq _ _
  case seteq => exact row fun _ _ _ => seteq_eq _ _
  case setlt => exact row fun _ _ _ => setlt_eq _ _
  case setltu => exact row fun _ _ _ => setltu_eq _ _
  case sel => exact row fun _ ops k => if_congr (getLsbD_zero_iff _) rfl rfl
  case addi => exact row fun _ _ _ => addImm_eq _ _
  case addiP => exact row fun _ _ _ => Word.addInt_eq _ _
  case shli => exact row fun _ _ _ => shlImm_eq _ _
  case shri => exact row fun _ _ _ => shrImm_eq _ _
  case srai => exact row fun _ _ _ => sarImm_eq _ _
  case min => exact row fun _ _ _ => min_eq _ _
  case max => exact row fun _ _ _ => max_eq _ _
  case minu => exact row fun _ _ _ => minu_eq _ _
  case maxu => exact row fun _ _ _ => maxu_eq _ _
  case rol => exact row fun _ _ _ => rotateLeft_eq _ (Nat.mod_lt _ (by decide))
  case ror => exact row fun _ _ _ => rotateRight_eq _ (Nat.mod_lt _ (by decide))
  case bfx => exact row fun _ _ _ => bitExtract_eq _ _
  case bfi => exact row fun _ _ _ => bitInsert_eq _ _ _
  case popc => exact row fun _ _ _ => popCount_eq _
  case clz => exact row fun _ _ _ => leadZeros_eq _
  case ctz => exact row fun _ _ _ => trailZeros_eq _
  case brev => exact row fun _ _ _ => bitReverse_eq _
  case bswap => exact row fun _ _ _ => byteSwap_eq _
  case neg => exact row fun _ _ _ => Word.neg_eq _
  case not => exact row fun _ _ _ => Word.not_eq _
  case abs => exact row fun _ _ _ => Word.abs_eq _
  case sextB => exact row fun _ _ _ => sextB_eq _
  case sextH => exact row fun _ _ _ => sextH_eq _
  all_goals rfl

end Sys2Proof.Machine
end

section
namespace Sys2Proof.Machine
open Sys2Proof

/-! ## Floating-point words are their rows, issued (R119 to R134) -/

theorem and_low31_eq (x : Word) : x &&& 0x7FFFFFFF = BitVec.ofNat 32 (x.toNat % 2 ^ 31) :=
  and_mask_eq x (w := 31) (by decide)

theorem Word.ext_bit31 {x y : Word} (hlow : ∀ i < 31, x.getLsbD i = y.getLsbD i)
    (hhigh : x.getLsbD 31 = y.getLsbD 31) : x = y := by
  apply BitVec.eq_of_getLsbD_eq
  intro i hi
  by_cases h : i = 31
  · rw [h, hhigh]
  · exact hlow i (by omega)

theorem bit31_low (i : Nat) (hi : i < 31) : (0x80000000 : Word).getLsbD i = false := by decide +revert

theorem low31_low (i : Nat) (hi : i < 31) : (0x7FFFFFFF : Word).getLsbD i = true := by decide +revert

theorem bit31_high : (0x80000000 : Word).getLsbD 31 = true := rfl

theorem low31_high : (0x7FFFFFFF : Word).getLsbD 31 = false := rfl

/-- Turning bit 31 over adds 2^31. -/
theorem xor_high_eq (x : Word) : x ^^^ 0x80000000 = BitVec.ofNat 32 (x.toNat + 2 ^ 31) := by
  have hadd : BitVec.ofNat 32 (x.toNat + 2 ^ 31) = x + 0x80000000 := by
    rw [BitVec.ofNat_add, BitVec.ofNat_toNat, BitVec.setWidth_eq]
    rfl
  rw [hadd]
  cases hx : x.getLsbD 31 with
  | false =>
    have hdis : x &&& 0x80000000 = 0#32 := by
      refine Word.ext_bit31 (fun i hi => ?_) ?_
      · rw [BitVec.getLsbD_and, bit31_low i hi, Bool.and_false, BitVec.getLsbD_zero]
      · rw [BitVec.getLsbD_and, hx, Bool.false_and, BitVec.getLsbD_zero]
    rw [BitVec.add_eq_or_of_and_eq_zero _ _ hdis]
    refine Word.ext_bit31 (fun i hi => ?_) ?_
    · rw [BitVec.getLsbD_xor, BitVec.getLsbD_or, bit31_low i hi, Bool.xor_false, Bool.or_false]
    · rw [BitVec.getLsbD_xor, BitVec.getLsbD_or, hx, bit31_high, Bool.false_xor, Bool.false_or]
  | true =>
    have hlow : x ^^^ 0x80000000 = x &&& 0x7FFFFFFF := by
      refine Word.ext_bit31 (fun i hi => ?_) ?_
      · rw [BitVec.getLsbD_xor, BitVec.getLsbD_and, bit31_low i hi, low31_low i hi, Bool.xor_false, Bool.and_true]
      · rw [BitVec.getLsbD_xor, BitVec.getLsbD_and, hx, bit31_high, low31_high, Bool.and_false, Bool.xor_self]
    have hdis : x &&& 0x7FFFFFFF &&& 0x80000000 = 0#32 := by rw [BitVec.and_assoc]; exact BitVec.and_zero
    have hsplit : x &&& 0x7FFFFFFF ||| 0x80000000 = x := by
      refine Word.ext_bit31 (fun i hi => ?_) ?_
      · rw [BitVec.getLsbD_or, BitVec.getLsbD_and, bit31_low i hi, low31_low i hi, Bool.or_false, Bool.and_true]
      · rw [BitVec.getLsbD_or, hx, bit31_high, Bool.or_true]
    calc x ^^^ 0x80000000 = (x &&& 0x7FFFFFFF) + 0x80000000 + 0x80000000 := by
          rw [hlow, BitVec.add_assoc, show (0x80000000 : Word) + 0x80000000 = 0#32 from rfl, BitVec.add_zero]
      _ = x + 0x80000000 := by rw [BitVec.add_eq_or_of_and_eq_zero _ _ hdis, hsplit]

/-- A floating-point word is its row, issued. -/
theorem exec_float {i : Instr} {r : FloatRow} (h : floatRow i = some r) (s : State) :
    exec i s = issueFloat r.g r.u r.d r.reads r.val s := by
  have row {g : Guard} {u : Bool} {d : Reg} {reads : List (Reg × Nat)}
      {v v' : Ctx → List (List LaneVec) → Nat → Word × Flags} (hv : ∀ c ops k, v c ops k = v' c ops k) :
      issueFloat g u d reads v s = issueFloat g u d reads v' s := by
    rw [funext fun c => funext fun ops => funext fun k => hv c ops k]
  cases i <;> cases h
  case fabsF32 => exact row fun _ _ _ => congrArg (·, 0) (and_low31_eq _)
  case fnegF32 => exact row fun _ _ _ => congrArg (·, 0) (xor_high_eq _)
  all_goals rfl

theorem floatRow_form {i : Instr} {r : FloatRow} (h : floatRow i = some r) :
    r.form = ⟨r.g, r.u, 1, r.reads, [(r.d, 1)], true, false, id⟩ := by
  cases i <;> cases h <;> rfl

/-! ## The forms of the computing and plain memory words -/

/-- The words whose queue forms R60 gives. -/
def RowForm (i : Instr) (f : Form) : Prop :=
  (∃ r, aluRow i = some r ∧ f = r.form) ∨ (∃ r, pairRow i = some r ∧ f = r.form) ∨
    (∃ r, floatRow i = some r ∧ f = r.form) ∨ (∃ r, laneRow i = some r ∧ f = r.form) ∨
    (∃ r, loadRow i = some r ∧ f = r.loadForm) ∨ (∃ r, storeRow i = some r ∧ f = r.storeForm)

/-- A form with another set of lanes whose words it hands on. -/
def Form.carrying (f : Form) (k : Mask → Mask) : Form := { f with carry := k }

/-- Such a word is its row's form issued, but for the lanes whose words it hands on. -/
theorem exec_rowForm {i : Instr} {f : Form} (h : RowForm i f) (s : State) :
    ∃ k body, exec i s = issue (f.carrying k) body s := by
  rcases h with ⟨r, h, rfl⟩ | ⟨r, h, rfl⟩ | ⟨r, h, rfl⟩ | ⟨r, h, rfl⟩ | ⟨r, h, rfl⟩ | ⟨r, h, rfl⟩
  · exact ⟨id, _, exec_alu h s⟩
  · cases i <;> cases h <;> exact ⟨_, _, rfl⟩
  · rw [floatRow_form h]
    exact ⟨id, _, exec_float h s⟩
  · cases i <;> cases h <;> exact ⟨_, _, rfl⟩
  · cases i <;> cases h <;> exact ⟨_, _, rfl⟩
  · cases i <;> cases h <;> exact ⟨_, _, rfl⟩

theorem Unhindered.carrying {s : State} {f : Form} {c : Ctx} (h : Unhindered s f c) (k : Mask → Mask) :
    Unhindered s (f.carrying k) c where
  ctx := h.ctx
  some_lane := h.some_lane
  in_range := h.in_range
  settled := h.settled
  agrees := h.agrees
  sound := h.sound

/-- A wave that is Blocked before its word has any effect. -/
theorem State.blockWave_onlyWave {s : State} {c : Ctx} {w : Wave} (h : s.waves.get? c.key = some w) (b : Blocked) :
    OnlyWave s c (s.blockWave c.key b)
      { w with blocked := some b, stalled := some s.ver, readyFrom := s.now, starving := false } :=
  .modWave h _

section rowForm
variable {i : Instr} {f : Form} {s : State} {c : Ctx}

theorem rowForm_faults (h : RowForm i f) (hu : Unhindered s f c) {k : Nat}
    (hk : s.roomFor c f.writes = .fault k ∨ (s.roomFor c f.writes = .ok () ∧ s.readFields c f.reads = .fault k)) :
    exec i s = .next (s.takeHalt c.key k 0 c.t 0) := by
  obtain ⟨_, _, he⟩ := exec_rowForm h s
  rw [he, issue_unhindered (hu.carrying _)]
  simp only [Form.carrying]
  rcases hk with hk | ⟨hk, hr⟩
  · rw [hk]
  · rw [hk, hr]

theorem rowForm_blocks (h : RowForm i f) (hu : Unhindered s f c) {n : Nat}
    (hn : s.roomFor c f.writes = .wait n ∨ (s.roomFor c f.writes = .ok () ∧ s.readFields c f.reads = .wait n)) :
    ∃ t w', exec i s = .next t ∧ OnlyWave s c t w' ∧ c.Waits t w' ∧ w'.blocked = some (.queue n) ∧
      w'.bookOf c.w = c.w := by
  have hb : exec i s = .next (s.blockWave c.key (.queue n)) := by
    obtain ⟨_, _, he⟩ := exec_rowForm h s
    rw [he, issue_unhindered (hu.carrying _)]
    simp only [Form.carrying]
    rcases hn with hn | ⟨hn, hr⟩
    · rw [hn]
    · rw [hn, hr]
  have ho := State.blockWave_onlyWave (State.issuing_wave hu.ctx) (.queue n)
  exact ⟨_, _, hb, ho, ⟨ho.wave, rfl, rfl, rfl⟩, rfl, rfl⟩

end rowForm

/-- An unhindered word whose queues have room and elements. -/
theorem issue_fed {f : Form} {body : Ctx → List (List LaneVec) → State → Res} {s s1 : State} {c : Ctx}
    {ops : List (List LaneVec)} (h : Unhindered s f c) (hroom : s.roomFor c f.writes = .ok ())
    (hread : s.readFields c f.reads = .ok (ops, s1)) :
    issue f body s = .next (s.settle c f.size (body c ops s1)) := by
  rw [issue_unhindered h, hroom, hread]

/-- Settles O12: the stops come before the word's own effect, so they are those of its form. -/
theorem queueForms : Obligations.QueueForms := by
  unfold Obligations.QueueForms
  refine ⟨fun i f s c h hu => ⟨fun k hk => rowForm_faults h hu hk, fun n hn => rowForm_blocks h hu hn⟩,
    fun i s s1 c ops => ⟨fun r h hu hedge hroom hread => ?_, fun r h hu hedge hroom hread => ?_⟩⟩
  · calc exec i s = issueAlu r.g r.u r.size r.d r.reads (fun _ ops => r.val ops) s := exec_alu h s
      _ = .next (s.settle c r.size (.done .plain (s1.writeReg c r.d.toNat (r.val ops)))) :=
        issue_fed (f := r.form) hu hroom hread
      _ = _ := by rw [State.settle, hedge]; rfl
  · rw [floatRow_form h] at hu
    rw [exec_float h, issueFloat, issue_fed hu hroom hread, State.settle, hedge]
    rfl

end Sys2Proof.Machine
end

section
namespace Sys2Proof.Machine
open Sys2Proof

/-! ## A word for helper lanes alone, where the step has chosen later performance (R24, R55)

The choice `later` is part of the state. The path that runs a word in helper lanes alone clears it, and does not set it
again. -/

namespace HelpersOnly

/-- A run of one block of one wave. -/
def launch : Launch :=
  freshLaunch [] ⟨0, 1, 1, 1, 1, 1, 1, 1, 8, 0, 0, 0, 0, 0, 0, 1⟩ [] false none 0 0

def block : Block := freshBlock 0 launch 0 0 ⟨0, 0, []⟩ ⟨0, 0, []⟩ 0

/-- Lane 0 lives and its p1 is 0; lane 1 is a helper, and its p1 is 1. -/
def wave : Wave :=
  { freshWave launch 0 0 false 0 0 0 0 0 0 0 with
    live := 1, active := 1, regs := [(259, 0 :: 1 :: List.replicate 62 0)] }

def state : State :=
  { State.reset with
    launches := [(0, launch)], blocks := [(0, block)], waves := [(0, wave)], cur := some 0, later := true }

/-- `movi 3, 0` under p1. -/
def instr : Instr := .movi 3 0 .p1 false

def row : AluRow := ⟨.p1, false, 1, [], 3, fun _ _ => BitVec.ofInt 32 (0 : BitVec 14).toInt⟩

def ctx : Ctx := ⟨0, wave, block, launch, 0, row.form.helperLanes wave, false⟩

theorem issues : state.issuing row.form = some ctx := by decide

/-- The word has run in the helper lane, and the choice is gone. -/
theorem exec_later : nextHolds (fun t => t.later = false) (exec instr state) := by
  rfl

end HelpersOnly

/-- Refutes O5: with later performance chosen, an integer word that only helper lanes execute leaves the choice
cleared, where the statement has nothing but its wave changed. -/
theorem not_guardAndNoLane : ¬ Obligations.GuardAndNoLane := by
  unfold Obligations.GuardAndNoLane
  intro h
  obtain ⟨t, w', hexec, honly, -⟩ := (h HelpersOnly.instr .p1 false 1 HelpersOnly.state 0 HelpersOnly.wave
    HelpersOnly.block HelpersOnly.launch rfl (by decide)).2.2 HelpersOnly.row HelpersOnly.ctx rfl HelpersOnly.issues
    rfl rfl (by decide) (by decide) (by decide) (by decide) rfl rfl
  have hlater : t.later = false := by
    have hnext := HelpersOnly.exec_later
    rwa [hexec] at hnext
  have hkept : ({ t with waves := HelpersOnly.state.waves } : State).later = true := by
    rw [honly.rest]
    rfl
  nomatch hlater.symm.trans hkept

end Sys2Proof.Machine
end

section
namespace Sys2Proof.Machine
open Sys2Proof

/-! ## A load into a queue by a wave that holds reaches of helper lanes (R24, R175)

A wave that has sent requests to peers has passed the checks of R202, so that the gate hands on the reaches the wave
holds, those of helper lanes too. The statement asks that the reaches lie on this device, and not that the wave has no
requests out; its access then has a part for every reach, not for those of the executing lanes alone. -/

namespace HeldReaches

/-- A run of one block of a compute wave and its shadow. -/
def launch : Launch :=
  freshLaunch [] ⟨0, 1, 1, 1, 1, 1, 1, 1, 8, 0, 0, 0, 2, 0, 0, 1⟩ [] false none 0 0

def block : Block := freshBlock 0 launch 0 0 ⟨0, 0, []⟩ ⟨0, 0, []⟩ 0

/-- The reach of a helper lane. -/
def reach : Reach := ⟨1, 0x40, .here (.mem 0x40)⟩

/-- The producer of queue 0, with a request out and the reach of a helper lane. -/
def wave : Wave :=
  { freshWave launch 0 0 true 0 0 0 1 0 0 0 with remote := [5], reachHelp := [reach] }

def state : State :=
  { State.reset with
    launches := [(0, launch)], blocks := [(0, block)], waves := [(waveKey 0 0 true, wave)]
    cur := some (waveKey 0 0 true), later := true }

def instr : Instr := .ldW 116 4 0 .always false

def row : MemRow := ⟨.always, false, 1, 116, 4, 4, false, 0⟩

def ctx : Ctx :=
  ⟨waveKey 0 0 true, wave, block, launch, wave.executing .always false, row.loadForm.helperLanes wave, false⟩

theorem unhindered : Unhindered state row.loadForm ctx where
  ctx := by decide
  some_lane := by decide
  in_range := by decide
  settled := by decide
  agrees := by decide
  sound := by decide

theorem exec_parts : nextHolds (fun t => (t.waves.get? ctx.key).map (fun w => w.outst.map fun a => a.parts.length) =
    some [1]) (exec instr state) := by
  rfl

end HeldReaches

/-- Refutes O22: the access of a load performed later has a part for the reach of the helper lane, where the statement
gives it those of the executing lanes, of which there are none. -/
theorem not_loadsIntoQueues : ¬ Obligations.LoadsIntoQueues := by
  unfold Obligations.LoadsIntoQueues
  intro h
  obtain ⟨t, w', a, hexec, hwave, -, -, -, -, houtst, -, -, -, hparts⟩ := (h HeldReaches.instr HeldReaches.row
    HeldReaches.state HeldReaches.state HeldReaches.ctx [] [HeldReaches.reach] 0 HeldReaches.block rfl
    HeldReaches.unhindered (by decide) rfl (by decide) rfl rfl rfl
      (by simp [allHere, HeldReaches.reach, Reach.remote])).2 rfl rfl
  have hone : (t.waves.get? HeldReaches.ctx.key).map (fun w => w.outst.map fun a => a.parts.length) = some [1] := by
    have hnext := HeldReaches.exec_parts
    rwa [hexec] at hnext
  have hlen : a.parts.length = 0 := by simpa using congrArg List.length hparts
  rw [hwave, Option.map_some, houtst] at hone
  simp [hlen, show HeldReaches.ctx.w.outst = [] from rfl] at hone

end Sys2Proof.Machine
end

section
namespace Sys2Proof.Machine
open Sys2Proof

/-! ## What a load leaves alone: everything but caches, walks and homes (R153, R158, R174) -/

/-- `t` is `s` but for caches, walks under way, the notes of the homes and the count of numbers given out. -/
def State.FetchOf (t s : State) : Prop :=
  { t with cores := s.cores, dieTlb := s.dieTlb, walks := s.walks, homes := s.homes, seq := s.seq, views := s.views,
           l2 := s.l2 } = s

namespace State.FetchOf
variable {s t u : State}

theorem refl (s : State) : s.FetchOf s := rfl

theorem trans (h : t.FetchOf s) (h' : u.FetchOf t) : u.FetchOf s := by
  unfold State.FetchOf at h h' ⊢
  rw [← h, ← h']

/-- A choice of the step that is put aside for a while. -/
theorem later (b : Bool) (h : t.FetchOf { s with later := b }) : ({ t with later := s.later } : State).FetchOf s := by
  unfold State.FetchOf at h ⊢
  exact congrArg (fun u : State => { u with later := s.later }) h

theorem waves (h : t.FetchOf s) : t.waves = s.waves := by
  unfold State.FetchOf at h
  rw [← h]

theorem blocks (h : t.FetchOf s) : t.blocks = s.blocks := by
  unfold State.FetchOf at h
  rw [← h]

theorem launches (h : t.FetchOf s) : t.launches = s.launches := by
  unfold State.FetchOf at h
  rw [← h]

theorem mem (h : t.FetchOf s) : t.mem = s.mem := by
  unfold State.FetchOf at h
  rw [← h]

theorem ctl (h : t.FetchOf s) : t.ctl = s.ctl := by
  unfold State.FetchOf at h
  rw [← h]

theorem traps (h : t.FetchOf s) : t.traps = s.traps := by
  unfold State.FetchOf at h
  rw [← h]

theorem now (h : t.FetchOf s) : t.now = s.now := by
  unfold State.FetchOf at h
  rw [← h]

theorem hit (h : t.FetchOf s) : t.hit = s.hit := by
  unfold State.FetchOf at h
  rw [← h]


end State.FetchOf

section fetches
variable (s : State) (core : Nat)

theorem State.modCore_fetchOf (f : Core → Core) : (s.modCore core f).FetchOf s := rfl

theorem State.fillTlb_fetchOf (x : Xlate) : (s.fillTlb core x).FetchOf s := rfl

theorem State.lookup_fetchOf (outs : List (Nat × Nat)) (asid root va : Nat) :
    (s.lookup outs core asid root va).Holds fun t => t.FetchOf s := by
  have hjoin : (s.joinWalk core asid va).FetchOf s := rfl
  unfold State.lookup
  split
  · exact .refl s
  · split
    · exact s.modCore_fetchOf core _
    · split
      · split <;> trivial
      · split
        · exact hjoin
        · split
          · trivial
          · trivial
          · exact s.fillTlb_fetchOf core _

theorem State.keepView_fetchOf (a : Nat) : (s.keepView a).FetchOf s := by
  have hl2 : (s.bringL2 (a / 64 * 64) 64 false).FetchOf s := rfl
  unfold State.keepView
  split
  · exact hl2
  · split
    · exact hl2
    · exact hl2

theorem State.fillLine_fetchOf (line : Nat) : (s.fillLine core line).FetchOf s :=
  (s.keepView_fetchOf (line * 64)).trans rfl

theorem State.allocate_fetchOf (line : Nat) : (s.allocate core line).FetchOf s := by
  unfold State.allocate
  split
  · split
    · exact .refl s
    · exact s.fillLine_fetchOf core line
  · exact s.fillLine_fetchOf core line

theorem State.readGlobal_fetchOf (acq since a n : Nat) : (s.readGlobal core acq since a n).2.FetchOf s := by
  unfold State.readGlobal
  split
  · exact .refl s
  · exact s.fillLine_fetchOf core _

end fetches

section checks
variable (c : Ctx)

theorem State.reachAll_fetchOf (s : State) (xs : List (Nat × DWord)) : (s.reachAll c xs).1.FetchOf s := by
  induction xs generalizing s with
  | nil => exact .refl s
  | cons x xs ih =>
    have h := s.lookup_fetchOf c.w.core c.w.walkOut c.l.asid c.l.root (offsetOf x.2)
    unfold State.reachAll
    split
    · split
      · next heq =>
        rw [heq] at h
        exact h.trans (ih _)
      · exact ih s
      · exact ih s
      · next heq =>
        rw [heq] at h
        exact h.trans (ih _)
    · exact ih s

theorem State.check_ok_fetchOf {s t : State} {as : List (Nat × DWord)} {size : Nat} {p : Purpose} {takes : Takes}
    {rs : List Reach} (h : s.check c as size p takes = .ok rs t) : t.FetchOf s := by
  have hr := s.reachAll_fetchOf c as
  unfold State.check at h
  dsimp only at h
  (repeat' split at h) <;> cases h
  exact hr

theorem State.check_walk_fetchOf {s t : State} {as : List (Nat × DWord)} {size : Nat} {p : Purpose} {takes : Takes}
    {ks : List Nat} (h : s.check c as size p takes = .walk ks t) : t.FetchOf s := by
  have hr := s.reachAll_fetchOf c as
  unfold State.check at h
  dsimp only at h
  (repeat' split at h) <;> cases h
  exact hr

theorem State.helperReach_fetchOf (s : State) (size : Nat) (takes : Takes) (xs : List (Nat × DWord)) :
    (s.helperReach c size takes xs).state.FetchOf s := by
  induction xs generalizing s with
  | nil => exact .refl s
  | cons x xs ih =>
    unfold State.helperReach
    split
    · next h => exact (State.FetchOf.later _ (State.check_ok_fetchOf c h)).trans (ih _)
    · next h => exact (State.FetchOf.later _ (State.check_walk_fetchOf c h)).trans (ih _)
    · exact ih s
    · exact ih s
    · exact ih s
    · exact ih s

/-- Accesses that pass the checks and the holds have changed caches alone. -/
theorem State.gate_go_fetchOf {s t : State} {as helpers : List (Nat × DWord)} {size : Nat} {p : Purpose} {takes : Takes}
    {rs hs : List Reach} (h : s.gate c as helpers size p takes = .go rs hs t) : t.FetchOf s := by
  unfold State.gate at h
  split at h
  · cases h
    exact .refl s
  · split at h
    · cases h
    · cases h
    · cases h
    · cases h
    · cases h
    · next hc =>
      have hh := (State.check_ok_fetchOf c hc).trans (State.helperReach_fetchOf c _ size takes helpers)
      dsimp only at h
      (repeat' split at h) <;> cases h
      exact hh

end checks

section reads
variable (l : Launch) (w : Wave) (since n : Nat) (peer : List (Nat × List Byte))

theorem State.readFor_fetchOf (s : State) (t : Target) (bs : List Byte) : (s.readFor l w since t n bs).2.FetchOf s := by
  unfold State.readFor
  split
  · exact .refl s
  · exact .refl s
  · split
    · split
      · exact (s.keepView_fetchOf _).trans (State.allocate_fetchOf _ _ _)
      · exact .refl s
    · split
      · exact s.readGlobal_fetchOf _ _ _ _ _
      · exact .refl s

theorem State.readEach_fetchOf (s : State) (rs : List Reach) : (s.readEach l w since n peer rs).2.FetchOf s := by
  induction rs generalizing s with
  | nil => exact .refl s
  | cons r rs ih => exact (s.readFor_fetchOf l w since n r.tgt _).trans (ih _)

theorem State.readAll_fetchOf (s : State) (rs : List Reach) : (s.readAll l w since n peer rs).2.FetchOf s :=
  s.readEach_fetchOf l w since n peer _

end reads

end Sys2Proof.Machine
end

section
namespace Sys2Proof.Machine
open Sys2Proof

/-! ## Writing registers, slot by slot (R58, R60, R61) -/

theorem laneOf_vecOf (f : Nat → Word) {i : Nat} (hi : i < 64) : laneOf (vecOf f) i = f i := by
  simp [laneOf, vecOf, List.getD, hi]

theorem Wave.slotVec_writeSlot_ne (w : Wave) {k j : Nat} (m : Mask) (v : Nat → Word) (h : k ≠ j) :
    (w.writeSlot j m v).slotVec k = w.slotVec k :=
  KMap.getD_set_ne _ _ _ h

theorem Wave.slotLane_writeSlot (w : Wave) (k j : Nat) (m : Mask) (v : Nat → Word) {i : Nat} (hi : i < 64) :
    (w.writeSlot j m v).slotLane k i = if k = j ∧ m.getLsbD i = true then v i else w.slotLane k i := by
  by_cases h : k = j
  · subst h
    have hv : (w.writeSlot k m v).slotVec k = vecOf fun i => if m.getLsbD i then v i else w.slotLane k i :=
      KMap.getD_set_self _ _ _ _
    rw [Wave.slotLane, hv, laneOf_vecOf _ hi]
    simp
  · rw [Wave.slotLane, w.slotVec_writeSlot_ne m v h, if_neg fun hx => h hx.1]
    rfl

/-- Registers are written in a list of slots, each with the number of its word. -/
def Wave.writeSlots (w : Wave) (m : Mask) (v : Nat → Nat → Word) (xs : List (Nat × Nat)) : Wave :=
  xs.foldl (fun w x => w.writeSlot x.1 m fun lane => v lane x.2) w

section writeSlots
variable (m : Mask) (v : Nat → Nat → Word)

/-- A slot that no entry names, or a lane outside the mask, keeps its word. -/
theorem Wave.slotLane_writeSlots_keep (xs : List (Nat × Nat)) (w : Wave) {k i : Nat} (hi : i < 64)
    (h : m.getLsbD i = false ∨ ∀ x ∈ xs, x.1 ≠ k) : (w.writeSlots m v xs).slotLane k i = w.slotLane k i := by
  induction xs generalizing w with
  | nil => rfl
  | cons x xs ih =>
    have hx : ¬ (k = x.1 ∧ m.getLsbD i = true) := by
      rintro ⟨hk, hm⟩
      rcases h with h | h
      · simp [hm] at h
      · exact h x (by simp) hk.symm
    calc (w.writeSlots m v (x :: xs)).slotLane k i = (w.writeSlot x.1 m fun lane => v lane x.2).slotLane k i :=
          ih _ (h.imp_right fun h y hy => h y (List.mem_cons_of_mem _ hy))
      _ = w.slotLane k i := by rw [w.slotLane_writeSlot _ _ _ _ hi, if_neg hx]

theorem Wave.slotVec_writeSlots_keep (xs : List (Nat × Nat)) (w : Wave) {k : Nat} (h : ∀ x ∈ xs, x.1 ≠ k) :
    (w.writeSlots m v xs).slotVec k = w.slotVec k := by
  induction xs generalizing w with
  | nil => rfl
  | cons x xs ih =>
    exact (ih _ fun y hy => h y (List.mem_cons_of_mem _ hy)).trans
      (w.slotVec_writeSlot_ne m _ (h x (by simp)).symm)

/-- A slot that entries name, all with one word, takes that word in the lanes of the mask. -/
theorem Wave.slotLane_writeSlots (xs : List (Nat × Nat)) (w : Wave) {k i : Nat} {y : Word} (hi : i < 64)
    (hm : m.getLsbD i = true) (hk : ∃ x ∈ xs, x.1 = k) (hy : ∀ x ∈ xs, x.1 = k → v i x.2 = y) :
    (w.writeSlots m v xs).slotLane k i = y := by
  induction xs generalizing w with
  | nil => simp at hk
  | cons x xs ih =>
    by_cases hrest : ∃ z ∈ xs, z.1 = k
    · exact ih _ hrest fun z hz => hy z (List.mem_cons_of_mem _ hz)
    · obtain ⟨z, hz, rfl⟩ := hk
      have hzx : z = x := (List.mem_cons.mp hz).resolve_right fun hn => hrest ⟨z, hn, rfl⟩
      subst hzx
      calc (w.writeSlots m v (z :: xs)).slotLane z.1 i = (w.writeSlot z.1 m fun lane => v lane z.2).slotLane z.1 i :=
            Wave.slotLane_writeSlots_keep m v xs _ hi (.inr fun a ha he => hrest ⟨a, ha, he⟩)
        _ = y := by rw [w.slotLane_writeSlot _ _ _ _ hi, if_pos ⟨rfl, hm⟩]; exact hy z hz rfl

theorem put_nil_mask (k : Nat) : KMap.put (0 : Mask) [] k (KMap.getD ([] : KMap Mask) k 0 &&& ~~~m) = [] := by
  rw [show KMap.getD ([] : KMap Mask) k 0 = 0#64 from rfl, BitVec.zero_and]
  rfl

theorem Wave.writeSlot_sound (w : Wave) (hp : w.poison = []) (hs : w.struck = []) (k : Nat) (f : Nat → Word) :
    ∃ r, w.writeSlot k m f = { w with regs := r } := by
  refine ⟨(w.writeSlot k m f).regs, ?_⟩
  cases w
  cases hp
  cases hs
  simp only [Wave.writeSlot, put_nil_mask]

/-- Only registers change, in a wave that no error has struck. -/
theorem Wave.writeSlots_sound (xs : List (Nat × Nat)) (w : Wave) (hp : w.poison = []) (hs : w.struck = []) :
    ∃ r, w.writeSlots m v xs = { w with regs := r } := by
  induction xs generalizing w with
  | nil => exact ⟨_, rfl⟩
  | cons x xs ih =>
    obtain ⟨r, hr⟩ := w.writeSlot_sound m hp hs x.1 fun lane => v lane x.2
    obtain ⟨r', hr'⟩ := ih { w with regs := r } hp hs
    exact ⟨r', by rw [← hr']; exact congrArg (fun u => Wave.writeSlots u m v xs) hr⟩

end writeSlots

/-! ## A run of destination registers -/

/-- The registers of a run that have a slot: the slot, and the register's place in the run. -/
def Wave.runEntries (w : Wave) (d : Nat) (is : List Nat) : List (Nat × Nat) :=
  is.filterMap fun i => match w.slotOf (d + i) with
    | .phys k => some (k, i)
    | _ => none

theorem Wave.mem_runEntries {w : Wave} {d : Nat} {is : List Nat} {x : Nat × Nat} :
    x ∈ w.runEntries d is ↔ x.2 ∈ is ∧ w.slotOf (d + x.2) = .phys x.1 := by
  simp only [Wave.runEntries, List.mem_filterMap]
  constructor
  · rintro ⟨i, hi, hx⟩
    split at hx
    · next k hk =>
      cases hx
      exact ⟨hi, hk⟩
    · nomatch hx
  · rintro ⟨hi, hx⟩
    exact ⟨x.2, hi, by rw [hx]⟩

/-- Registers of one run of at most four have slots of their own. -/
theorem Wave.slotOf_inj {w : Wave} {r r' k : Nat} (h : w.slotOf r = .phys k) (h' : w.slotOf r' = .phys k)
    (hn : r ≤ r' + 3) (hn' : r' ≤ r + 3) : r = r' := by
  unfold Wave.slotOf at h h'
  (repeat' split at h) <;> (repeat' split at h') <;> simp_all [slotLr] <;> omega

theorem Ctx.giver_apply {α : Type} (c : Ctx) (v : Nat → α) :
    (fun i => if c.u then v c.src else v i) = fun i => v (c.giver i) := by
  funext i
  unfold Ctx.giver
  split <;> rfl

/-- A result that no queue takes changes its wave's registers alone. -/
theorem State.writeRegs_onlyWave {c : Ctx} {d : Reg} (v : Nat → Nat → Word) (is : List Nat) {s : State} {w : Wave}
    (h : s.waves.get? c.key = some w) (hq : ∀ i ∈ is, ∀ n, c.w.slotOf (d.toNat + i) ≠ .qout n) :
    OnlyWave s c (is.foldl (fun s i => s.writeReg c (d.toNat + i) fun lane => v lane i) s)
      (w.writeSlots c.dests (fun lane j => v (c.giver lane) j) (c.w.runEntries d.toNat is)) := by
  induction is generalizing s w with
  | nil => exact .refl h
  | cons i is ih =>
    have hq' : ∀ i ∈ is, ∀ n, c.w.slotOf (d.toNat + i) ≠ .qout n := fun j hj => hq j (List.mem_cons_of_mem _ hj)
    have hi := hq i (by simp)
    rw [List.foldl_cons, State.writeReg, Wave.runEntries, List.filterMap_cons]
    cases hs : c.w.slotOf (d.toNat + i) with
    | phys k =>
      have hm := OnlyWave.modWave h fun w => w.writeSlot k c.dests fun lane => v (c.giver lane) i
      rw [c.giver_apply fun lane => v lane i]
      exact hm.trans (ih hm.wave hq')
    | qout n => exact absurd hs (hi n)
    | qin n => exact ih h hq'
    | lane => exact ih h hq'
    | zero => exact ih h hq'
    | outside => exact ih h hq'

theorem State.writeRun_onlyWave {c : Ctx} {d : Reg} {n : Nat} (v : Nat → Nat → Word) {s : State} {w : Wave}
    (h : s.waves.get? c.key = some w) (hq : ∀ i < n, ∀ q, c.w.slotOf (d.toNat + i) ≠ .qout q) :
    OnlyWave s c (s.writeRun c d n v)
      (w.writeSlots c.dests (fun lane j => v (c.giver lane) j) (c.w.runEntries d.toNat (List.range n))) :=
  State.writeRegs_onlyWave v _ h fun i hi => hq i (List.mem_range.mp hi)

/-- Register `j` of a run takes word `j` of the lane that gives. -/
theorem Wave.slotLane_writeRun {w : Wave} {c : Ctx} {d : Reg} {n j k lane : Nat} (v : Nat → Nat → Word) (hn : n ≤ 4)
    (hj : j < n) (hk : c.w.slotOf (d.toNat + j) = .phys k) (hl : lane < 64) (hd : c.dests.getLsbD lane = true) :
    (w.writeSlots c.dests (fun lane j => v (c.giver lane) j) (c.w.runEntries d.toNat (List.range n))).slotLane k lane =
      v (c.giver lane) j := by
  refine Wave.slotLane_writeSlots _ _ _ _ hl hd ⟨(k, j), Wave.mem_runEntries.mpr ⟨List.mem_range.mpr hj, hk⟩, rfl⟩ ?_
  rintro ⟨k', i⟩ hx rfl
  obtain ⟨hi, hs⟩ := Wave.mem_runEntries.mp hx
  have hin : i < n := List.mem_range.mp hi
  have heq : d.toNat + i = d.toNat + j := Wave.slotOf_inj hs hk (by omega) (by omega)
  rw [Nat.add_left_cancel heq]

theorem Wave.runEntries_ne {w : Wave} {d : Nat} {n k : Nat} (h : ∀ j < n, w.slotOf (d + j) ≠ .phys k) :
    ∀ x ∈ w.runEntries d (List.range n), x.1 ≠ k := by
  rintro ⟨k', j⟩ hx rfl
  obtain ⟨hj, hs⟩ := Wave.mem_runEntries.mp hx
  exact h j (List.mem_range.mp hj) hs

end Sys2Proof.Machine
end

section
namespace Sys2Proof.Machine
open Sys2Proof

/-! ## Plain loads (R175, R206) -/

/-- A plain load issues its row's form. -/
theorem exec_load {i : Instr} {r : MemRow} (h : loadRow i = some r) (s : State) :
    exec i s = issue r.loadForm (loadBody r.size r.signed r.d r.off) s := by
  cases i <;> cases h
  case ldB => exact congrArg (fun off => issue _ (loadBody 1 true _ off) s) (Int.one_mul _)
  case ldBu => exact congrArg (fun off => issue _ (loadBody 1 false _ off) s) (Int.one_mul _)
  all_goals rfl

theorem loadRow_size {i : Instr} {r : MemRow} (h : loadRow i = some r) : r.size ∈ [1, 2, 4, 8, 16] := by
  cases i <;> cases h <;> simp

theorem loadRow_regs {i : Instr} {r : MemRow} (h : loadRow i = some r) : wordsOf r.size = r.regs ∧ r.regs ≤ 4 := by
  have hs : ∀ n ∈ [1, 2, 4, 8, 16], wordsOf n = (if n = 8 then 2 else if n = 16 then 4 else 1) ∧
      (if n = 8 then 2 else if n = 16 then 4 else 1) ≤ 4 := by decide
  exact hs _ (loadRow_size h)

theorem mem_keepFirst {rs : List Reach} {r : Reach} (h : r ∈ keepFirst rs) : r ∈ rs := by
  induction rs with
  | nil => nomatch h
  | cons q rs ih =>
    rcases List.mem_cons.mp h with rfl | h
    · simp
    · exact List.mem_cons_of_mem _ (ih (List.mem_of_mem_filter h))

theorem readAsks_here {rs : List Reach} (h : allHere rs) (n : Nat) : readAsks rs n = [] := by
  refine List.filterMap_eq_nil_iff.mpr fun r hr => ?_
  have hr := h r (mem_keepFirst hr)
  cases ht : r.tgt with
  | here l => rfl
  | peer d pa => simp [Reach.remote, ht] at hr

theorem consult_nothing (s : State) (c : Ctx) (rs hs : List Reach) (m : Mask) :
    s.consult c [] rs hs m = .ready [] s := rfl

theorem no_remote {rs : List Reach} (h : allHere rs) : rs.any Reach.remote = false := by
  rw [List.any_eq_false]
  intro r hr
  simp [h r hr]

section loadBody
variable {size : Nat} {signed : Bool} {d : Reg} {off : Int} {c : Ctx} {ops : List (List LaneVec)} {s s1 : State}
  {rs hs : List Reach}
  (hg : s.gate c (addrsOf ops 0 off c.t) (addrsOf ops 0 off c.hl) size .read .copy = .go rs hs s1)
  (hh : allHere (rs ++ hs))
include hg hh

/-- A load of this device that is performed now. -/
theorem loadBody_now (hl : s1.later = false ∨ c.l.dqm = true) : loadBody size signed d off c ops s =
    .done .plain ((s1.readAll c.l c.w s1.seq size [] (rs ++ hs)).2.writeRun c d (wordsOf size) fun lane k =>
      loadedWord size signed (laneData (s1.readAll c.l c.w s1.seq size [] (rs ++ hs)).1 lane) k) := by
  unfold loadBody
  rw [hg]
  simp only [readAsks_here hh, consult_nothing]
  exact if_neg (by rcases hl with hl | hl <;> simp [hl])

/-- A load of this device whose data returns later. -/
theorem loadBody_later (hl : s1.later = true) (hd : c.l.dqm = false) : loadBody size signed d off c ops s =
    .done .plain (s1.deferLoad c d size signed rs hs) := by
  unfold loadBody
  rw [hg]
  simp only [readAsks_here hh, consult_nothing]
  exact if_pos (by simp [hl, hd, no_remote hh])

end loadBody

theorem Wave.slotOf_queue {w : Wave} {r : Nat} (h : 112 ≤ r) (h' : r < 120) :
    (∃ n, w.slotOf r = .qin n) ∨ ∃ n, w.slotOf r = .qout n := by
  unfold Wave.slotOf
  by_cases h116 : r < 116
  · exact .inl ⟨_, by rw [if_neg (by omega), if_pos h116]⟩
  · exact .inr ⟨_, by rw [if_neg (by omega), if_neg h116, if_pos h']⟩

theorem Wave.slotOf_qout {w : Wave} {r n : Nat} (h : w.slotOf r = .qout n) : 116 ≤ r ∧ r < 120 := by
  unfold Wave.slotOf at h
  grind

/-- The registers of a load of a clear word name no queue to push. -/
theorem Clear.no_push {r : MemRow} {s : State} {c : Ctx} (h : Clear s r.loadForm c) (hn : r.regs ≤ 4) :
    ∀ j < r.regs, ∀ q, c.w.slotOf (r.d.toNat + j) ≠ .qout q := by
  intro j hj q hs
  have hmem : (r.d, r.regs) ∈ r.loadForm.reads ++ r.loadForm.writes := by simp [MemRow.loadForm]
  have hq (n : Nat) := not_queued h.no_queue hmem n
  obtain ⟨hlo, hhi⟩ := Wave.slotOf_qout hs
  rcases Wave.slotOf_queue (w := c.w) (r := r.d.toNat) (by omega) (by omega) with ⟨n, hd⟩ | ⟨n, hd⟩
  · exact (hq n).1 hd
  · exact (hq n).2 hd

/-- A clear word that changes caches, and then its wave only, and moves on. -/
theorem issue_clear_fetched {f : Form} {body : Ctx → List (List LaneVec) → State → Res} {s u t : State} {c : Ctx}
    {w : Wave} {x : Series} (h : Clear s f c) (ho : OnlyWave u c t w) (hpc : w.pc = c.w.pc)
    (hb : body c (c.operands f.reads) s = .done x t) :
    ∃ t, issue f body s = .next t ∧ u.Retires c t w x (c.after f.size) := by
  obtain ⟨k, hk⟩ := State.retireAt_onlyWave ho.wave f.size x
  rw [hpc, ho.now] at hk
  refine ⟨_, issue_clear h, k, ?_⟩
  rw [hb, State.settle, h.inside]
  exact ho.trans hk

section load
variable {i : Instr} {r : MemRow} {s s1 : State} {c : Ctx} {rs hs : List Reach} (hi : loadRow i = some r)
  (h : Clear s r.loadForm c)
  (hg : s.gate c (addrsOf (c.operands [(r.a, 2)]) 0 r.off c.t) (addrsOf (c.operands [(r.a, 2)]) 0 r.off c.hl)
    r.size .read .copy = .go rs hs s1)
  (hh : allHere (rs ++ hs))

/-- The wave of a load once its lanes have their words. -/
def Ctx.loaded (c : Ctx) (r : MemRow) (s : State) (rs : List Reach) : Wave :=
  c.w.writeSlots c.dests (fun lane j => loadedWord r.size r.signed
    (laneData (s.readAll c.l c.w s.seq r.size [] rs).1 (c.giver lane)) j) (c.w.runEntries r.d.toNat (List.range r.regs))

include hi h hg hh

/-- A plain load performed now: its lanes take their words. -/
theorem load_now (hl : s1.later = false ∨ c.l.dqm = true) :
    ∃ u t : State, u.FetchOf s ∧ exec i s = .next t ∧
      u.Retires c t (c.loaded r s1 (rs ++ hs)) .plain (c.after r.words) := by
  obtain ⟨hwords, hle⟩ := loadRow_regs hi
  have hu := (State.gate_go_fetchOf c hg).trans (s1.readAll_fetchOf c.l c.w s1.seq r.size [] (rs ++ hs))
  have hw : (s1.readAll c.l c.w s1.seq r.size [] (rs ++ hs)).2.waves.get? c.key = some c.w := by
    rw [hu.waves]
    exact State.issuing_wave h.ctx
  have ho := State.writeRun_onlyWave (fun lane k => loadedWord r.size r.signed
    (laneData (s1.readAll c.l c.w s1.seq r.size [] (rs ++ hs)).1 lane) k) hw (h.no_push hle)
  obtain ⟨reg, hreg⟩ := c.w.writeSlots_sound c.dests (fun lane j => loadedWord r.size r.signed
    (laneData (s1.readAll c.l c.w s1.seq r.size [] (rs ++ hs)).1 (c.giver lane)) j)
    (c.w.runEntries r.d.toNat (List.range r.regs)) h.sound.2 h.sound.1
  have hb := loadBody_now (signed := r.signed) (d := r.d) hg hh hl
  rw [hwords] at hb
  obtain ⟨t, he, hr⟩ := issue_clear_fetched h ho (by rw [hreg]) hb
  exact ⟨_, t, hu, (exec_load hi s).trans he, hr⟩

end load

/-! ### A load whose data returns later -/

theorem getLsbD_maskSteps (f : Nat → Bool) (xs : List Nat) (m : Mask) (i : Nat) (hi : i < 64) :
    (xs.foldl (fun m i => if f i then m ||| ((1 : Mask) <<< i) else m) m).getLsbD i =
      (m.getLsbD i || (decide (i ∈ xs) && f i)) := by
  induction xs generalizing m with
  | nil => simp
  | cons j xs ih =>
    have hone : ((1 : Mask) <<< j).getLsbD i = decide (i = j) := by
      rw [show (1 : Mask) = 1#64 from rfl, BitVec.getLsbD_shiftLeft, BitVec.getLsbD_one, Bool.eq_iff_iff]
      simp only [Bool.and_eq_true, Bool.not_eq_true', decide_eq_true_eq, decide_eq_false_iff_not]
      omega
    rw [List.foldl_cons, ih]
    by_cases hj : f j = true
    · rw [if_pos hj, BitVec.getLsbD_or, hone]
      by_cases hij : i = j
      · subst hij
        simp [hj]
      · simp [hij]
    · rw [if_neg hj]
      by_cases hij : i = j
      · subst hij
        simp [hj]
      · simp [hij]

theorem getLsbD_maskOf (f : Nat → Bool) {i : Nat} (hi : i < 64) : (maskOf f).getLsbD i = f i := by
  rw [maskOf, getLsbD_maskSteps f _ _ i hi, show (0 : Mask).getLsbD i = false from BitVec.getLsbD_zero]
  simp [hi]

/-- Helper lanes that no reach of `hs` is of. -/
def Ctx.lostLanes (c : Ctx) (hs : List Reach) : Mask := c.hl &&& ~~~(maskOf fun i => hs.any fun r => r.lane == i)

theorem Ctx.lostLanes_iff (c : Ctx) (hs : List Reach) {i : Nat} (hi : i < 64) :
    (c.lostLanes hs).getLsbD i = true ↔ c.hl.getLsbD i = true ∧ ∀ x ∈ hs, x.lane ≠ i := by
  rw [Ctx.lostLanes, BitVec.getLsbD_and, BitVec.getLsbD_not, getLsbD_maskOf _ hi]
  simp [hi]

/-- The wave of a load whose data returns later. -/
def Ctx.deferred (c : Ctx) (r : MemRow) (id : Nat) (rs hs : List Reach) : Wave :=
  { c.w.writeSlots (c.lostLanes hs) (fun _ _ => 0) ((c.w.slotsOf r.d r.regs).map fun k => (k, 0)) with
    outst := c.w.outst ++ [c.access id r.size r.signed r.d (rs ++ hs)] }

theorem State.deferLoad_onlyWave {s : State} {c : Ctx} {r : MemRow} {rs hs : List Reach}
    (hr : wordsOf r.size = r.regs) (hw : s.waves.get? c.key = some c.w) (hp : c.w.poison = []) (hs' : c.w.struck = []) :
    OnlyWave s.nextSeq c (s.deferLoad c r.d r.size r.signed rs hs) (c.deferred r s.seq rs hs) := by
  have hz := OnlyWave.modWave (s := s.nextSeq) hw fun w =>
    (c.w.slotsOf r.d (wordsOf r.size)).foldl (fun w k => w.writeSlot k (c.lostLanes hs) fun _ => 0) w
  have ha := OnlyWave.modWave hz.wave fun w =>
    { w with outst := w.outst ++ [c.access s.seq r.size r.signed r.d (rs ++ hs)] }
  have hfold : (c.w.slotsOf r.d (wordsOf r.size)).foldl (fun w k => w.writeSlot k (c.lostLanes hs) fun _ => 0) c.w =
      c.w.writeSlots (c.lostLanes hs) (fun _ _ => 0) ((c.w.slotsOf r.d r.regs).map fun k => (k, 0)) := by
    rw [hr, Wave.writeSlots, List.foldl_map]
  have hout : (c.w.writeSlots (c.lostLanes hs) (fun _ _ => 0) ((c.w.slotsOf r.d r.regs).map fun k => (k, 0))).outst =
      c.w.outst := by
    obtain ⟨reg, hreg⟩ := c.w.writeSlots_sound (c.lostLanes hs) (fun _ _ => 0)
      ((c.w.slotsOf r.d r.regs).map fun k => (k, 0)) hp hs'
    rw [hreg]
  have ho := hz.trans ha
  rw [hfold, hout] at ho
  exact ho

section load
variable {i : Instr} {r : MemRow} {s s1 : State} {c : Ctx} {rs hs : List Reach} (hi : loadRow i = some r)
  (h : Clear s r.loadForm c)
  (hg : s.gate c (addrsOf (c.operands [(r.a, 2)]) 0 r.off c.t) (addrsOf (c.operands [(r.a, 2)]) 0 r.off c.hl)
    r.size .read .copy = .go rs hs s1)
  (hh : allHere (rs ++ hs))
include hi h hg hh

/-- A plain load whose data returns later is one of its wave's outstanding accesses. -/
theorem load_later (hl : s1.later = true) (hd : c.l.dqm = false) :
    ∃ u t : State, u.FetchOf s ∧ exec i s = .next t ∧
      u.Retires c t (c.deferred r s1.seq rs hs) .plain (c.after r.words) := by
  have hu : s1.nextSeq.FetchOf s := (State.gate_go_fetchOf c hg).trans rfl
  have hw : s1.waves.get? c.key = some c.w := by
    rw [(State.gate_go_fetchOf c hg).waves]
    exact State.issuing_wave h.ctx
  have ho := State.deferLoad_onlyWave (rs := rs) (hs := hs) (loadRow_regs hi).1 hw h.sound.2 h.sound.1
  obtain ⟨reg, hreg⟩ := c.w.writeSlots_sound (c.lostLanes hs) (fun _ _ => 0)
    ((c.w.slotsOf r.d r.regs).map fun k => (k, 0)) h.sound.2 h.sound.1
  obtain ⟨t, he, hr⟩ := issue_clear_fetched h ho (by rw [Ctx.deferred, hreg]) (loadBody_later hg hh hl hd)
  exact ⟨_, t, hu, (exec_load hi s).trans he, hr⟩

end load

end Sys2Proof.Machine
end

section
namespace Sys2Proof.Machine
open Sys2Proof

/-! ## What the lanes of a load read (R153, R197, R203, R206) -/

/-! ### Bytes as the caches come and go -/

theorem State.byteVia_no_hit {s : State} (h : s.hit = false) (rd : Nat → Byte) (a : Nat) :
    s.byteVia rd a = (s.windowAt a).elim (rd a) fun w => viewByte rd w a := by
  unfold State.byteVia
  rw [h]
  cases s.windowAt a with
  | none => rfl
  | some w => cases s.views.get? (a / 64) <;> rfl

section fetchOf
variable {s t : State} (h : t.FetchOf s)
include h

theorem State.FetchOf.windowAt (a : Nat) : t.windowAt a = s.windowAt a := by
  unfold State.windowAt
  rw [h.ctl]

theorem State.FetchOf.rawByte : t.rawByte = s.rawByte := by
  funext a
  unfold State.rawByte
  rw [h.mem]

theorem State.FetchOf.underByte (l : Launch) : t.underByte l = s.underByte l := by
  funext a
  unfold State.underByte
  rw [h.rawByte]

/-- With no cached decode in use, a byte does not depend on the caches. -/
theorem State.FetchOf.byteVia (hh : s.hit = false) (rd : Nat → Byte) : t.byteVia rd = s.byteVia rd := by
  funext a
  rw [State.byteVia_no_hit (h.hit.trans hh), State.byteVia_no_hit hh, h.windowAt]

theorem State.FetchOf.homeByte (hh : s.hit = false) : t.homeByte = s.homeByte := by
  funext a
  unfold State.homeByte
  rw [h.rawByte, h.byteVia hh]

end fetchOf

/-! ### The lane that reads for every lane of the same bytes -/

theorem laneData_cons (x : Nat × List Byte) (xs : List (Nat × List Byte)) (lane : Nat) :
    laneData (x :: xs) lane = if x.1 = lane then x.2 else laneData xs lane := by
  unfold laneData
  by_cases h : x.1 = lane <;> simp [h]

theorem laneData_map {rs : List Reach} (f : Reach → List Byte) {r : Reach} (hr : r ∈ rs)
    (hp : rs.Pairwise fun x y => x.lane ≠ y.lane) : laneData (rs.map fun r => (r.lane, f r)) r.lane = f r := by
  induction rs with
  | nil => nomatch hr
  | cons q rs ih =>
    obtain ⟨hq, hp⟩ := List.pairwise_cons.mp hp
    rw [List.map_cons, laneData_cons]
    rcases List.mem_cons.mp hr with rfl | hr
    · exact if_pos rfl
    · rw [if_neg (hq r hr)]
      exact ih hr hp

theorem keepFirst_sublist (rs : List Reach) : (keepFirst rs).Sublist rs := by
  induction rs with
  | nil => exact .slnil
  | cons r rs ih => exact (List.filter_sublist.trans ih).cons_cons r

/-- The first reach of some bytes is kept. -/
theorem find?_mem_keepFirst {rs : List Reach} {t : Target} {q : Reach}
    (h : rs.find? (fun q => decide (q.tgt = t)) = some q) : q ∈ keepFirst rs := by
  induction rs with
  | nil => nomatch h
  | cons r rs ih =>
    by_cases hr : r.tgt = t
    · rw [List.find?_cons_of_pos (by simpa using hr)] at h
      cases h
      exact List.mem_cons_self
    · rw [List.find?_cons_of_neg (by simpa using hr)] at h
      have hq : q.tgt = t := by simpa using List.find?_some h
      exact List.mem_cons_of_mem _ (List.mem_filter.mpr ⟨ih h, by simpa [hq] using Ne.symm hr⟩)

section reads
variable {l : Launch} {w : Wave} {since n : Nat} {Inv : State → Prop}
  (hinv : ∀ u t bs, Inv u → Inv (u.readFor l w since t n bs).2)
include hinv

/-- Each reach is read in a state of which the invariant of reading holds. -/
theorem State.readEach_lane {rs : List Reach} {r : Reach} {s : State} (hs : Inv s) (hr : r ∈ rs)
    (hp : rs.Pairwise fun x y => x.lane ≠ y.lane) :
    ∃ u, Inv u ∧ laneData (s.readEach l w since n [] rs).1 r.lane = (u.readFor l w since r.tgt n []).1 := by
  induction rs generalizing s with
  | nil => nomatch hr
  | cons q rs ih =>
    obtain ⟨hq, hp⟩ := List.pairwise_cons.mp hp
    rw [State.readEach, laneData_cons]
    rcases List.mem_cons.mp hr with rfl | hr
    · exact ⟨s, hs, if_pos rfl⟩
    · rw [if_neg (hq r hr)]
      exact ih (hinv _ _ _ hs) hr hp

theorem State.readAll_lane {rs : List Reach} {r : Reach} {s : State} (hs : Inv s) (hr : r ∈ rs)
    (hp : rs.Pairwise fun x y => x.lane ≠ y.lane) :
    ∃ u, Inv u ∧ laneData (s.readAll l w since n [] rs).1 r.lane = (u.readFor l w since r.tgt n []).1 := by
  cases hf : rs.find? fun q => decide (q.tgt = r.tgt) with
  | none => exact absurd (List.find?_eq_none.mp hf r hr) (by simp)
  | some q =>
    have hq : q.tgt = r.tgt := by simpa using List.find?_some hf
    obtain ⟨u, hu, hv⟩ := State.readEach_lane hinv hs (find?_mem_keepFirst hf) (hp.sublist (keepFirst_sublist rs))
    refine ⟨u, hu, ?_⟩
    have hlead : leadOf rs r = q.lane := by rw [leadOf, hf]
    rw [State.readAll, laneData_map (fun r => laneData _ (leadOf rs r)) hr hp, hlead, hv, hq]

end reads

/-! ### A DQM launch: the wave's own buffered stores over the memory of the boundary (R197) -/

theorem bytesFrom_getD (rd : Nat → Byte) (a : Nat) {n i : Nat} (hi : i < n) :
    (bytesFrom rd a n).getD i 0 = rd (a + i) := by
  simp [bytesFrom, List.getD, hi]

theorem overlay_getD (share : List Buffered) (t : Target) (bs : List Byte) {i : Nat} (hi : i < bs.length) :
    (overlay share t bs).getD i 0 = shareByte share t i (bs.getD i 0) := by
  unfold overlay
  split
  · next h => rw [h]; rfl
  · simp [List.getD, hi]

theorem shareByte_mem (share : List Buffered) (a i : Nat) (below : Byte) :
    shareByte share (.here (.mem a)) i below = share.foldl (fun old e => match e with
      | .store (.here (.mem p)) m v _ _ => if p ≤ a + i ∧ a + i < p + m then
          BitVec.ofNat 8 (v / 256 ^ (a + i - p)) else old
      | _ => old) below := by
  unfold shareByte
  congr 1
  funext old e
  cases e with
  | store u m v lane addr =>
    rcases u with (p | ⟨q, p⟩) | ⟨d, p⟩
    · by_cases hin : p ≤ a + i ∧ a + i < p + m <;> simp [Target.within, hin]
    · rfl
    · rfl
  | _ => rfl

theorem shareByte_scr (share : List Buffered) (k off i : Nat) (below : Byte) :
    shareByte share (.here (.scr k off)) i below = share.foldl (fun old e => match e with
      | .store (.here (.scr q p)) m v _ _ => if q = k ∧ p ≤ off + i ∧ off + i < p + m then
          BitVec.ofNat 8 (v / 256 ^ (off + i - p)) else old
      | _ => old) below := by
  unfold shareByte
  congr 1
  funext old e
  cases e with
  | store u m v lane addr =>
    rcases u with (p | ⟨q, p⟩) | ⟨d, p⟩
    · rfl
    · by_cases hq : k = q
      · by_cases hin : p ≤ off + i ∧ off + i < p + m <;> simp [Target.within, hq, hin]
      · simp [Target.within, hq, Ne.symm hq]
    · rfl
  | _ => rfl

section dqm
variable {s : State} {l : Launch} {w : Wave} {n : Nat} {rs : List Reach} {r : Reach} (hr : r ∈ rs)
  (hp : rs.Pairwise fun x y => x.lane ≠ y.lane) (hh : s.hit = false) (hd : l.dqm = true)
include hr hp hh hd

/-- A byte of memory that a lane of a DQM launch reads. -/
theorem readAll_dqm_mem {a i : Nat} (ht : r.tgt = .here (.mem a)) (hi : i < n) :
    (laneData (s.readAll l w s.seq n [] rs).1 r.lane).getD i 0 =
      shareByte w.share r.tgt i (s.byteVia (s.underByte l) (a + i)) := by
  obtain ⟨u, hu, hv⟩ := State.readAll_lane (Inv := fun u => u.FetchOf s) (l := l) (w := w) (since := s.seq) (n := n)
    (fun u t bs hu => hu.trans (u.readFor_fetchOf l w s.seq n t bs)) (.refl s) hr hp
  have hbytes : (u.readFor l w s.seq r.tgt n []).1 =
      overlay w.share r.tgt (bytesFrom (u.byteVia (u.underByte l)) a n) := by
    rw [ht, State.readFor]
    simp only [hd, if_true]
  rw [hv, hbytes, overlay_getD _ _ _ (by simpa [bytesFrom] using hi), bytesFrom_getD _ _ hi, hu.underByte,
    hu.byteVia hh]

omit hh hd in
/-- A byte of a scratchpad that a lane reads. -/
theorem readAll_dqm_scr {k off i : Nat} {b : Block} (ht : r.tgt = .here (.scr k off)) (hb : s.blocks.get? k = some b)
    (hi : i < n) : (laneData (s.readAll l w s.seq n [] rs).1 r.lane).getD i 0 =
      shareByte w.share r.tgt i (b.scrByte (off + i)) := by
  obtain ⟨u, hu, hv⟩ := State.readAll_lane (Inv := fun u => u.FetchOf s) (l := l) (w := w) (since := s.seq) (n := n)
    (fun u t bs hu => hu.trans (u.readFor_fetchOf l w s.seq n t bs)) (.refl s) hr hp
  have hbytes : (u.readFor l w s.seq r.tgt n []).1 = overlay w.share r.tgt (bytesFrom b.scrByte off n) := by
    rw [ht, State.readFor]
    simp only [State.readLoc, hu.blocks, hb]
  rw [hv, hbytes, overlay_getD _ _ _ (by simpa [bytesFrom] using hi), bytesFrom_getD _ _ hi]

end dqm

/-! ### Free mode: the line's home (R153, R174) -/

/-- Every copy in a core's L1 holds the bytes of its line's home. -/
def State.CopiesOf (u s : State) (core : Nat) : Prop :=
  u.FetchOf s ∧ ∀ e ∈ (u.core core).l1, e.2.bytes = bytesFrom s.homeByte (e.1 * 64) 64

theorem mem_l1In {pick line : Nat} {copy : Line} {m : KMap Line} {e : Nat × Line} (h : e ∈ l1In pick line copy m) :
    e = (line, copy) ∨ e ∈ m := by
  unfold l1In at h
  split at h
  · exact KMap.mem_set h
  · exact (KMap.mem_set h).imp_right KMap.mem_erase

theorem State.keepView_cores (s : State) (a : Nat) : (s.keepView a).cores = s.cores := by
  unfold State.keepView
  split
  · rfl
  · split <;> rfl



theorem set_ne_nil {α : Type} (m : KMap α) (k : Nat) (v : α) : m.set k v ≠ [] := by
  cases m with
  | nil => exact List.cons_ne_nil _ _
  | cons e m =>
    unfold KMap.set
    split
    · exact List.cons_ne_nil _ _
    · split <;> exact List.cons_ne_nil _ _

theorem l1In_ne_nil (pick line : Nat) (copy : Line) (m : KMap Line) : l1In pick line copy m ≠ [] := by
  unfold l1In
  split <;> exact set_ne_nil _ _ _

/-- Filling a line puts a copy of the home's bytes into the core's L1. -/
theorem State.mem_fillLine_l1 {u : State} {core line : Nat} {e : Nat × Line}
    (h : e ∈ ((u.fillLine core line).core core).l1) :
    e.1 = line ∧ e.2.bytes = bytesFrom u.homeByte (line * 64) 64 ∨ e ∈ (u.core core).l1 := by
  have hcore : (u.keepView (line * 64)).core core = u.core core := by
    unfold State.core
    rw [u.keepView_cores]
  have hl1 : ((u.fillLine core line).core core).l1 = l1In u.pick line
      ⟨bytesFrom u.homeByte (line * 64) 64, u.now + u.leaseLen, u.seq⟩ ((u.keepView (line * 64)).core core).l1 :=
    congrArg Core.l1 (State.core_modCore_same (s := u.keepView (line * 64)) core
      (fun k => { k with
        l1 := l1In u.pick line
          ⟨bytesFrom u.homeByte (line * 64) 64, u.now + u.leaseLen, u.seq⟩ k.l1 })
      fun hr => l1In_ne_nil _ _ _ _ (congrArg Core.l1 hr))
  rw [hl1, hcore] at h
  rcases mem_l1In h with rfl | h
  · exact .inl ⟨rfl, rfl⟩
  · exact .inr h

section free
variable {s : State} {l : Launch} {w : Wave} {n : Nat} (hh : s.hit = false) (hd : l.dqm = false)
include hh hd

theorem State.CopiesOf.readFor {u : State} (hu : u.CopiesOf s w.core) (since : Nat) (t : Target) (bs : List Byte) :
    (u.readFor l w since t n bs).2.CopiesOf s w.core := by
  refine ⟨hu.1.trans (u.readFor_fetchOf l w since n t bs), fun e he => ?_⟩
  have hfill (line : Nat) (he : e ∈ ((u.fillLine w.core line).core w.core).l1) :
      e.2.bytes = bytesFrom s.homeByte (e.1 * 64) 64 := by
    rcases State.mem_fillLine_l1 he with ⟨hline, hbytes⟩ | he
    · rw [hbytes, hline, hu.1.homeByte hh]
    · exact hu.2 e he
  unfold State.readFor at he
  (repeat' split at he)
  · exact hu.2 e he
  · exact hu.2 e he
  · simp [hd] at *
  · simp [hd] at *
  · unfold State.readGlobal at he
    split at he
    · exact hu.2 e he
    · exact hfill _ he
  · exact hu.2 e he

omit hh hd in
/-- Some bytes of a line are the line's bytes from their place in it. -/
theorem bytesFrom_window (rd : Nat → Byte) {a b k m n : Nat} (hb : b + k = a) (hn : k + n ≤ m) :
    ((bytesFrom rd b m).drop k).take n = bytesFrom rd a n := by
  subst hb
  apply List.ext_getElem
  · simp [bytesFrom]
    omega
  · intro i h₁ h₂
    simp [bytesFrom, Nat.add_assoc]

omit hd in
/-- A copy that serves holds the bytes of the home. -/
theorem State.CopiesOf.readGlobal {u : State} (hu : u.CopiesOf s w.core) (acq since a : Nat)
    (hline : a / 64 = (a + n - 1) / 64) :
    (u.readGlobal w.core acq since a n).1 = bytesFrom s.homeByte a n := by
  unfold State.readGlobal
  split
  · next k hk =>
    have hget : (u.core w.core).l1.get? (a / 64) = some k := by
      unfold State.servesFrom at hk
      split at hk
      · nomatch hk
      · next k' hk' =>
        split at hk
        · cases hk
          exact hk'
        · nomatch hk
    have hbytes : k.bytes = bytesFrom s.homeByte (a / 64 * 64) 64 := hu.2 _ (KMap.mem_of_get? hget)
    rw [hbytes]
    exact bytesFrom_window s.homeByte (by omega) (by omega)
  · rw [hu.1.homeByte hh]

variable {rs : List Reach} {r : Reach} (hr : r ∈ rs) (hp : rs.Pairwise fun x y => x.lane ≠ y.lane)
  (hs : w.share = []) (h1 : (s.core w.core).l1 = [])
include hr hp hs h1

omit hs in
/-- The bytes of memory that a lane of a free-mode launch reads. -/
theorem readAll_free_mem {a : Nat} (ht : r.tgt = .here (.mem a)) (hline : a / 64 = (a + n - 1) / 64) :
    laneData (s.readAll l w s.seq n [] rs).1 r.lane =
      if a < 2 ^ 48 then bytesFrom s.homeByte a n else bytesFrom s.rawByte a n := by
  obtain ⟨u, hu, hv⟩ := State.readAll_lane (Inv := fun u => u.CopiesOf s w.core) (l := l) (w := w) (since := s.seq)
    (n := n) (fun u t bs hu => hu.readFor hh hd s.seq t bs) ⟨.refl s, by simp [h1]⟩ hr hp
  rw [hv, ht, State.readFor]
  simp only [hd, Bool.false_eq_true, if_false]
  split
  · exact hu.readGlobal hh _ _ _ hline
  · rw [hu.1.rawByte]

/-- The bytes of a scratchpad that a lane of a free-mode launch reads. -/
theorem readAll_free_scr {k off : Nat} {b : Block} (ht : r.tgt = .here (.scr k off)) (hb : s.blocks.get? k = some b) :
    laneData (s.readAll l w s.seq n [] rs).1 r.lane = bytesFrom b.scrByte off n := by
  obtain ⟨u, hu, hv⟩ := State.readAll_lane (Inv := fun u => u.CopiesOf s w.core) (l := l) (w := w) (since := s.seq)
    (n := n) (fun u t bs hu => hu.readFor hh hd s.seq t bs) ⟨.refl s, by simp [h1]⟩ hr hp
  rw [hv, ht, State.readFor]
  simp only [State.readLoc, hu.1.blocks, hb, hs, overlay, if_true]

end free

end Sys2Proof.Machine
end

section
namespace Sys2Proof.Machine
open Sys2Proof

/-! ## Plain loads (R201, R206) -/

/-- What the word leaves alone: other waves, memory, blocks, launches, traps and the control registers. -/
structure State.LoadOnly (s : State) (c : Ctx) (t : State) : Prop where
  others : ∀ k, k ≠ c.key → t.waves.get? k = s.waves.get? k
  mem : t.mem = s.mem
  blocks : t.blocks = s.blocks
  ctl : t.ctl = s.ctl
  launches : t.launches = s.launches
  traps : t.traps = s.traps

/-- A load that retires leaves everything but its wave and the caches alone. -/
theorem State.FetchOf.loadOnly {s u t : State} {c : Ctx} {w : Wave} (hu : u.FetchOf s) (ho : OnlyWave u c t w) :
    s.LoadOnly c t where
  others k hk := (ho.others k hk).trans (by rw [hu.waves])
  mem := (congrArg State.mem ho.rest).trans hu.mem
  blocks := (congrArg State.blocks ho.rest).trans hu.blocks
  ctl := (congrArg State.ctl ho.rest).trans hu.ctl
  launches := (congrArg State.launches ho.rest).trans hu.launches
  traps := (congrArg State.traps ho.rest).trans hu.traps

/-- The wave's registers and outstanding accesses after retirement. -/
theorem Wave.slotVec_retiredAt (w : Wave) (l : Launch) (now : Nat) (x : Series) (pc : DWord) (n k : Nat) :
    (w.retiredAt l now x pc n).slotVec k = w.slotVec k := by
  rw [Wave.slotVec, Wave.slotVec, Wave.retiredAt_regs]

theorem Wave.slotLane_retiredAt (w : Wave) (l : Launch) (now : Nat) (x : Series) (pc : DWord) (n k lane : Nat) :
    (w.retiredAt l now x pc n).slotLane k lane = w.slotLane k lane := by
  rw [Wave.slotLane, Wave.slotLane, Wave.slotVec_retiredAt]

section load
variable {i : Instr} {r : MemRow} {s s1 : State} {c : Ctx} {rs hs : List Reach} (hi : loadRow i = some r)
  (h : Clear s r.loadForm c)
  (hg : s.gate c (addrsOf (c.operands [(r.a, 2)]) 0 r.off c.t) (addrsOf (c.operands [(r.a, 2)]) 0 r.off c.hl)
    r.size .read .copy = .go rs hs s1)
  (hh : allHere (rs ++ hs))
include hi h hg hh

/-- A load performed now (R206). -/
theorem load_now_registers (hl : s1.later = false ∨ c.l.dqm = true) :
    ∃ t w', exec i s = .next t ∧ t.waves.get? c.key = some w' ∧ Retired c w' (c.after r.words) ∧ s.LoadOnly c t ∧
      (∀ j, j < r.regs → ∀ k lane, lane < 64 → c.w.slotOf (r.d.toNat + j) = .phys k →
        (c.dests.getLsbD lane = true → w'.slotLane k lane = loadedWord r.size r.signed
          (laneData (s1.readAll c.l c.w s1.seq r.size [] (rs ++ hs)).1 (c.giver lane)) j) ∧
        (c.dests.getLsbD lane = false → w'.slotLane k lane = c.w.slotLane k lane)) ∧
      (∀ k, (∀ j, j < r.regs → c.w.slotOf (r.d.toNat + j) ≠ .phys k) → w'.slotVec k = c.w.slotVec k) ∧
      { w'.bookOf c.w with regs := c.w.regs } = c.w := by
  obtain ⟨u, t, hu, he, n, ho⟩ := load_now hi h hg hh hl
  obtain ⟨reg, hreg⟩ := c.w.writeSlots_sound c.dests (fun lane j => loadedWord r.size r.signed
    (laneData (s1.readAll c.l c.w s1.seq r.size [] (rs ++ hs)).1 (c.giver lane)) j)
    (c.w.runEntries r.d.toNat (List.range r.regs)) h.sound.2 h.sound.1
  refine ⟨t, _, he, ho.wave, Wave.retired_retiredAt _ _ _ _ _ _ (by rw [Ctx.loaded, hreg]), hu.loadOnly ho, ?_, ?_, ?_⟩
  · intro j hj k lane hlane hk
    rw [Wave.slotLane_retiredAt]
    exact ⟨fun hd => Wave.slotLane_writeRun (fun lane j => loadedWord r.size r.signed
        (laneData (s1.readAll c.l c.w s1.seq r.size [] (rs ++ hs)).1 lane) j) (loadRow_regs hi).2 hj hk hlane hd,
      fun hd => Wave.slotLane_writeSlots_keep _ _ _ _ hlane (.inl hd)⟩
  · intro k hk
    rw [Wave.slotVec_retiredAt]
    exact Wave.slotVec_writeSlots_keep _ _ _ _ (Wave.runEntries_ne hk)
  · rw [Wave.retiredAt_bookOf, Ctx.loaded, hreg]
    rfl

/-- A load whose data returns later (R173, R175). -/
theorem load_later_outstanding (hl : s1.later = true) (hd : c.l.dqm = false) :
    ∃ t w' a, exec i s = .next t ∧ t.waves.get? c.key = some w' ∧ Retired c w' (c.after r.words) ∧ s.LoadOnly c t ∧
      w'.outst = c.w.outst ++ [a] ∧ a = c.access s1.seq r.size r.signed r.d (rs ++ hs) ∧
      a.dest = c.w.slotsOf r.d r.regs ∧
      (∀ k lane, lane < 64 →
        (k ∈ a.dest → (c.lostLanes hs).getLsbD lane = true → w'.slotLane k lane = 0) ∧
        (k ∉ a.dest ∨ ¬ (c.lostLanes hs).getLsbD lane = true → w'.slotLane k lane = c.w.slotLane k lane)) ∧
      { w'.bookOf c.w with regs := c.w.regs, outst := c.w.outst } = c.w := by
  obtain ⟨u, t, hu, he, n, ho⟩ := load_later hi h hg hh hl hd
  have hdest : (c.access s1.seq r.size r.signed r.d (rs ++ hs)).dest = c.w.slotsOf r.d r.regs :=
    congrArg (c.w.slotsOf r.d) (loadRow_regs hi).1
  obtain ⟨reg, hreg⟩ := c.w.writeSlots_sound (c.lostLanes hs) (fun _ _ => 0)
    ((c.w.slotsOf r.d r.regs).map fun k => (k, 0)) h.sound.2 h.sound.1
  refine ⟨t, _, _, he, ho.wave, Wave.retired_retiredAt _ _ _ _ _ _ (by rw [Ctx.deferred, hreg]), hu.loadOnly ho,
    Wave.retiredAt_outst _ _ _ _ _ _, rfl, hdest, ?_, ?_⟩
  · intro k lane hlane
    rw [Wave.slotLane_retiredAt, hdest]
    constructor
    · intro hk hm
      exact Wave.slotLane_writeSlots _ _ _ _ hlane hm ⟨_, List.mem_map.mpr ⟨k, hk, rfl⟩, rfl⟩ fun _ _ _ => rfl
    · intro hk
      refine Wave.slotLane_writeSlots_keep _ _ _ _ hlane ?_
      rcases hk with hk | hm
      · right
        intro x hx hxk
        obtain ⟨k', hk', rfl⟩ := List.mem_map.mp hx
        exact hk (hxk ▸ hk')
      · exact .inl (by simpa using hm)
  · rw [Wave.retiredAt_bookOf, Ctx.deferred, hreg]
    rfl

end load

/-- Settles O21: a load leaves all but its wave and the caches alone; whatever the caches hold, each lane's bytes are
those of its place, and no L1 copy the reading itself brings in can say otherwise. -/
theorem loadsGiveBytes : Obligations.LoadsGiveBytes := by
  unfold Obligations.LoadsGiveBytes
  refine ⟨fun i r s s1 c rs hs hi h hg hh => ⟨fun hl => ?_, fun hl hd => ?_⟩,
    fun s l w n rs r _ hr hp hhit => ⟨fun hd hshare h1 => ⟨fun a ht hline _ => ?_, fun k off b ht hb => ?_⟩,
      fun hd => ⟨fun a i ht hi => ?_, fun k off b i ht hb hi => ?_⟩⟩⟩
  · obtain ⟨t, w', he, hw, hret, ho, hregs, hkeep, hbook⟩ := load_now_registers hi h hg hh hl
    exact ⟨t, w', he, hw, hret, ho.others, ho.mem, ho.blocks, ho.ctl, ho.launches, ho.traps, hregs, hkeep, hbook⟩
  · obtain ⟨t, w', a, he, hw, hret, ho, hout, ha, hdest, hlanes, hbook⟩ := load_later_outstanding hi h hg hh hl hd
    refine ⟨t, w', a, he, hw, hret, ho.others, ho.mem, ho.blocks, ho.ctl, hout, congrArg Access.store ha,
      congrArg Access.width ha, congrArg Access.signed ha, hdest, congrArg Access.bcast ha, congrArg Access.rmw ha,
      congrArg Access.poll ha, ?_, fun k lane hlane => ?_, hbook⟩
    · rw [ha, Ctx.access, List.map_map]
      rfl
    · have hlost := c.lostLanes_iff hs hlane
      exact ⟨fun hk hx => (hlanes k lane hlane).1 hk (hlost.mpr hx),
        fun hk => (hlanes k lane hlane).2 (hk.imp_right fun hx => mt hlost.mp hx)⟩
  · exact readAll_free_mem hhit hd hr hp h1 ht hline
  · exact readAll_free_scr hhit hd hr hp hshare h1 ht hb
  · rw [readAll_dqm_mem hr hp hhit hd ht hi, ht]
    exact shareByte_mem _ _ _ _
  · rw [readAll_dqm_scr hr hp ht hb hi, ht]
    exact shareByte_scr _ _ _ _ _

end Sys2Proof.Machine
end

section
namespace Sys2Proof.Machine
open Sys2Proof

/-! ## `poll` (R28, R144, R175, R216) -/

/-! ### What an acquire and a wait do -/

/-- Waves that a change of one wave leaves alone publish nothing, where none did before. -/
theorem State.NonePublished.published {s t : State} (h : s.NonePublished) {key : Nat}
    (ht : ∀ e ∈ t.waves, e.1 = key ∨ e ∈ s.waves) (q : Wave) (sc : Scope) : t.published key q sc = [] := by
  refine List.flatMap_eq_nil_iff.mpr fun e he => ?_
  by_cases hk : e.1 = key
  · exact if_pos hk
  · rw [if_neg hk]
    have hrel := h e ((ht e he).resolve_left hk)
    refine List.map_eq_nil_iff.mpr (List.filter_eq_nil_iff.mpr fun a ha => ?_)
    rw [hrel a ha]
    exact Bool.false_ne_true

/-- An acquire that meets no release that is still to be performed stamps its wave alone. -/
theorem State.acquire_onlyWave {t : State} {c : Ctx} {w : Wave} {sc : Scope} (hw : t.waves.get? c.key = some w)
    (hp : t.published c.key w sc = []) :
    OnlyWave t c (t.acquire c.key sc) { w with acq := if wideScope sc = true then t.seq else w.acq } := by
  unfold State.acquire
  rw [hw]
  dsimp only
  rw [hp, List.foldl_nil]
  by_cases hs : wideScope sc = true
  · rw [if_pos hs, if_pos hs]
    exact OnlyWave.modWave hw fun w => { w with acq := t.seq }
  · rw [if_neg hs, if_neg hs]
    exact .refl hw

theorem KMap.set_get? {α : Type} {m : KMap α} {k : Nat} {v : α} (h : m.get? k = some v) : m.set k v = m := by
  induction m with
  | nil => nomatch h
  | cons e m ih =>
    unfold KMap.get? at h
    unfold KMap.set
    split at h
    · next hk =>
      cases h
      simp [hk]
    · next hk =>
      split at h
      · nomatch h
      · next hlt => rw [if_neg hlt, if_neg hk, ih h]

/-- With the block as the word found it, there is nothing to give back to its queues. -/
theorem State.unpop_self {s : State} {c : Ctx} (h : s.blocks.get? c.w.block = some c.b) : s.unpop c = s := by
  have hm : s.blocks.modify c.w.block (fun b => { b with queues := c.b.queues }) = s.blocks := by
    unfold KMap.modify
    rw [h]
    exact KMap.set_get? h
  exact congrArg (fun bs => { s with blocks := bs }) hm

/-- A clear word that waits with no effect changes its wave's bookkeeping alone. -/
theorem issue_clear_wait {f : Form} {body : Ctx → List (List LaneVec) → State → Res} {s : State} {c : Ctx}
    (h : Clear s f c) (hb : body c (c.operands f.reads) s = .wait s) :
    ∃ t w', issue f body s = .next t ∧ OnlyWave s c t w' ∧ c.Waits t w' ∧ w'.bookOf c.w = c.w := by
  have hw := State.issuing_wave h.ctx
  have hstall := OnlyWave.modWave hw fun w => { w with stalled := some s.ver, readyFrom := s.now, starving := false }
  have heq : s.settle c f.size (.wait s) = s.waits c f.size s (s.stallWave c.key) := by
    rw [State.settle, State.unpop_self (State.issuing_block h.ctx)]
  have hissue := (issue_clear (body := body) h).trans (congrArg Host.Outcome.next ((congrArg _ hb).trans heq))
  unfold State.waits at hissue
  rw [hw] at hissue
  dsimp only at hissue
  rw [h.inside] at hissue
  by_cases hmid : c.w.midWord = true
  · rw [hmid] at hissue
    have hheld := hstall.trans (OnlyWave.modWave hstall.wave fun w => { w with heldT := some c.t })
    exact ⟨_, _, hissue, hheld, ⟨hheld.wave, rfl, rfl, rfl⟩, rfl⟩
  · rw [Bool.not_eq_true] at hmid
    rw [hmid] at hissue
    exact ⟨_, _, hissue, hstall, ⟨hstall.wave, rfl, rfl, rfl⟩, rfl⟩

/-! ### How a poll retires -/

/-- The outcome of a poll: met, or to be tried again. -/
def pollEnd (ok : Bool) (t : State) : Res := if ok then .done .met t else .doneEnd .failed t

/-- The wave of a poll that has retired, with its level and its back-off (R28). -/
structure PollRetired (c : Ctx) (now : Nat) (w w' : Wave) (ok : Bool) (pc : DWord) : Prop where
  retired : Retired c w' pc
  regs : w'.regs = w.regs
  holdOn : w'.holdOn = none
  book : w'.bookOf c.w = w.bookOf c.w
  met : ok = true → w'.level = 7 ∧ w'.polls = 0
  failed : ok = false → w'.level = w.level - 1 ∧ w'.backoff = some (now + min 256 (4 * 2 ^ w.polls))

theorem State.endQuantum_onlyWave {s : State} {c : Ctx} {w : Wave} (h : s.waves.get? c.key = some w) :
    ∃ q, OnlyWave s c (s.endQuantum c) { w with qend := q } := by
  unfold State.endQuantum
  by_cases hd : c.l.dqm = true
  · rw [if_pos hd]
    exact ⟨_, OnlyWave.modWave h fun w => { w with qend := true }⟩
  · rw [if_neg hd]
    exact ⟨w.qend, .refl h⟩

/-- A clear poll that changes caches, and then its wave only, retires in one of its two ways. -/
theorem issue_clear_poll {f : Form} {body : Ctx → List (List LaneVec) → State → Res} {s u t : State} {c : Ctx}
    {w : Wave} {ok : Bool} (h : Clear s f c) (ho : OnlyWave u c t w) (hpc : w.pc = c.w.pc)
    (hn : w.retired = c.w.retired) (hb : body c (c.operands f.reads) s = pollEnd ok t) :
    ∃ t' w', issue f body s = .next t' ∧ OnlyWave u c t' w' ∧ PollRetired c u.now w w' ok (c.after f.size) := by
  have hissue := issue_clear (body := body) h
  rw [hb] at hissue
  cases ok with
  | true =>
    obtain ⟨k, hk⟩ := State.retireAt_onlyWave ho.wave f.size .met
    rw [hpc] at hk
    rw [pollEnd, if_pos rfl, State.settle, h.inside] at hissue
    exact ⟨_, _, hissue, ho.trans hk, Wave.retired_retiredAt _ _ _ _ _ _ hn, Wave.retiredAt_regs _ _ _ _ _ _, rfl,
      Wave.retiredAt_bookOf _ _ _ _ _ _ _, fun _ => ⟨rfl, rfl⟩, nofun⟩
  | false =>
    obtain ⟨k, hk⟩ := State.retireAt_onlyWave ho.wave f.size .failed
    obtain ⟨q, hq⟩ := State.endQuantum_onlyWave hk.wave
    rw [hpc, ho.now] at hk hq
    rw [pollEnd, if_neg Bool.false_ne_true, State.settle, h.inside] at hissue
    have hret := w.retired_retiredAt c.l u.now .failed (c.after f.size) k hn
    exact ⟨_, _, hissue, (ho.trans hk).trans hq, ⟨hret.count, hret.at_pc⟩,
      w.retiredAt_regs c.l u.now .failed (c.after f.size) k, rfl,
      w.retiredAt_bookOf c.l u.now .failed (c.after f.size) k c.w, nofun, fun _ => ⟨rfl, rfl⟩⟩

section poll
variable {p : PollCond} {sc : Scope} {d a : Reg} {g : Guard} {u : Bool} {s s1 : State} {c : Ctx} {rs hs : List Reach}

/-- The form of a poll. -/
def pollForm (d a : Reg) (g : Guard) (u : Bool) : Form := ⟨g, u, 1, [(d, 1), (a, 2)], [(d, 1)], true, true, id⟩

/-! ### A poll whose lanes are performed later (R175) -/

theorem pollBody_held {ops : List (List LaneVec)} {id : Nat} (hh : c.w.holdOn = some id) :
    pollBody p sc d c ops s = if c.w.holding id then .wait s
      else pollEnd (c.lanes.all fun lane => opLane ops 0 lane == 1) (s.acquire c.key sc) := by
  unfold pollBody
  rw [hh]
  rfl

/-- A poll some of whose lanes are still to be performed waits. -/
theorem poll_waits (h : Clear s (pollForm d a g u) c) {id : Nat} (hh : c.w.holdOn = some id)
    (ho : ∃ a ∈ c.w.outst, a.id = id) :
    ∃ t w', exec (.poll p d a sc g u) s = .next t ∧ OnlyWave s c t w' ∧ c.Waits t w' ∧ w'.bookOf c.w = c.w := by
  have hold : c.w.holding id = true := by
    simpa [Wave.holding, List.any_eq_true] using ho
  exact issue_clear_wait (body := pollBody p sc d) h ((pollBody_held hh).trans (if_pos hold))

/-- A poll all of whose lanes have been performed retires by the outcomes in its destination. -/
theorem poll_retires (h : Clear s (pollForm d a g u) c) {id : Nat} (hh : c.w.holdOn = some id)
    (ho : ∀ a ∈ c.w.outst, a.id ≠ id) (hn : s.NonePublished) :
    ∃ t w', exec (.poll p d a sc g u) s = .next t ∧ OnlyWave s c t w' ∧
      PollRetired c s.now { c.w with acq := if wideScope sc = true then s.seq else c.w.acq } w'
        (c.lanes.all fun lane => opLane (c.operands [(d, 1), (a, 2)]) 0 lane == 1) (c.after 1) := by
  have hold : ¬ c.w.holding id = true := by
    simpa [Wave.holding, List.any_eq_true] using ho
  have ho := State.acquire_onlyWave (sc := sc) (State.issuing_wave h.ctx) (hn.published (fun _ he => .inr he) c.w sc)
  exact issue_clear_poll (body := pollBody p sc d) h ho rfl rfl ((pollBody_held hh).trans (if_neg hold))

/-! ### A poll performed at once -/

/-- The outcome of a poll in a lane. -/
def pollMet (p : PollCond) (s : State) (c : Ctx) (ops : List (List LaneVec)) (rs : List Reach) (lane : Nat) : Bool :=
  let bs := laneData (s.readAll c.l c.w s.seq 4 [] rs).1 lane
  decide (bs ≠ []) && pollHolds p (loadedWord 4 false bs 0) (opLane ops 0 lane)

/-- The state once a poll has written its outcomes. -/
def State.pollWritten (s : State) (p : PollCond) (d : Reg) (c : Ctx) (ops : List (List LaneVec)) (rs : List Reach) :
    State :=
  (s.readAll c.l c.w s.seq 4 [] rs).2.writeRun c d 1 fun lane _ => if pollMet p s c ops rs lane then 1 else 0

theorem pollBody_now {ops : List (List LaneVec)} (hh : c.w.holdOn = none)
    (hg : s.gate c (addrsOf ops 1 0 c.t) (addrsOf ops 1 0 c.hl) 4 .read .copy = .go rs hs s1)
    (hhere : allHere (rs ++ hs)) (hl : c.l.dqm = true ∨ s1.later = false) :
    pollBody p sc d c ops s = pollEnd (c.lanes.all (pollMet p s1 c ops (rs ++ hs)))
      (if c.l.dqm then s1.pollWritten p d c ops (rs ++ hs)
        else c.acquired sc (s1.pollWritten p d c ops (rs ++ hs))) := by
  unfold pollBody
  rw [hh]
  dsimp only
  rw [hg]
  simp only [readAsks_here hhere, consult_nothing]
  refine if_neg ?_
  rcases hl with hl | hl <;> simp [hl]

/-- The waves of a poll that writes its outcomes: none but its own is new. -/
theorem State.mem_writeRun_waves {v : Nat → Nat → Word} (hq : ∀ n, c.w.slotOf d.toNat ≠ .qout n) {e : Nat × Wave}
    (he : e ∈ (s.writeRun c d 1 v).waves) : e.1 = c.key ∨ e ∈ s.waves := by
  rw [State.writeRun, show List.range 1 = [0] from rfl, List.foldl_cons, List.foldl_nil, Nat.add_zero,
    State.writeReg] at he
  split at he
  · unfold State.modWave KMap.modify at he
    dsimp only at he
    split at he
    · exact .inr he
    · exact (KMap.mem_set he).imp_left fun h => congrArg Prod.fst h
  · next n hn => exact absurd hn (hq n)
  · exact .inr he

/-- The wave of a poll once it has written its outcomes. -/
def Ctx.polled (c : Ctx) (d : Reg) (met : Nat → Bool) : Wave :=
  c.w.writeSlots c.dests (fun lane _ => if met (c.giver lane) then 1 else 0) (c.w.runEntries d.toNat (List.range 1))

/-- A poll performed at once. -/
theorem poll_now (h : Clear s (pollForm d a g u) c) (hh : c.w.holdOn = none)
    (hg : s.gate c (addrsOf (c.operands [(d, 1), (a, 2)]) 1 0 c.t) (addrsOf (c.operands [(d, 1), (a, 2)]) 1 0 c.hl)
      4 .read .copy = .go rs hs s1)
    (hhere : allHere (rs ++ hs)) (hl : c.l.dqm = true ∨ (s1.later = false ∧ s.NonePublished)) :
    ∃ v t w' acq, v.FetchOf s ∧ exec (.poll p d a sc g u) s = .next t ∧ OnlyWave v c t w' ∧
      PollRetired c v.now { c.polled d (pollMet p s1 c (c.operands [(d, 1), (a, 2)]) (rs ++ hs)) with acq := acq } w'
        (c.lanes.all (pollMet p s1 c (c.operands [(d, 1), (a, 2)]) (rs ++ hs))) (c.after 1) := by
  have hread := s1.readAll_fetchOf c.l c.w s1.seq 4 [] (rs ++ hs)
  have hv := (State.gate_go_fetchOf c hg).trans hread
  have hw : (s1.readAll c.l c.w s1.seq 4 [] (rs ++ hs)).2.waves.get? c.key = some c.w := by
    rw [hv.waves]
    exact State.issuing_wave h.ctx
  have hq (n : Nat) : c.w.slotOf d.toNat ≠ .qout n :=
    (not_queued (x := (d, 1)) h.no_queue (by simp [pollForm]) n).2
  have ho := State.writeRun_onlyWave (d := d) (n := 1)
    (fun lane _ => if pollMet p s1 c (c.operands [(d, 1), (a, 2)]) (rs ++ hs) lane then 1 else 0) hw
    (fun i hi => by rw [Nat.lt_one_iff.mp hi]; exact hq)
  obtain ⟨reg, hreg⟩ := c.w.writeSlots_sound c.dests (fun lane _ =>
    if pollMet p s1 c (c.operands [(d, 1), (a, 2)]) (rs ++ hs) (c.giver lane) then 1 else 0)
    (c.w.runEntries d.toNat (List.range 1)) h.sound.2 h.sound.1
  have hbody := pollBody_now (p := p) (sc := sc) (d := d) hh hg hhere (hl.imp_right And.left)
  have hpolled : c.polled d (pollMet p s1 c (c.operands [(d, 1), (a, 2)]) (rs ++ hs)) = { c.w with regs := reg } := hreg
  by_cases hd : c.l.dqm = true
  · rw [if_pos hd] at hbody
    obtain ⟨t, w', he, hot, hr⟩ := issue_clear_poll (body := pollBody p sc d) (f := pollForm d a g u) h ho
      (by rw [hreg]) (by rw [hreg]) hbody
    exact ⟨_, t, w', c.polled d (pollMet p s1 c (c.operands [(d, 1), (a, 2)]) (rs ++ hs)) |>.acq, hv, he, hot, hr⟩
  · rw [if_neg hd, Ctx.acquired, if_neg h.some_lane] at hbody
    obtain ⟨-, hn⟩ := hl.resolve_left hd
    have hacq := State.acquire_onlyWave (sc := sc) ho.wave (hn.published (fun e he => by
      rw [← hv.waves]
      exact State.mem_writeRun_waves hq he) _ sc)
    obtain ⟨t, w', he, hot, hr⟩ := issue_clear_poll (body := pollBody p sc d) (f := pollForm d a g u) h
      (ho.trans hacq) (by rw [hreg]) (by rw [hreg]) hbody
    exact ⟨_, t, w', _, hv, he, hot, hr⟩

end poll

theorem opLane_all {ops : List (List LaneVec)} {lanes : List Nat} :
    (lanes.all fun lane => opLane ops 0 lane == 1) = true ↔ ∀ lane ∈ lanes, opLane ops 0 lane = 1 := by
  simp [List.all_eq_true]

/-- What a lane of the destination of a poll holds: the outcome of the lane that gives its value. -/
theorem Ctx.slotLane_polled (c : Ctx) {d : Reg} (met : Nat → Bool) {k lane : Nat} (hl : lane < 64)
    (hk : c.w.slotOf d.toNat = .phys k) (hd : c.dests.getLsbD lane = true) :
    (c.polled d met).slotLane k lane = if met (c.giver lane) then 1 else 0 :=
  Wave.slotLane_writeRun (n := 1) (j := 0) (fun lane _ => if met lane then 1 else 0) (by decide) (by decide) hk hl hd

/-- Settles O28: a poll retires in one of two ways, by its own comparison or by the outcomes its parts have left, and
changes, but for caches, its wave alone. -/
theorem pollCompares : Obligations.PollCompares := by
  unfold Obligations.PollCompares
  intro p sc d a g u s s1 c rs hs ops h
  refine ⟨fun id hid => ⟨poll_waits h hid, fun hdone hn => ?_⟩, fun hnone hg hhere hl => ?_⟩
  · obtain ⟨t, w', he, ho, hr⟩ := poll_retires (p := p) (sc := sc) h hid hdone hn
    exact ⟨t, w', he, ho, hr.retired, hr.holdOn, hr.book, fun hall => hr.met (opLane_all.mpr hall),
      fun hall => hr.failed (Bool.eq_false_iff.mpr (mt opLane_all.mp hall))⟩
  · intro got met
    obtain ⟨v, t, w', acq, hv, he, ho, hr⟩ := poll_now (p := p) (sc := sc) h hnone hg hhere hl
    have hmet (lane : Nat) : pollMet p s1 c ops (rs ++ hs) lane = true ↔ met lane := by
      rw [pollMet, Bool.and_eq_true, decide_eq_true_eq]
    have hall : c.lanes.all (pollMet p s1 c ops (rs ++ hs)) = true ↔ ∀ lane ∈ c.lanes, met lane := by
      rw [List.all_eq_true]
      exact forall₂_congr fun lane _ => hmet lane
    have hlane (k lane : Nat) : w'.slotLane k lane = (c.polled d (pollMet p s1 c ops (rs ++ hs))).slotLane k lane := by
      rw [Wave.slotLane, Wave.slotVec, hr.regs]
      rfl
    refine ⟨t, w', he, ho.wave, hr.retired, (congrArg State.mem ho.rest).trans hv.mem,
      (congrArg State.blocks ho.rest).trans hv.blocks, fun k lane hlt hk hd => ?_, fun h' => hr.met (hall.mpr h'),
      fun h' => ?_⟩
    · rw [hlane, c.slotLane_polled _ hlt hk hd, ← hmet]
      exact ⟨fun h => if_pos h, fun h => if_neg h⟩
    · have hf := hr.failed (Bool.eq_false_iff.mpr (mt hall.mp h'))
      obtain ⟨reg, hreg⟩ := c.w.writeSlots_sound c.dests (fun lane _ =>
        if pollMet p s1 c ops (rs ++ hs) (c.giver lane) then 1 else 0) (c.w.runEntries d.toNat (List.range 1))
        h.sound.2 h.sound.1
      rw [Ctx.polled, hreg, hv.now, ← (State.gate_go_fetchOf c hg).now] at hf
      exact hf

end Sys2Proof.Machine
end

section
namespace Sys2Proof.Machine
open Sys2Proof

/-! ## An access of one part is performed (R173 to R175, R179) -/

theorem getLsbD_maskOfNat_pow (lane : Nat) (h : lane < 64) : (maskOfNat (2 ^ lane)).getLsbD lane = true := by
  rw [maskOfNat, BitVec.getLsbD_ofNat, Nat.testBit_two_pow_self, Bool.and_true, decide_eq_true h]

/-- An access of which one part is left is performed once that part is, and nothing of it is left. -/
theorem State.perform_only {s : State} {key : Nat} {w : Wave} {a : Access} {p : Part} {id : Nat}
    (hw : s.waves.get? key = some w) (ha : w.outst.find? (fun x => decide (x.id = id)) = some a) (hp : a.parts = [p])
    (hl : p.lane < 64) : s.perform key id (maskOfNat (2 ^ p.lane)) =
      (s.performParts key w.core a [p]).partsDone key id [p] [] := by
  have hm := getLsbD_maskOfNat_pow p.lane hl
  have hdue : a.due (maskOfNat (2 ^ p.lane)) p = true := by
    unfold Access.due
    rw [hp, hm]
    simp
  unfold State.perform
  rw [hw]
  dsimp only
  rw [ha]
  dsimp only
  rw [hp, List.filter_cons_of_pos hdue, List.filter_cons_of_neg (by simp [hdue])]
  rfl

/-! ### Once no part is left -/

/-- The block of an access once no part of it is left. -/
def Block.afterAccess (b : Block) (key : Nat) (a : Access) (done : List Part) (v : Wave) : Block :=
  { b with snap := b.snap.map fun n => n.follow v.block key a done [] v, queues := a.pushInto v.index b.queues }

theorem State.partsDone_all {u : State} {key id : Nat} {v : Wave} {a : Access} (done : List Part)
    (hv : u.waves.get? key = some v) (ha : v.outst.find? (fun x => decide (x.id = id)) = some a) :
    u.partsDone key id done [] =
      (u.modBlock v.block fun b => b.afterAccess key a done v).modWave key fun w =>
        { w with outst := w.outst.filter fun x => decide (x.id ≠ id) } := by
  unfold State.partsDone
  rw [hv]
  dsimp only [Option.bind_some]
  rw [ha]
  rfl

/-- The access has ended in `t`: its wave, `v` in `u`, has it no longer, and what else has changed lies in its block. -/
structure State.Ended (u : State) (key id : Nat) (v : Wave) (a : Access) (done : List Part) (t : State) : Prop where
  wave : t.waves.get? key = some { v with outst := v.outst.filter fun x => decide (x.id ≠ id) }
  mem : t.mem = u.mem
  block : ∀ b, u.blocks.get? v.block = some b → t.blocks.get? v.block = some (b.afterAccess key a done v)
  others : ∀ k, k ≠ v.block → t.blocks.get? k = u.blocks.get? k

theorem State.partsDone_ended {u : State} {key id : Nat} {v : Wave} {a : Access} (done : List Part)
    (hv : u.waves.get? key = some v) (ha : v.outst.find? (fun x => decide (x.id = id)) = some a) :
    u.Ended key id v a done (u.partsDone key id done []) := by
  rw [State.partsDone_all done hv ha]
  exact ⟨KMap.get?_modify_self _ hv, rfl, fun b hb => KMap.get?_modify_self _ hb,
    fun k hk => KMap.get?_modify_ne _ _ hk⟩

/-- With no queue and no snapshot, the blocks are as they were. -/
theorem State.Ended.blocks {u t : State} {key id : Nat} {v : Wave} {a : Access} {done : List Part} {b : Block}
    (h : u.Ended key id v a done t) (hq : a.queue = none) (hb : u.blocks.get? v.block = some b) (hs : b.snap = none)
    (k : Nat) : t.blocks.get? k = u.blocks.get? k := by
  by_cases hk : k = v.block
  · subst hk
    have hsame : b.afterAccess key a done v = b := by
      rw [Block.afterAccess, Access.pushInto, hq, hs]
      cases b
      cases hs
      rfl
    rw [h.block b hb, hb, hsame]
  · exact h.others k hk

/-! ### What a part writes into registers -/

/-- Writes of registers, whatever errors the wave holds. -/
theorem Wave.writeSlots_frame (m : Mask) (v : Nat → Nat → Word) (xs : List (Nat × Nat)) (w : Wave) :
    ∃ r p q, w.writeSlots m v xs = { w with regs := r, poison := p, struck := q } := by
  induction xs generalizing w with
  | nil => exact ⟨w.regs, w.poison, w.struck, rfl⟩
  | cons x xs ih =>
    obtain ⟨r, p, q, h⟩ := ih (w.writeSlot x.1 m fun lane => v lane x.2)
    exact ⟨r, p, q, h⟩

/-- The lanes that a part writes. -/
def Access.takes (a : Access) (p : Part) (lane : Nat) : Prop :=
  if a.bcast = 0 then lane = p.lane else a.bcast.getLsbD lane = true

theorem Access.lanes_iff (a : Access) (p : Part) {lane : Nat} (hl : lane < 64) :
    (a.lanes p).getLsbD lane = true ↔ a.takes p lane := by
  unfold Access.lanes Access.takes
  by_cases h : a.bcast = 0
  · rw [if_pos h, if_pos h, getLsbD_maskOf _ hl, beq_iff_eq]
  · rw [if_neg h, if_neg h]

theorem Access.writeTo_eq (a : Access) (p : Part) (v : Nat → Word) (w : Wave) :
    a.writeTo p v w = w.writeSlots (a.lanes p) (fun _ j => v j) a.dest.zipIdx := rfl

theorem Access.writeTo_frame (a : Access) (p : Part) (v : Nat → Word) (w : Wave) :
    ∃ r x y, a.writeTo p v w = { w with regs := r, poison := x, struck := y } := w.writeSlots_frame _ _ _

/-- A register outside the destination, or a lane that the part does not write, keeps its word. -/
theorem Access.slotLane_writeTo_keep (a : Access) (p : Part) (v : Nat → Word) (w : Wave) {k lane : Nat} (hl : lane < 64)
    (h : k ∉ a.dest ∨ ¬ a.takes p lane) : (a.writeTo p v w).slotLane k lane = w.slotLane k lane := by
  rw [a.writeTo_eq]
  refine Wave.slotLane_writeSlots_keep _ _ _ _ hl ?_
  rcases h with h | h
  · right
    rintro ⟨k', j⟩ hx rfl
    exact h (List.fst_mem_of_mem_zipIdx hx)
  · exact .inl (by rw [← Bool.not_eq_true, a.lanes_iff p hl]; exact h)

/-- The register of each word of the destination takes it, in the lanes that the part writes. -/
theorem Access.slotLane_writeTo (a : Access) (p : Part) (v : Nat → Word) (w : Wave) (hn : a.dest.Nodup) {k j lane : Nat}
    (hl : lane < 64) (hk : a.dest[j]? = some k) (ht : a.takes p lane) :
    (a.writeTo p v w).slotLane k lane = v j := by
  rw [a.writeTo_eq]
  refine Wave.slotLane_writeSlots _ _ _ _ hl ((a.lanes_iff p hl).mpr ht) ⟨(k, j), ?_, rfl⟩ ?_
  · rw [List.mem_zipIdx_iff_getElem?]
    exact hk
  · rintro ⟨k', j'⟩ hx rfl
    rw [List.mem_zipIdx_iff_getElem?] at hx
    obtain ⟨hj, hx⟩ := List.getElem?_eq_some_iff.mp hx
    obtain ⟨hj', hk⟩ := List.getElem?_eq_some_iff.mp hk
    exact congrArg v ((List.Nodup.getElem_inj_iff hn).mp (hx.trans hk.symm))

end Sys2Proof.Machine
end

section
namespace Sys2Proof.Machine
open Sys2Proof

/-! ## A load's data returns (R173, R175, R216) -/

/-- What a part of a load reads, and the state it leaves. -/
def State.partRead (s : State) (core : Nat) (l : Launch) (w : Wave) (a : Access) (t : Target) : List Byte × State :=
  match a.sc, t with
  | some _, .here (.mem m) => (s.readLoc s.rawByte (.mem m) a.width, if m < 2 ^ 48 then s.allocate core (m / 64) else s)
  | some _, .here (.scr b off) => (s.readLoc s.rawByte (.scr b off) a.width, s)
  | _, _ => s.readFor l w s.seq t a.width []

theorem State.partRead_fetchOf (s : State) (core : Nat) (l : Launch) (w : Wave) (a : Access) (t : Target) :
    (s.partRead core l w a t).2.FetchOf s := by
  unfold State.partRead
  split
  · split
    · exact s.allocate_fetchOf _ _
    · exact .refl s
  · exact .refl s
  · exact s.readFor_fetchOf _ _ _ _ _ _

/-- The bytes are those of the home for an SC load (R180), else those the wave reads. -/
theorem State.partRead_bytes (s : State) (core : Nat) (l : Launch) (w : Wave) (a : Access) (t : Target) :
    (s.partRead core l w a t).1 = match a.sc, t with
      | some _, .here q => s.readLoc s.rawByte q a.width
      | _, _ => (s.readFor l w s.seq t a.width []).1 := by
  unfold State.partRead
  cases a.sc with
  | none => rfl
  | some k =>
    rcases t with (m | ⟨b, off⟩) | ⟨d, pa⟩
    · rfl
    · rfl
    · rfl

section stampPart
variable (s : State) (core : Nat) (a : Access) (p : Part)

/-- A stamp changes clocks and stamps alone. -/
theorem State.stampPart_frame : (s.stampPart core a p).waves = s.waves ∧ (s.stampPart core a p).blocks = s.blocks ∧
    (s.stampPart core a p).mem = s.mem := by
  unfold State.stampPart
  cases a.sc with
  | none => exact ⟨rfl, rfl, rfl⟩
  | some k =>
    rcases p.tgt with (m | ⟨b, off⟩) | ⟨d, pa⟩
    · exact ⟨rfl, rfl, rfl⟩
    · exact ⟨rfl, rfl, rfl⟩
    · exact ⟨rfl, rfl, rfl⟩

end stampPart

/-- The word of a part is kept with its access, for the queue. -/
def Access.keepWord (a : Access) (p : Part) (v : Word) (x : Access) : Access :=
  if x.id = a.id then { x with got := x.got ++ [(p.lane, v)] } else x

section keepWord
variable (a : Access) (p : Part) (v : Word)

theorem Access.keepWord_id (x : Access) : (a.keepWord p v x).id = x.id := by
  unfold Access.keepWord
  split <;> rfl

theorem Access.keepWord_self : a.keepWord p v a = { a with got := a.got ++ [(p.lane, v)] } := if_pos rfl

theorem Access.find?_keepWord {xs : List Access} {id : Nat} (h : xs.find? (fun x => decide (x.id = id)) = some a) :
    (xs.map (a.keepWord p v)).find? (fun x => decide (x.id = id)) = some (a.keepWord p v a) := by
  have hid : ((fun x : Access => decide (x.id = id)) ∘ a.keepWord p v) = fun x => decide (x.id = id) := by
    funext x
    rw [Function.comp_apply, a.keepWord_id]
  rw [List.find?_map, hid, h]
  rfl

/-- No other access keeps the word. -/
theorem Access.filter_keepWord (xs : List Access) :
    (xs.map (a.keepWord p v)).filter (fun x => decide (x.id ≠ a.id)) = xs.filter fun x => decide (x.id ≠ a.id) := by
  induction xs with
  | nil => rfl
  | cons x xs ih =>
    by_cases hx : x.id = a.id
    · rw [List.map_cons, List.filter_cons_of_neg (by rw [a.keepWord_id]; simp [hx]),
        List.filter_cons_of_neg (by simp [hx]), ih]
    · rw [List.map_cons, Access.keepWord, if_neg hx, List.filter_cons_of_pos (by simp [hx]),
        List.filter_cons_of_pos (by simp [hx]), ih]

end keepWord

section load
variable {s : State} {key : Nat} {w : Wave} {b : Block} {l : Launch} {a : Access} {p : Part}
  (hw : s.waves.get? key = some w) (hb : s.blocks.get? w.block = some b) (hl : s.launches.get? b.launch = some l)

/-- The words that a part of a load returns. -/
def State.partWords (s : State) (l : Launch) (w : Wave) (a : Access) (p : Part) : Nat → Word :=
  a.word p (s.partRead w.core l w a p.tgt).1

include hw hb hl

theorem State.returnPart_only : s.returnPart key w.core a p [p] =
    (((s.partRead w.core l w a p.tgt).2.writePart key a p (s.partWords l w a p)).stampPart w.core a p) := by
  unfold State.returnPart
  rw [hw]
  dsimp only
  rw [hb]
  dsimp only [Option.bind_some]
  rw [hl]
  dsimp only
  rw [List.filter_cons_of_pos (by simp)]
  rfl

/-- The words of a load are written into its wave, and no byte of memory and no block changes. -/
theorem State.performParts_load (hs : a.store = false) :
    (s.performParts key w.core a [p]).waves.get? key = some (if a.queue.isSome then
        { w with outst := w.outst.map (a.keepWord p (s.partWords l w a p 0)) }
      else a.writeTo p (s.partWords l w a p) w) ∧
      (s.performParts key w.core a [p]).mem = s.mem ∧ (s.performParts key w.core a [p]).blocks = s.blocks := by
  have hu := s.partRead_fetchOf w.core l w a p.tgt
  have hparts : s.performParts key w.core a [p] =
      ((s.partRead w.core l w a p.tgt).2.writePart key a p (s.partWords l w a p)).stampPart w.core a p := by
    rw [State.performParts, hs, if_neg Bool.false_ne_true]
    exact State.returnPart_only hw hb hl
  obtain ⟨hwaves, hblocks, hmem⟩ :=
    ((s.partRead w.core l w a p.tgt).2.writePart key a p (s.partWords l w a p)).stampPart_frame w.core a p
  rw [hparts, hwaves, hblocks, hmem]
  exact ⟨KMap.get?_modify_self _ ((congrArg (KMap.get? · key) hu.waves).trans hw), hu.mem, hu.blocks⟩

end load

section returned
variable {s : State} {w : Wave} {b : Block} {l : Launch} {a : Access} {p : Part}
  (hw : s.waves.get? s.subj.a = some w) (ha : w.outst.find? (fun x => decide (x.id = s.subj.b)) = some a)
include hw ha

theorem exec_loadDataReturn_only (hp : a.parts = [p]) (hlane : p.lane < 64) (hc : s.subj.c = 2 ^ p.lane)
    (hs : a.store = false) : exec .loadDataReturn s =
      .next ((s.performParts s.subj.a w.core a [p]).partsDone s.subj.a s.subj.b [p] []) := by
  show execLoadDataReturn s = _
  unfold execLoadDataReturn
  rw [hw]
  dsimp only [Option.bind_some]
  rw [ha]
  dsimp only
  rw [hs, if_neg Bool.false_ne_true, hc, State.perform_only hw ha hp hlane]

theorem exec_storeAcknowledgement_only (hp : a.parts = [p]) (hlane : p.lane < 64) (hc : s.subj.c = 2 ^ p.lane)
    (hs : a.store = true) : exec .storeAcknowledgement s =
      .next ((s.performParts s.subj.a w.core a [p]).partsDone s.subj.a s.subj.b [p] []) := by
  show execStoreAcknowledgement s = _
  unfold execStoreAcknowledgement
  rw [hw]
  dsimp only [Option.bind_some]
  rw [ha]
  dsimp only
  rw [hs, if_pos rfl, hc, State.perform_only hw ha hp hlane]

variable (hb : s.blocks.get? w.block = some b) (hl : s.launches.get? b.launch = some l)
include hb hl

/-- A load into registers ends. -/
theorem load_ends_registers (hp : a.parts = [p]) (hlane : p.lane < 64) (hc : s.subj.c = 2 ^ p.lane)
    (hs : a.store = false) (hq : a.queue = none) :
    ∃ u t : State, exec .loadDataReturn s = .next t ∧ u.mem = s.mem ∧ u.blocks = s.blocks ∧
      u.Ended s.subj.a s.subj.b (a.writeTo p (s.partWords l w a p) w) a [p] t := by
  obtain ⟨hwave, hmem, hblocks⟩ := State.performParts_load (p := p) hw hb hl hs
  rw [hq, if_neg (by simp)] at hwave
  obtain ⟨r, x, y, hf⟩ := a.writeTo_frame p (s.partWords l w a p) w
  exact ⟨_, _, exec_loadDataReturn_only hw ha hp hlane hc hs, hmem, hblocks,
    State.partsDone_ended [p] hwave (by rw [hf]; exact ha)⟩

/-- A load into a queue ends. -/
theorem load_ends_queue (hp : a.parts = [p]) (hlane : p.lane < 64) (hc : s.subj.c = 2 ^ p.lane)
    (hs : a.store = false) {n : Nat} (hq : a.queue = some n) :
    ∃ u t : State, exec .loadDataReturn s = .next t ∧ u.mem = s.mem ∧ u.blocks = s.blocks ∧
      u.Ended s.subj.a s.subj.b { w with outst := w.outst.map (a.keepWord p (s.partWords l w a p 0)) }
        (a.keepWord p (s.partWords l w a p 0) a) [p] t := by
  obtain ⟨hwave, hmem, hblocks⟩ := State.performParts_load (p := p) hw hb hl hs
  rw [hq, if_pos (by simp)] at hwave
  exact ⟨_, _, exec_loadDataReturn_only hw ha hp hlane hc hs, hmem, hblocks,
    State.partsDone_ended [p] hwave (a.find?_keepWord p _ ha)⟩

end returned

/-! ### Words that enter a queue (R31) -/

section sorted
variable {got : List (Nat × Word)} (hlt : ∀ y ∈ got, y.1 < 64) (hne : got.Pairwise fun y z => y.1 ≠ z.1)

/-- Words by lane, in ascending lane order. -/
def byLane (got : List (Nat × Word)) : List (Nat × Word) :=
  (lanesOf (maskOf fun i => got.any fun x => decide (x.1 = i))).filterMap fun i => got.find? fun x => decide (x.1 = i)

theorem mem_lanesOf {m : Mask} {i : Nat} : i ∈ lanesOf m ↔ i < 64 ∧ m.getLsbD i = true := by
  rw [lanesOf, List.mem_filter, List.mem_range]

theorem byLane_rises : (byLane got).Pairwise fun y z => y.1 < z.1 := by
  refine List.pairwise_filterMap.mpr (List.Pairwise.imp ?_ (List.pairwise_lt_range.filter _))
  intro i j hij y hy z hz
  have hyi : y.1 = i := by simpa using List.find?_some hy
  have hzj : z.1 = j := by simpa using List.find?_some hz
  omega

include hlt hne

theorem find?_lane {y : Nat × Word} (hy : y ∈ got) : (got.find? fun x => decide (x.1 = y.1)) = some y := by
  induction got with
  | nil => nomatch hy
  | cons z got ih =>
    obtain ⟨hz, hne⟩ := List.pairwise_cons.mp hne
    rcases List.mem_cons.mp hy with rfl | hy
    · exact List.find?_cons_of_pos (by simp)
    · rw [List.find?_cons_of_neg (by simpa using hz y hy)]
      exact ih (fun x hx => hlt x (List.mem_cons_of_mem _ hx)) hne hy

theorem mem_byLane {y : Nat × Word} : y ∈ byLane got ↔ y ∈ got := by
  rw [byLane, List.mem_filterMap]
  constructor
  · rintro ⟨i, -, hi⟩
    exact List.mem_of_find?_eq_some hi
  · intro hy
    refine ⟨y.1, mem_lanesOf.mpr ⟨hlt y hy, ?_⟩, find?_lane hlt hne hy⟩
    rw [getLsbD_maskOf _ (hlt y hy), List.any_eq_true]
    exact ⟨y, hy, by simp⟩

theorem byLane_perm : (byLane got).Perm got :=
  (List.perm_ext_iff_of_nodup (byLane_rises.imp fun h e => by simp [e] at h)
    (hne.imp fun h e => h (congrArg Prod.fst e))).mpr fun _ => mem_byLane hlt hne

end sorted

/-- The words of a load that has wholly returned enter its queue by lane. -/
theorem Access.pushInto_byLane {a : Access} {n : Nat} (hq : a.queue = some n) (index : Nat) (qs : KMap (List Word)) :
    (a.pushInto index qs).getD (4 * index + n) [] = qs.getD (4 * index + n) [] ++ (byLane a.got).map (·.2) := by
  rw [Access.pushInto, hq, byLane, List.map_filterMap]
  exact KMap.getD_set_self _ _ _ _

end Sys2Proof.Machine
end

section
namespace Sys2Proof.Machine
open Sys2Proof

/-! ## A store is acknowledged (R174, R179) -/

/-- What is kept of memory, waves and blocks. -/
structure State.Keeps (t s : State) : Prop where
  waves : t.waves = s.waves
  blocks : t.blocks = s.blocks
  mem : t.mem = s.mem

section keeps
variable (s : State)

theorem State.Keeps.trans {s t u : State} (h : t.Keeps s) (h' : u.Keeps t) : u.Keeps s :=
  ⟨h'.waves.trans h.waves, h'.blocks.trans h.blocks, h'.mem.trans h.mem⟩

theorem State.noteUnripe_keeps (by_ : Option Nat) (a n v : Nat) : (s.noteUnripe by_ a n v).Keeps s := by
  unfold State.noteUnripe
  split <;> exact ⟨rfl, rfl, rfl⟩

theorem State.updateCopy_keeps (core a : Nat) (bs : List Byte) : (s.updateCopy core a bs).Keeps s := by
  unfold State.updateCopy
  split <;> exact ⟨rfl, rfl, rfl⟩

theorem State.dropCopy_keeps (core a : Nat) : (s.dropCopy core a).Keeps s := by
  unfold State.dropCopy
  split <;> exact ⟨rfl, rfl, rfl⟩

theorem State.noteWrite_keeps (a v : Nat) : (s.noteWrite a v).Keeps s := by
  unfold State.noteWrite
  split <;> exact ⟨rfl, rfl, rfl⟩

end keeps

/-- Memory after the bytes of `n` from `q` on have taken those of the number `x`. -/
def State.Written (t s : State) (q n x : Nat) : Prop :=
  ∀ y, t.rawByte y = if q ≤ y ∧ y < q + n then BitVec.ofNat 8 (x / 256 ^ (y - q)) else s.rawByte y

theorem State.written_poke {s u : State} (hu : u.Keeps s) (hm : s.MemCanon) (by_ : Option Nat) (q n x : Nat) :
    (u.poke by_ q (natLe n x)).Written s q n x := by
  have hmu : u.MemCanon := by
    rw [State.MemCanon, hu.mem]
    exact hm
  intro y
  rw [State.rawByte_poke by_ q y _ hmu, length_natLe, State.rawByte_of_mem hu.mem]
  by_cases hy : q ≤ y ∧ y < q + n
  · rw [if_pos hy, if_pos hy, getD_natLe _ _ _ (by omega)]
  · rw [if_neg hy, if_neg hy]

theorem State.Written.keeps {s t u : State} {q n x : Nat} (h : t.Written s q n x) (hu : u.Keeps t) :
    u.Written s q n x := fun y => (State.rawByte_of_mem hu.mem y).trans (h y)

section applied
variable (s : State) (by_ : Option Nat) (core q : Nat)

/-- A store to memory performed at its home. -/
theorem State.applyStore_mem (hm : s.MemCanon) (n x : Nat) :
    (s.applyStore by_ core (.mem q) (natLe n x)).1 = s.completion q ∧
      (s.applyStore by_ core (.mem q) (natLe n x)).2.Written s q n x ∧
      (s.applyStore by_ core (.mem q) (natLe n x)).2.waves = s.waves ∧
      (s.applyStore by_ core (.mem q) (natLe n x)).2.blocks = s.blocks := by
  have hu := s.noteUnripe_keeps by_ q (natLe n x).length (s.completion q)
  have hk := (State.updateCopy_keeps ((s.noteUnripe by_ q (natLe n x).length (s.completion q)).poke by_ q (natLe n x))
    core q (natLe n x)).trans (State.noteWrite_keeps _ q (s.completion q))
  exact ⟨rfl, (State.written_poke hu hm by_ q n x).keeps hk, hk.waves.trans hu.waves, hk.blocks.trans hu.blocks⟩

/-- With no window over them, the bytes at a home are those of memory. -/
theorem State.readLoc_mem {n : Nat} (h : ∀ x, x < n → s.windowAt (q + x) = none) :
    s.readLoc s.rawByte (.mem q) n = bytesFrom s.rawByte q n := by
  refine List.map_congr_left fun i hi => ?_
  rw [State.byteVia, h i (List.mem_range.mp hi)]

/-- A read-modify-write of memory performed at its home. -/
theorem State.applyRmw_mem (hm : s.MemCanon) (op : Rmw) (v w : DWord)
    (hwin : ∀ x, x < op.width → s.windowAt (q + x) = none) :
    (s.applyRmw by_ core op (.mem q) v w).1 = leNat (bytesFrom s.rawByte q op.width) ∧
      (s.applyRmw by_ core op (.mem q) v w).2.1 = s.completion q ∧
      (match op.result (leNat (bytesFrom s.rawByte q op.width)) v w with
        | some y => (s.applyRmw by_ core op (.mem q) v w).2.2.Written s q op.width y
        | none => (s.applyRmw by_ core op (.mem q) v w).2.2.mem = s.mem) ∧
      (s.applyRmw by_ core op (.mem q) v w).2.2.waves = s.waves ∧
      (s.applyRmw by_ core op (.mem q) v w).2.2.blocks = s.blocks := by
  have hold := s.readLoc_mem q hwin
  unfold State.applyRmw
  rw [hold]
  dsimp only
  cases op.result (leNat (bytesFrom s.rawByte q op.width)) v w with
  | none =>
    have hk := (s.dropCopy_keeps core q).trans (State.noteWrite_keeps _ q (s.completion q))
    exact ⟨rfl, rfl, hk.mem, hk.waves, hk.blocks⟩
  | some y =>
    have hu := s.noteUnripe_keeps by_ q op.width (s.completion q)
    have hk := (State.dropCopy_keeps ((s.noteUnripe by_ q op.width (s.completion q)).poke by_ q (natLe op.width y))
      core q).trans (State.noteWrite_keeps _ q (s.completion q))
    exact ⟨rfl, rfl, (State.written_poke hu hm by_ q op.width y).keeps hk, hk.waves.trans hu.waves,
      hk.blocks.trans hu.blocks⟩

end applied

section acked
variable {s : State} {w : Wave} {a : Access} {p : Part} {q : Nat}
  (hw : s.waves.get? s.subj.a = some w) (ha : w.outst.find? (fun x => decide (x.id = s.subj.b)) = some a)
  (hp : a.parts = [p]) (hlane : p.lane < 64) (hc : s.subj.c = 2 ^ p.lane) (hs : a.store = true) (hm : s.MemCanon)
  (ht : p.tgt = .here (.mem q))
include hw ha hp hlane hc hs hm ht

/-- A store ends. -/
theorem store_ends (hr : a.rmw = none) :
    ∃ u t : State, exec .storeAcknowledgement s = .next t ∧ u.Written s q a.width p.data ∧
      u.Ended s.subj.a s.subj.b { w with horizon := max w.horizon (s.completion q + 1) } a [p] t := by
  obtain ⟨hv, hwr, hwaves, hblocks⟩ := s.applyStore_mem none w.core q hm a.width p.data
  have hpart : s.performParts s.subj.a w.core a [p] =
      ((s.applyStore none w.core (.mem q) (natLe a.width p.data)).2.modWave s.subj.a fun w =>
        { w with horizon := max w.horizon (s.completion q + 1) }).stampPart w.core a p := by
    rw [State.performParts, hs, if_pos rfl, List.foldl_cons, List.foldl_nil, State.ackPart, ht]
    dsimp only
    rw [hr]
    rfl
  obtain ⟨hkw, -, hkm⟩ := State.stampPart_frame
    ((s.applyStore none w.core (.mem q) (natLe a.width p.data)).2.modWave s.subj.a fun w =>
      { w with horizon := max w.horizon (s.completion q + 1) }) w.core a p
  refine ⟨_, _, exec_storeAcknowledgement_only hw ha hp hlane hc hs, ?_, State.partsDone_ended [p] ?_ ha⟩
  · intro y
    rw [hpart, State.rawByte_of_mem hkm]
    exact hwr y
  · rw [hpart, hkw]
    exact KMap.get?_modify_self _ ((congrArg (KMap.get? · s.subj.a) hwaves).trans hw)

/-- A read-modify-write ends. -/
theorem rmw_ends {op : Rmw} (hr : a.rmw = some op) (hq : a.queue = none)
    (hwin : ∀ x, x < op.width → s.windowAt (q + x) = none) :
    ∃ u t : State, exec .storeAcknowledgement s = .next t ∧
      (match op.result (leNat (bytesFrom s.rawByte q op.width)) (BitVec.ofNat 64 p.data) (BitVec.ofNat 64 p.data2) with
        | some y => u.Written s q op.width y
        | none => u.mem = s.mem) ∧
      u.Ended s.subj.a s.subj.b
        (a.writeTo p (fun k => BitVec.ofNat 32 (leNat (bytesFrom s.rawByte q op.width) / 2 ^ (32 * k)))
          { w with horizon := max w.horizon (s.completion q + 1) }) a [p] t := by
  obtain ⟨hold, hv, hwr, hwaves, hblocks⟩ :=
    s.applyRmw_mem none w.core q hm op (BitVec.ofNat 64 p.data) (BitVec.ofNat 64 p.data2) hwin
  have hpart : s.performParts s.subj.a w.core a [p] =
      ((s.applyRmw none w.core op (.mem q) (BitVec.ofNat 64 p.data) (BitVec.ofNat 64 p.data2)).2.2.modWave s.subj.a
        fun w => { w with horizon := max w.horizon (s.completion q + 1) }).writePart s.subj.a a p fun k =>
          BitVec.ofNat 32 (leNat (bytesFrom s.rawByte q op.width) / 2 ^ (32 * k)) := by
    rw [State.performParts, hs, if_pos rfl, List.foldl_cons, List.foldl_nil, State.ackPart, ht]
    dsimp only
    rw [hr]
    dsimp only
    rw [hold, hv]
  have hwave : (s.performParts s.subj.a w.core a [p]).waves.get? s.subj.a = some
      (a.writeTo p (fun k => BitVec.ofNat 32 (leNat (bytesFrom s.rawByte q op.width) / 2 ^ (32 * k)))
        { w with horizon := max w.horizon (s.completion q + 1) }) := by
    have hget := KMap.get?_modify_self
      (fun w => a.writeTo p (fun k => BitVec.ofNat 32 (leNat (bytesFrom s.rawByte q op.width) / 2 ^ (32 * k))) w)
      (KMap.get?_modify_self (fun w : Wave => { w with horizon := max w.horizon (s.completion q + 1) }) hw)
    rw [hpart, State.writePart, hq]
    simp only [State.modWave, hwaves]
    exact hget
  have hmem : (s.performParts s.subj.a w.core a [p]).mem =
      (s.applyRmw none w.core op (.mem q) (BitVec.ofNat 64 p.data) (BitVec.ofNat 64 p.data2)).2.2.mem := by
    rw [hpart]
    rfl
  obtain ⟨r, x, y, hf⟩ := a.writeTo_frame p
    (fun k => BitVec.ofNat 32 (leNat (bytesFrom s.rawByte q op.width) / 2 ^ (32 * k)))
    { w with horizon := max w.horizon (s.completion q + 1) }
  refine ⟨_, _, exec_storeAcknowledgement_only hw ha hp hlane hc hs, ?_,
    State.partsDone_ended [p] hwave (by rw [hf]; exact ha)⟩
  cases hres : op.result (leNat (bytesFrom s.rawByte q op.width)) (BitVec.ofNat 64 p.data)
    (BitVec.ofNat 64 p.data2) with
  | none =>
    rw [hres] at hwr
    exact hmem.trans hwr
  | some y =>
    rw [hres] at hwr
    exact fun z => (State.rawByte_of_mem hmem z).trans (hwr z)

end acked

end Sys2Proof.Machine
end

section
namespace Sys2Proof.Machine
open Sys2Proof

/-! ## Leases, walks and timers (R28, R29, R157, R159) -/

/-! ### A copy whose lease has ended -/

/-- A copy in L1 whose lease has ended is dropped. -/
theorem exec_l1LeaseEnd_due {s : State} (hs : s.TablesRise) (hl : KMap.wf (s.core s.subj.a).l1 = true) {k : Line}
    (hk : (s.core s.subj.a).l1.get? s.subj.b = some k) (hd : k.lease ≤ s.now) :
    ∃ t, exec .l1LeaseEnd s = .next t ∧ (t.core s.subj.a).l1.get? s.subj.b = none ∧ { t with cores := s.cores } = s ∧
      ∀ j, j ≠ s.subj.b → (t.core s.subj.a).l1.get? j = (s.core s.subj.a).l1.get? j := by
  have he : exec .l1LeaseEnd s =
      .next (s.modCore s.subj.a fun c => { c with l1 := c.l1.erase s.subj.b }) := by
    show execL1LeaseEnd s = _
    unfold execL1LeaseEnd
    rw [hk]
    dsimp only
    rw [if_pos hd]
  have hcore : ((s.modCore s.subj.a fun c => { c with l1 := c.l1.erase s.subj.b }).core s.subj.a).l1 =
      (s.core s.subj.a).l1.erase s.subj.b := by
    rw [State.core_modCore _ _ _ hs.1, if_pos rfl]
  refine ⟨_, he, ?_, rfl, fun j hj => ?_⟩
  · rw [hcore, KMap.get?_erase hl, if_pos rfl]
  · rw [hcore, KMap.get?_erase hl, if_neg hj]

/-! ### Translations that a walk gives (R159) -/

theorem mem_cacheIn (cap pick : Nat) (x : Xlate) (xs : List Xlate) : x ∈ cacheIn cap pick x xs := by
  unfold cacheIn
  split
  · next h => simpa using h
  · split <;> exact List.mem_cons_self

/-- What filling TLBs keeps: waves, walks, memory, and the jobs and tile operations of every core. -/
structure State.FillsTlbs (t s : State) : Prop where
  waves : t.waves = s.waves
  walks : t.walks = s.walks
  mem : t.mem = s.mem
  rise : KMap.wf t.cores = true
  jobs : ∀ c, (t.core c).jobs = (s.core c).jobs
  ops : ∀ c, (t.core c).ops = (s.core c).ops

section fillTlb
variable {s : State} (hs : KMap.wf s.cores = true)
include hs

theorem State.core_fillTlb (core : Nat) (x : Xlate) (c : Nat) : (s.fillTlb core x).core c =
    if c = core then { s.core core with tlb := cacheIn 256 s.pick x (s.core core).tlb } else s.core c :=
  State.core_modCore core c (fun k => { k with tlb := cacheIn 256 s.pick x k.tlb }) hs

theorem State.fillTlb_fillsTlbs (core : Nat) (x : Xlate) : (s.fillTlb core x).FillsTlbs s where
  waves := rfl
  walks := rfl
  mem := rfl
  rise := KMap.wf_put _ _ hs
  jobs c := by
    rw [State.core_fillTlb hs]
    by_cases hc : c = core
    · rw [if_pos hc, hc]
    · rw [if_neg hc]
  ops c := by
    rw [State.core_fillTlb hs]
    by_cases hc : c = core
    · rw [if_pos hc, hc]
    · rw [if_neg hc]

/-- The core that is filled holds the translation, and so does every core that held it. -/
theorem State.mem_fillTlb {core c : Nat} {x : Xlate} (h : c = core ∨ x ∈ (s.core c).tlb) :
    x ∈ ((s.fillTlb core x).core c).tlb := by
  rw [State.core_fillTlb hs]
  by_cases hc : c = core
  · rw [if_pos hc]
    exact mem_cacheIn _ _ _ _
  · rw [if_neg hc]
    exact h.resolve_left hc

end fillTlb

theorem State.foldl_fillTlb (x : Xlate) (cs : List Nat) {s : State} (hs : KMap.wf s.cores = true) :
    (cs.foldl (fun t c => t.fillTlb c x) s).FillsTlbs s ∧
      ∀ c, c ∈ cs ∨ x ∈ (s.core c).tlb → x ∈ ((cs.foldl (fun t c => t.fillTlb c x) s).core c).tlb := by
  induction cs generalizing s with
  | nil => exact ⟨⟨rfl, rfl, rfl, hs, fun _ => rfl, fun _ => rfl⟩, fun c h => h.resolve_left (by simp)⟩
  | cons d cs ih =>
    have hd := State.fillTlb_fillsTlbs hs d x
    obtain ⟨hf, hx⟩ := ih hd.rise
    refine ⟨⟨hf.waves.trans hd.waves, hf.walks.trans hd.walks, hf.mem.trans hd.mem, hf.rise,
      fun c => (hf.jobs c).trans (hd.jobs c), fun c => (hf.ops c).trans (hd.ops c)⟩, fun c h => hx c ?_⟩
    rcases h with h | h
    · rcases List.mem_cons.mp h with rfl | h
      · exact .inr (State.mem_fillTlb hs (.inl rfl))
      · exact .inl h
    · exact .inr (State.mem_fillTlb hs (.inr h))

/-! ### Who waits for a walk -/

theorem walkEnds_fst (key : Nat) (out : Option Nat) (walking : List Nat) (outs : List (Nat × Nat)) :
    (walkEnds key out walking outs).1 = walking.filter fun k => decide (k ≠ key) := rfl

theorem walkEnds_of_not_mem {key : Nat} (out : Option Nat) {walking : List Nat} (outs : List (Nat × Nat))
    (h : key ∉ walking) : walkEnds key out walking outs = (walking, outs) := by
  have hf : (walking.filter fun k => decide (k ≠ key)) = walking :=
    List.filter_eq_self.mpr fun k hk => decide_eq_true fun e => h (e ▸ hk)
  unfold walkEnds
  rw [if_neg (by simpa using h), hf]

theorem walkEnds_snd {key : Nat} (out : Option Nat) {walking : List Nat} (outs : List (Nat × Nat))
    (h : key ∈ walking) : (walkEnds key out walking outs).2 = outs ++ (out.map fun c => (key, c)).toList := by
  unfold walkEnds
  rw [if_pos (by simpa using h)]

section wake
variable (s : State) (key : Nat) (out : Option Nat)

/-- A core once a walk has ended. -/
def Core.woken (c : Core) (key : Nat) (out : Option Nat) : Core :=
  { c with
    jobs := c.jobs.map fun j => { j with
      walking := (walkEnds key out j.walking j.walkOut).1, walkOut := (walkEnds key out j.walking j.walkOut).2 }
    ops := c.ops.map fun o => { o with
      walking := (walkEnds key out o.walking o.walkOut).1, walkOut := (walkEnds key out o.walking o.walkOut).2 } }

theorem State.core_wake (c : Nat) : (s.wake key out).core c = (s.core c).woken key out :=
  State.core_map (s := s) (t := s.wake key out) (f := fun k => k.woken key out) rfl rfl c

/-- The jobs and tile operations that joined the walk wait no longer. -/
theorem State.wake_engines (c : Nat) :
    ((s.wake key out).core c).jobs.map (fun j => (j.id, j.walking)) =
      (s.core c).jobs.map (fun j => (j.id, j.walking.filter fun k => decide (k ≠ key))) ∧
    ((s.wake key out).core c).ops.map (fun o => (o.id, o.walking)) =
      (s.core c).ops.map (fun o => (o.id, o.walking.filter fun k => decide (k ≠ key))) := by
  rw [State.core_wake]
  exact ⟨List.map_map, List.map_map⟩

/-- A wave once a walk has ended. -/
def Wave.woken (v : Wave) : Wave :=
  { v with walking := (walkEnds key out v.walking v.walkOut).1, walkOut := (walkEnds key out v.walking v.walkOut).2 }

theorem State.wake_waves {j : Nat} {v : Wave} (h : s.waves.get? j = some v) :
    (s.wake key out).waves.get? j = some (v.woken key out) := by
  have hm := KMap.get?_map s.waves (fun v => v.woken key out) j
  rw [h] at hm
  exact hm

theorem Wave.woken_of_not_mem {v : Wave} (h : key ∉ v.walking) : v.woken key out = v := by
  rw [Wave.woken, walkEnds_of_not_mem out v.walkOut h]

theorem Wave.mem_woken_walking {v : Wave} {k : Nat} : k ∈ (v.woken key out).walking ↔ k ∈ v.walking ∧ k ≠ key := by
  rw [Wave.woken, walkEnds_fst, List.mem_filter, decide_eq_true_eq]

end wake

/-! ### A walk ends (R157) -/

/-- The fault a walk ends with, if any. -/
def walkFault : Walked → Option Nat
  | .absent => some 0x13
  | .malformed => some 0x14
  | .leaf _ => none

theorem exec_pageWalk_none {s : State} (h : ∀ k ∈ s.walks.take 32, ¬ (k.asid = s.subj.a ∧ k.page = s.subj.b)) :
    exec .pageWalk s = .next s := by
  have hf : (s.walks.take 32).find? (fun k => k.at_ s.subj.a s.subj.b) = none := by
    refine List.find?_eq_none.mpr fun k hk => ?_
    rw [Walk.at_, Bool.and_eq_true, decide_eq_true_eq, decide_eq_true_eq]
    exact h k hk
  show execPageWalk s = _
  unfold execPageWalk
  dsimp only
  rw [hf]

/-- A walk that has a unit ends: translations are filled in where they are waited for, and who joined it goes on. -/
theorem exec_pageWalk_some {s : State} (hs : s.TablesRise) {w0 : Walk}
    (h : (s.walks.take 32).find? (fun k => k.at_ s.subj.a s.subj.b) = some w0) :
    ∃ u : State, exec .pageWalk s = .next (u.wake (walkKey s.subj.a (s.subj.b * 2 ^ 13))
        (walkFault (s.walk s.subj.a (s.asids.getD s.subj.a 0) (s.subj.b * 2 ^ 13)))) ∧
      u.FillsTlbs { s with walks := s.walks.filter fun x => !x.at_ s.subj.a s.subj.b } ∧
      ∀ x, s.walk s.subj.a (s.asids.getD s.subj.a 0) (s.subj.b * 2 ^ 13) = .leaf x →
        ∀ c ∈ w0.cores, x ∈ (u.core c).tlb := by
  have hrefl : State.FillsTlbs { s with walks := s.walks.filter fun x => !x.at_ s.subj.a s.subj.b }
      { s with walks := s.walks.filter fun x => !x.at_ s.subj.a s.subj.b } :=
    ⟨rfl, rfl, rfl, hs.1, fun _ => rfl, fun _ => rfl⟩
  show ∃ u, execPageWalk s = _ ∧ _
  unfold execPageWalk
  dsimp only
  rw [h]
  dsimp only
  cases s.walk s.subj.a (s.asids.getD s.subj.a 0) (s.subj.b * 2 ^ 13) with
  | absent => exact ⟨_, rfl, hrefl, nofun⟩
  | malformed => exact ⟨_, rfl, hrefl, nofun⟩
  | leaf x =>
    obtain ⟨hf, hx⟩ := State.foldl_fillTlb x w0.cores
      (s := { s with walks := s.walks.filter fun x => !x.at_ s.subj.a s.subj.b }) hs.1
    refine ⟨_, rfl, hf, fun y hy c hc => ?_⟩
    cases hy
    exact hx c (.inl hc)

/-! ### Timers -/

section timers
variable {s : State} {w : Wave} (hw : s.waves.get? s.subj.a = some w)
include hw

theorem exec_backoffExpiry_due {v : Nat} (hv : w.backoff = some v) (hd : v ≤ s.now) :
    ∃ t, exec .backoffExpiry s = .next t ∧ { t with waves := s.waves } = s ∧
      t.waves.get? s.subj.a = some { w with backoff := none, readyFrom := s.now } := by
  refine ⟨s.modWave s.subj.a fun w => { w with backoff := none, readyFrom := s.now }, ?_, rfl,
    KMap.get?_modify_self _ hw⟩
  show execBackoffExpiry s = _
  unfold execBackoffExpiry
  rw [hw]
  dsimp only [Option.bind_some]
  rw [hv]
  dsimp only
  rw [if_pos hd]

theorem exec_starvation_due (hm : s.mayIssue w = true) (hst : w.stalled = none) (hd : w.readyFrom + 112 ≤ s.now) :
    ∃ t, exec .starvation s = .next t ∧ { t with waves := s.waves } = s ∧
      t.waves.get? s.subj.a = some { w with starving := true } := by
  have he : exec .starvation s = .next (if !w.starving then s.modWave s.subj.a fun w => { w with starving := true }
      else s) := by
    show execStarvation s = _
    unfold execStarvation
    rw [hw]
    simp only [hm, hst, decide_eq_true hd, Option.isNone_none, Bool.true_and]
  refine ⟨_, he, ?_, ?_⟩
  · split <;> rfl
  · cases hs : w.starving with
    | false => exact KMap.get?_modify_self _ hw
    | true =>
      have hsame : { w with starving := true } = w := by
        rw [← hs]
      rw [hsame]
      exact hw

theorem exec_timerTrap_wave : exec .timerTrap s =
    .next (if s.ready w && s.trapsNow w then s.takeTimer s.subj.a else s) := by
  show execTimerTrap s = _
  unfold execTimerTrap
  rw [hw]

end timers

end Sys2Proof.Machine
end

section
namespace Sys2Proof.Machine
open Sys2Proof

/-! ## What an event leaves (R28, R29, R157, R173 to R175, R216, R380) -/

section ended
variable {u t : State} {key id : Nat} {w : Wave} {a : Access} {p : Part} {f : Nat → Word} {done : List Part}

/-- An access that writes registers has ended: what its wave is now. -/
theorem State.Ended.registers (h : u.Ended key id (a.writeTo p f w) a done t) :
    ∃ w', t.waves.get? key = some w' ∧ w'.pc = w.pc ∧ w'.retired = w.retired ∧
      w'.outst = w.outst.filter (fun x => decide (x.id ≠ id)) ∧ w'.horizon = w.horizon ∧
      (∀ k lane, lane < 64 → k ∉ a.dest ∨ ¬ a.takes p lane → w'.slotLane k lane = w.slotLane k lane) ∧
      (a.dest.Nodup → ∀ k j lane, lane < 64 → a.dest[j]? = some k → a.takes p lane → w'.slotLane k lane = f j) := by
  obtain ⟨r, x, y, hf⟩ := a.writeTo_frame p f w
  exact ⟨_, h.wave, by rw [hf], by rw [hf], by rw [hf], by rw [hf],
    fun k lane hl hk => a.slotLane_writeTo_keep p f w hl hk,
    fun hn k j lane hl hk ht => a.slotLane_writeTo p f w hn hl hk ht⟩

end ended

/-- The words that a part returns: those loaded, or of a `poll` the outcomes of its comparison. -/
theorem State.partWords_eq (s : State) (l : Launch) (w : Wave) (a : Access) (p : Part) (j : Nat) :
    s.partWords l w a p j = match a.poll with
      | none => loadedWord a.width a.signed (s.partRead w.core l w a p.tgt).1 j
      | some q => if pollHolds q (loadedWord a.width a.signed (s.partRead w.core l w a p.tgt).1 j)
          (BitVec.ofNat 32 p.data) then 1 else 0 := by
  unfold State.partWords Access.word
  cases a.poll <;> rfl

/-- Settles O36: an access of which one part is left ends with that part; leases, walks and timers each do the one
thing their event says. -/
theorem accessesAndTimers : Obligations.AccessesAndTimers := by
  unfold Obligations.AccessesAndTimers
  intro s
  refine ⟨fun w b l a p hw hb hl ha hp hlane hc => ?_, fun hs hwf k hk hd => exec_l1LeaseEnd_due hs hwf hk hd,
    exec_pageWalk_none, fun hs w0 h0 => ?_, fun w hw => ⟨fun v hv hd => exec_backoffExpiry_due hw hv hd,
      exec_starvation_due hw, exec_timerTrap_wave hw⟩⟩
  · intro takes gone x
    have hid : a.id = s.subj.b := by simpa using List.find?_some ha
    have hx (j : Nat) : loadedWord a.width a.signed (s.partRead w.core l w a p.tgt).1 j = x j :=
      congrArg (loadedWord a.width a.signed · j) (s.partRead_bytes w.core l w a p.tgt)
    refine ⟨fun hs hq hn => ?_, fun hs hpoll n hq _ hgot hpair => ?_, fun hs hm q ht => ⟨fun hr => ?_,
      fun op hr hq hn hwin => ?_⟩⟩
    · obtain ⟨u, t, he, hmem, hblocks, h⟩ := load_ends_registers hw ha hb hl hp hlane hc hs hq
      obtain ⟨w', hw', hpc, hret, hout, -, hkeep, hwords⟩ := h.registers
      have hblock : (a.writeTo p (s.partWords l w a p) w).block = w.block := by
        obtain ⟨r, x, y, hf⟩ := a.writeTo_frame p (s.partWords l w a p) w
        rw [hf]
      refine ⟨t, w', he, ⟨hw', hpc, hret, by rw [hid]; exact hout, hkeep⟩, h.mem.trans hmem, fun hsnap k => ?_,
        fun k j lane hlt hk htk => ?_⟩
      · exact (h.blocks hq (by rw [hblock, hblocks]; exact hb) hsnap k).trans (by rw [hblocks])
      · have hval := (hwords hn k j lane hlt hk htk).trans (s.partWords_eq l w a p j)
        rw [hx] at hval
        exact hval
    · obtain ⟨u, t, he, hmem, hblocks, h⟩ := load_ends_queue hw ha hb hl hp hlane hc hs hq
      have hword : s.partWords l w a p 0 = x 0 := by
        rw [s.partWords_eq, hpoll]
        exact hx 0
      have hgot' : (a.keepWord p (s.partWords l w a p 0) a).got = a.got ++ [(p.lane, x 0)] := by
        rw [a.keepWord_self, hword]
      have hlt : ∀ y ∈ a.got ++ [(p.lane, x 0)], y.1 < 64 := by
        intro y hy
        rcases List.mem_append.mp hy with hy | hy
        · exact (hgot y hy).1
        · rw [List.mem_singleton.mp hy]
          exact hlane
      have hne : (a.got ++ [(p.lane, x 0)]).Pairwise fun y z => y.1 ≠ z.1 :=
        List.pairwise_append.mpr ⟨hpair, List.pairwise_singleton _ _, fun y hy z hz => by
          rw [List.mem_singleton.mp hz]
          exact (hgot y hy).2⟩
      have hqueue : (a.keepWord p (s.partWords l w a p 0) a).queue = some n := by
        rw [a.keepWord_self]
        exact hq
      refine ⟨t, _, _, _, he, h.mem.trans hmem, h.wave, ?_, rfl, h.block b (by rw [hblocks]; exact hb), ?_,
        byLane (a.got ++ [(p.lane, x 0)]), byLane_perm hlt hne, byLane_rises, rfl⟩
      · rw [← hid]
        exact a.filter_keepWord p _ w.outst
      · rw [← hgot']
        exact Access.pushInto_byLane hqueue w.index b.queues
    · obtain ⟨u, t, he, hwr, h⟩ := store_ends hw ha hp hlane hc hs hm ht hr
      refine ⟨t, _, he, ⟨h.wave, rfl, rfl, by rw [hid], fun _ _ _ _ => rfl⟩, rfl, ?_, fun y => ?_⟩
      · exact Nat.lt_of_succ_le (Nat.le_max_right _ _)
      · rw [State.rawByte_of_mem h.mem]
        exact hwr y
    · intro old
      obtain ⟨u, t, he, hwr, h⟩ := rmw_ends hw ha hp hlane hc hs hm ht hr hq hwin
      obtain ⟨w', hw', hpc, hret, hout, hhor, hkeep, hwords⟩ := h.registers
      refine ⟨t, w', he, ⟨hw', hpc, hret, by rw [hid]; exact hout, hkeep⟩, ?_, fun y => ?_, hwords hn⟩
      · rw [hhor]
        exact Nat.lt_of_succ_le (Nat.le_max_right _ _)
      · rw [State.rawByte_of_mem h.mem]
        cases hres : op.result old (BitVec.ofNat 64 p.data) (BitVec.ofNat 64 p.data2) with
        | none =>
          rw [hres] at hwr
          exact State.rawByte_of_mem hwr y
        | some z =>
          rw [hres] at hwr
          exact hwr y
  · intro key found
    obtain ⟨u, he, hu, hleaf⟩ := exec_pageWalk_some hs h0
    refine ⟨_, he, hu.mem, fun k hk => ?_, fun x hx c hc => ?_, fun c => ?_, fun j v hv => ?_⟩
    · rw [show (u.wake _ _).walks = u.walks from rfl, hu.walks, List.mem_filter] at hk
      rintro ⟨hasid, hpage⟩
      simp [Walk.at_, hasid, hpage] at hk
    · rw [State.tlb_wake]
      exact hleaf x hx c hc
    · obtain ⟨hjobs, hops⟩ := u.wake_engines key (walkFault found) c
      rw [hu.jobs] at hjobs
      rw [hu.ops] at hops
      exact ⟨hjobs, hops⟩
    · have hvu : u.waves.get? j = some v := (congrArg (KMap.get? · j) hu.waves).trans hv
      refine ⟨_, u.wake_waves key (walkFault found) hvu, v.woken_of_not_mem key _, fun hmem =>
        ⟨rfl, fun k => Wave.mem_woken_walking key _, (walkEnds_snd _ v.walkOut hmem).trans ?_⟩⟩
      cases found with
      | absent => rfl
      | malformed => rfl
      | leaf x => exact List.append_nil _

end Sys2Proof.Machine
end
